-- ==== Sys2Proof/Word.lean ====
section
/-!
DEFINITION. Sys2Proof/Word.lean: the words of the machine. A register is 32 bits wide (R97) and the byte is the unit
of every structure in memory (R6).
-/
namespace Sys2Proof

/-- A 32-bit register word (R97). -/
abbrev Word := BitVec 32

/-- One byte; byte 0 of a structure is its least significant (R6). -/
abbrev Byte := BitVec 8

end Sys2Proof
end

