-- ==== Sys2Proof/Machine/Operands.lean ====
section
/-!
DEFINITION. Sys2Proof/Machine/Operands.lean: the types of the commands' operands: masters, samples of pads and sensors, what a request is for, and what the messages of a pair carry.
-/
namespace Sys2Proof

/-- The masters that write registers (Table 4.5, MASTER): the host, the side-band, the clasp engine and the pair-apply
requester; and the JTAG port's DEBUG requester, which has the side-band's permissions (R446). -/
inductive Master where
  | host | sideband | claspEngine | pairApply | debug
  deriving DecidableEq, Repr

/-- One sample of a pad (Table 2.7): a decided level, or undecided between the thresholds (R44). -/
inductive PadSample where
  | low | high | undecided
  deriving DecidableEq, Repr

/-- What a request at an arbiter instance is for (Table 12.1): a 64-byte access of the DRAM at a data offset, with the lane, codec ring
or bar that it serves; a batch of register accesses; the next AZD tile of a bar's queue; or the decode job of a CODEC ring. -/
inductive ReqWork where
  | access (addr : Nat) (write : Bool) (who : Nat)
  | batch (n : Nat)
  | tile
  | codec (k : Nat)
  deriving DecidableEq, Repr


/-- What one sensor site gives in a round (R343): its raw count, the temperature in 1/16 °C to which the OTP trim converts it, and whether the
count lies outside the range that the trim gives (R344). -/
structure SiteSample where
  raw : Nat
  temp : Int
  implausible : Bool
  deriving DecidableEq, Repr

namespace Machine

/-- One event record (Table 18.1), field by field. -/
structure Rec where
  time : Nat := 0
  line : Nat := 0
  bar : Nat := 0xFF
  flags : Nat := 0
  code : Nat := 0
  seq : Nat := 0
  addr : Nat := 0
  roleState : Nat := 0
  detail : List Byte := []
  deriving DecidableEq, Repr, Inhabited

/-- What a stamped lockstep action does at its stamp (R373): register, window, doorbell and clasp-command writes of one
master, a hand-over (R392), or the consumption of the START at the head of a JOB ring (R145), or a re-phase target (R238). -/
inductive PairAct where
  | writes (m : Master) (ws : List (Nat × Word))
  | handover
  | start (stream : Nat)
  | phase (trig bar target : Nat)
  deriving DecidableEq, Repr, Inhabited

/-- What a RESOLVE or TELEM message carries: the decisions of Table 16.3, each with its bar and effective line. -/
inductive Resolve where
  | claspLines (slot : Nat) (lines : List (Nat × Nat))
  | compareSkip (bar line k : Nat)
  | slotSwap (bar line : Nat)
  | historyEn (bar line : Nat) (on : Bool)
  | headState (bar line head state : Nat)
  | mlpRaise (bar line value : Nat)
  | headTemps (bar line : Nat) (temps : List Nat)
  | nchkMarks (bar line : Nat) (nozzles : List Nat)
  | densityLine (bar line : Nat)
  | nzcWrites (bar line : Nat) (ws : List (Nat × Word))
  | stopLine (bar line : Nat)
  | forcedCal (bar line k : Nat)
  | firstLine (stream bar line : Nat)
  deriving DecidableEq, Repr, Inhabited

/-- The key of a tile or line digest (R377, R378). -/
inductive DigKey where
  | tile (ring idx ord : Nat)
  | line (bar line : Nat)
  deriving DecidableEq, Repr, Inhabited

/-- A job of one JOB stream (R143 to R145, R451): its identity, bars and reference bar, the index of its START while that waits for the first line, the
indices of its END and STOP once consumed, whether it has had them, whether it has reached its first line, the last line and the last line fired on its
reference bar once that bar has ended, and whether a device-wide cause ended it. -/
structure Job where
  id : Nat := 0
  bars : Nat := 0
  ref : Nat := 0
  start : Option Nat := none
  endIdx : Option Nat := none
  stopIdx : Option Nat := none
  hadEnd : Bool := false
  hadStop : Bool := false
  started : Bool := false
  refLast : Nat := 0
  refFired : Nat := 0
  forced : Bool := false
  deriving DecidableEq, Repr, Inhabited

/-- One bar of a job: its stream, the consumption instant, the number of the bar's next boundary then, the position (64.32 web counts) of the first line if
POS_EN, the first line J once resolved with the print index it has, the end index, the position that is still to give it (or that it is still to be taken at
consumption), the line before which it stops, the last line placed and the last line fired, and the tail. -/
structure BarRun where
  stream : Nat := 0
  consumed : Nat := 0
  next0 : Nat := 0
  target : Option Nat := none
  first : Option Nat := none
  jAt : Nat := 0
  endAt : Option Nat := none
  endTarget : Option Nat := none
  /-- The first line that the bar does not print any more because its job was stopped (R31). -/
  stopAt : Option Nat := none
  lastLine : Option Nat := none
  lastFired : Option Nat := none
  tail : Nat := 0
  deriving DecidableEq, Repr, Inhabited

/-- The PRINT that is being placed: its descriptor, plane, height, repeats wanted and done, the next row and column to dispatch, the
first line of the pass and of the descriptor, and its tile errors (R164). -/
structure Print where
  idx : Nat := 0
  plane : Nat := 0
  height : Nat := 0
  count : Nat := 0
  done : Nat := 0
  row : Nat := 0
  col : Nat := 0
  passLx : Nat := 0
  firstLx : Nat := 0
  errs : Nat := 0
  deriving DecidableEq, Repr, Inhabited

/-- The position, line-clock, job and placement state that a locket moves at its stamp (Table 16.8, POSITION): the high-water mark, the registers that hold
counts, line numbers and compare positions, for each bar whether its clock has placed a boundary and the last boundary in 1/64 tick, the jobs and their
bars, and for each bar the next line to place, the line at which the job's content begins and the PRINT in placement. -/
structure LocketPos where
  hwm : Int := 0
  regs : List (Nat × Word) := []
  clks : List (Bool × Nat) := []
  jobs : List (Option Job) := []
  bars : List (Option BarRun) := []
  places : List (Nat × Nat × Option Print) := []
  deriving DecidableEq, Repr, Inhabited

/-- What a LOCKET message carries (Tables 16.2, 16.7 and 16.8): the start of a transfer, a phase change, registers and windows, bytes of the DRAM, the run
log of a plane (the index and the 32 bytes of each LOAD descriptor), the POSITION content with its stamp, a seal line, and the hand-over of a chunk. -/
inductive LocketPart where
  | start
  | phase (phase : Nat)
  | regs (ws : List (Nat × Word))
  | dram (off : Nat) (bytes : List Byte)
  | runs (bar plane : Nat) (pin : Bool) (descs : List (Nat × List Byte))
  | position (stamp : Int) (p : LocketPos)
  | seal (bar line : Nat)
  | chunk (bar c : Nat) (recs : List Byte) (ws : List (Nat × Word))
  deriving DecidableEq, Repr, Inhabited

/-- What a CONTROL message carries (Table 16.2, R420): a claim with ROLE_PREF and serial number, requests for a resync or a hand-over, a DIVERGED notice, the
abort of a locket with its cause, or an event record routed with PAIR. -/
inductive PairControl where
  | claim (pref : Bool) (serial : Nat)
  | resync
  | handover
  | diverged (key : DigKey)
  | locketAbort (gen cause : Nat)
  | record (r : Rec)
  deriving DecidableEq, Repr, Inhabited

/-- The start control block of a received pair frame (R370): its sequence number, HOLDING, and the sender's pair time at transmission. -/
structure PairHdr where
  seq : Nat := 0
  holding : Bool := false
  sent : Int := 0
  deriving DecidableEq, Repr, Inhabited

/-- A HEARTBEAT (Table 16.2): role, state and ELIGIBLE of the partner, its UNIT_ID, locket generation and phase, pair time and count of its last web-channel
edge, and from the timebase echo this unit's pair time minus the partner's in ticks and the one-way latency in ns (R371, R396). -/
structure Heartbeat where
  role : Nat := 0
  state : Nat := 0
  eligible : Bool := false
  unitId : Nat := 0
  gen : Nat := 0
  phase : Nat := 0
  edgeTime : Int := 0
  edgeCount : Int := 0
  offset : Int := 0
  latency : Nat := 0
  deriving DecidableEq, Repr, Inhabited

end Machine

/-! ### Operands of single commands -/

namespace Machine

/-- How a DMA read can end badly (R132). -/
inductive ReadError where
  | timeout | unsupported | completerAbort | poisoned
  deriving DecidableEq, Repr, Inhabited

/-- The outcome of training of one channel: attempts, RESULT of Table 13.7, the oscillator reference, and the trained write DQ delay. -/
structure ChannelTrained where
  attempts : Nat
  result : Nat
  oscRef : Nat
  wdq : Nat
  deriving DecidableEq, Repr, Inhabited

end Machine

end Sys2Proof
end

