-- ==== Sys2Proof/Syntax.lean ====
section
/-!
DEFINITION. Sys2Proof/Syntax.lean: the commands of the block, one constructor per row of the opcode table.
-/
namespace Sys2Proof

/-- The commands the block takes from outside, one per row of the opcode table, with the rule that governs each. -/
inductive Instr where
  /-- VAUX_POWER_ON (R72). -/
  | vauxPowerOn
  /-- VAUX_BROWN_OUT (R63). -/
  | vauxBrownOut
  /-- VIN_VALID (R28). -/
  | vinValid
  /-- VIN_BROWN_OUT (R64). -/
  | vinBrownOut
  /-- REGULATOR_FAULT (R66). -/
  | regulatorFault (rails : List Nat) (high : Bool)
  /-- REGULATOR_RESTART (R66). -/
  | regulatorRestart
  /-- REGULATOR_START_SUCCESS (R66). -/
  | regulatorStartSuccess
  /-- TRIM_LOAD_COMPLETE (R84). -/
  | trimLoadComplete (whole : Bool) (crc : Word) (straps : List (List PadSample))
  /-- RAILS_IN_REGULATION (R65). -/
  | railsInRegulation
  /-- ISLAND_CLOCK_QUALIFIED (R68). -/
  | islandClockQualified (island : Nat) (refclk : Bool)
  /-- DRAM_TRAINING_COMPLETE (R330). -/
  | dramTrainingComplete (results : List Machine.ChannelTrained)
  /-- RESET_N (R72). -/
  | resetN
  /-- PERST_N_ASSERT (R73). -/
  | perstNAssert
  /-- PERST_N_DEASSERT (R82). -/
  | perstNDeassert
  /-- CLOCK_FAILURE (R69). -/
  | clockFailure (islands : List (Nat × Int))
  /-- AUX_OSCILLATOR_FAILURE (R69). -/
  | auxOscillatorFailure (err : Int)
  /-- FABRIC_LOCK_UP (R72). -/
  | fabricLockUp (island : Nat) (reads : Nat)
  /-- TRIM_INVALID (R84). -/
  | trimInvalid
  /-- DEVTIME_SAVE (R71). -/
  | devtimeSave (t : Nat)
  /-- SWRST_CORE (R72). -/
  | swrstCore (m : Master)
  /-- SWRST_CORE_MEM (R72). -/
  | swrstCoreMem (m : Master)
  /-- SWRST_ALL (R80). -/
  | swrstAll (m : Master)
  /-- BOOT_CONTINUE (R83). -/
  | bootContinue (m : Master)
  /-- ISL_HOLD_SET (R88). -/
  | islHoldSet (m : Master) (island : Nat)
  /-- ISL_HOLD_CLEAR (R88). -/
  | islHoldClear (m : Master) (island : Nat)
  /-- BLOCK_ENABLE (R86). -/
  | blockEnable (m : Master) (page : Nat) (block : Nat)
  /-- BLOCK_DISABLE (R86). -/
  | blockDisable (m : Master) (page : Nat) (block : Nat)
  /-- BLOCK_SRST (R86). -/
  | blockSrst (m : Master) (page : Nat) (block : Nat)
  /-- DRAIN_COMPLETE (R86). -/
  | drainComplete (page : Nat)
  /-- EVT_PEND_CLEAR (R93). -/
  | evtPendClear (m : Master) (page : Nat) (w : Word) (same : Word)
  /-- EVT_FORCE (R93). -/
  | evtForce (m : Master) (page : Nat) (w : Word)
  /-- REGISTER_WRITE (R101). -/
  | registerWrite (m : Master) (a : Nat) (bytes : List (Option Byte))
  /-- LO_HALF_READ (R8). -/
  | loHalfRead (m : Master) (a : Nat)
  /-- LO_HALF_WRITE (R8). -/
  | loHalfWrite (m : Master) (a : Nat) (w : Word)
  /-- HI_HALF_WRITE (R8). -/
  | hiHalfWrite (m : Master) (a : Nat) (w : Word)
  /-- POP_READ (R138). -/
  | popRead (m : Master) (n : Nat)
  /-- LAT_CNT_READ (R237). -/
  | latCntRead (m : Master) (t : Nat)
  /-- CMP_FRAC_READ (R243). -/
  | cmpFracRead (m : Master) (b : Nat)
  /-- LINE64_LO_READ (R429). -/
  | line64LoRead (m : Master) (b : Nat)
  /-- EVT_LOST_READ (R430). -/
  | evtLostRead (m : Master)
  /-- ARRAY_WINDOW_WRITE (R100). -/
  | arrayWindowWrite (m : Master) (a : Nat) (w : Word)
  /-- OUTPUT_ENABLE (R43). -/
  | outputEnable (m : Master) (pad : Nat)
  /-- OUTPUT_DISABLE (R47). -/
  | outputDisable (m : Master) (pad : Nat)
  /-- REST_FOLLOW_DONE (R44). -/
  | restFollowDone (pad : Nat) (samples : List (List PadSample))
  /-- CLASP_OPEN (R109). -/
  | claspOpen (m : Master) (k : Nat)
  /-- CLASP_DATA (R110). -/
  | claspData (m : Master) (k : Nat) (w : Word)
  /-- CLASP_COMMIT (R111). -/
  | claspCommit (m : Master) (k : Nat)
  /-- CLASP_ABORT (R109). -/
  | claspAbort (m : Master) (k : Nat)
  /-- CLASP_FREE (R109). -/
  | claspFree (m : Master) (k : Nat)
  /-- CLASP_COMMIT_POINT (R114). -/
  | claspCommitPoint (k : Nat)
  /-- CLASP_APPLY_COMPLETE (R114). -/
  | claspApplyComplete (k : Nat)
  /-- CLASP_BATCH_DESCRIPTOR (R119). -/
  | claspBatchDescriptor (r : Nat)
  /-- CLASP_LIST_FETCHED (R119). -/
  | claspListFetched (r : Nat) (data : List Byte)
  /-- PCIE_LINK_UP (R122). -/
  | pcieLinkUp (ready : Bool) (speed : Nat) (width : Nat)
  /-- HOT_RESET (R123). -/
  | hotReset
  /-- DATA_LINK_DOWN (R123). -/
  | dataLinkDown
  /-- SUBMISSION_DOORBELL (R136). -/
  | submissionDoorbell (n : Nat) (w : Word)
  /-- RECORD_RING_CONS_WRITE (R137). -/
  | recordRingConsWrite (n : Nat) (w : Word)
  /-- RING_ENABLE (R139). -/
  | ringEnable (n : Nat) (cfg : Word)
  /-- RING_DISABLE (R139). -/
  | ringDisable (n : Nat) (cfg : Word)
  /-- DESCRIPTOR_FETCHED (R136). -/
  | descriptorFetched (n : Nat) (bytes : List Byte)
  /-- DMA_READ_ERROR (R132). -/
  | dmaReadError (n : Nat) (cls : Nat) (err : Machine.ReadError)
  /-- COALESCE_TIMEOUT (R146). -/
  | coalesceTimeout (t : Nat) (n : Nat)
  /-- HELD_RECORD_FLUSH (R137). -/
  | heldRecordFlush (n : Nat)
  /-- WDT_KICK (R149). -/
  | wdtKick (w : Word)
  /-- WDT_WARN (R149). -/
  | wdtWarn (t : Nat)
  /-- WDT_EXPIRED (R149). -/
  | wdtExpired (t : Nat)
  /-- WDT_STOP (R151). -/
  | wdtStop (m : Master) (w : Word)
  /-- JOB_START (R145). -/
  | jobStart (k : Nat)
  /-- JOB_END (R144). -/
  | jobEnd (k : Nat)
  /-- JOB_STOP (R144). -/
  | jobStop (k : Nat)
  /-- TILE_LOAD (R162). -/
  | tileLoad (b : Nat)
  /-- TILE_STREAM (R163). -/
  | tileStream (b : Nat)
  /-- TILE_PRINT (R164). -/
  | tilePrint (b : Nat)
  /-- TILE_FREE (R165). -/
  | tileFree (b : Nat)
  /-- LOAD_READ_COMPLETE (R162). -/
  | loadReadComplete (b : Nat) (data : List Byte)
  /-- PRINT_PASS_END (R164). -/
  | printPassEnd (b : Nat)
  /-- PLANE_RELEASE_COMPLETE (R165). -/
  | planeReleaseComplete (b : Nat) (p : Nat)
  /-- TILE_DECODE_DONE (R176). -/
  | tileDecodeDone (lane : Nat)
  /-- TILE_COPY_DONE (R175). -/
  | tileCopyDone (b : Nat)
  /-- LANE_STALL_RESUME (R174). -/
  | laneStallResume (lane : Nat)
  /-- CODEC_ENCODE_TILE (R181). -/
  | codecEncodeTile (k : Nat) (host : List Byte) (ctx : List Byte)
  /-- CODEC_ENCODE_STREAM (R181). -/
  | codecEncodeStream (k : Nat) (host : List Byte) (ctx : List Byte)
  /-- CODEC_DECODE_TILE (R181). -/
  | codecDecodeTile (k : Nat) (host : List Byte) (ctx : List Byte)
  /-- CODEC_DECODE_STREAM (R181). -/
  | codecDecodeStream (k : Nat) (host : List Byte) (ctx : List Byte)
  /-- CODEC_RESUME (R183). -/
  | codecResume (k : Nat) (host : List Byte) (ctx : List Byte)
  /-- CODEC_DISCARD (R185). -/
  | codecDiscard (k : Nat) (host : List Byte) (ctx : List Byte)
  /-- CODEC_JOB_COMPLETE (R182). -/
  | codecJobComplete (k : Nat)
  /-- SCREENING_COMPLETE (R186). -/
  | screeningComplete (b : Nat)
  /-- MASK_CHECK (R195). -/
  | maskCheck (m : Master) (sets : Nat)
  /-- MASK_CHECK_DONE (R195). -/
  | maskCheckDone (k : Nat)
  /-- PASS_CMD (R217). -/
  | passCmd (m : Master) (bars : Nat)
  /-- DENSITY_REPORT (R221). -/
  | densityReport (b : Nat)
  /-- DENSITY_STAGED (R221). -/
  | densityStaged (b : Nat) (data : List Byte)
  /-- NZC_LOAD_DONE (R225). -/
  | nzcLoadDone
  /-- ENCODER_EDGE (R228). -/
  | encoderEdge (t : Nat) (n : Nat) (fwd : Bool) (mark : Bool)
  /-- SINCOS_SAMPLE (R229). -/
  | sincosSample (t : Nat) (n : Nat) (sin : Int) (cos : Int) (phase : Nat) (mark : Bool)
  /-- ZERO_TIMEOUT (R233). -/
  | zeroTimeout (t : Nat) (n : Nat)
  /-- DEAD_RECKONING_LIMIT (R230). -/
  | deadReckoningLimit (t : Nat) (n : Nat)
  /-- CH_FAULT_CLEAR (R230). -/
  | chFaultClear (m : Master) (n : Nat)
  /-- CH_CFG_WRITE (R247). -/
  | chCfgWrite (m : Master) (n : Nat) (w : Word)
  /-- TRIGGER_EDGE (R237). -/
  | triggerEdge (t : Nat) (k : Nat) (rising : Bool)
  /-- TRIGGER_LATCH_COMPLETE (R237). -/
  | triggerLatchComplete (t : Nat) (k : Nat)
  /-- LINE_LATCH_POINT (R241). -/
  | lineLatchPoint (t : Nat) (b : Nat)
  /-- LINE_COMMIT (R240). -/
  | lineCommit (t : Nat) (b : Nat)
  /-- LINE_BOUNDARY (R239). -/
  | lineBoundary (t : Nat) (b : Nat)
  /-- STROBE_WATCHDOG_CUT (R259). -/
  | strobeWatchdogCut (t : Nat) (nn : Nat)
  /-- STROBE_CUT_RELEASE (R259). -/
  | strobeCutRelease (m : Master) (b : Nat) (bits : Nat)
  /-- SLOT_BANK_SWAP (R255). -/
  | slotBankSwap (m : Master) (b : Nat)
  /-- HEAD_TEMP_MEASUREMENT (R264). -/
  | headTempMeasurement (b : Nat)
  /-- CAPTURE_ARM (R269). -/
  | captureArm (m : Master) (b : Nat) (w : Word)
  /-- LANE_ENABLE (R292). -/
  | laneEnable (m : Master) (b : Nat) (k : Nat)
  /-- LANE_DISABLE (R294). -/
  | laneDisable (m : Master) (b : Nat) (k : Nat)
  /-- TRS_RECEIVED (R292). -/
  | trsReceived (t : Nat) (nn : Nat) (step : Nat) (locked : Bool) (errs : Nat) (rx : Nat)
  /-- TRAINING_TIMEOUT (R292). -/
  | trainingTimeout (t : Nat) (nn : Nat)
  /-- ZL_ACK_RECEIVED (R283). -/
  | zlAckReceived (t : Nat) (nn : Nat) (typ : Nat) (k : Nat) (id : Nat) (status : Nat)
  /-- ZL_ACK_TIMEOUT (R283). -/
  | zlAckTimeout (t : Nat) (nn : Nat) (typ : Nat) (k : Nat) (id : Nat)
  /-- REPLAY_WINDOW_END (R284). -/
  | replayWindowEnd (t : Nat) (nn : Nat)
  /-- HEADER_DEADLINE (R285). -/
  | headerDeadline (t : Nat) (nn : Nat)
  /-- RETURN_LANE_SILENT (R293). -/
  | returnLaneSilent (t : Nat) (nn : Nat)
  /-- HEAD_TEMP_MSG (R290). -/
  | headTempMsg (t : Nat) (nn : Nat) (p : List Byte)
  /-- NCHK_MSG (R290). -/
  | nchkMsg (t : Nat) (nn : Nat) (p : List Byte)
  /-- HIB_STATUS_MSG (R290). -/
  | hibStatusMsg (t : Nat) (nn : Nat) (port : Nat) (p : List Byte)
  /-- RESPONSE_MSG (R290). -/
  | responseMsg (t : Nat) (nn : Nat) (p : List Byte)
  /-- HIB_EVENT_MSG (R291). -/
  | hibEventMsg (t : Nat) (nn : Nat) (typ : Nat) (p : List Byte)
  /-- SPARE_TAKE (R295). -/
  | spareTake (m : Master) (b : Nat)
  /-- SPARE_RELEASE (R295). -/
  | spareRelease (m : Master) (b : Nat)
  /-- ZL_HIB_WRITE (R298). -/
  | zlHibWrite (m : Master) (b : Nat) (lane : Nat) (len : Nat)
  /-- ZL_HIB_READ (R298). -/
  | zlHibRead (m : Master) (b : Nat) (lane : Nat) (len : Nat)
  /-- ZL_NCHK (R298). -/
  | zlNchk (m : Master) (b : Nat) (lane : Nat) (len : Nat)
  /-- ZL_HIB_SPECIFIC (R298). -/
  | zlHibSpecific (m : Master) (b : Nat) (lane : Nat) (op : Nat) (len : Nat)
  /-- TELEM_PER_WRITE (R297). -/
  | telemPerWrite (m : Master) (w : Word)
  /-- ARB_REQUEST (R299). -/
  | arbRequest (t : Nat) (inst : Nat) (r : Nat) (need : Nat) (panic : Bool) (work : ReqWork)
  /-- ARB_GRANT (R300). -/
  | arbGrant (t : Nat) (inst : Nat) (lane : Nat) (blocked : Nat)
  /-- ARB_PREEMPTION (R303). -/
  | arbPreemption (t : Nat) (inst : Nat) (need : Nat) (blocked : Nat)
  /-- ARB_HOLD_CUT (R304). -/
  | arbHoldCut (t : Nat) (inst : Nat) (r : Nat) (lane : Nat) (need : Nat)
  /-- ARB_STARVE (R305). -/
  | arbStarve (t : Nat) (inst : Nat) (r : Nat)
  /-- DRAM_ACCESS (R317). -/
  | dramAccess (t : Nat) (port : Nat) (ce : Nat) (ue : Nat) (victim : Nat)
  /-- REFRESH_DUE (R321). -/
  | refreshDue (bank : Nat)
  /-- MR4_POLL (R321). -/
  | mr4Poll (ch : Nat) (rate : Nat) (doubled : Bool)
  /-- RD_WINDOW_START (R324). -/
  | rdWindowStart
  /-- DRAM_INIT_DONE (R328). -/
  | dramInitDone
  /-- WDQ_WRITE (R335). -/
  | wdqWrite (m : Master) (ch : Nat) (w : Word)
  /-- CARAT_REQUEST (R337). -/
  | caratRequest (t : Nat) (c : Nat) (u : Nat)
  /-- CARAT_GRANT (R338). -/
  | caratGrant (t : Nat)
  /-- CARAT_RELEASE (R337). -/
  | caratRelease (c : Nat) (u : Nat)
  /-- LINGER_EXPIRY (R339). -/
  | lingerExpiry (t : Nat) (lane : Nat)
  /-- CARAT_STARVE (R338). -/
  | caratStarve (t : Nat) (c : Nat)
  /-- CARAT_RATE_WINDOW (R338). -/
  | caratRateWindow (t : Nat)
  /-- THERMAL_ROUND (R343). -/
  | thermalRound (sites : List SiteSample)
  /-- CAL_RUN_CMD (R353). -/
  | calRunCmd (m : Master) (inst : Nat) (units : Nat)
  /-- CAL_FORCE (R357). -/
  | calForce (m : Master) (inst : Nat) (units : Nat)
  /-- CAL_CANCEL (R363). -/
  | calCancel (m : Master) (inst : Nat) (units : Nat)
  /-- CAL_UNIT_START (R356). -/
  | calUnitStart (t : Nat) (inst : Nat) (u : Nat)
  /-- ADC_FIT_DONE (R354). -/
  | adcFitDone (t : Nat) (c : Nat)
  /-- CAL_UNIT_COMPLETE (R359). -/
  | calUnitComplete (t : Nat) (inst : Nat) (u : Nat) (ok : Bool) (values : List Word)
  /-- CAL_OVERDUE (R355). -/
  | calOverdue (t : Nat) (inst : Nat) (u : Nat)
  /-- CAL_RESULT_WRITE (R361). -/
  | calResultWrite (m : Master) (a : Nat) (w : Word)
  /-- PAR_CLAIM (R368). -/
  | parClaim (t : Nat) (m : Option Master)
  /-- CLAIM_COLLISION_CHECK (R368). -/
  | claimCollisionCheck (t : Nat)
  /-- CLAIM_RETRY (R368). -/
  | claimRetry (t : Nat)
  /-- PAR_HANDOVER (R392). -/
  | parHandover (m : Master)
  /-- PAR_RESYNC (R386). -/
  | parResync (m : Option Master)
  /-- PAR_DETACH (R365). -/
  | parDetach (m : Master)
  /-- PAR_ABORT_LOCKET (R391). -/
  | parAbortLocket (m : Master)
  /-- HOLD_IN_FALL (R367). -/
  | holdInFall (t : Nat)
  /-- TAKEOVER_DECISION (R381). -/
  | takeoverDecision (t : Nat)
  /-- HEARTBEAT_RECEIVED (R370). -/
  | heartbeatReceived (t : Nat) (h : Machine.PairHdr) (b : Machine.Heartbeat)
  /-- HEARTBEAT_SEND (R370). -/
  | heartbeatSend (t : Nat)
  /-- ACTION_RECEIVED (R374). -/
  | actionReceived (t : Nat) (h : Machine.PairHdr) (stamp : Int) (act : Machine.PairAct)
  /-- ACTION_STAMP (R373). -/
  | actionStamp
  /-- RESOLVE_RECEIVED (R375). -/
  | resolveReceived (t : Nat) (h : Machine.PairHdr) (r : Machine.Resolve)
  /-- TELEM_RECEIVED (R224). -/
  | telemReceived (t : Nat) (h : Machine.PairHdr) (r : Machine.Resolve)
  /-- DIGEST_RECEIVED (R377). -/
  | digestReceived (t : Nat) (h : Machine.PairHdr) (key : Machine.DigKey) (digest : Nat)
  /-- DIGEST_WAIT_EXPIRY (R377). -/
  | digestWaitExpiry (t : Nat)
  /-- LOCKET_RECEIVED (R387). -/
  | locketReceived (t : Nat) (h : Machine.PairHdr) (gen : Nat) (bytes : Nat) (part : Machine.LocketPart)
  /-- LOCKET_PHASE_COMPLETE (R387). -/
  | locketPhaseComplete (bytes : Nat)
  /-- LOCKET_MAX_EXPIRY (R388). -/
  | locketMaxExpiry (t : Nat)
  /-- CONTROL_RECEIVED (R370). -/
  | controlReceived (t : Nat) (h : Machine.PairHdr) (c : Machine.PairControl)
  /-- PAIR_FRAME_ACK (R370). -/
  | pairFrameAck (t : Nat) (seq : Nat)
  /-- PAIR_FRAME_RETRANSMIT (R370). -/
  | pairFrameRetransmit (t : Nat) (seq : Nat)
  /-- PAIR_LINK_LOST (R384). -/
  | pairLinkLost (t : Nat)
  /-- GRACE_EXPIRY (R384). -/
  | graceExpiry (t : Nat)
  /-- PAIR_LINK_TRAINING (R370). -/
  | pairLinkTraining (t : Nat) (passed : List Nat) (latency : Nat)
  /-- SB_PING (R402). -/
  | sbPing (addr : Nat)
  /-- SB_READ (R404). -/
  | sbRead (addr : Nat) (off : Nat) (n : Nat)
  /-- SB_WRITE (R404). -/
  | sbWrite (addr : Nat) (off : Nat) (ws : List Word)
  /-- SB_LOG_READ (R406). -/
  | sbLogRead (addr : Nat) (seq : Nat) (max : Nat)
  /-- SB_EVT_POLL (R405). -/
  | sbEvtPoll (addr : Nat) (ack : Nat) (max : Nat)
  /-- SB_ASSIGN (R408). -/
  | sbAssign (addr : Nat) (new : Nat)
  /-- SB_UNASSIGN (R408). -/
  | sbUnassign (key : Nat)
  /-- SB_SET_RATE (R399). -/
  | sbSetRate (t : Nat) (key : Nat) (rate : Nat)
  /-- SB_RATE_SWITCH (R409). -/
  | sbRateSwitch (t : Nat)
  /-- SB_EPOCH_ARM (R413). -/
  | sbEpochArm (t : Nat) (epoch : Nat)
  /-- EPOCH_PULSE (R412). -/
  | epochPulse
  /-- SYNC_IN_EDGE (R413). -/
  | syncInEdge (t : Nat)
  /-- SYNC_ARM_EXPIRY (R413). -/
  | syncArmExpiry (t : Nat)
  /-- CHAIN_IN_CHANGE (R407). -/
  | chainInChange (high : Bool)
  /-- LOG_FROM_WRITE (R424). -/
  | logFromWrite (m : Master) (w : Word)
  /-- TAP_EXTEST (R446). -/
  | tapExtest (cells : Option (List Bool))
  /-- TAP_IDCODE (R446). -/
  | tapIdcode
  /-- TAP_SAMPLE_PRELOAD (R446). -/
  | tapSamplePreload (pins : List Bool) (load : Option (List Bool))
  /-- TAP_EXTEST_PULSE (R446). -/
  | tapExtestPulse (cells : Option (List Bool))
  /-- TAP_EXTEST_TRAIN (R446). -/
  | tapExtestTrain (cells : Option (List Bool))
  /-- TAP_DBGRESET (R72). -/
  | tapDbgreset
  /-- TAP_REGACCESS (R446). -/
  | tapRegaccess (a : Nat) (w : Option Word)
  /-- TAP_BYPASS (R446). -/
  | tapBypass (code : Nat)
  /-- PRBS_START (R447). -/
  | prbsStart (m : Master) (w : Word)
  /-- PRBS_RUN_END (R447). -/
  | prbsRunEnd (t : Nat) (errs : Nat) (locked : Bool)
  /-- REGACCESS_LOCK (R447). -/
  | regaccessLock (m : Master)
  /-- DIAG_LANE_BERT (R448). -/
  | diagLaneBert
  /-- DIAG_ADC_CAPTURE (R448). -/
  | diagAdcCapture (data : List Byte)
  /-- DIAG_EYE_SCAN (R448). -/
  | diagEyeScan (data : List Byte)
  /-- DIAG_SENSOR_DUMP (R448). -/
  | diagSensorDump
  /-- VAUX_RETURN (R72). -/
  | vauxReturn
  /-- RESET_N_RELEASE (R72). -/
  | resetNRelease
  /-- AUX_OSCILLATOR_RETURN (R72). -/
  | auxOscillatorReturn
  /-- PCIE_CONFIG_WRITE (R124). -/
  | pcieConfigWrite (busMaster : Bool) (memSpace : Bool) (d3hot : Bool)
  /-- PCIE_LINK_RECOVERY (R124). -/
  | pcieLinkRecovery (back : Bool) (speed : Nat) (width : Nat)
  /-- BAR2_WRITE (R127). -/
  | bar2Write (a : Nat) (bytes : List (Option Byte))
  /-- FIRE_EDGE (R249). -/
  | fireEdge (t : Nat) (nn : Nat)
  /-- FIRE_PULSE_END (R259). -/
  | firePulseEnd (t : Nat) (nn : Nat)
  /-- ZL_TRANSMISSION_END (R284). -/
  | zlTransmissionEnd (t : Nat) (nn : Nat)
  /-- HOLD_IN_RISE (R367). -/
  | holdInRise (t : Nat)
  /-- BAD_TELEMETRY_FRAME (R291). -/
  | badTelemetryFrame (t : Nat) (nn : Nat) (rx : Bool)
  /-- PAIR_FRAME_CRC_ERROR (R370). -/
  | pairFrameCrcError
  /-- ENCODER_SIGNAL_ERROR (R228). -/
  | encoderSignalError (n : Nat)
  /-- SB_INVALID_FRAME (R401). -/
  | sbInvalidFrame (crc : Bool)
  /-- SB_UNUSABLE_REQUEST (R403). -/
  | sbUnusableRequest (addr : Nat) (cmd : Nat) (payload : List Byte)
  /-- TAP_TEST_LOGIC_RESET (R51). -/
  | tapTestLogicReset
  deriving DecidableEq, Repr

end Sys2Proof
end

