-- ==== Sys2Proof/Config.lean ====
section
/-!
DEFINITION. Sys2Proof/Config.lean: what the silicon, the board and the OTP image fix and the manual does not state, and
the free values. Every constant here is opaque: nothing in Lean can compute or prove its value.
-/
namespace Sys2Proof.Config

/-- A fresh free word, applied to the counter `State.free` (log entry 6). -/
opaque freeWord : Nat → BitVec 32

/-- A fresh free byte, applied to the counter `State.free` (log entry 6). -/
opaque freeByte : Nat → BitVec 8

/-- The trim value that the OTP image holds for a calibration register, by BAR 0 offset (Table 15.3, "trim"; log entry 7). -/
opaque trimWord : Nat → BitVec 32

/-- The revision field of the trim image header (Table 3.10; log entry 7). -/
opaque imageRev : BitVec 16

/-- The CRC-32C stored in the last four bytes of the trim image (R84; log entry 7). -/
opaque otpCrc : BitVec 32

/-- The 64-bit serial number from OTP (Table 5.1; log entry 7). -/
opaque serial : BitVec 64

/-- Bits [11:0] of the IDCODE, which only the BSDL file gives (R446; log entry 7). -/
opaque idcodeLow : BitVec 12

end Sys2Proof.Config
end

