-- ==== Sys2Proof/Machine/RegMap.lean ====
section
/-!
DEFINITION. Sys2Proof/Machine/RegMap.lean: the register map of BAR 0. The rows restate the register tables of the spec,
chapter by chapter (Tables 1.7, 2.5 to 2.9, 3.4 to 3.14, 4.1 to 4.12, 5.5 to 5.11, 6.2 to 6.10, 7.4, 8.6, 9.4, 9.5, 10.6,
11.11, 11.12, 12.6, 13.6, 13.7, 14.7, 14.8, 15.3, 16.10, 16.11, 17.8, 17.9, 18.10, 18.11, 19.10): each row gives an offset
within its page, the strides of its indices, and its fields with their access type, reset value and allowed range.
-/
namespace Sys2Proof.Machine

/-- The access types of Table 4.9. -/
inductive Access where
  | rw | ro | w1c | w1s | wo
  deriving DecidableEq, Repr

/-- One field of a register row: bits `hi` to `lo`, its access type, its reset value for the row's indices, and, where the
table reserves some values, the range that is not reserved (a write outside it is refused with RESERVED, R96). -/
structure RegField where
  hi : Nat
  lo : Nat
  kind : Access
  reset : Nat → Nat → Nat
  range : Option (Nat × Nat)

/-- A field whose reset value does not depend on the indices of its row. -/
def fk (hi lo : Nat) (k : Access) (r : Nat) (g : Option (Nat × Nat)) : RegField := ⟨hi, lo, k, fun _ _ => r, g⟩

/-- One row of a register table. `dims` are the strides and counts of its indices; `clasp` is the suffix +c of Table 4.9,
`claspOnly` the words "clasp only"; `pair` marks the _LO half of a 64-bit pair that R8 holds. -/
structure RegRow where
  off : Nat
  dims : List (Nat × Nat)
  clasp : Bool
  claspOnly : Bool
  pair : Bool
  fields : List RegField

/-- OFFSET at reset of requester `r` of arbiter instance `i` (Tables 12.3 to 12.5). -/
def arbOffset (i r : Nat) : Nat :=
  match i with
  | 0 => ([0, 0, 0, 8000, 8000, 20000, 40000, 80000, 200000, 400000] : List Nat).getD r 0
  | 1 => ([0, 0, 400, 400, 20000, 4000] : List Nat).getD r 0
  | 2 => if r < 8 then 80000 else if r = 8 then 2000000 else 0
  | _ => 0

/-- MAX_HOLD at reset (Tables 12.4 and 12.5); 0 is no limit. -/
def arbMaxHold (i r : Nat) : Nat :=
  match i with
  | 1 => ([0, 800, 0, 0, 800, 800] : List Nat).getD r 0
  | 2 => if r < 8 then 80000 else 0
  | _ => 0

/-- SELF of a requester: 1 for the self-stamped ones of Tables 12.3 to 12.5. -/
def arbSelf (i r : Nat) : Nat :=
  match i with
  | 0 => if r < 3 then 1 else 0
  | 1 => if r < 2 then 1 else 0
  | 2 => if r < 8 then 1 else 0
  | _ => 0

/-- How many requesters an instance has (Tables 12.3 to 12.5). -/
def arbRequesters (i : Nat) : Nat := ([10, 6, 9] : List Nat).getD i 0

/-- The register rows of page DEV from offset 0x040 on. -/
def rowsDEV : List RegRow :=
  [ ⟨0x040, [], false, false, false, [fk 13 13 .ro 0 none, fk 12 8 .ro 0 none, fk 7 7 .ro 0 none, fk 6 6 .ro 0 none, fk 5 4 .ro 0 none, fk 3 0 .ro 0x2 none]⟩,
    ⟨0x060, [], false, false, false, [fk 14 14 .rw 0 none, fk 13 13 .rw 0 none, fk 12 12 .rw 0 none, fk 11 8 .rw 0 none, fk 7 0 .rw 0 none]⟩,
    ⟨0x064, [], false, false, false, [fk 14 0 .ro 0 none]⟩,
    ⟨0x068, [], false, false, false, [fk 14 8 .rw 0 none]⟩,
    ⟨0x06C, [], false, false, false, [fk 15 0 .rw 0 none]⟩,
    ⟨0x070, [], false, false, false, [fk 15 0 .rw 0 none]⟩,
    ⟨0x074, [], false, false, false, [fk 15 0 .ro 0 none]⟩,
    ⟨0x078, [], false, false, false, [fk 7 4 .ro 0 none, fk 3 3 .ro 0 none, fk 2 1 .ro 0 none, fk 0 0 .ro 0 none]⟩,
    ⟨0x080, [], false, false, false, [fk 31 16 .wo 0 none, fk 1 1 .rw 0 none, fk 0 0 .rw 0 none]⟩,
    ⟨0x084, [], false, false, false, [fk 16 0 .rw 10000 (some (10, 100000))]⟩,
    ⟨0x088, [], false, false, false, [fk 31 16 .wo 0 none, fk 15 0 .wo 0 none]⟩,
    ⟨0x08C, [], false, false, false, [fk 25 25 .w1c 0 none, fk 24 24 .ro 0 none, fk 23 0 .ro 0 none]⟩ ]

/-- The register rows of page RSC from offset 0x040 on. -/
def rowsRSC : List RegRow :=
  [ ⟨0x040, [], false, false, false, [fk 31 20 .ro 0 none, fk 17 16 .ro 0 none, fk 14 12 .ro 0 none, fk 11 0 .ro 0 none]⟩,
    ⟨0x044, [], false, false, false, [fk 31 16 .wo 0 none, fk 1 0 .wo 0 none]⟩,
    ⟨0x048, [], false, false, false, [fk 6 4 .ro 0 none, fk 1 1 .ro 0 none, fk 0 0 .w1s 0 none]⟩,
    ⟨0x04C, [], false, false, false, [fk 6 4 .rw 0 none]⟩,
    ⟨0x050, [], false, false, false, [fk 31 16 .wo 0 none, fk 0 0 .wo 0 none]⟩ ]

/-- The register rows of page PWR from offset 0x040 on. -/
def rowsPWR : List RegRow :=
  [ ⟨0x040, [], false, false, false, [fk 5 0 .ro 0 none]⟩,
    ⟨0x044, [], false, false, false, [fk 15 0 .ro 0 none]⟩,
    ⟨0x048, [], false, false, false, [fk 15 0 .ro 0 none]⟩,
    ⟨0x04C, [], false, false, false, [fk 16 16 .ro 0 none, fk 15 12 .w1c 0 none, fk 8 8 .w1c 0 none, fk 5 0 .w1c 0 none]⟩ ]

/-- The register rows of page CLK from offset 0x040 on. -/
def rowsCLK : List RegRow :=
  [ ⟨0x040, [(0x4, 8)], false, false, false, [fk 31 16 .ro 0 none, fk 3 3 .w1c 0 none, fk 2 2 .ro 0 none, fk 1 1 .ro 0 none, fk 0 0 .ro 0 none]⟩,
    ⟨0x060, [], false, false, false, [fk 8 8 .ro 0 none, fk 1 0 .rw 0 (some (0, 2))]⟩ ]

/-- The register rows of page TRM from offset 0x040 on. -/
def rowsTRM : List RegRow :=
  [ ⟨0x040, [], false, false, false, [fk 31 16 .ro 0 none, fk 15 8 .ro 0 none, fk 3 2 .ro 0 none, fk 1 1 .ro 1 none, fk 0 0 .ro 0 none]⟩,
    ⟨0x044, [], false, false, false, [fk 31 0 .ro 0 none]⟩,
    ⟨0x048, [], false, false, false, [fk 31 0 .ro 0 none]⟩ ]

/-- The register rows of page CLS from offset 0x040 on. -/
def rowsCLS : List RegRow :=
  [ ⟨0x040, [], false, false, false, [fk 15 0 .ro 0 none]⟩,
    ⟨0x044, [], false, false, false, [fk 31 0 .ro 0 none]⟩,
    ⟨0x048, [], false, false, false, [fk 31 16 .ro 0 none, fk 9 0 .ro 0 none]⟩,
    ⟨0x04C, [], false, false, false, [fk 31 0 .ro 0 none]⟩,
    ⟨0x050, [], false, false, false, [fk 31 0 .ro 0 none]⟩,
    ⟨0x100, [(0x40, 16)], false, false, false, [fk 3 0 .wo 0 none]⟩,
    ⟨0x104, [(0x40, 16)], false, false, false, [fk 31 24 .rw 0 none, fk 9 9 .rw 0 none, fk 8 8 .rw 0 none, fk 6 4 .rw 0 none, fk 1 0 .rw 0 none]⟩,
    ⟨0x108, [(0x40, 16)], false, false, false, [fk 31 0 .rw 0 none]⟩,
    ⟨0x10C, [(0x40, 16)], false, false, false, [fk 31 0 .rw 0 none]⟩,
    ⟨0x110, [(0x40, 16)], false, false, false, [fk 25 2 .rw 0 none]⟩,
    ⟨0x114, [(0x40, 16)], false, false, false, [fk 31 0 .wo 0 none]⟩,
    ⟨0x118, [(0x40, 16)], false, false, false, [fk 24 16 .ro 0 none, fk 8 8 .ro 0 none, fk 7 4 .ro 0 none, fk 2 0 .ro 0 none]⟩,
    ⟨0x11C, [(0x40, 16)], false, false, false, [fk 15 0 .ro 0 none]⟩,
    ⟨0x120, [(0x40, 16)], false, false, true, [fk 31 0 .ro 0 none]⟩,
    ⟨0x124, [(0x40, 16)], false, false, false, [fk 31 0 .ro 0 none]⟩,
    ⟨0x128, [(0x40, 16)], false, false, false, [fk 31 0 .ro 0 none]⟩,
    ⟨0x12C, [(0x40, 16)], false, false, false, [fk 31 8 .ro 0 none, fk 3 0 .ro 0 none]⟩ ]

/-- The register rows of page EVT from offset 0x040 on. -/
def rowsEVT : List RegRow :=
  [ ⟨0x040, [], false, false, false, [fk 15 0 .ro 0 none]⟩,
    ⟨0x044, [], false, false, false, [fk 31 0 .ro 0 none]⟩,
    ⟨0x048, [], false, false, false, [fk 7 4 .rw 6 none, fk 3 0 .rw 8 none]⟩,
    ⟨0x04C, [], false, false, false, [fk 9 9 .rw 0 none, fk 8 8 .rw 0 none, fk 1 0 .rw 0 none]⟩,
    ⟨0x050, [], false, false, true, [fk 31 0 .ro 0 none]⟩,
    ⟨0x054, [], false, false, false, [fk 19 0 .ro 0 none]⟩,
    ⟨0x058, [], false, false, false, [fk 3 0 .ro 0 none]⟩,
    ⟨0x05C, [], false, false, false, [fk 8 8 .rw 0 none, fk 3 0 .rw 10 (some (6, 12))]⟩,
    ⟨0x060, [], false, false, false, [fk 31 0 .wo 0 none]⟩ ]

/-- The register rows of page TMB from offset 0x040 on. -/
def rowsTMB : List RegRow :=
  [ ⟨0x040, [], false, false, true, [fk 31 0 .ro 0 none]⟩,
    ⟨0x044, [], false, false, false, [fk 31 0 .ro 0 none]⟩,
    ⟨0x100, [(0x10, 8)], false, false, false, [fk 31 0 .ro 0 none]⟩,
    ⟨0x104, [(0x10, 8)], false, false, false, [fk 31 0 .ro 0 none]⟩,
    ⟨0x108, [(0x10, 8)], false, false, true, [fk 31 0 .ro 0 none]⟩,
    ⟨0x10C, [(0x10, 8)], false, false, false, [fk 31 0 .ro 0 none]⟩ ]

/-- The register rows of page HIF from offset 0x040 on. -/
def rowsHIF : List RegRow :=
  [ ⟨0x040, [], false, false, false, [fk 31 0 .ro 0x7 none]⟩,
    ⟨0x044, [], false, false, false, [fk 31 24 .ro 0 none, fk 16 16 .ro 0 none, fk 9 4 .ro 0 none, fk 3 0 .ro 0 none]⟩,
    ⟨0x048, [], false, false, false, [fk 16 16 .rw 0 none, fk 13 0 .rw 0 (some (0, 14208))]⟩,
    ⟨0x04C, [], false, false, false, [fk 31 0 .ro 0 none]⟩,
    ⟨0x050, [], false, false, false, [fk 31 0 .ro 0 none]⟩ ]

/-- The register rows of page DMA from offset 0x040 on. -/
def rowsDMA : List RegRow :=
  [ ⟨0x800, [(0x20, 64)], false, false, true, [fk 31 0 .rw 0 none]⟩,
    ⟨0x804, [(0x20, 64)], false, false, false, [fk 31 0 .rw 0 none]⟩,
    ⟨0x808, [(0x20, 64)], false, false, false, [fk 31 24 .rw 0 none, fk 23 16 .rw 0 none, ⟨15, 9, .rw, fun i _ => i, none⟩, fk 8 8 .rw 0 none, fk 5 5 .rw 0 none, fk 4 0 .rw 0 none]⟩,
    ⟨0x80C, [(0x20, 64)], false, false, false, [fk 31 0 .rw 0 none]⟩,
    ⟨0x810, [(0x20, 64)], false, false, false, [fk 31 0 .rw 0 none]⟩,
    ⟨0x814, [(0x20, 64)], false, false, false, [fk 31 0 .ro 0 none]⟩,
    ⟨0x818, [(0x20, 64)], false, false, false, [fk 31 31 .ro 0 none, fk 15 0 .ro 0 none]⟩,
    ⟨0x81C, [(0x20, 64)], false, false, false, [fk 31 16 .ro 0 none, fk 15 8 .ro 0 none, fk 2 2 .ro 0 none, fk 1 1 .ro 0 none, fk 0 0 .ro 0 none]⟩,
    ⟨0x040, [], false, false, true, [fk 31 0 .rw 0 none]⟩,
    ⟨0x044, [], false, false, false, [fk 31 0 .rw 0 none]⟩,
    ⟨0x048, [], false, false, false, [fk 0 0 .rw 0 none]⟩ ]

/-- The register rows of page CDC from offset 0x040 on. -/
def rowsCDC : List RegRow :=
  [ ⟨0x040, [], false, false, false, [fk 31 16 .rw 0x300 none, fk 15 8 .rw 0x10 (some (1, 255)), fk 1 0 .rw 1 (some (0, 2))]⟩,
    ⟨0x044, [], false, false, false, [fk 5 0 .rw 4 (some (0, 32))]⟩,
    ⟨0x048, [], false, false, false, [fk 31 0 .ro 0 none]⟩,
    ⟨0x04C, [], false, false, false, [fk 31 0 .ro 0 none]⟩,
    ⟨0x050, [], false, false, false, [fk 3 0 .ro 0 none]⟩,
    ⟨0x054, [], false, false, true, [fk 31 0 .ro 0 none]⟩,
    ⟨0x058, [], false, false, false, [fk 31 0 .ro 0 none]⟩,
    ⟨0x060, [], false, false, false, [fk 31 0 .ro 0 none]⟩,
    ⟨0x064, [], false, false, false, [fk 31 0 .ro 0 none]⟩,
    ⟨0x068, [], false, false, false, [fk 31 0 .ro 0 none]⟩,
    ⟨0x100, [(0x10, 4)], false, false, true, [fk 31 0 .rw 0 none]⟩,
    ⟨0x104, [(0x10, 4)], false, false, false, [fk 31 0 .rw 0 none]⟩,
    ⟨0x108, [(0x10, 4)], false, false, false, [fk 31 0 .ro 0 none]⟩ ]

/-- The register rows of page IMG from offset 0x040 on. -/
def rowsIMG : List RegRow :=
  [ ⟨0x040, [], false, false, false, [fk 13 0 .rw 0 none]⟩,
    ⟨0x044, [], false, false, false, [fk 13 0 .rw 0 (some (32, 14336))]⟩,
    ⟨0x048, [], false, false, false, [fk 31 0 .ro 0 none]⟩,
    ⟨0x04C, [], false, false, false, [fk 31 0 .ro 0 none]⟩,
    ⟨0x050, [], false, false, false, [fk 31 0 .ro 0 none]⟩,
    ⟨0x054, [], false, false, false, [fk 31 0 .ro 0 none]⟩,
    ⟨0x100, [(0x20, 8)], false, false, false, [fk 13 0 .rw 0 none]⟩,
    ⟨0x104, [(0x20, 8)], false, false, false, [fk 31 24 .rw 6 none, fk 20 16 .rw 7 none, fk 14 13 .rw 0 (some (0, 2)), fk 12 12 .rw 0 none, fk 9 0 .rw 0x300 (some (4, 1023))]⟩,
    ⟨0x108, [(0x20, 8)], false, false, false, [fk 31 0 .ro 0 none]⟩,
    ⟨0x10C, [(0x20, 8)], false, false, false, [fk 15 0 .ro 0 none]⟩,
    ⟨0x110, [(0x20, 8)], false, false, false, [fk 15 0 .rw 0x1D6 none]⟩,
    ⟨0x114, [(0x20, 8)], false, false, false, [fk 13 8 .ro 0 none, fk 5 0 .ro 0 none]⟩,
    ⟨0x118, [(0x20, 8)], false, false, false, [fk 31 0 .ro 0 none]⟩,
    ⟨0x400, [(0x4, 512)], false, false, false, [fk 31 27 .ro 0 none, fk 26 24 .ro 0 none, fk 23 23 .ro 0 none, fk 19 0 .ro 0 none]⟩ ]

/-- The register rows of page SCN from offset 0x040 on. -/
def rowsSCN : List RegRow :=
  [ ⟨0x040, [], true, false, false, [fk 4 4 .rw 0 none, fk 0 0 .rw 0 none]⟩,
    ⟨0x044, [], true, false, false, [fk 24 16 .rw 0 none, fk 8 0 .rw 0 none]⟩,
    ⟨0x048, [], true, false, false, [fk 15 0 .rw 0 none]⟩,
    ⟨0x04C, [], false, false, false, [fk 15 0 .rw 1 none]⟩,
    ⟨0x050, [(0x4, 16)], false, false, false, [fk 15 0 .rw 0 none]⟩,
    ⟨0x090, [], false, false, false, [fk 27 16 .ro 0 none, fk 4 0 .ro 0 none]⟩,
    ⟨0x094, [], false, false, false, [fk 15 0 .ro 0 none]⟩,
    ⟨0x098, [], false, false, false, [fk 31 0 .ro 0 none]⟩,
    ⟨0x09C, [], false, false, false, [fk 31 0 .ro 0 none]⟩,
    ⟨0x0A0, [], false, false, true, [fk 31 0 .ro 0 none]⟩,
    ⟨0x0A4, [], false, false, false, [fk 31 0 .ro 0 none]⟩,
    ⟨0x0A8, [], false, false, false, [fk 31 0 .ro 0 none]⟩,
    ⟨0x0AC, [], false, false, false, [fk 31 0 .ro 0 none]⟩,
    ⟨0x0B0, [], false, false, false, [fk 31 0 .ro 0 none]⟩,
    ⟨0x0B4, [], false, false, false, [fk 31 0 .ro 0 none]⟩,
    ⟨0x0B8, [], false, false, false, [fk 31 16 .ro 0 none, fk 15 0 .ro 0 none]⟩,
    ⟨0x220, [(0x20, 15), (0x4, 5)], true, false, false, [⟨28, 16, .rw, fun _ j => if j = 4 then 0 else 512 * (2 * j + 1), none⟩, ⟨12, 0, .rw, fun _ j => 512 * 2 * j, none⟩]⟩ ]

/-- The register rows of page SCN_0 alone (R206) from offset 0x040 on. -/
def rowsSCN0 : List RegRow :=
  [ ⟨0x400, [], false, false, false, [fk 1 0 .w1s 0 none]⟩,
    ⟨0x404, [(0x4, 2)], false, false, false, [fk 31 0 .ro 0 none]⟩,
    ⟨0x40C, [], false, false, false, [fk 9 8 .ro 0 none, fk 1 0 .ro 0 none]⟩ ]

/-- The register rows of page NZC from offset 0x040 on. -/
def rowsNZC : List RegRow :=
  [ ⟨0x040, [], true, false, false, [fk 2 2 .rw 0 none, fk 1 1 .rw 0 none, fk 0 0 .rw 0 none]⟩,
    ⟨0x044, [], true, false, false, [fk 15 8 .rw 0x20 none, fk 7 0 .rw 0x60 none]⟩,
    ⟨0x048, [], false, false, false, [fk 13 0 .rw 0 none]⟩,
    ⟨0x04C, [], false, false, false, [fk 7 0 .rw 0x14 (some (1, 255))]⟩,
    ⟨0x050, [], true, false, false, [fk 15 0 .rw 0xFD00 none]⟩,
    ⟨0x054, [], false, false, false, [fk 7 0 .w1s 0 none]⟩,
    ⟨0x058, [], false, false, false, [fk 31 0 .ro 0 none]⟩,
    ⟨0x05C, [], false, false, false, [fk 31 0 .ro 0 none]⟩,
    ⟨0x100, [(0x40, 8)], true, false, false, [fk 23 16 .rw 1 none, fk 15 8 .rw 0x40 none, fk 4 2 .rw 3 none, fk 0 0 .rw 0 none]⟩,
    ⟨0x104, [(0x40, 8)], true, false, false, [fk 31 16 .rw 0x280 none, fk 15 0 .rw 0x28F none]⟩,
    ⟨0x108, [(0x40, 8)], true, false, false, [fk 15 0 .rw 0 none]⟩,
    ⟨0x10C, [(0x40, 8)], true, false, false, [fk 27 16 .rw 0xC00 none, fk 11 0 .rw 0x400 none]⟩,
    ⟨0x110, [(0x40, 8)], true, false, true, [fk 31 0 .rw 0 none]⟩,
    ⟨0x114, [(0x40, 8)], true, false, false, [fk 31 0 .rw 0 none]⟩,
    ⟨0x118, [(0x40, 8)], false, false, true, [fk 31 0 .ro 0 none]⟩,
    ⟨0x11C, [(0x40, 8)], false, false, false, [fk 31 0 .ro 0 none]⟩,
    ⟨0x120, [(0x40, 8)], false, false, true, [fk 31 0 .ro 0 none]⟩,
    ⟨0x124, [(0x40, 8)], false, false, false, [fk 31 0 .ro 0 none]⟩,
    ⟨0x128, [(0x40, 8)], false, false, false, [fk 31 16 .ro 0 none, fk 15 0 .ro 0 none]⟩,
    ⟨0x12C, [(0x40, 8)], false, false, false, [fk 31 0 .ro 0 none]⟩,
    ⟨0x130, [(0x40, 8)], false, false, false, [fk 16 0 .ro 0 none]⟩ ]

/-- The register rows of page POS from offset 0x040 on. -/
def rowsPOS_0 : List RegRow :=
  [ ⟨0x040, [], false, false, false, [fk 5 4 .rw 0 none, fk 1 0 .rw 0 none]⟩,
    ⟨0x044, [], false, false, true, [fk 31 0 .ro 0 none]⟩,
    ⟨0x048, [], false, false, false, [fk 31 0 .ro 0 none]⟩,
    ⟨0x04C, [], false, false, false, [fk 31 0 .ro 0 none]⟩,
    ⟨0x100, [(0x80, 4)], false, false, false, [fk 27 24 .rw 2 none, fk 23 20 .rw 4 (some (0, 10)), fk 19 16 .rw 8 none, fk 15 12 .rw 8 none, fk 9 8 .rw 0 (some (0, 2)), fk 7 7 .rw 0 none, fk 6 6 .rw 0 none, fk 5 5 .rw 0 none, fk 2 0 .rw 0 none]⟩,
    ⟨0x104, [(0x80, 4)], false, false, false, [fk 31 0 .rw 0 none]⟩,
    ⟨0x108, [(0x80, 4)], false, false, false, [fk 31 0 .rw 0 none]⟩,
    ⟨0x10C, [(0x80, 4)], false, false, false, [fk 21 20 .rw 0 (some (0, 2)), fk 19 16 .rw 1 (some (1, 15)), fk 15 8 .rw 0x28 none, fk 7 0 .rw 0x60 none]⟩,
    ⟨0x110, [(0x80, 4)], false, false, false, [fk 23 0 .rw 10000 (some (1, 16777215))]⟩,
    ⟨0x114, [(0x80, 4)], false, false, false, [fk 31 16 .rw 0x14D none, fk 15 0 .rw 0x80 none]⟩,
    ⟨0x118, [(0x80, 4)], false, false, false, [fk 31 0 .rw 0x1000000 none]⟩,
    ⟨0x11C, [(0x80, 4)], false, false, false, [fk 23 8 .rw 64 none, fk 7 0 .rw 4 (some (1, 255))]⟩,
    ⟨0x120, [(0x80, 4)], false, false, true, [fk 31 0 .ro 0 none]⟩,
    ⟨0x124, [(0x80, 4)], false, false, false, [fk 31 0 .ro 0 none]⟩,
    ⟨0x128, [(0x80, 4)], false, false, false, [fk 31 0 .ro 0 none]⟩,
    ⟨0x12C, [(0x80, 4)], false, false, false, [fk 31 0 .ro 0 none]⟩,
    ⟨0x130, [(0x80, 4)], false, false, true, [fk 31 0 .ro 0 none]⟩,
    ⟨0x134, [(0x80, 4)], false, false, false, [fk 31 0 .ro 0 none]⟩,
    ⟨0x138, [(0x80, 4)], false, false, false, [fk 31 16 .ro 0 none, fk 7 7 .w1c 0 none, fk 6 6 .ro 0 none, fk 5 5 .ro 0 none, fk 4 4 .ro 0 none, fk 3 3 .ro 0 none, fk 2 0 .ro 2 none]⟩,
    ⟨0x13C, [(0x80, 4)], false, false, false, [fk 31 16 .ro 0 none, fk 15 0 .ro 0 none]⟩,
    ⟨0x400, [(0x40, 4)], false, false, false, [fk 31 24 .rw 0 none, fk 17 16 .rw 0 (some (0, 1)), fk 15 8 .rw 10 none, fk 2 2 .rw 0 none, fk 1 0 .rw 0 none]⟩,
    ⟨0x404, [(0x40, 4)], false, false, true, [fk 31 0 .rw 0 none]⟩,
    ⟨0x408, [(0x40, 4)], false, false, false, [fk 31 0 .rw 0 none]⟩,
    ⟨0x40C, [(0x40, 4)], false, false, true, [fk 31 0 .ro 0 none]⟩ ]

/-- More rows of page POS. -/
def rowsPOS_1 : List RegRow :=
  [ ⟨0x410, [(0x40, 4)], false, false, false, [fk 31 0 .ro 0 none]⟩,
    ⟨0x414, [(0x40, 4)], false, false, false, [fk 31 0 .ro 0 none]⟩,
    ⟨0x418, [(0x40, 4)], false, false, true, [fk 31 0 .ro 0 none]⟩,
    ⟨0x41C, [(0x40, 4)], false, false, false, [fk 31 0 .ro 0 none]⟩,
    ⟨0x420, [(0x40, 4)], false, false, false, [fk 31 0 .ro 0 none]⟩,
    ⟨0x424, [(0x40, 4)], false, false, false, [fk 15 0 .ro 0 none]⟩ ]

/-- All rows of page POS. -/
def rowsPOS : List RegRow := rowsPOS_0 ++ rowsPOS_1

/-- The register rows of page LCK from offset 0x040 on. -/
def rowsLCK : List RegRow :=
  [ ⟨0x040, [], false, false, false, [fk 31 0 .ro 0 none]⟩,
    ⟨0x100, [(0x40, 8)], false, false, false, [fk 5 4 .rw 2 none, fk 0 0 .rw 0 none]⟩,
    ⟨0x104, [(0x40, 8)], true, true, true, [fk 31 0 .rw 0 none]⟩,
    ⟨0x108, [(0x40, 8)], true, true, false, [fk 31 0 .rw 0 none]⟩,
    ⟨0x10C, [(0x40, 8)], true, false, true, [fk 31 0 .rw 0 none]⟩,
    ⟨0x110, [(0x40, 8)], true, false, false, [fk 31 0 .rw 0 none]⟩,
    ⟨0x114, [(0x40, 8)], true, true, false, [fk 31 0 .rw 0 none]⟩,
    ⟨0x118, [(0x40, 8)], true, true, true, [fk 31 0 .rw 0 none]⟩,
    ⟨0x11C, [(0x40, 8)], true, true, false, [fk 31 0 .rw 0 none]⟩,
    ⟨0x120, [(0x40, 8)], false, false, false, [fk 31 0 .ro 0 none]⟩,
    ⟨0x124, [(0x40, 8)], false, false, true, [fk 31 0 .ro 0 none]⟩,
    ⟨0x128, [(0x40, 8)], false, false, false, [fk 31 0 .ro 0 none]⟩,
    ⟨0x12C, [(0x40, 8)], false, false, true, [fk 31 0 .ro 0 none]⟩,
    ⟨0x130, [(0x40, 8)], false, false, false, [fk 31 0 .ro 0 none]⟩,
    ⟨0x134, [(0x40, 8)], false, false, false, [fk 31 0 .ro 0 none]⟩,
    ⟨0x138, [(0x40, 8)], false, false, false, [fk 9 9 .ro 1 none, fk 8 8 .ro 0 none, fk 3 0 .ro 0 none]⟩ ]

/-- The register rows of page FIRE from offset 0x040 on. -/
def rowsFIRE_0 : List RegRow :=
  [ ⟨0x040, [], true, false, false, [fk 12 0 .rw 0x190 (some (40, 8000))]⟩,
    ⟨0x044, [], false, false, false, [fk 12 0 .rw 0x1F40 (some (40, 8000))]⟩,
    ⟨0x048, [], false, false, false, [fk 15 0 .rw 0x9C4 (some (2500, 65535))]⟩,
    ⟨0x04C, [], false, false, false, [fk 31 16 .ro 0 none, fk 15 0 .ro 0x9C4 none]⟩,
    ⟨0x050, [], true, false, false, [fk 31 24 .rw 0x40 none, fk 15 0 .rw 0xD3B none]⟩,
    ⟨0x054, [], true, false, false, [fk 4 4 .rw 0 none, fk 0 0 .rw 0 none]⟩,
    ⟨0x058, [], false, false, false, [fk 0 0 .w1s 0 none]⟩,
    ⟨0x05C, [], true, false, false, [fk 31 16 .rw 0x3C0 none, fk 15 0 .rw 0x370 none]⟩,
    ⟨0x060, [], true, false, false, [fk 23 16 .rw 0x10 (some (1, 255)), fk 8 8 .rw 0 none, fk 7 0 .rw 0x30 none]⟩,
    ⟨0x064, [(0x4, 2)], true, false, false, [fk 29 24 .rw 0 none, fk 21 16 .rw 0 none, fk 13 8 .rw 0 none, fk 5 0 .rw 0 none]⟩,
    ⟨0x06C, [(0x4, 2)], true, false, false, [fk 31 24 .rw 0 none, fk 23 16 .rw 0 none, fk 15 8 .rw 0 none, fk 7 0 .rw 0 none]⟩,
    ⟨0x080, [(0x4, 6)], true, false, false, [⟨31, 16, .rw, fun i _ => (0x100<<<(i/2)), none⟩, ⟨15, 0, .rw, fun i _ => (0x100<<<(i/2)), none⟩]⟩,
    ⟨0x0A0, [], false, false, false, [fk 15 0 .ro 0 none]⟩,
    ⟨0x0C0, [], false, false, false, [fk 31 0 .ro 0 none]⟩,
    ⟨0x0C4, [], false, false, false, [fk 31 0 .ro 0 none]⟩,
    ⟨0x0C8, [], false, false, false, [fk 31 0 .ro 0 none]⟩,
    ⟨0x0CC, [], false, false, false, [fk 15 0 .ro 0 none]⟩,
    ⟨0x0D0, [], false, false, false, [fk 31 0 .ro 0 none]⟩,
    ⟨0x0D4, [], false, false, false, [fk 31 0 .ro 0 none]⟩,
    ⟨0x0D8, [], false, false, false, [fk 31 0 .ro 0 none]⟩,
    ⟨0x0DC, [], false, false, false, [fk 31 0 .ro 0 none]⟩,
    ⟨0x0E0, [], false, false, true, [fk 31 0 .ro 0 none]⟩,
    ⟨0x0E4, [], false, false, false, [fk 31 0 .ro 0 none]⟩,
    ⟨0x0E8, [], false, false, true, [fk 31 0 .ro 0 none]⟩ ]

/-- More rows of page FIRE. -/
def rowsFIRE_1 : List RegRow :=
  [ ⟨0x0EC, [], false, false, false, [fk 31 0 .ro 0 none]⟩,
    ⟨0x0F0, [], false, false, false, [fk 8 0 .w1c 0 none]⟩,
    ⟨0x100, [(0x10, 2)], false, false, false, [fk 24 16 .rw 0xC8 (some (80, 400)), fk 8 8 .rw 1 none, fk 3 0 .rw 1 (some (1, 8))]⟩,
    ⟨0x104, [(0x10, 2)], false, false, false, [fk 23 0 .rw 0 none]⟩,
    ⟨0x140, [], false, false, true, [fk 31 0 .rw 0 none]⟩,
    ⟨0x144, [], false, false, false, [fk 31 0 .rw 0 none]⟩,
    ⟨0x148, [], false, false, false, [fk 31 31 .w1s 0 none, fk 24 24 .rw 0 none, fk 23 16 .rw 0 none, fk 15 0 .rw 1 (some (1, 65535))]⟩,
    ⟨0x14C, [], false, false, false, [fk 31 0 .rw 0 none]⟩,
    ⟨0x150, [], false, false, false, [fk 16 16 .ro 0 none, fk 15 0 .ro 0 none]⟩,
    ⟨0x200, [(0x10, 8), (0x4, 4)], false, false, false, [⟨31, 16, .rw, fun _ j => (1552*(2*j+1)), none⟩, ⟨15, 0, .rw, fun _ j => (1552*2*j), none⟩]⟩ ]

/-- All rows of page FIRE. -/
def rowsFIRE : List RegRow := rowsFIRE_0 ++ rowsFIRE_1

/-- The register rows of page ZLK from offset 0x040 on. -/
def rowsZLK : List RegRow :=
  [ ⟨0x040, [], false, false, false, [fk 31 24 .rw 8 (some (1, 255)), fk 19 16 .rw 3 (some (1, 15)), fk 12 8 .rw 0x14 (some (16, 24)), fk 0 0 .rw 0 none]⟩,
    ⟨0x044, [], false, false, false, [fk 8 0 .rw 400 (some (190, 400))]⟩,
    ⟨0x048, [], false, false, false, [fk 23 16 .rw 10 (some (1, 10)), fk 15 0 .rw 10 (some (1, 100))]⟩,
    ⟨0x04C, [], false, false, false, [fk 7 7 .rw 1 none, fk 4 0 .rw 0x1E none]⟩,
    ⟨0x050, [], false, false, false, [fk 31 0 .ro 0 none]⟩,
    ⟨0x054, [], false, false, false, [fk 6 0 .ro 0 none]⟩ ]

/-- The register rows of page ZLB from offset 0x040 on. -/
def rowsZLB : List RegRow :=
  [ ⟨0x040, [], false, false, false, [fk 8 0 .rw 0 none]⟩,
    ⟨0x044, [], false, false, false, [fk 5 5 .rw 0 none, fk 4 4 .rw 0 none, fk 2 0 .rw 0 none]⟩,
    ⟨0x048, [], false, false, false, [fk 1 1 .w1s 0 none, fk 0 0 .w1s 0 none]⟩,
    ⟨0x04C, [], false, false, false, [fk 31 16 .ro 0 none, fk 6 4 .ro 0 none, fk 0 0 .ro 0 none]⟩,
    ⟨0x050, [], false, false, false, [fk 31 31 .w1s 0 none, fk 22 16 .rw 0 (some (0, 64)), fk 14 8 .rw 0 none, fk 3 0 .rw 0 (some (0, 8))]⟩,
    ⟨0x054, [], false, false, false, [fk 24 24 .ro 0 none, fk 23 16 .ro 0 none, fk 15 0 .ro 0 none]⟩,
    ⟨0x060, [(0x4, 16)], false, false, false, [fk 31 0 .rw 0 none]⟩,
    ⟨0x100, [(0x20, 9)], false, false, false, [fk 23 20 .ro 0 none, fk 17 8 .ro 0 none, fk 7 7 .ro 0 none, fk 6 4 .ro 2 none, fk 3 0 .ro 0 none]⟩,
    ⟨0x104, [(0x20, 9)], false, false, false, [fk 3 3 .rw 0 none, fk 2 0 .rw 0 none]⟩,
    ⟨0x108, [(0x20, 9)], false, false, false, [fk 31 0 .ro 0 none]⟩,
    ⟨0x10C, [(0x20, 9)], false, false, false, [fk 31 0 .ro 0 none]⟩,
    ⟨0x110, [(0x20, 9)], false, false, false, [fk 31 0 .ro 0 none]⟩,
    ⟨0x114, [(0x20, 9)], false, false, false, [fk 31 16 .ro 0 none, fk 15 0 .ro 0 none]⟩,
    ⟨0x118, [(0x20, 9)], false, false, false, [fk 31 0 .ro 0 none]⟩,
    ⟨0x11C, [(0x20, 9)], false, false, false, [fk 31 0 .ro 0 none]⟩ ]

/-- The register rows of page ARB from offset 0x040 on. -/
def rowsARB : List RegRow :=
  [ ⟨0x100, [(0x40, 3)], true, false, false, [⟨23, 0, .rw, fun i _ => ([0, 400, 8000] : List Nat).getD i 0, none⟩]⟩,
    ⟨0x104, [(0x40, 3)], true, false, false, [⟨23, 0, .rw, fun i _ => ([800, 8000, 200000] : List Nat).getD i 0, some (1, 16777215)⟩]⟩,
    ⟨0x108, [(0x40, 3)], false, false, false, [⟨15, 0, .ro, fun i _ => ([208, 160, 20] : List Nat).getD i 0, none⟩]⟩,
    ⟨0x10C, [(0x40, 3)], false, false, false, [fk 15 0 .ro 0 none]⟩,
    ⟨0x110, [(0x40, 3)], false, false, false, [fk 15 0 .w1c 0 none]⟩,
    ⟨0x114, [(0x40, 3)], false, false, false, [fk 15 0 .w1c 0 none]⟩,
    ⟨0x118, [(0x40, 3)], false, false, false, [fk 15 0 .ro 0 none]⟩,
    ⟨0x200, [(0x100, 3), (0x10, 16)], true, false, false, [⟨31, 31, .ro, fun i j => arbSelf i j, none⟩, ⟨23, 0, .rw, fun i j => arbOffset i j, none⟩]⟩,
    ⟨0x204, [(0x100, 3), (0x10, 16)], true, false, false, [⟨23, 0, .rw, fun i j => arbMaxHold i j, none⟩]⟩,
    ⟨0x208, [(0x100, 3), (0x10, 16)], false, false, false, [fk 31 16 .ro 0 none, fk 15 0 .ro 0 none]⟩,
    ⟨0x20C, [(0x100, 3), (0x10, 16)], false, false, false, [fk 23 0 .ro 0 none]⟩ ]

/-- The register rows of page MEM from offset 0x040 on. -/
def rowsMEM : List RegRow :=
  [ ⟨0x040, [], false, false, false, [fk 31 16 .ro 0 none, fk 15 15 .ro 0 none, fk 14 14 .ro 0 none, fk 13 13 .ro 0 none, fk 4 0 .ro 0 none]⟩,
    ⟨0x044, [], false, false, false, [fk 31 16 .ro 0 none, fk 15 0 .ro 0 none]⟩,
    ⟨0x048, [], false, false, false, [fk 15 0 .rw 0x1000 (some (64, 65535))]⟩,
    ⟨0x04C, [], false, false, false, [fk 31 31 .rw 1 none, fk 15 0 .rw 24 (some (1, 720))]⟩,
    ⟨0x050, [], false, false, false, [fk 31 0 .ro 0 none]⟩,
    ⟨0x054, [], false, false, false, [fk 31 0 .ro 0 none]⟩,
    ⟨0x058, [], false, false, true, [fk 31 0 .ro 0 none]⟩,
    ⟨0x05C, [], false, false, false, [fk 31 0 .ro 0 none]⟩,
    ⟨0x060, [], false, false, false, [fk 31 31 .ro 0 none, fk 27 24 .ro 0 none, fk 19 16 .ro 0 none, fk 11 8 .ro 0 none, fk 7 0 .ro 0 none]⟩,
    ⟨0x064, [], false, false, false, [fk 31 0 .ro 0 none]⟩,
    ⟨0x068, [], false, false, false, [fk 31 0 .ro 0 none]⟩,
    ⟨0x06C, [], false, false, false, [fk 15 0 .ro 0 none]⟩ ]

/-- The register rows of page MCH from offset 0x040 on. -/
def rowsMCH : List RegRow :=
  [ ⟨0x100, [(0x40, 16)], false, false, false, [fk 19 16 .ro 0 none, fk 10 10 .ro 0 none, fk 9 9 .ro 0 none, fk 8 8 .ro 0 none, fk 3 0 .ro 0 none]⟩,
    ⟨0x104, [(0x40, 16)], false, false, false, [fk 31 16 .ro 0 none, fk 15 0 .ro 0 none]⟩,
    ⟨0x108, [(0x40, 16)], false, false, false, [fk 23 16 .ro 0 none, fk 7 0 .rw 0 none]⟩,
    ⟨0x10C, [(0x40, 16)], false, false, false, [fk 31 16 .ro 0 none, fk 11 8 .ro 0 none, fk 0 0 .ro 0 none]⟩,
    ⟨0x110, [(0x40, 16)], false, false, false, [fk 31 0 .ro 0 none]⟩,
    ⟨0x114, [(0x40, 16)], false, false, false, [fk 31 0 .ro 0 none]⟩,
    ⟨0x118, [(0x40, 16)], false, false, false, [fk 31 16 .ro 0 none, fk 15 0 .ro 0 none]⟩,
    ⟨0x11C, [(0x40, 16)], false, false, false, [fk 7 0 .ro 0 none]⟩ ]

/-- The register rows of page CRT from offset 0x040 on. -/
def rowsCRT : List RegRow :=
  [ ⟨0x040, [], true, false, false, [fk 8 0 .rw 0x1E0 (some (128, 496))]⟩,
    ⟨0x044, [], true, false, false, [fk 8 0 .rw 0x140 none]⟩,
    ⟨0x048, [], false, false, false, [fk 24 16 .ro 0x1E0 none, fk 8 0 .ro 0 none]⟩,
    ⟨0x04C, [], false, false, false, [fk 31 16 .ro 0 none, fk 3 0 .ro 0 none]⟩,
    ⟨0x050, [], false, false, false, [fk 8 0 .ro 0 none]⟩,
    ⟨0x054, [], true, false, false, [fk 15 0 .rw 0x1F40 none]⟩,
    ⟨0x058, [], true, false, false, [fk 23 0 .rw 80000 (some (1, 16777215))]⟩,
    ⟨0x05C, [], false, false, false, [fk 7 0 .w1c 0 none]⟩,
    ⟨0x060, [], false, false, false, [fk 15 0 .rw 0xFA50 none]⟩,
    ⟨0x070, [(0x4, 8)], true, false, false, [fk 8 0 .rw 0x80 (some (0, 256))]⟩,
    ⟨0x100, [(0x10, 8)], true, false, false, [⟨31, 24, .ro, fun i _ => ([20, 3, 5, 2, 4, 3, 3, 12] : List Nat).getD i 0, none⟩, ⟨23, 0, .rw, fun i _ => ([0, 0, 400, 0, 400, 20000, 20000, 80000] : List Nat).getD i 0, none⟩]⟩,
    ⟨0x104, [(0x10, 8)], false, false, false, [fk 31 16 .ro 0 none, fk 15 6 .ro 0 none, fk 5 0 .ro 0 none]⟩,
    ⟨0x108, [(0x10, 8)], false, false, false, [fk 23 0 .ro 0 none]⟩,
    ⟨0x200, [(0x10, 4)], true, false, false, [fk 15 0 .rw 0xFFFF none]⟩,
    ⟨0x204, [(0x10, 4)], false, false, false, [fk 31 0 .ro 0 none]⟩ ]

/-- The register rows of page THM from offset 0x040 on. -/
def rowsTHM : List RegRow :=
  [ ⟨0x040, [], false, false, false, [fk 0 0 .rw 0 none]⟩,
    ⟨0x044, [], false, false, false, [fk 15 0 .rw 0xFFFF none]⟩,
    ⟨0x048, [], false, false, false, [fk 15 0 .rw 0x5F0 none]⟩,
    ⟨0x04C, [], false, false, false, [fk 15 0 .rw 0x690 none]⟩,
    ⟨0x050, [], false, false, false, [fk 15 0 .rw 0x730 none]⟩,
    ⟨0x054, [], false, false, false, [fk 7 0 .rw 0x30 (some (16, 160))]⟩,
    ⟨0x058, [], false, false, false, [fk 19 16 .ro 0 none, fk 15 0 .ro 0 none]⟩,
    ⟨0x05C, [], false, false, false, [fk 2 2 .ro 0 none, fk 1 1 .ro 0 none, fk 0 0 .ro 0 none]⟩,
    ⟨0x060, [], false, false, false, [fk 15 0 .ro 0x8000 none]⟩,
    ⟨0x064, [], false, false, false, [fk 31 0 .ro 0 none]⟩,
    ⟨0x100, [(0x4, 16)], false, false, false, [fk 31 16 .ro 0 none, fk 1 0 .ro 0 none]⟩,
    ⟨0x140, [(0x4, 16)], false, false, false, [fk 15 0 .ro 0 none]⟩ ]

/-- The register rows of page CAL from offset 0x040 on. -/
def rowsCAL : List RegRow :=
  [ ⟨0x040, [], true, false, false, [fk 0 0 .rw 0 none]⟩,
    ⟨0x044, [], false, false, false, [fk 15 0 .rw 60 (some (1, 65535))]⟩,
    ⟨0x100, [(0x20, 5)], false, false, false, [fk 15 8 .rw 0x40 (some (8, 255)), fk 0 0 .rw 1 none]⟩,
    ⟨0x104, [(0x20, 5)], false, false, false, [fk 24 16 .wo 0 none, fk 2 2 .w1s 0 none, fk 1 1 .w1s 0 none, fk 0 0 .w1s 0 none]⟩,
    ⟨0x108, [(0x20, 5)], false, false, false, [fk 31 23 .w1c 0 none, fk 21 20 .ro 0 none, fk 18 18 .ro 0 none, fk 17 17 .ro 0 none, ⟨8, 0, .ro, fun i _ => ([0xFF, 1, 0xF, 0x1FF, 1] : List Nat).getD i 0, none⟩]⟩,
    ⟨0x10C, [(0x20, 5)], false, false, false, [fk 8 0 .ro 0 none]⟩,
    ⟨0x110, [(0x20, 5)], false, false, false, [fk 31 0 .ro 0 none]⟩,
    ⟨0x114, [(0x20, 5)], false, false, true, [fk 31 0 .ro 0 none]⟩,
    ⟨0x118, [(0x20, 5)], false, false, false, [fk 31 0 .ro 0 none]⟩,
    ⟨0x11C, [(0x20, 5)], false, false, false, [fk 15 0 .ro 0 none]⟩,
    ⟨0x400, [(0x4, 72)], false, false, false, [⟨11, 0, .rw, fun i j => ((Config.trimWord (0x32400 + 0x4 * i)).extractLsb 11 0).toNat + 0 * j, some (640, 1535)⟩]⟩,
    ⟨0x540, [(0x4, 16)], false, false, false, [fk 15 0 .rw 0 none]⟩,
    ⟨0x580, [(0x8, 4)], false, false, false, [⟨29, 16, .rw, fun i j => ((Config.trimWord (0x32580 + 0x8 * i)).extractLsb 29 16).toNat + 0 * j, none⟩, ⟨13, 0, .rw, fun i j => ((Config.trimWord (0x32580 + 0x8 * i)).extractLsb 13 0).toNat + 0 * j, none⟩]⟩,
    ⟨0x584, [(0x8, 4)], false, false, false, [fk 31 16 .rw 0x8000 (some (16384, 65535)), fk 15 0 .rw 0x8000 (some (16384, 65535))]⟩,
    ⟨0x600, [(0x4, 76)], false, false, false, [fk 23 16 .rw 0 none, fk 15 8 .rw 0 none, fk 7 0 .rw 0 none]⟩ ]

/-- The register rows of page PAR from offset 0x040 on. -/
def rowsPAR : List RegRow :=
  [ ⟨0x040, [], false, false, false, [fk 9 9 .rw 1 none, fk 8 8 .rw 1 none, fk 5 4 .rw 2 (some (1, 2)), fk 1 1 .rw 1 none, fk 0 0 .rw 0 none]⟩,
    ⟨0x044, [], false, false, false, [fk 15 0 .rw 0x640 (some (1600, 20000))]⟩,
    ⟨0x048, [], false, false, false, [fk 31 24 .rw 50 none, fk 23 16 .rw 30 (some (20, 255)), fk 15 8 .rw 100 none, fk 7 0 .rw 10 (some (1, 255))]⟩,
    ⟨0x04C, [], false, false, false, [fk 31 16 .wo 0 none, fk 3 0 .wo 0 none]⟩,
    ⟨0x050, [], false, false, false, [fk 31 28 .ro 0 none, fk 21 20 .ro 0 none, fk 19 16 .ro 0 none, fk 10 10 .ro 0 none, fk 9 9 .ro 0 none, fk 8 8 .ro 0 none, fk 5 4 .ro 0 none, fk 2 2 .ro 0 none, fk 1 1 .ro 0 none, fk 0 0 .ro 0 none]⟩,
    ⟨0x054, [], false, false, false, [fk 31 16 .ro 0 none, fk 10 8 .ro 0 none, fk 3 0 .ro 0 none]⟩,
    ⟨0x058, [], false, false, true, [fk 31 0 .ro 0 none]⟩,
    ⟨0x05C, [], false, false, false, [fk 31 0 .ro 0 none]⟩,
    ⟨0x060, [], false, false, false, [fk 31 0 .ro 0 none]⟩,
    ⟨0x064, [], false, false, false, [fk 15 0 .ro 0 none]⟩,
    ⟨0x068, [], false, false, false, [fk 31 16 .ro 0 none, fk 15 0 .ro 0 none]⟩,
    ⟨0x06C, [], false, false, false, [fk 31 0 .ro 0 none]⟩,
    ⟨0x070, [], false, false, false, [fk 15 0 .ro 0 none]⟩,
    ⟨0x074, [], false, false, true, [fk 31 0 .ro 0 none]⟩,
    ⟨0x078, [], false, false, false, [fk 31 0 .ro 0 none]⟩,
    ⟨0x07C, [], false, false, true, [fk 31 0 .ro 0 none]⟩,
    ⟨0x080, [], false, false, false, [fk 31 0 .ro 0 none]⟩ ]

/-- The register rows of page PLK from offset 0x040 on. -/
def rowsPLK : List RegRow :=
  [ ⟨0x040, [], false, false, false, [fk 31 16 .ro 0 none, fk 11 8 .ro 0 none, fk 0 0 .ro 0 none]⟩,
    ⟨0x044, [], false, false, false, [fk 3 0 .rw 0xF none]⟩,
    ⟨0x048, [], false, false, false, [fk 31 0 .ro 0 none]⟩,
    ⟨0x04C, [], false, false, false, [fk 31 0 .ro 0 none]⟩,
    ⟨0x050, [], false, false, false, [fk 15 0 .ro 0 none]⟩,
    ⟨0x054, [], false, false, false, [fk 7 0 .ro 0 none]⟩ ]

/-- The register rows of page SBP from offset 0x040 on. -/
def rowsSBP : List RegRow :=
  [ ⟨0x040, [], false, false, false, [fk 8 8 .rw 0 none]⟩,
    ⟨0x044, [], false, false, false, [fk 1 0 .ro 0 none]⟩,
    ⟨0x048, [], false, false, false, [fk 31 0 .ro 0 none]⟩,
    ⟨0x04C, [], false, false, false, [fk 31 16 .ro 0 none, fk 15 0 .ro 0 none]⟩,
    ⟨0x050, [], false, false, false, [fk 31 0 .ro 0 none]⟩,
    ⟨0x054, [], false, false, false, [fk 31 16 .ro 0 none, fk 7 0 .ro 0 none]⟩,
    ⟨0x058, [], false, false, false, [fk 31 0 .ro 0 none]⟩ ]

/-- The register rows of page CHN from offset 0x040 on. -/
def rowsCHN : List RegRow :=
  [ ⟨0x040, [], false, false, false, [fk 5 0 .ro 0 none]⟩,
    ⟨0x044, [], false, false, false, [fk 2 2 .ro 0 none, fk 1 1 .ro 0 none, fk 0 0 .ro 0 none]⟩,
    ⟨0x048, [], false, false, false, [fk 2 2 .rw 0 none, fk 1 1 .rw 0 none, fk 0 0 .rw 0 none]⟩,
    ⟨0x04C, [], false, false, false, [fk 15 0 .rw 0 none]⟩,
    ⟨0x050, [], false, false, true, [fk 31 0 .ro 0 none]⟩,
    ⟨0x054, [], false, false, false, [fk 31 0 .ro 0 none]⟩,
    ⟨0x058, [], false, false, true, [fk 31 0 .ro 0 none]⟩,
    ⟨0x05C, [], false, false, false, [fk 31 0 .ro 0 none]⟩,
    ⟨0x060, [], false, false, true, [fk 31 0 .ro 0 none]⟩,
    ⟨0x064, [], false, false, false, [fk 31 0 .ro 0 none]⟩,
    ⟨0x068, [], false, false, false, [fk 31 16 .ro 0 none, fk 1 1 .ro 0 none, fk 0 0 .ro 0 none]⟩ ]

/-- The register rows of page DBG from offset 0x040 on. -/
def rowsDBG : List RegRow :=
  [ ⟨0x040, [], false, false, false, [fk 31 16 .rw 0x3E8 (some (1, 65535)), fk 13 13 .rw 0 none, fk 12 12 .rw 0 none, fk 9 8 .rw 1 (some (0, 2)), fk 6 0 .rw 0 (some (0, 75))]⟩,
    ⟨0x044, [], false, false, false, [fk 31 0 .ro 0 none]⟩,
    ⟨0x048, [], false, false, false, [fk 2 2 .ro 0 none, fk 1 1 .ro 0 none, fk 0 0 .ro 0 none]⟩,
    ⟨0x04C, [], false, false, false, [⟨31, 0, .ro, fun i j => 0x18210000 + Config.idcodeLow.toNat + 0 * j * i, none⟩]⟩,
    ⟨0x050, [], false, false, false, [fk 0 0 .w1s 0 none]⟩ ]

/-- The rows of the common page header (Table 4.1). ID, CAPS and the reset values of STATE and ACCESS depend on the page and
are given by `headerReset`. -/
def rowsHeader : List RegRow :=
  [ ⟨0x000, [], false, false, false, [fk 31 0 .ro 0 none]⟩,
    ⟨0x004, [], false, false, false, [fk 31 0 .ro 0 none]⟩,
    ⟨0x008, [], false, false, false, [fk 31 8 .rw 0 none, fk 1 1 .wo 0 none, fk 0 0 .rw 0 none]⟩,
    ⟨0x00C, [], false, false, false, [fk 31 8 .ro 0 none, fk 5 0 .ro 0 none]⟩,
    ⟨0x010, [], false, false, false, [fk 31 0 .ro 0 none]⟩,
    ⟨0x014, [], false, false, false, [fk 31 0 .w1c 0 none]⟩,
    ⟨0x018, [], false, false, false, [fk 31 0 .rw 0 none]⟩,
    ⟨0x01C, [], false, false, false, [fk 31 0 .w1s 0 none]⟩,
    ⟨0x020, [], false, false, false, [fk 10 8 .rw 0 none, fk 1 0 .rw 0 none]⟩,
    ⟨0x024, [], false, false, false, [fk 20 0 .ro 0 none]⟩,
    ⟨0x028, [], false, false, false, [fk 1 0 .rw 0 none]⟩,
    ⟨0x02C, [], false, false, false, [fk 31 10 .ro 0 none, fk 7 0 .ro 0 none]⟩ ]

/-- The rows of a page from offset 0x040 on; empty for MSX and for the reserved pages (R89, R98). -/
def pageRows (p : Nat) : List RegRow :=
  match p with
  | 0x00 => rowsDEV | 0x01 => rowsRSC | 0x02 => rowsPWR | 0x03 => rowsCLK | 0x04 => rowsTRM
  | 0x05 => rowsCLS | 0x06 => rowsEVT | 0x07 => rowsTMB | 0x08 => rowsHIF | 0x09 => rowsDMA
  | 0x0B => rowsSBP | 0x0C => rowsCHN | 0x0D => rowsPAR | 0x0E => rowsPLK | 0x0F => rowsCDC
  | 0x10 => rowsIMG | 0x11 => rowsSCN ++ rowsSCN0
  | 0x12 | 0x13 | 0x14 | 0x15 | 0x16 | 0x17 | 0x18 => rowsSCN
  | 0x19 => rowsNZC | 0x1A => rowsPOS | 0x1B => rowsLCK
  | 0x1C | 0x1D | 0x1E | 0x1F | 0x20 | 0x21 | 0x22 | 0x23 => rowsFIRE
  | 0x24 => rowsZLK
  | 0x25 | 0x26 | 0x27 | 0x28 | 0x29 | 0x2A | 0x2B | 0x2C => rowsZLB
  | 0x2D => rowsMEM | 0x2E => rowsMCH | 0x2F => rowsARB | 0x30 => rowsCRT | 0x31 => rowsTHM
  | 0x32 => rowsCAL | 0x33 => rowsDBG
  | _ => []

/-- The indices at which a row of the given dimensions holds the offset `d` (counted from the row's own offset). -/
def rowIndex (dims : List (Nat × Nat)) (d : Nat) : Option (Nat × Nat) :=
  match dims with
  | [] => if d = 0 then some (0, 0) else none
  | [(s, n)] => if d % s = 0 ∧ d / s < n then some (d / s, 0) else none
  | (s, n) :: (s2, n2) :: _ =>
    if d / s < n ∧ (d % s) % s2 = 0 ∧ (d % s) / s2 < n2 then some (d / s, (d % s) / s2) else none

/-- The row of a list that holds a page offset, with its indices. -/
def findRow : List RegRow → Nat → Option (RegRow × Nat × Nat)
  | [], _ => none
  | r :: rs, off =>
    if r.off ≤ off then
      match rowIndex r.dims (off - r.off) with
      | some ij => some (r, ij)
      | none => findRow rs off
    else findRow rs off

/-- The row that holds a BAR 0 offset within the pages. The registers of arbiter requesters that Tables 12.3 to 12.5 do not
list are reserved (R313). -/
def regRow (a : Nat) : Option (RegRow × Nat × Nat) :=
  let p := a / 0x1000
  let off := a % 0x1000
  if p < 0x34 then
    if off < 0x040 then findRow rowsHeader off
    else match findRow (pageRows p) off with
      | some (r, i, j) =>
        if p = 0x2F ∧ 0x200 ≤ off ∧ arbRequesters i ≤ j then none else some (r, i, j)
      | none => none
  else none

/-- What a row's fields hold at reset, as one word. -/
def rowReset (r : RegRow) (i j : Nat) : Word :=
  r.fields.foldl (fun w f => w ||| BitVec.ofNat 32 (f.reset i j % 2 ^ (f.hi + 1 - f.lo) * 2 ^ f.lo)) 0

/-- The bits of a row's fields of one access type. -/
def rowMask (r : RegRow) (k : Access) : Word :=
  r.fields.foldl (fun w f => if f.kind = k then w ||| BitVec.ofNat 32 ((2 ^ (f.hi + 1 - f.lo) - 1) * 2 ^ f.lo) else w) 0

/-- Every field that a write would set lies in its allowed range (R7, R96). -/
def rowInRange (r : RegRow) (w : Word) : Bool :=
  r.fields.all fun f => match f.range with
    | none => true
    | some (a, b) => let v := w.toNat / 2 ^ f.lo % 2 ^ (f.hi + 1 - f.lo); decide (a ≤ v) && decide (v ≤ b)

/-! ### The page map (Table 4.6) -/

/-- The island code of a page (Table 4.6, R70): AUX 0, HSK 1, MEM 2, PIX 3, FIRE 4, ZL 5, PLK 6, HOST 7. -/
def pageIsland (p : Nat) : Nat :=
  if p ≤ 0x04 then 0 else if p ≤ 0x07 then 3 else if p ≤ 0x0A then 7 else if p ≤ 0x0C then 0
  else if p ≤ 0x0E then 6 else if p ≤ 0x19 then 3 else if p ≤ 0x23 then 4 else if p ≤ 0x2C then 5
  else if p ≤ 0x2E then 2 else if p = 0x2F then 3 else if p ≤ 0x32 then 1 else 3

/-- CAPS.LOCKSTEP_CAP of a page (Table 4.6); it is also the reset value of ACCESS.LOCKSTEP. -/
def pageLockstep (p : Nat) : Bool :=
  p = 0x05 || p = 0x09 || p = 0x0F || (decide (0x10 ≤ p) && decide (p ≤ 0x2C)) || p = 0x2F || p = 0x30

/-- CAPS.SB_ALWAYS of a page (Table 4.6). -/
def pageSbAlways (p : Nat) : Bool := p = 0x01 || p = 0x0B || p = 0x0C || p = 0x0D || p = 0x31

/-- ACCESS.SB_WRITE of a page at reset (Table 4.6). -/
def pageSbReset (p : Nat) : Bool := pageSbAlways p || p = 0x02 || p = 0x05 || p = 0x06

/-- CAPS of a page (Table 4.2, R206, R270, R335). -/
def pageCaps (p : Nat) : Nat :=
  (if 0x11 ≤ p ∧ p ≤ 0x18 then 0x100000 else if 0x1C ≤ p ∧ p ≤ 0x23 then 0x80000 else 0)
  + (if p = 0x1A then 0x38 else if p = 0x2E then 0xF8 else 0)
  + (if pageSbAlways p then 4 else 0) + (if pageLockstep p then 2 else 0)
  + (if (pageRows p).any (·.clasp) then 1 else 0)

/-- The reset value of a header register (Table 4.1): STATE is IDLE with IN_RESET, but for the AUX pages, whose island is
released whenever anything can read it. -/
def headerReset (p off : Nat) : Word :=
  match off with
  | 0x000 => BitVec.ofNat 32 (pageIsland p * 0x1000000 + 0x10000 + p)
  | 0x004 => BitVec.ofNat 32 (pageCaps p)
  | 0x00C => if pageIsland p = 0 then 1 else 9
  | 0x028 => BitVec.ofNat 32 ((if pageLockstep p then 2 else 0) + (if pageSbReset p then 1 else 0))
  | _ => 0

/-- What a BAR 0 word holds when nothing has written it: the reset value of its register (the tables' Reset column), GAIN 0x800
for a tone-correction word (Table 7.3), every vector masked in the MSI-X table (R123), and 0 elsewhere. -/
def resetVal (a : Nat) : Word :=
  if a < 0x34000 then
    if a % 0x1000 < 0x040 then headerReset (a / 0x1000) (a % 0x1000)
    else if 0x800 ≤ a ∧ a < 0x1000 then (if a % 16 = 12 then 1 else 0)
    else match regRow a with
      | some (r, i, j) => rowReset r i j
      | none => 0
  else if 0x1000000 ≤ a ∧ a < 0x1400000 then 0x800
  else 0

/-- A field of a register: the register's BAR 0 offset and its bits `hi` to `lo`. -/
structure Fld where
  addr : Nat
  hi : Nat
  lo : Nat
  deriving DecidableEq, Repr

end Sys2Proof.Machine

/-! ### The registers by name: page, then register, then its indices (the bar of an SCN, FIRE or ZLB page first) -/
namespace Sys2Proof.Machine.R

/-- Offset of a header register of page `p`. -/
def CTRL (p : Nat) : Nat := p * 0x1000 + 0x008
def STATE (p : Nat) : Nat := p * 0x1000 + 0x00C
def EVT_RAW (p : Nat) : Nat := p * 0x1000 + 0x010
def EVT_PEND (p : Nat) : Nat := p * 0x1000 + 0x014
def EVT_MASK (p : Nat) : Nat := p * 0x1000 + 0x018
def EVT_FORCE (p : Nat) : Nat := p * 0x1000 + 0x01C
def EVT_ROUTE (p : Nat) : Nat := p * 0x1000 + 0x020
def CLASP_TAG (p : Nat) : Nat := p * 0x1000 + 0x024
def ACCESS (p : Nat) : Nat := p * 0x1000 + 0x028
def ERR_CODE (p : Nat) : Nat := p * 0x1000 + 0x02C
def DEV_DEVSTATE : Nat := 0x40
def DEV_OUTGRP_EN : Nat := 0x60
def DEV_OUTGRP_ACT : Nat := 0x64
def DEV_OUTGRP_SAFE : Nat := 0x68
def DEV_GPIO_OE : Nat := 0x6C
def DEV_GPIO_OUT : Nat := 0x70
def DEV_GPIO_IN : Nat := 0x74
def DEV_STRAPS : Nat := 0x78
def DEV_WDT_CTRL : Nat := 0x80
def DEV_WDT_PERIOD : Nat := 0x84
def DEV_WDT_KICK : Nat := 0x88
def DEV_WDT_STAT : Nat := 0x8C
def RSC_RST_CAUSE : Nat := 0x1040
def RSC_SWRST : Nat := 0x1044
def RSC_BOOT_CTRL : Nat := 0x1048
def RSC_ISL_HOLD : Nat := 0x104C
def RSC_WDT_STOP : Nat := 0x1050
def PWR_RAIL_STAT : Nat := 0x2040
def PWR_VIN_MV : Nat := 0x2044
def PWR_VAUX_MV : Nat := 0x2048
def PWR_REG_FAULT : Nat := 0x204C
def CLK_ISL_STAT (i : Nat) : Nat := 0x3040 + 0x4 * i
def CLK_HOST_REF : Nat := 0x3060
def TRM_TRIM_STAT : Nat := 0x4040
def TRM_TRIM_CRC : Nat := 0x4044
def TRM_OTP_CRC : Nat := 0x4048
def CLS_NEXT_SEQ : Nat := 0x5040
def CLS_SLOT_SUMMARY : Nat := 0x5044
def CLS_APPLY_MAX : Nat := 0x5048
def CLS_LATE_CNT : Nat := 0x504C
def CLS_ABORT_CNT : Nat := 0x5050
def CLS_CMD (i : Nat) : Nat := 0x5100 + 0x40 * i
def CLS_COND (i : Nat) : Nat := 0x5104 + 0x40 * i
def CLS_STAMP_LO (i : Nat) : Nat := 0x5108 + 0x40 * i
def CLS_STAMP_HI (i : Nat) : Nat := 0x510C + 0x40 * i
def CLS_ADDR (i : Nat) : Nat := 0x5110 + 0x40 * i
def CLS_DATA (i : Nat) : Nat := 0x5114 + 0x40 * i
def CLS_STATUS (i : Nat) : Nat := 0x5118 + 0x40 * i
def CLS_SEQ (i : Nat) : Nat := 0x511C + 0x40 * i
def CLS_APPLY_TIME_LO (i : Nat) : Nat := 0x5120 + 0x40 * i
def CLS_APPLY_TIME_HI (i : Nat) : Nat := 0x5124 + 0x40 * i
def CLS_EFF_LINE (i : Nat) : Nat := 0x5128 + 0x40 * i
def CLS_ABORT_INFO (i : Nat) : Nat := 0x512C + 0x40 * i
def EVT_SEQ : Nat := 0x6040
def EVT_LOST : Nat := 0x6044
def EVT_PIN_CFG : Nat := 0x6048
def EVT_PAIR_ROUTE : Nat := 0x604C
def EVT_PEND_PAGES_LO : Nat := 0x6050
def EVT_PEND_PAGES_HI : Nat := 0x6054
def EVT_CLASS_PEND : Nat := 0x6058
def EVT_STATS_CFG : Nat := 0x605C
def EVT_LOG_FROM : Nat := 0x6060
def TMB_DEVTIME_LO : Nat := 0x7040
def TMB_DEVTIME_HI : Nat := 0x7044
def TMB_LINE64_LO (i : Nat) : Nat := 0x7100 + 0x10 * i
def TMB_LINE64_HI (i : Nat) : Nat := 0x7104 + 0x10 * i
def TMB_BOUND_TIME_LO (i : Nat) : Nat := 0x7108 + 0x10 * i
def TMB_BOUND_TIME_HI (i : Nat) : Nat := 0x710C + 0x10 * i
def HIF_DEVSTATE_MIRROR : Nat := 0x8040
def HIF_LINK_STAT : Nat := 0x8044
def HIF_APERTURE : Nat := 0x8048
def HIF_BAR2_DROP : Nat := 0x804C
def HIF_BAR2_POISON : Nat := 0x8050
def DMA_RING_BASE_LO (i : Nat) : Nat := 0x9800 + 0x20 * i
def DMA_RING_BASE_HI (i : Nat) : Nat := 0x9804 + 0x20 * i
def DMA_RING_CFG (i : Nat) : Nat := 0x9808 + 0x20 * i
def DMA_RING_PROD (i : Nat) : Nat := 0x980C + 0x20 * i
def DMA_RING_CONS (i : Nat) : Nat := 0x9810 + 0x20 * i
def DMA_RING_DONE (i : Nat) : Nat := 0x9814 + 0x20 * i
def DMA_RING_POP (i : Nat) : Nat := 0x9818 + 0x20 * i
def DMA_RING_STAT (i : Nat) : Nat := 0x981C + 0x20 * i
def CDC_ENC_POLICY : Nat := 0xF040
def CDC_JOB_LANES : Nat := 0xF044
def CDC_POOL_BUSY : Nat := 0xF048
def CDC_POOL_STALL : Nat := 0xF04C
def CDC_ENC_BUSY : Nat := 0xF050
def CDC_PARKED_LO : Nat := 0xF054
def CDC_PARKED_HI : Nat := 0xF058
def CDC_NOGAIN_CNT : Nat := 0xF060
def CDC_BADDATA_CNT : Nat := 0xF064
def CDC_CTXERR_CNT : Nat := 0xF068
def CDC_CTX_BASE_LO (i : Nat) : Nat := 0xF100 + 0x10 * i
def CDC_CTX_BASE_HI (i : Nat) : Nat := 0xF104 + 0x10 * i
def CDC_JOBS (i : Nat) : Nat := 0xF108 + 0x10 * i
def IMG_STORE_BASE : Nat := 0x10040
def IMG_STORE_SIZE : Nat := 0x10044
def IMG_STORE_FREE : Nat := 0x10048
def IMG_STORE_EVICT : Nat := 0x1004C
def IMG_DIR_FREE : Nat := 0x10050
def IMG_TILE_ERR_CNT : Nat := 0x10054
def IMG_CRING_BASE (i : Nat) : Nat := 0x10100 + 0x20 * i
def IMG_CRING_CFG (i : Nat) : Nat := 0x10104 + 0x20 * i
def IMG_WR_LINE (i : Nat) : Nat := 0x10108 + 0x20 * i
def IMG_YIELD (i : Nat) : Nat := 0x1010C + 0x20 * i
def IMG_YIELD_MIN (i : Nat) : Nat := 0x10110 + 0x20 * i
def IMG_LANES (i : Nat) : Nat := 0x10114 + 0x20 * i
def IMG_SLOW_CNT (i : Nat) : Nat := 0x10118 + 0x20 * i
def IMG_PLANE_STAT (i : Nat) : Nat := 0x10400 + 0x4 * i
def SCN_CFG (b : Nat) : Nat := 0x11040 + 0x1000 * b
def SCN_MASK_OFF (b : Nat) : Nat := 0x11044 + 0x1000 * b
def SCN_XSHIFT (b : Nat) : Nat := 0x11048 + 0x1000 * b
def SCN_ROW_EN (b : Nat) : Nat := 0x1104C + 0x1000 * b
def SCN_ROW_OFF (b : Nat) (i : Nat) : Nat := 0x11050 + 0x1000 * b + 0x4 * i
def SCN_FETCH (b : Nat) : Nat := 0x11090 + 0x1000 * b
def SCN_TAIL (b : Nat) : Nat := 0x11094 + 0x1000 * b
def SCN_JOB_CLINE (b : Nat) : Nat := 0x11098 + 0x1000 * b
def SCN_JOB_LINE0 (b : Nat) : Nat := 0x1109C + 0x1000 * b
def SCN_JOB_INDEX_LO (b : Nat) : Nat := 0x110A0 + 0x1000 * b
def SCN_JOB_INDEX_HI (b : Nat) : Nat := 0x110A4 + 0x1000 * b
def SCN_LINE (b : Nat) : Nat := 0x110A8 + 0x1000 * b
def SCN_UNDER_CNT (b : Nat) : Nat := 0x110AC + 0x1000 * b
def SCN_INCOMPL_CNT (b : Nat) : Nat := 0x110B0 + 0x1000 * b
def SCN_ROWINV_CNT (b : Nat) : Nat := 0x110B4 + 0x1000 * b
def SCN_CYC (b : Nat) : Nat := 0x110B8 + 0x1000 * b
def SCN_CURVE (b : Nat) (i : Nat) (j : Nat) : Nat := 0x11220 + 0x1000 * b + 0x20 * i + 0x4 * j
def SCN_MASK_CMD : Nat := 0x11400
def SCN_MASK_CRC (i : Nat) : Nat := 0x11404 + 0x4 * i
def SCN_MASK_STAT : Nat := 0x1140C
def NZC_CFG : Nat := 0x19040
def NZC_REDIST : Nat := 0x19044
def NZC_REGION : Nat := 0x19048
def NZC_TSTALE : Nat := 0x1904C
def NZC_MISS_THR : Nat := 0x19050
def NZC_PASS_CMD : Nat := 0x19054
def NZC_AUTO_MISS_CNT : Nat := 0x19058
def NZC_SWEEP_LATE_CNT : Nat := 0x1905C
def NZC_BAR_CFG (i : Nat) : Nat := 0x19100 + 0x40 * i
def NZC_TEMP (i : Nat) : Nat := 0x19104 + 0x40 * i
def NZC_KW (i : Nat) : Nat := 0x19108 + 0x40 * i
def NZC_GLIM (i : Nat) : Nat := 0x1910C + 0x40 * i
def NZC_SETTLE_LO (i : Nat) : Nat := 0x19110 + 0x40 * i
def NZC_SETTLE_HI (i : Nat) : Nat := 0x19114 + 0x40 * i
def NZC_LAST_WC_LO (i : Nat) : Nat := 0x19118 + 0x40 * i
def NZC_LAST_WC_HI (i : Nat) : Nat := 0x1911C + 0x40 * i
def NZC_STALE_LO (i : Nat) : Nat := 0x19120 + 0x40 * i
def NZC_STALE_HI (i : Nat) : Nat := 0x19124 + 0x40 * i
def NZC_DENS_CNT (i : Nat) : Nat := 0x19128 + 0x40 * i
def NZC_APPLY_LINE (i : Nat) : Nat := 0x1912C + 0x40 * i
def NZC_LIMIT_NOZ (i : Nat) : Nat := 0x19130 + 0x40 * i
def POS_WEB_SEL : Nat := 0x1A040
def POS_WEB_COUNT_LO : Nat := 0x1A044
def POS_WEB_COUNT_HI : Nat := 0x1A048
def POS_SRC_DIFF : Nat := 0x1A04C
def POS_CH_CFG (i : Nat) : Nat := 0x1A100 + 0x80 * i
def POS_REV_LEN (i : Nat) : Nat := 0x1A104 + 0x80 * i
def POS_REF_VAL (i : Nat) : Nat := 0x1A108 + 0x80 * i
def POS_TW_CFG (i : Nat) : Nat := 0x1A10C + 0x80 * i
def POS_ZERO_TO (i : Nat) : Nat := 0x1A110 + 0x80 * i
def POS_AMP_WIN (i : Nat) : Nat := 0x1A114 + 0x80 * i
def POS_AMP_NOM (i : Nat) : Nat := 0x1A118 + 0x80 * i
def POS_AMP_CFG (i : Nat) : Nat := 0x1A11C + 0x80 * i
def POS_POS_LO (i : Nat) : Nat := 0x1A120 + 0x80 * i
def POS_POS_HI (i : Nat) : Nat := 0x1A124 + 0x80 * i
def POS_REV_POS (i : Nat) : Nat := 0x1A128 + 0x80 * i
def POS_REV_CNT (i : Nat) : Nat := 0x1A12C + 0x80 * i
def POS_SPEED_LO (i : Nat) : Nat := 0x1A130 + 0x80 * i
def POS_SPEED_HI (i : Nat) : Nat := 0x1A134 + 0x80 * i
def POS_STAT (i : Nat) : Nat := 0x1A138 + 0x80 * i
def POS_ERR_CNT (i : Nat) : Nat := 0x1A13C + 0x80 * i
def POS_TRIG_CFG (i : Nat) : Nat := 0x1A400 + 0x40 * i
def POS_DIST_LO (i : Nat) : Nat := 0x1A404 + 0x40 * i
def POS_DIST_HI (i : Nat) : Nat := 0x1A408 + 0x40 * i
def POS_LAT_WC_LO (i : Nat) : Nat := 0x1A40C + 0x40 * i
def POS_LAT_WC_HI (i : Nat) : Nat := 0x1A410 + 0x40 * i
def POS_LAT_FRAC (i : Nat) : Nat := 0x1A414 + 0x40 * i
def POS_LAT_TIME_LO (i : Nat) : Nat := 0x1A418 + 0x40 * i
def POS_LAT_TIME_HI (i : Nat) : Nat := 0x1A41C + 0x40 * i
def POS_LAT_CNT (i : Nat) : Nat := 0x1A420 + 0x40 * i
def POS_DROP_CNT (i : Nat) : Nat := 0x1A424 + 0x40 * i
def LCK_SLIP_CNT : Nat := 0x1B040
def LCK_BAR_CFG (i : Nat) : Nat := 0x1B100 + 0x40 * i
def LCK_SPACING_LO (i : Nat) : Nat := 0x1B104 + 0x40 * i
def LCK_SPACING_HI (i : Nat) : Nat := 0x1B108 + 0x40 * i
def LCK_OFFSET_LO (i : Nat) : Nat := 0x1B10C + 0x40 * i
def LCK_OFFSET_HI (i : Nat) : Nat := 0x1B110 + 0x40 * i
def LCK_CMP_FRAC (i : Nat) : Nat := 0x1B114 + 0x40 * i
def LCK_CMP_LO (i : Nat) : Nat := 0x1B118 + 0x40 * i
def LCK_CMP_HI (i : Nat) : Nat := 0x1B11C + 0x40 * i
def LCK_LINE (i : Nat) : Nat := 0x1B120 + 0x40 * i
def LCK_LAST_TIME_LO (i : Nat) : Nat := 0x1B124 + 0x40 * i
def LCK_LAST_TIME_HI (i : Nat) : Nat := 0x1B128 + 0x40 * i
def LCK_NEXT_TIME_LO (i : Nat) : Nat := 0x1B12C + 0x40 * i
def LCK_NEXT_TIME_HI (i : Nat) : Nat := 0x1B130 + 0x40 * i
def LCK_SKIP_CNT (i : Nat) : Nat := 0x1B134 + 0x40 * i
def LCK_STAT (i : Nat) : Nat := 0x1B138 + 0x40 * i
def FIRE_WIDTH (b : Nat) : Nat := 0x1C040 + 0x1000 * b
def FIRE_WDOG (b : Nat) : Nat := 0x1C044 + 0x1000 * b
def FIRE_MLP_FLOOR (b : Nat) : Nat := 0x1C048 + 0x1000 * b
def FIRE_MLP (b : Nat) : Nat := 0x1C04C + 0x1000 * b
def FIRE_DEFER (b : Nat) : Nat := 0x1C050 + 0x1000 * b
def FIRE_SEL (b : Nat) : Nat := 0x1C054 + 0x1000 * b
def FIRE_SEL_CMD (b : Nat) : Nat := 0x1C058 + 0x1000 * b
def FIRE_HTEMP (b : Nat) : Nat := 0x1C05C + 0x1000 * b
def FIRE_HTEMP_CFG (b : Nat) : Nat := 0x1C060 + 0x1000 * b
def FIRE_SEGDLY (b : Nat) (i : Nat) : Nat := 0x1C064 + 0x1000 * b + 0x4 * i
def FIRE_STITCH (b : Nat) (i : Nat) : Nat := 0x1C06C + 0x1000 * b + 0x4 * i
def FIRE_WEIGHT (b : Nat) (i : Nat) : Nat := 0x1C080 + 0x1000 * b + 0x4 * i
def FIRE_BUDGET (b : Nat) : Nat := 0x1C0A0 + 0x1000 * b
def FIRE_LINES_FIRED (b : Nat) : Nat := 0x1C0C0 + 0x1000 * b
def FIRE_OVERSPEED_CNT (b : Nat) : Nat := 0x1C0C4 + 0x1000 * b
def FIRE_DEFER_CNT (b : Nat) : Nat := 0x1C0C8 + 0x1000 * b
def FIRE_DEFER_PEAK (b : Nat) : Nat := 0x1C0CC + 0x1000 * b
def FIRE_BUDGET_CNT (b : Nat) : Nat := 0x1C0D0 + 0x1000 * b
def FIRE_HSUPP_CNT (b : Nat) : Nat := 0x1C0D4 + 0x1000 * b
def FIRE_CUT_CNT (b : Nat) : Nat := 0x1C0D8 + 0x1000 * b
def FIRE_SUPP_CNT (b : Nat) : Nat := 0x1C0DC + 0x1000 * b
def FIRE_HOT_LO (b : Nat) : Nat := 0x1C0E0 + 0x1000 * b
def FIRE_HOT_HI (b : Nat) : Nat := 0x1C0E4 + 0x1000 * b
def FIRE_STOPPED_LO (b : Nat) : Nat := 0x1C0E8 + 0x1000 * b
def FIRE_STOPPED_HI (b : Nat) : Nat := 0x1C0EC + 0x1000 * b
def FIRE_CUT (b : Nat) : Nat := 0x1C0F0 + 0x1000 * b
def FIRE_SLOT_CFG (b : Nat) (i : Nat) : Nat := 0x1C100 + 0x1000 * b + 0x10 * i
def FIRE_SLOT_HOME (b : Nat) (i : Nat) : Nat := 0x1C104 + 0x1000 * b + 0x10 * i
def FIRE_CAP_BASE_LO (b : Nat) : Nat := 0x1C140 + 0x1000 * b
def FIRE_CAP_BASE_HI (b : Nat) : Nat := 0x1C144 + 0x1000 * b
def FIRE_CAP_CTRL (b : Nat) : Nat := 0x1C148 + 0x1000 * b
def FIRE_CAP_STAMP (b : Nat) : Nat := 0x1C14C + 0x1000 * b
def FIRE_CAP_STAT (b : Nat) : Nat := 0x1C150 + 0x1000 * b
def FIRE_HMAP (b : Nat) (i : Nat) (j : Nat) : Nat := 0x1C200 + 0x1000 * b + 0x10 * i + 0x4 * j
def ZLK_CFG : Nat := 0x24040
def ZLK_RTT_MAX : Nat := 0x24044
def ZLK_TELEM_PER : Nat := 0x24048
def ZLK_TELEM_FWD : Nat := 0x2404C
def ZLK_TELEM_BAD : Nat := 0x24050
def ZLK_LANES_ACTIVE : Nat := 0x24054
def ZLB_LANE_EN (b : Nat) : Nat := 0x25040 + 0x1000 * b
def ZLB_SPARE_CFG (b : Nat) : Nat := 0x25044 + 0x1000 * b
def ZLB_SPARE_CMD (b : Nat) : Nat := 0x25048 + 0x1000 * b
def ZLB_SPARE_STAT (b : Nat) : Nat := 0x2504C + 0x1000 * b
def ZLB_CMD_CTRL (b : Nat) : Nat := 0x25050 + 0x1000 * b
def ZLB_CMD_STAT (b : Nat) : Nat := 0x25054 + 0x1000 * b
def ZLB_CMD_DATA (b : Nat) (i : Nat) : Nat := 0x25060 + 0x1000 * b + 0x4 * i
def ZLB_LANE_STAT (b : Nat) (i : Nat) : Nat := 0x25100 + 0x1000 * b + 0x20 * i
def ZLB_TX_PRESET (b : Nat) (i : Nat) : Nat := 0x25104 + 0x1000 * b + 0x20 * i
def ZLB_REPLAY_CNT (b : Nat) (i : Nat) : Nat := 0x25108 + 0x1000 * b + 0x20 * i
def ZLB_LOSS_CNT (b : Nat) (i : Nat) : Nat := 0x2510C + 0x1000 * b + 0x20 * i
def ZLB_LSUPP_CNT (b : Nat) (i : Nat) : Nat := 0x25110 + 0x1000 * b + 0x20 * i
def ZLB_RETRAIN_CNT (b : Nat) (i : Nat) : Nat := 0x25114 + 0x1000 * b + 0x20 * i
def ZLB_RX_ERR_CNT (b : Nat) (i : Nat) : Nat := 0x25118 + 0x1000 * b + 0x20 * i
def ZLB_LAST_GOOD (b : Nat) (i : Nat) : Nat := 0x2511C + 0x1000 * b + 0x20 * i
def ARB_MARGIN (i : Nat) : Nat := 0x2F100 + 0x40 * i
def ARB_STARVE (i : Nat) : Nat := 0x2F104 + 0x40 * i
def ARB_WC_BLOCK (i : Nat) : Nat := 0x2F108 + 0x40 * i
def ARB_BLOCK_MAX (i : Nat) : Nat := 0x2F10C + 0x40 * i
def ARB_STARVED (i : Nat) : Nat := 0x2F110 + 0x40 * i
def ARB_CUT (i : Nat) : Nat := 0x2F114 + 0x40 * i
def ARB_HOLDING (i : Nat) : Nat := 0x2F118 + 0x40 * i
def ARB_REQ_CFG (i : Nat) (j : Nat) : Nat := 0x2F200 + 0x100 * i + 0x10 * j
def ARB_MAX_HOLD (i : Nat) (j : Nat) : Nat := 0x2F204 + 0x100 * i + 0x10 * j
def ARB_REQ_CNT (i : Nat) (j : Nat) : Nat := 0x2F208 + 0x100 * i + 0x10 * j
def ARB_LATE_MAX (i : Nat) (j : Nat) : Nat := 0x2F20C + 0x100 * i + 0x10 * j
def MEM_STAT : Nat := 0x2D040
def MEM_CH_MAP : Nat := 0x2D044
def MEM_RD_CFG : Nat := 0x2D048
def MEM_SCRUB : Nat := 0x2D04C
def MEM_CE_CNT : Nat := 0x2D050
def MEM_UE_CNT : Nat := 0x2D054
def MEM_ERR_ADDR_LO : Nat := 0x2D058
def MEM_ERR_ADDR_HI : Nat := 0x2D05C
def MEM_ERR_INFO : Nat := 0x2D060
def MEM_RD_ACTIONS : Nat := 0x2D064
def MEM_RD_OVERFLOW : Nat := 0x2D068
def MEM_INIT_LEFT : Nat := 0x2D06C
def MCH_TRAIN (i : Nat) : Nat := 0x2E100 + 0x40 * i
def MCH_TRACK (i : Nat) : Nat := 0x2E104 + 0x40 * i
def MCH_WDQ (i : Nat) : Nat := 0x2E108 + 0x40 * i
def MCH_REFRESH (i : Nat) : Nat := 0x2E10C + 0x40 * i
def MCH_CE_CNT (i : Nat) : Nat := 0x2E110 + 0x40 * i
def MCH_UE_CNT (i : Nat) : Nat := 0x2E114 + 0x40 * i
def MCH_RD_ACT (i : Nat) : Nat := 0x2E118 + 0x40 * i
def MCH_MR4 (i : Nat) : Nat := 0x2E11C + 0x40 * i
def CRT_CORE_BUDGET : Nat := 0x30040
def CRT_CORE_FLOOR : Nat := 0x30044
def CRT_CORE_STAT : Nat := 0x30048
def CRT_THROTTLE : Nat := 0x3004C
def CRT_PEAK : Nat := 0x30050
def CRT_LINGER : Nat := 0x30054
def CRT_STARVE : Nat := 0x30058
def CRT_STARVED : Nat := 0x3005C
def CRT_BAR_GROUP : Nat := 0x30060
def CRT_SHARE (i : Nat) : Nat := 0x30070 + 0x4 * i
def CRT_CONS_CFG (i : Nat) : Nat := 0x30100 + 0x10 * i
def CRT_CONS_STAT (i : Nat) : Nat := 0x30104 + 0x10 * i
def CRT_CONS_LATE (i : Nat) : Nat := 0x30108 + 0x10 * i
def CRT_FGROUP_BUDGET (i : Nat) : Nat := 0x30200 + 0x10 * i
def CRT_FGROUP_OVER (i : Nat) : Nat := 0x30204 + 0x10 * i
def THM_CFG : Nat := 0x31040
def THM_SITE_EN : Nat := 0x31044
def THM_THR_THROTTLE : Nat := 0x31048
def THM_THR_STOP : Nat := 0x3104C
def THM_THR_CRIT : Nat := 0x31050
def THM_HYST : Nat := 0x31054
def THM_TEMP : Nat := 0x31058
def THM_TSTATE : Nat := 0x3105C
def THM_TPEAK : Nat := 0x31060
def THM_ROUNDS : Nat := 0x31064
def THM_SITE (i : Nat) : Nat := 0x31100 + 0x4 * i
def THM_SITE_RAW (i : Nat) : Nat := 0x31140 + 0x4 * i
def CAL_CFG : Nat := 0x32040
def CAL_PEND_MAX : Nat := 0x32044
def CAL_ITEM_CFG (i : Nat) : Nat := 0x32100 + 0x20 * i
def CAL_ITEM_CMD (i : Nat) : Nat := 0x32104 + 0x20 * i
def CAL_ITEM_STAT (i : Nat) : Nat := 0x32108 + 0x20 * i
def CAL_RUNNING (i : Nat) : Nat := 0x3210C + 0x20 * i
def CAL_RUN_CNT (i : Nat) : Nat := 0x32110 + 0x20 * i
def CAL_LAST_TIME_LO (i : Nat) : Nat := 0x32114 + 0x20 * i
def CAL_LAST_TIME_HI (i : Nat) : Nat := 0x32118 + 0x20 * i
def CAL_LAST_TEMP (i : Nat) : Nat := 0x3211C + 0x20 * i
def CAL_TAPCAL (i : Nat) : Nat := 0x32400 + 0x4 * i
def CAL_SENS_OFF (i : Nat) : Nat := 0x32540 + 0x4 * i
def CAL_ADC_OFF (i : Nat) : Nat := 0x32580 + 0x8 * i
def CAL_ADC_GAIN (i : Nat) : Nat := 0x32584 + 0x8 * i
def CAL_EQ (i : Nat) : Nat := 0x32600 + 0x4 * i
def DMA_STATUS_BASE_LO : Nat := 0x9040
def DMA_STATUS_BASE_HI : Nat := 0x9044
def DMA_STATUS_CTRL : Nat := 0x9048
def PAR_CFG : Nat := 0xD040
def PAR_DELAY : Nat := 0xD044
def PAR_TIMING : Nat := 0xD048
def PAR_CMD : Nat := 0xD04C
def PAR_STAT : Nat := 0xD050
def PAR_LOCKET : Nat := 0xD054
def PAR_LOCKET_BYTES_LO : Nat := 0xD058
def PAR_LOCKET_BYTES_HI : Nat := 0xD05C
def PAR_TIME_OFS : Nat := 0xD060
def PAR_ENC_DLY : Nat := 0xD064
def PAR_CHANGES : Nat := 0xD068
def PAR_DIVERGE_CNT : Nat := 0xD06C
def PAR_LAST_GAP : Nat := 0xD070
def PAR_LAST_CHANGE_LO : Nat := 0xD074
def PAR_LAST_CHANGE_HI : Nat := 0xD078
def PAR_PAIR_OFS_LO : Nat := 0xD07C
def PAR_PAIR_OFS_HI : Nat := 0xD080
def PLK_LINK_STAT : Nat := 0xE040
def PLK_LANE_EN : Nat := 0xE044
def PLK_RETX_CNT : Nat := 0xE048
def PLK_CRC_CNT : Nat := 0xE04C
def PLK_LOSS_CNT : Nat := 0xE050
def PLK_LOAD : Nat := 0xE054
def SBP_CFG : Nat := 0xB040
def SBP_RATE : Nat := 0xB044
def SBP_RX_FRAMES : Nat := 0xB048
def SBP_RX_ERR : Nat := 0xB04C
def SBP_TX_FRAMES : Nat := 0xB050
def SBP_EVQ : Nat := 0xB054
def SBP_LOG_SEQ : Nat := 0xB058
def CHN_ADDR : Nat := 0xC040
def CHN_STAT : Nat := 0xC044
def CHN_SYNC_CFG : Nat := 0xC048
def CHN_SYNC_DELAY : Nat := 0xC04C
def CHN_EPOCH_LO : Nat := 0xC050
def CHN_EPOCH_HI : Nat := 0xC054
def CHN_SYNC_EDGE_LO : Nat := 0xC058
def CHN_SYNC_EDGE_HI : Nat := 0xC05C
def CHN_CHAIN_OFS_LO : Nat := 0xC060
def CHN_CHAIN_OFS_HI : Nat := 0xC064
def CHN_SYNC_STAT : Nat := 0xC068
def DBG_PRBS_CFG : Nat := 0x33040
def DBG_PRBS_ERR : Nat := 0x33044
def DBG_PRBS_STAT : Nat := 0x33048
def DBG_IDCODE : Nat := 0x3304C
def DBG_LOCK : Nat := 0x33050
end Sys2Proof.Machine.R

/-! ### The fields by name -/
namespace Sys2Proof.Machine.F

def DEV_DEVSTATE_MEM_REDUCED : Fld := ⟨R.DEV_DEVSTATE, 13, 13⟩
def DEV_DEVSTATE_MEM_CH_GOOD : Fld := ⟨R.DEV_DEVSTATE, 12, 8⟩
def DEV_DEVSTATE_VIN_OK : Fld := ⟨R.DEV_DEVSTATE, 7, 7⟩
def DEV_DEVSTATE_PCIE_UP : Fld := ⟨R.DEV_DEVSTATE, 6, 6⟩
def DEV_DEVSTATE_ROLE : Fld := ⟨R.DEV_DEVSTATE, 5, 4⟩
def DEV_DEVSTATE_STATE : Fld := ⟨R.DEV_DEVSTATE, 3, 0⟩
def DEV_OUTGRP_EN_ALERT_N : Fld := ⟨R.DEV_OUTGRP_EN, 14, 14⟩
def DEV_OUTGRP_EN_FAULT_N : Fld := ⟨R.DEV_OUTGRP_EN, 13, 13⟩
def DEV_OUTGRP_EN_SYNC_OUT : Fld := ⟨R.DEV_OUTGRP_EN, 12, 12⟩
def DEV_OUTGRP_EN_ENCO : Fld := ⟨R.DEV_OUTGRP_EN, 11, 8⟩
def DEV_OUTGRP_EN_FIRE : Fld := ⟨R.DEV_OUTGRP_EN, 7, 0⟩
def DEV_OUTGRP_ACT : Fld := ⟨R.DEV_OUTGRP_ACT, 14, 0⟩
def DEV_OUTGRP_SAFE : Fld := ⟨R.DEV_OUTGRP_SAFE, 14, 8⟩
def DEV_GPIO_OE : Fld := ⟨R.DEV_GPIO_OE, 15, 0⟩
def DEV_GPIO_OUT : Fld := ⟨R.DEV_GPIO_OUT, 15, 0⟩
def DEV_GPIO_IN : Fld := ⟨R.DEV_GPIO_IN, 15, 0⟩
def DEV_STRAPS_AMBIG : Fld := ⟨R.DEV_STRAPS, 7, 4⟩
def DEV_STRAPS_BOOT_HOLD : Fld := ⟨R.DEV_STRAPS, 3, 3⟩
def DEV_STRAPS_SB_RATE : Fld := ⟨R.DEV_STRAPS, 2, 1⟩
def DEV_STRAPS_ROLE_PREF : Fld := ⟨R.DEV_STRAPS, 0, 0⟩
def DEV_WDT_CTRL_KEY : Fld := ⟨R.DEV_WDT_CTRL, 31, 16⟩
def DEV_WDT_CTRL_WARN_EN : Fld := ⟨R.DEV_WDT_CTRL, 1, 1⟩
def DEV_WDT_CTRL_EN : Fld := ⟨R.DEV_WDT_CTRL, 0, 0⟩
def DEV_WDT_PERIOD_PERIOD : Fld := ⟨R.DEV_WDT_PERIOD, 16, 0⟩
def DEV_WDT_KICK_KEY : Fld := ⟨R.DEV_WDT_KICK, 31, 16⟩
def DEV_WDT_KICK : Fld := ⟨R.DEV_WDT_KICK, 15, 0⟩
def DEV_WDT_STAT_EXPIRED : Fld := ⟨R.DEV_WDT_STAT, 25, 25⟩
def DEV_WDT_STAT_WARNED : Fld := ⟨R.DEV_WDT_STAT, 24, 24⟩
def DEV_WDT_STAT_REMAIN : Fld := ⟨R.DEV_WDT_STAT, 23, 0⟩
def RSC_RST_CAUSE_COUNT : Fld := ⟨R.RSC_RST_CAUSE, 31, 20⟩
def RSC_RST_CAUSE_SCOPE : Fld := ⟨R.RSC_RST_CAUSE, 17, 16⟩
def RSC_RST_CAUSE_CLK_ISL : Fld := ⟨R.RSC_RST_CAUSE, 14, 12⟩
def RSC_RST_CAUSE_SOURCE : Fld := ⟨R.RSC_RST_CAUSE, 11, 0⟩
def RSC_SWRST_KEY : Fld := ⟨R.RSC_SWRST, 31, 16⟩
def RSC_SWRST_SCOPE : Fld := ⟨R.RSC_SWRST, 1, 0⟩
def RSC_BOOT_CTRL_NEXT : Fld := ⟨R.RSC_BOOT_CTRL, 6, 4⟩
def RSC_BOOT_CTRL_HELD : Fld := ⟨R.RSC_BOOT_CTRL, 1, 1⟩
def RSC_BOOT_CTRL_CONTINUE : Fld := ⟨R.RSC_BOOT_CTRL, 0, 0⟩
def RSC_ISL_HOLD : Fld := ⟨R.RSC_ISL_HOLD, 6, 4⟩
def RSC_WDT_STOP_KEY : Fld := ⟨R.RSC_WDT_STOP, 31, 16⟩
def RSC_WDT_STOP_STOP : Fld := ⟨R.RSC_WDT_STOP, 0, 0⟩
def PWR_RAIL_STAT : Fld := ⟨R.PWR_RAIL_STAT, 5, 0⟩
def PWR_VIN_MV : Fld := ⟨R.PWR_VIN_MV, 15, 0⟩
def PWR_VAUX_MV : Fld := ⟨R.PWR_VAUX_MV, 15, 0⟩
def PWR_REG_FAULT_LATCHED : Fld := ⟨R.PWR_REG_FAULT, 16, 16⟩
def PWR_REG_FAULT_COUNT : Fld := ⟨R.PWR_REG_FAULT, 15, 12⟩
def PWR_REG_FAULT_OVERVOLT : Fld := ⟨R.PWR_REG_FAULT, 8, 8⟩
def PWR_REG_FAULT_RAIL : Fld := ⟨R.PWR_REG_FAULT, 5, 0⟩
def CLK_ISL_STAT_FREQ_ERR (i : Nat) : Fld := ⟨R.CLK_ISL_STAT i, 31, 16⟩
def CLK_ISL_STAT_FAIL (i : Nat) : Fld := ⟨R.CLK_ISL_STAT i, 3, 3⟩
def CLK_ISL_STAT_QUAL (i : Nat) : Fld := ⟨R.CLK_ISL_STAT i, 2, 2⟩
def CLK_ISL_STAT_LOCK (i : Nat) : Fld := ⟨R.CLK_ISL_STAT i, 1, 1⟩
def CLK_ISL_STAT_RUN (i : Nat) : Fld := ⟨R.CLK_ISL_STAT i, 0, 0⟩
def CLK_HOST_REF_USING_REFCLK : Fld := ⟨R.CLK_HOST_REF, 8, 8⟩
def CLK_HOST_REF_SEL : Fld := ⟨R.CLK_HOST_REF, 1, 0⟩
def TRM_TRIM_STAT_IMAGE_REV : Fld := ⟨R.TRM_TRIM_STAT, 31, 16⟩
def TRM_TRIM_STAT_LOADS : Fld := ⟨R.TRM_TRIM_STAT, 15, 8⟩
def TRM_TRIM_STAT_FAIL_CNT : Fld := ⟨R.TRM_TRIM_STAT, 3, 2⟩
def TRM_TRIM_STAT_LOADING : Fld := ⟨R.TRM_TRIM_STAT, 1, 1⟩
def TRM_TRIM_STAT_VALID : Fld := ⟨R.TRM_TRIM_STAT, 0, 0⟩
def TRM_TRIM_CRC : Fld := ⟨R.TRM_TRIM_CRC, 31, 0⟩
def TRM_OTP_CRC : Fld := ⟨R.TRM_OTP_CRC, 31, 0⟩
def CLS_NEXT_SEQ : Fld := ⟨R.CLS_NEXT_SEQ, 15, 0⟩
def CLS_SLOT_SUMMARY : Fld := ⟨R.CLS_SLOT_SUMMARY, 31, 0⟩
def CLS_APPLY_MAX_APPLIES : Fld := ⟨R.CLS_APPLY_MAX, 31, 16⟩
def CLS_APPLY_MAX_LONGEST : Fld := ⟨R.CLS_APPLY_MAX, 9, 0⟩
def CLS_LATE_CNT : Fld := ⟨R.CLS_LATE_CNT, 31, 0⟩
def CLS_ABORT_CNT : Fld := ⟨R.CLS_ABORT_CNT, 31, 0⟩
def CLS_CMD_OP (i : Nat) : Fld := ⟨R.CLS_CMD i, 3, 0⟩
def CLS_COND_BARS (i : Nat) : Fld := ⟨R.CLS_COND i, 31, 24⟩
def CLS_COND_LATE_POLICY (i : Nat) : Fld := ⟨R.CLS_COND i, 9, 9⟩
def CLS_COND_STAMP_EN (i : Nat) : Fld := ⟨R.CLS_COND i, 8, 8⟩
def CLS_COND_BAR (i : Nat) : Fld := ⟨R.CLS_COND i, 6, 4⟩
def CLS_COND_COND (i : Nat) : Fld := ⟨R.CLS_COND i, 1, 0⟩
def CLS_STAMP_LO (i : Nat) : Fld := ⟨R.CLS_STAMP_LO i, 31, 0⟩
def CLS_STAMP_HI (i : Nat) : Fld := ⟨R.CLS_STAMP_HI i, 31, 0⟩
def CLS_ADDR_OFFSET (i : Nat) : Fld := ⟨R.CLS_ADDR i, 25, 2⟩
def CLS_DATA (i : Nat) : Fld := ⟨R.CLS_DATA i, 31, 0⟩
def CLS_STATUS_COUNT (i : Nat) : Fld := ⟨R.CLS_STATUS i, 24, 16⟩
def CLS_STATUS_LATE (i : Nat) : Fld := ⟨R.CLS_STATUS i, 8, 8⟩
def CLS_STATUS_CAUSE (i : Nat) : Fld := ⟨R.CLS_STATUS i, 7, 4⟩
def CLS_STATUS_STATE (i : Nat) : Fld := ⟨R.CLS_STATUS i, 2, 0⟩
def CLS_SEQ (i : Nat) : Fld := ⟨R.CLS_SEQ i, 15, 0⟩
def CLS_APPLY_TIME_LO (i : Nat) : Fld := ⟨R.CLS_APPLY_TIME_LO i, 31, 0⟩
def CLS_APPLY_TIME_HI (i : Nat) : Fld := ⟨R.CLS_APPLY_TIME_HI i, 31, 0⟩
def CLS_EFF_LINE (i : Nat) : Fld := ⟨R.CLS_EFF_LINE i, 31, 0⟩
def CLS_ABORT_INFO_OFFSET (i : Nat) : Fld := ⟨R.CLS_ABORT_INFO i, 31, 8⟩
def CLS_ABORT_INFO_OTHER (i : Nat) : Fld := ⟨R.CLS_ABORT_INFO i, 3, 0⟩
def EVT_SEQ_NEXT : Fld := ⟨R.EVT_SEQ, 15, 0⟩
def EVT_LOST : Fld := ⟨R.EVT_LOST, 31, 0⟩
def EVT_PIN_CFG_ALERT : Fld := ⟨R.EVT_PIN_CFG, 7, 4⟩
def EVT_PIN_CFG_FAULT : Fld := ⟨R.EVT_PIN_CFG, 3, 0⟩
def EVT_PAIR_ROUTE_SIDEBAND : Fld := ⟨R.EVT_PAIR_ROUTE, 9, 9⟩
def EVT_PAIR_ROUTE_HOST : Fld := ⟨R.EVT_PAIR_ROUTE, 8, 8⟩
def EVT_PAIR_ROUTE_URGENCY : Fld := ⟨R.EVT_PAIR_ROUTE, 1, 0⟩
def EVT_PEND_PAGES_LO : Fld := ⟨R.EVT_PEND_PAGES_LO, 31, 0⟩
def EVT_PEND_PAGES_HI : Fld := ⟨R.EVT_PEND_PAGES_HI, 19, 0⟩
def EVT_CLASS_PEND : Fld := ⟨R.EVT_CLASS_PEND, 3, 0⟩
def EVT_STATS_CFG_EN : Fld := ⟨R.EVT_STATS_CFG, 8, 8⟩
def EVT_STATS_CFG_LOG2 : Fld := ⟨R.EVT_STATS_CFG, 3, 0⟩
def EVT_LOG_FROM : Fld := ⟨R.EVT_LOG_FROM, 31, 0⟩
def TMB_DEVTIME_LO : Fld := ⟨R.TMB_DEVTIME_LO, 31, 0⟩
def TMB_DEVTIME_HI : Fld := ⟨R.TMB_DEVTIME_HI, 31, 0⟩
def TMB_LINE64_LO (i : Nat) : Fld := ⟨R.TMB_LINE64_LO i, 31, 0⟩
def TMB_LINE64_HI (i : Nat) : Fld := ⟨R.TMB_LINE64_HI i, 31, 0⟩
def TMB_BOUND_TIME_LO (i : Nat) : Fld := ⟨R.TMB_BOUND_TIME_LO i, 31, 0⟩
def TMB_BOUND_TIME_HI (i : Nat) : Fld := ⟨R.TMB_BOUND_TIME_HI i, 31, 0⟩
def HIF_DEVSTATE_MIRROR : Fld := ⟨R.HIF_DEVSTATE_MIRROR, 31, 0⟩
def HIF_LINK_STAT_RECOV : Fld := ⟨R.HIF_LINK_STAT, 31, 24⟩
def HIF_LINK_STAT_DL_ACTIVE : Fld := ⟨R.HIF_LINK_STAT, 16, 16⟩
def HIF_LINK_STAT_WIDTH : Fld := ⟨R.HIF_LINK_STAT, 9, 4⟩
def HIF_LINK_STAT_SPEED : Fld := ⟨R.HIF_LINK_STAT, 3, 0⟩
def HIF_APERTURE_WP : Fld := ⟨R.HIF_APERTURE, 16, 16⟩
def HIF_APERTURE_BASE_2M : Fld := ⟨R.HIF_APERTURE, 13, 0⟩
def HIF_BAR2_DROP : Fld := ⟨R.HIF_BAR2_DROP, 31, 0⟩
def HIF_BAR2_POISON : Fld := ⟨R.HIF_BAR2_POISON, 31, 0⟩
def DMA_RING_BASE_LO (i : Nat) : Fld := ⟨R.DMA_RING_BASE_LO i, 31, 0⟩
def DMA_RING_BASE_HI (i : Nat) : Fld := ⟨R.DMA_RING_BASE_HI i, 31, 0⟩
def DMA_RING_CFG_COAL_TIME (i : Nat) : Fld := ⟨R.DMA_RING_CFG i, 31, 24⟩
def DMA_RING_CFG_COAL_CNT (i : Nat) : Fld := ⟨R.DMA_RING_CFG i, 23, 16⟩
def DMA_RING_CFG_VECTOR (i : Nat) : Fld := ⟨R.DMA_RING_CFG i, 15, 9⟩
def DMA_RING_CFG_IRQ_EN (i : Nat) : Fld := ⟨R.DMA_RING_CFG i, 8, 8⟩
def DMA_RING_CFG_RING_EN (i : Nat) : Fld := ⟨R.DMA_RING_CFG i, 5, 5⟩
def DMA_RING_CFG_LOG2_SIZE (i : Nat) : Fld := ⟨R.DMA_RING_CFG i, 4, 0⟩
def DMA_RING_PROD (i : Nat) : Fld := ⟨R.DMA_RING_PROD i, 31, 0⟩
def DMA_RING_CONS (i : Nat) : Fld := ⟨R.DMA_RING_CONS i, 31, 0⟩
def DMA_RING_DONE (i : Nat) : Fld := ⟨R.DMA_RING_DONE i, 31, 0⟩
def DMA_RING_POP_VALID (i : Nat) : Fld := ⟨R.DMA_RING_POP i, 31, 31⟩
def DMA_RING_POP_SLOT (i : Nat) : Fld := ⟨R.DMA_RING_POP i, 15, 0⟩
def DMA_RING_STAT_LOST (i : Nat) : Fld := ⟨R.DMA_RING_STAT i, 31, 16⟩
def DMA_RING_STAT_ERR (i : Nat) : Fld := ⟨R.DMA_RING_STAT i, 15, 8⟩
def DMA_RING_STAT_FULL (i : Nat) : Fld := ⟨R.DMA_RING_STAT i, 2, 2⟩
def DMA_RING_STAT_ERROR (i : Nat) : Fld := ⟨R.DMA_RING_STAT i, 1, 1⟩
def DMA_RING_STAT_RUNNING (i : Nat) : Fld := ⟨R.DMA_RING_STAT i, 0, 0⟩
def CDC_ENC_POLICY_MIN_STRING : Fld := ⟨R.CDC_ENC_POLICY, 31, 16⟩
def CDC_ENC_POLICY_WINDOW : Fld := ⟨R.CDC_ENC_POLICY, 15, 8⟩
def CDC_ENC_POLICY_MODE : Fld := ⟨R.CDC_ENC_POLICY, 1, 0⟩
def CDC_JOB_LANES : Fld := ⟨R.CDC_JOB_LANES, 5, 0⟩
def CDC_POOL_BUSY : Fld := ⟨R.CDC_POOL_BUSY, 31, 0⟩
def CDC_POOL_STALL : Fld := ⟨R.CDC_POOL_STALL, 31, 0⟩
def CDC_ENC_BUSY : Fld := ⟨R.CDC_ENC_BUSY, 3, 0⟩
def CDC_PARKED_LO : Fld := ⟨R.CDC_PARKED_LO, 31, 0⟩
def CDC_PARKED_HI : Fld := ⟨R.CDC_PARKED_HI, 31, 0⟩
def CDC_NOGAIN_CNT : Fld := ⟨R.CDC_NOGAIN_CNT, 31, 0⟩
def CDC_BADDATA_CNT : Fld := ⟨R.CDC_BADDATA_CNT, 31, 0⟩
def CDC_CTXERR_CNT : Fld := ⟨R.CDC_CTXERR_CNT, 31, 0⟩
def CDC_CTX_BASE_LO (i : Nat) : Fld := ⟨R.CDC_CTX_BASE_LO i, 31, 0⟩
def CDC_CTX_BASE_HI (i : Nat) : Fld := ⟨R.CDC_CTX_BASE_HI i, 31, 0⟩
def CDC_JOBS (i : Nat) : Fld := ⟨R.CDC_JOBS i, 31, 0⟩
def IMG_STORE_BASE : Fld := ⟨R.IMG_STORE_BASE, 13, 0⟩
def IMG_STORE_SIZE : Fld := ⟨R.IMG_STORE_SIZE, 13, 0⟩
def IMG_STORE_FREE : Fld := ⟨R.IMG_STORE_FREE, 31, 0⟩
def IMG_STORE_EVICT : Fld := ⟨R.IMG_STORE_EVICT, 31, 0⟩
def IMG_DIR_FREE : Fld := ⟨R.IMG_DIR_FREE, 31, 0⟩
def IMG_TILE_ERR_CNT : Fld := ⟨R.IMG_TILE_ERR_CNT, 31, 0⟩
def IMG_CRING_BASE (i : Nat) : Fld := ⟨R.IMG_CRING_BASE i, 13, 0⟩
def IMG_CRING_CFG_PANIC_BANDS (i : Nat) : Fld := ⟨R.IMG_CRING_CFG i, 31, 24⟩
def IMG_CRING_CFG_LANE_MAX_M1 (i : Nat) : Fld := ⟨R.IMG_CRING_CFG i, 20, 16⟩
def IMG_CRING_CFG_YRES (i : Nat) : Fld := ⟨R.IMG_CRING_CFG i, 14, 13⟩
def IMG_CRING_CFG_XRES (i : Nat) : Fld := ⟨R.IMG_CRING_CFG i, 12, 12⟩
def IMG_CRING_CFG_BANDS (i : Nat) : Fld := ⟨R.IMG_CRING_CFG i, 9, 0⟩
def IMG_WR_LINE (i : Nat) : Fld := ⟨R.IMG_WR_LINE i, 31, 0⟩
def IMG_YIELD (i : Nat) : Fld := ⟨R.IMG_YIELD i, 15, 0⟩
def IMG_YIELD_MIN (i : Nat) : Fld := ⟨R.IMG_YIELD_MIN i, 15, 0⟩
def IMG_LANES_STALLED (i : Nat) : Fld := ⟨R.IMG_LANES i, 13, 8⟩
def IMG_LANES_HELD (i : Nat) : Fld := ⟨R.IMG_LANES i, 5, 0⟩
def IMG_SLOW_CNT (i : Nat) : Fld := ⟨R.IMG_SLOW_CNT i, 31, 0⟩
def IMG_PLANE_STAT_REFS (i : Nat) : Fld := ⟨R.IMG_PLANE_STAT i, 31, 27⟩
def IMG_PLANE_STAT_STATE (i : Nat) : Fld := ⟨R.IMG_PLANE_STAT i, 26, 24⟩
def IMG_PLANE_STAT_PIN (i : Nat) : Fld := ⟨R.IMG_PLANE_STAT i, 23, 23⟩
def IMG_PLANE_STAT_TILES (i : Nat) : Fld := ⟨R.IMG_PLANE_STAT i, 19, 0⟩
def SCN_CFG_MASK_SET (b : Nat) : Fld := ⟨R.SCN_CFG b, 4, 4⟩
def SCN_CFG_UPS (b : Nat) : Fld := ⟨R.SCN_CFG b, 0, 0⟩
def SCN_MASK_OFF_Y (b : Nat) : Fld := ⟨R.SCN_MASK_OFF b, 24, 16⟩
def SCN_MASK_OFF_X (b : Nat) : Fld := ⟨R.SCN_MASK_OFF b, 8, 0⟩
def SCN_XSHIFT (b : Nat) : Fld := ⟨R.SCN_XSHIFT b, 15, 0⟩
def SCN_ROW_EN (b : Nat) : Fld := ⟨R.SCN_ROW_EN b, 15, 0⟩
def SCN_ROW_OFF (b : Nat) (i : Nat) : Fld := ⟨R.SCN_ROW_OFF b i, 15, 0⟩
def SCN_FETCH_SPAN (b : Nat) : Fld := ⟨R.SCN_FETCH b, 27, 16⟩
def SCN_FETCH_F (b : Nat) : Fld := ⟨R.SCN_FETCH b, 4, 0⟩
def SCN_TAIL (b : Nat) : Fld := ⟨R.SCN_TAIL b, 15, 0⟩
def SCN_JOB_CLINE (b : Nat) : Fld := ⟨R.SCN_JOB_CLINE b, 31, 0⟩
def SCN_JOB_LINE0 (b : Nat) : Fld := ⟨R.SCN_JOB_LINE0 b, 31, 0⟩
def SCN_JOB_INDEX_LO (b : Nat) : Fld := ⟨R.SCN_JOB_INDEX_LO b, 31, 0⟩
def SCN_JOB_INDEX_HI (b : Nat) : Fld := ⟨R.SCN_JOB_INDEX_HI b, 31, 0⟩
def SCN_LINE (b : Nat) : Fld := ⟨R.SCN_LINE b, 31, 0⟩
def SCN_UNDER_CNT (b : Nat) : Fld := ⟨R.SCN_UNDER_CNT b, 31, 0⟩
def SCN_INCOMPL_CNT (b : Nat) : Fld := ⟨R.SCN_INCOMPL_CNT b, 31, 0⟩
def SCN_ROWINV_CNT (b : Nat) : Fld := ⟨R.SCN_ROWINV_CNT b, 31, 0⟩
def SCN_CYC_LAST (b : Nat) : Fld := ⟨R.SCN_CYC b, 31, 16⟩
def SCN_CYC_MAX (b : Nat) : Fld := ⟨R.SCN_CYC b, 15, 0⟩
def SCN_CURVE_KNOT_HI (b : Nat) (i : Nat) (j : Nat) : Fld := ⟨R.SCN_CURVE b i j, 28, 16⟩
def SCN_CURVE_KNOT_LO (b : Nat) (i : Nat) (j : Nat) : Fld := ⟨R.SCN_CURVE b i j, 12, 0⟩
def SCN_MASK_CMD_CHK : Fld := ⟨R.SCN_MASK_CMD, 1, 0⟩
def SCN_MASK_CRC (i : Nat) : Fld := ⟨R.SCN_MASK_CRC i, 31, 0⟩
def SCN_MASK_STAT_CHK_BUSY : Fld := ⟨R.SCN_MASK_STAT, 9, 8⟩
def SCN_MASK_STAT_IN_USE : Fld := ⟨R.SCN_MASK_STAT, 1, 0⟩
def NZC_CFG_AUTO_MISS_NC : Fld := ⟨R.NZC_CFG, 2, 2⟩
def NZC_CFG_AUTO_MISS_DENS : Fld := ⟨R.NZC_CFG, 1, 1⟩
def NZC_CFG_APPLY : Fld := ⟨R.NZC_CFG, 0, 0⟩
def NZC_REDIST_W2 : Fld := ⟨R.NZC_REDIST, 15, 8⟩
def NZC_REDIST_W1 : Fld := ⟨R.NZC_REDIST, 7, 0⟩
def NZC_REGION : Fld := ⟨R.NZC_REGION, 13, 0⟩
def NZC_TSTALE : Fld := ⟨R.NZC_TSTALE, 7, 0⟩
def NZC_MISS_THR : Fld := ⟨R.NZC_MISS_THR, 15, 0⟩
def NZC_PASS_CMD : Fld := ⟨R.NZC_PASS_CMD, 7, 0⟩
def NZC_AUTO_MISS_CNT : Fld := ⟨R.NZC_AUTO_MISS_CNT, 31, 0⟩
def NZC_SWEEP_LATE_CNT : Fld := ⟨R.NZC_SWEEP_LATE_CNT, 31, 0⟩
def NZC_BAR_CFG_DBAND (i : Nat) : Fld := ⟨R.NZC_BAR_CFG i, 23, 16⟩
def NZC_BAR_CFG_KD (i : Nat) : Fld := ⟨R.NZC_BAR_CFG i, 15, 8⟩
def NZC_BAR_CFG_RATE (i : Nat) : Fld := ⟨R.NZC_BAR_CFG i, 4, 2⟩
def NZC_BAR_CFG_EN (i : Nat) : Fld := ⟨R.NZC_BAR_CFG i, 0, 0⟩
def NZC_TEMP_TREF (i : Nat) : Fld := ⟨R.NZC_TEMP i, 31, 16⟩
def NZC_TEMP_KT (i : Nat) : Fld := ⟨R.NZC_TEMP i, 15, 0⟩
def NZC_KW (i : Nat) : Fld := ⟨R.NZC_KW i, 15, 0⟩
def NZC_GLIM_GMAX (i : Nat) : Fld := ⟨R.NZC_GLIM i, 27, 16⟩
def NZC_GLIM_GMIN (i : Nat) : Fld := ⟨R.NZC_GLIM i, 11, 0⟩
def NZC_SETTLE_LO (i : Nat) : Fld := ⟨R.NZC_SETTLE_LO i, 31, 0⟩
def NZC_SETTLE_HI (i : Nat) : Fld := ⟨R.NZC_SETTLE_HI i, 31, 0⟩
def NZC_LAST_WC_LO (i : Nat) : Fld := ⟨R.NZC_LAST_WC_LO i, 31, 0⟩
def NZC_LAST_WC_HI (i : Nat) : Fld := ⟨R.NZC_LAST_WC_HI i, 31, 0⟩
def NZC_STALE_LO (i : Nat) : Fld := ⟨R.NZC_STALE_LO i, 31, 0⟩
def NZC_STALE_HI (i : Nat) : Fld := ⟨R.NZC_STALE_HI i, 31, 0⟩
def NZC_DENS_CNT_REJECTED (i : Nat) : Fld := ⟨R.NZC_DENS_CNT i, 31, 16⟩
def NZC_DENS_CNT_APPLIED (i : Nat) : Fld := ⟨R.NZC_DENS_CNT i, 15, 0⟩
def NZC_APPLY_LINE (i : Nat) : Fld := ⟨R.NZC_APPLY_LINE i, 31, 0⟩
def NZC_LIMIT_NOZ (i : Nat) : Fld := ⟨R.NZC_LIMIT_NOZ i, 16, 0⟩
def POS_WEB_SEL_STBY_CH : Fld := ⟨R.POS_WEB_SEL, 5, 4⟩
def POS_WEB_SEL_ACT_CH : Fld := ⟨R.POS_WEB_SEL, 1, 0⟩
def POS_WEB_COUNT_LO : Fld := ⟨R.POS_WEB_COUNT_LO, 31, 0⟩
def POS_WEB_COUNT_HI : Fld := ⟨R.POS_WEB_COUNT_HI, 31, 0⟩
def POS_SRC_DIFF : Fld := ⟨R.POS_SRC_DIFF, 31, 0⟩
def POS_CH_CFG_FILT (i : Nat) : Fld := ⟨R.POS_CH_CFG i, 27, 24⟩
def POS_CH_CFG_AVG (i : Nat) : Fld := ⟨R.POS_CH_CFG i, 23, 20⟩
def POS_CH_CFG_LOG2_INTERP (i : Nat) : Fld := ⟨R.POS_CH_CFG i, 19, 16⟩
def POS_CH_CFG_LOG2_PT (i : Nat) : Fld := ⟨R.POS_CH_CFG i, 15, 12⟩
def POS_CH_CFG_REF (i : Nat) : Fld := ⟨R.POS_CH_CFG i, 9, 8⟩
def POS_CH_CFG_TW_DIR (i : Nat) : Fld := ⟨R.POS_CH_CFG i, 7, 7⟩
def POS_CH_CFG_INVERT (i : Nat) : Fld := ⟨R.POS_CH_CFG i, 6, 6⟩
def POS_CH_CFG_TERM (i : Nat) : Fld := ⟨R.POS_CH_CFG i, 5, 5⟩
def POS_CH_CFG_MODE (i : Nat) : Fld := ⟨R.POS_CH_CFG i, 2, 0⟩
def POS_REV_LEN (i : Nat) : Fld := ⟨R.POS_REV_LEN i, 31, 0⟩
def POS_REF_VAL (i : Nat) : Fld := ⟨R.POS_REF_VAL i, 31, 0⟩
def POS_TW_CFG_REFKIND (i : Nat) : Fld := ⟨R.POS_TW_CFG i, 21, 20⟩
def POS_TW_CFG_GAP_TEETH (i : Nat) : Fld := ⟨R.POS_TW_CFG i, 19, 16⟩
def POS_TW_CFG_EXTRA_RATIO (i : Nat) : Fld := ⟨R.POS_TW_CFG i, 15, 8⟩
def POS_TW_CFG_GAP_RATIO (i : Nat) : Fld := ⟨R.POS_TW_CFG i, 7, 0⟩
def POS_ZERO_TO (i : Nat) : Fld := ⟨R.POS_ZERO_TO i, 23, 0⟩
def POS_AMP_WIN_HI (i : Nat) : Fld := ⟨R.POS_AMP_WIN i, 31, 16⟩
def POS_AMP_WIN_LO (i : Nat) : Fld := ⟨R.POS_AMP_WIN i, 15, 0⟩
def POS_AMP_NOM (i : Nat) : Fld := ⟨R.POS_AMP_NOM i, 31, 0⟩
def POS_AMP_CFG_DR_MAX (i : Nat) : Fld := ⟨R.POS_AMP_CFG i, 23, 8⟩
def POS_AMP_CFG_AMP_N (i : Nat) : Fld := ⟨R.POS_AMP_CFG i, 7, 0⟩
def POS_POS_LO (i : Nat) : Fld := ⟨R.POS_POS_LO i, 31, 0⟩
def POS_POS_HI (i : Nat) : Fld := ⟨R.POS_POS_HI i, 31, 0⟩
def POS_REV_POS (i : Nat) : Fld := ⟨R.POS_REV_POS i, 31, 0⟩
def POS_REV_CNT (i : Nat) : Fld := ⟨R.POS_REV_CNT i, 31, 0⟩
def POS_SPEED_LO (i : Nat) : Fld := ⟨R.POS_SPEED_LO i, 31, 0⟩
def POS_SPEED_HI (i : Nat) : Fld := ⟨R.POS_SPEED_HI i, 31, 0⟩
def POS_STAT_AMP (i : Nat) : Fld := ⟨R.POS_STAT i, 31, 16⟩
def POS_STAT_FAULT (i : Nat) : Fld := ⟨R.POS_STAT i, 7, 7⟩
def POS_STAT_REF_SEEN (i : Nat) : Fld := ⟨R.POS_STAT i, 6, 6⟩
def POS_STAT_DR (i : Nat) : Fld := ⟨R.POS_STAT i, 5, 5⟩
def POS_STAT_AMP_OK (i : Nat) : Fld := ⟨R.POS_STAT i, 4, 4⟩
def POS_STAT_DIR (i : Nat) : Fld := ⟨R.POS_STAT i, 3, 3⟩
def POS_STAT_SPEEDST (i : Nat) : Fld := ⟨R.POS_STAT i, 2, 0⟩
def POS_ERR_CNT_REF_ERR (i : Nat) : Fld := ⟨R.POS_ERR_CNT i, 31, 16⟩
def POS_ERR_CNT_SIG_ERR (i : Nat) : Fld := ⟨R.POS_ERR_CNT i, 15, 0⟩
def POS_TRIG_CFG_PHASE_BARS (i : Nat) : Fld := ⟨R.POS_TRIG_CFG i, 31, 24⟩
def POS_TRIG_CFG_ACTION (i : Nat) : Fld := ⟨R.POS_TRIG_CFG i, 17, 16⟩
def POS_TRIG_CFG_FILT (i : Nat) : Fld := ⟨R.POS_TRIG_CFG i, 15, 8⟩
def POS_TRIG_CFG_TERM (i : Nat) : Fld := ⟨R.POS_TRIG_CFG i, 2, 2⟩
def POS_TRIG_CFG_EDGE (i : Nat) : Fld := ⟨R.POS_TRIG_CFG i, 1, 0⟩
def POS_DIST_LO (i : Nat) : Fld := ⟨R.POS_DIST_LO i, 31, 0⟩
def POS_DIST_HI (i : Nat) : Fld := ⟨R.POS_DIST_HI i, 31, 0⟩
def POS_LAT_WC_LO (i : Nat) : Fld := ⟨R.POS_LAT_WC_LO i, 31, 0⟩
def POS_LAT_WC_HI (i : Nat) : Fld := ⟨R.POS_LAT_WC_HI i, 31, 0⟩
def POS_LAT_FRAC (i : Nat) : Fld := ⟨R.POS_LAT_FRAC i, 31, 0⟩
def POS_LAT_TIME_LO (i : Nat) : Fld := ⟨R.POS_LAT_TIME_LO i, 31, 0⟩
def POS_LAT_TIME_HI (i : Nat) : Fld := ⟨R.POS_LAT_TIME_HI i, 31, 0⟩
def POS_LAT_CNT (i : Nat) : Fld := ⟨R.POS_LAT_CNT i, 31, 0⟩
def POS_DROP_CNT (i : Nat) : Fld := ⟨R.POS_DROP_CNT i, 15, 0⟩
def LCK_SLIP_CNT : Fld := ⟨R.LCK_SLIP_CNT, 31, 0⟩
def LCK_BAR_CFG_PITCH (i : Nat) : Fld := ⟨R.LCK_BAR_CFG i, 5, 4⟩
def LCK_BAR_CFG_EN (i : Nat) : Fld := ⟨R.LCK_BAR_CFG i, 0, 0⟩
def LCK_SPACING_LO (i : Nat) : Fld := ⟨R.LCK_SPACING_LO i, 31, 0⟩
def LCK_SPACING_HI (i : Nat) : Fld := ⟨R.LCK_SPACING_HI i, 31, 0⟩
def LCK_OFFSET_LO (i : Nat) : Fld := ⟨R.LCK_OFFSET_LO i, 31, 0⟩
def LCK_OFFSET_HI (i : Nat) : Fld := ⟨R.LCK_OFFSET_HI i, 31, 0⟩
def LCK_CMP_FRAC (i : Nat) : Fld := ⟨R.LCK_CMP_FRAC i, 31, 0⟩
def LCK_CMP_LO (i : Nat) : Fld := ⟨R.LCK_CMP_LO i, 31, 0⟩
def LCK_CMP_HI (i : Nat) : Fld := ⟨R.LCK_CMP_HI i, 31, 0⟩
def LCK_LINE (i : Nat) : Fld := ⟨R.LCK_LINE i, 31, 0⟩
def LCK_LAST_TIME_LO (i : Nat) : Fld := ⟨R.LCK_LAST_TIME_LO i, 31, 0⟩
def LCK_LAST_TIME_HI (i : Nat) : Fld := ⟨R.LCK_LAST_TIME_HI i, 31, 0⟩
def LCK_NEXT_TIME_LO (i : Nat) : Fld := ⟨R.LCK_NEXT_TIME_LO i, 31, 0⟩
def LCK_NEXT_TIME_HI (i : Nat) : Fld := ⟨R.LCK_NEXT_TIME_HI i, 31, 0⟩
def LCK_SKIP_CNT (i : Nat) : Fld := ⟨R.LCK_SKIP_CNT i, 31, 0⟩
def LCK_STAT_INHIBIT (i : Nat) : Fld := ⟨R.LCK_STAT i, 9, 9⟩
def LCK_STAT_RUN (i : Nat) : Fld := ⟨R.LCK_STAT i, 8, 8⟩
def LCK_STAT_PHQ (i : Nat) : Fld := ⟨R.LCK_STAT i, 3, 0⟩
def FIRE_WIDTH (b : Nat) : Fld := ⟨R.FIRE_WIDTH b, 12, 0⟩
def FIRE_WDOG (b : Nat) : Fld := ⟨R.FIRE_WDOG b, 12, 0⟩
def FIRE_MLP_FLOOR (b : Nat) : Fld := ⟨R.FIRE_MLP_FLOOR b, 15, 0⟩
def FIRE_MLP_HEAD (b : Nat) : Fld := ⟨R.FIRE_MLP b, 31, 16⟩
def FIRE_MLP_EFF (b : Nat) : Fld := ⟨R.FIRE_MLP b, 15, 0⟩
def FIRE_DEFER_FRAC (b : Nat) : Fld := ⟨R.FIRE_DEFER b, 31, 24⟩
def FIRE_DEFER_NOM_PERIOD (b : Nat) : Fld := ⟨R.FIRE_DEFER b, 15, 0⟩
def FIRE_SEL_HIST_SET (b : Nat) : Fld := ⟨R.FIRE_SEL b, 4, 4⟩
def FIRE_SEL_SLOT_BANK (b : Nat) : Fld := ⟨R.FIRE_SEL b, 0, 0⟩
def FIRE_SEL_CMD_SWAP (b : Nat) : Fld := ⟨R.FIRE_SEL_CMD b, 0, 0⟩
def FIRE_HTEMP_LIMIT (b : Nat) : Fld := ⟨R.FIRE_HTEMP b, 31, 16⟩
def FIRE_HTEMP_WARN (b : Nat) : Fld := ⟨R.FIRE_HTEMP b, 15, 0⟩
def FIRE_HTEMP_CFG_DWELL (b : Nat) : Fld := ⟨R.FIRE_HTEMP_CFG b, 23, 16⟩
def FIRE_HTEMP_CFG_FAST (b : Nat) : Fld := ⟨R.FIRE_HTEMP_CFG b, 8, 8⟩
def FIRE_HTEMP_CFG_HYST (b : Nat) : Fld := ⟨R.FIRE_HTEMP_CFG b, 7, 0⟩
def FIRE_SEGDLY_S3 (b : Nat) (i : Nat) : Fld := ⟨R.FIRE_SEGDLY b i, 29, 24⟩
def FIRE_SEGDLY_S2 (b : Nat) (i : Nat) : Fld := ⟨R.FIRE_SEGDLY b i, 21, 16⟩
def FIRE_SEGDLY_S1 (b : Nat) (i : Nat) : Fld := ⟨R.FIRE_SEGDLY b i, 13, 8⟩
def FIRE_SEGDLY_S0 (b : Nat) (i : Nat) : Fld := ⟨R.FIRE_SEGDLY b i, 5, 0⟩
def FIRE_STITCH_S3 (b : Nat) (i : Nat) : Fld := ⟨R.FIRE_STITCH b i, 31, 24⟩
def FIRE_STITCH_S2 (b : Nat) (i : Nat) : Fld := ⟨R.FIRE_STITCH b i, 23, 16⟩
def FIRE_STITCH_S1 (b : Nat) (i : Nat) : Fld := ⟨R.FIRE_STITCH b i, 15, 8⟩
def FIRE_STITCH_S0 (b : Nat) (i : Nat) : Fld := ⟨R.FIRE_STITCH b i, 7, 0⟩
def FIRE_WEIGHT_W_HI (b : Nat) (i : Nat) : Fld := ⟨R.FIRE_WEIGHT b i, 31, 16⟩
def FIRE_WEIGHT_W_LO (b : Nat) (i : Nat) : Fld := ⟨R.FIRE_WEIGHT b i, 15, 0⟩
def FIRE_BUDGET (b : Nat) : Fld := ⟨R.FIRE_BUDGET b, 15, 0⟩
def FIRE_LINES_FIRED (b : Nat) : Fld := ⟨R.FIRE_LINES_FIRED b, 31, 0⟩
def FIRE_OVERSPEED_CNT (b : Nat) : Fld := ⟨R.FIRE_OVERSPEED_CNT b, 31, 0⟩
def FIRE_DEFER_CNT (b : Nat) : Fld := ⟨R.FIRE_DEFER_CNT b, 31, 0⟩
def FIRE_DEFER_PEAK (b : Nat) : Fld := ⟨R.FIRE_DEFER_PEAK b, 15, 0⟩
def FIRE_BUDGET_CNT (b : Nat) : Fld := ⟨R.FIRE_BUDGET_CNT b, 31, 0⟩
def FIRE_HSUPP_CNT (b : Nat) : Fld := ⟨R.FIRE_HSUPP_CNT b, 31, 0⟩
def FIRE_CUT_CNT (b : Nat) : Fld := ⟨R.FIRE_CUT_CNT b, 31, 0⟩
def FIRE_SUPP_CNT (b : Nat) : Fld := ⟨R.FIRE_SUPP_CNT b, 31, 0⟩
def FIRE_HOT_LO (b : Nat) : Fld := ⟨R.FIRE_HOT_LO b, 31, 0⟩
def FIRE_HOT_HI (b : Nat) : Fld := ⟨R.FIRE_HOT_HI b, 31, 0⟩
def FIRE_STOPPED_LO (b : Nat) : Fld := ⟨R.FIRE_STOPPED_LO b, 31, 0⟩
def FIRE_STOPPED_HI (b : Nat) : Fld := ⟨R.FIRE_STOPPED_HI b, 31, 0⟩
def FIRE_CUT (b : Nat) : Fld := ⟨R.FIRE_CUT b, 8, 0⟩
def FIRE_SLOT_CFG_SPACING (b : Nat) (i : Nat) : Fld := ⟨R.FIRE_SLOT_CFG b i, 24, 16⟩
def FIRE_SLOT_CFG_SPREAD (b : Nat) (i : Nat) : Fld := ⟨R.FIRE_SLOT_CFG b i, 8, 8⟩
def FIRE_SLOT_CFG_NSLOT (b : Nat) (i : Nat) : Fld := ⟨R.FIRE_SLOT_CFG b i, 3, 0⟩
def FIRE_SLOT_HOME (b : Nat) (i : Nat) : Fld := ⟨R.FIRE_SLOT_HOME b i, 23, 0⟩
def FIRE_CAP_BASE_LO (b : Nat) : Fld := ⟨R.FIRE_CAP_BASE_LO b, 31, 0⟩
def FIRE_CAP_BASE_HI (b : Nat) : Fld := ⟨R.FIRE_CAP_BASE_HI b, 31, 0⟩
def FIRE_CAP_CTRL_ARM (b : Nat) : Fld := ⟨R.FIRE_CAP_CTRL b, 31, 31⟩
def FIRE_CAP_CTRL_STAMP_EN (b : Nat) : Fld := ⟨R.FIRE_CAP_CTRL b, 24, 24⟩
def FIRE_CAP_CTRL_SEGMASK (b : Nat) : Fld := ⟨R.FIRE_CAP_CTRL b, 23, 16⟩
def FIRE_CAP_CTRL_LINES (b : Nat) : Fld := ⟨R.FIRE_CAP_CTRL b, 15, 0⟩
def FIRE_CAP_STAMP (b : Nat) : Fld := ⟨R.FIRE_CAP_STAMP b, 31, 0⟩
def FIRE_CAP_STAT_LOST (b : Nat) : Fld := ⟨R.FIRE_CAP_STAT b, 16, 16⟩
def FIRE_CAP_STAT_DONE (b : Nat) : Fld := ⟨R.FIRE_CAP_STAT b, 15, 0⟩
def FIRE_HMAP_START_HI (b : Nat) (i : Nat) (j : Nat) : Fld := ⟨R.FIRE_HMAP b i j, 31, 16⟩
def FIRE_HMAP_START_LO (b : Nat) (i : Nat) (j : Nat) : Fld := ⟨R.FIRE_HMAP b i j, 15, 0⟩
def ZLK_CFG_ERR_LINES : Fld := ⟨R.ZLK_CFG, 31, 24⟩
def ZLK_CFG_RETRAIN_MAX : Fld := ⟨R.ZLK_CFG, 19, 16⟩
def ZLK_CFG_CHECK_LOG2 : Fld := ⟨R.ZLK_CFG, 12, 8⟩
def ZLK_CFG_STOP_ON_SEGMENT_LOSS : Fld := ⟨R.ZLK_CFG, 0, 0⟩
def ZLK_RTT_MAX : Fld := ⟨R.ZLK_RTT_MAX, 8, 0⟩
def ZLK_TELEM_PER_STATUS : Fld := ⟨R.ZLK_TELEM_PER, 23, 16⟩
def ZLK_TELEM_PER_TEMP : Fld := ⟨R.ZLK_TELEM_PER, 15, 0⟩
def ZLK_TELEM_FWD_HIB_SPECIFIC : Fld := ⟨R.ZLK_TELEM_FWD, 7, 7⟩
def ZLK_TELEM_FWD_TYPES : Fld := ⟨R.ZLK_TELEM_FWD, 4, 0⟩
def ZLK_TELEM_BAD : Fld := ⟨R.ZLK_TELEM_BAD, 31, 0⟩
def ZLK_LANES_ACTIVE : Fld := ⟨R.ZLK_LANES_ACTIVE, 6, 0⟩
def ZLB_LANE_EN (b : Nat) : Fld := ⟨R.ZLB_LANE_EN b, 8, 0⟩
def ZLB_SPARE_CFG_EARLY (b : Nat) : Fld := ⟨R.ZLB_SPARE_CFG b, 5, 5⟩
def ZLB_SPARE_CFG_CABLED (b : Nat) : Fld := ⟨R.ZLB_SPARE_CFG b, 4, 4⟩
def ZLB_SPARE_CFG_SEG (b : Nat) : Fld := ⟨R.ZLB_SPARE_CFG b, 2, 0⟩
def ZLB_SPARE_CMD_RELEASE (b : Nat) : Fld := ⟨R.ZLB_SPARE_CMD b, 1, 1⟩
def ZLB_SPARE_CMD_TAKE (b : Nat) : Fld := ⟨R.ZLB_SPARE_CMD b, 0, 0⟩
def ZLB_SPARE_STAT_TAKEOVERS (b : Nat) : Fld := ⟨R.ZLB_SPARE_STAT b, 31, 16⟩
def ZLB_SPARE_STAT_SEG (b : Nat) : Fld := ⟨R.ZLB_SPARE_STAT b, 6, 4⟩
def ZLB_SPARE_STAT_SERVING (b : Nat) : Fld := ⟨R.ZLB_SPARE_STAT b, 0, 0⟩
def ZLB_CMD_CTRL_GO (b : Nat) : Fld := ⟨R.ZLB_CMD_CTRL b, 31, 31⟩
def ZLB_CMD_CTRL_LEN (b : Nat) : Fld := ⟨R.ZLB_CMD_CTRL b, 22, 16⟩
def ZLB_CMD_CTRL_OPC (b : Nat) : Fld := ⟨R.ZLB_CMD_CTRL b, 14, 8⟩
def ZLB_CMD_CTRL_LANE (b : Nat) : Fld := ⟨R.ZLB_CMD_CTRL b, 3, 0⟩
def ZLB_CMD_STAT_DONE (b : Nat) : Fld := ⟨R.ZLB_CMD_STAT b, 24, 24⟩
def ZLB_CMD_STAT_RESULT (b : Nat) : Fld := ⟨R.ZLB_CMD_STAT b, 23, 16⟩
def ZLB_CMD_STAT_SEQ (b : Nat) : Fld := ⟨R.ZLB_CMD_STAT b, 15, 0⟩
def ZLB_CMD_DATA (b : Nat) (i : Nat) : Fld := ⟨R.ZLB_CMD_DATA b i, 31, 0⟩
def ZLB_LANE_STAT_CAUSE (b : Nat) (i : Nat) : Fld := ⟨R.ZLB_LANE_STAT b i, 23, 20⟩
def ZLB_LANE_STAT_RTT (b : Nat) (i : Nat) : Fld := ⟨R.ZLB_LANE_STAT b i, 17, 8⟩
def ZLB_LANE_STAT_HIB_LOCK (b : Nat) (i : Nat) : Fld := ⟨R.ZLB_LANE_STAT b i, 7, 7⟩
def ZLB_LANE_STAT_PRESET (b : Nat) (i : Nat) : Fld := ⟨R.ZLB_LANE_STAT b i, 6, 4⟩
def ZLB_LANE_STAT_STATE (b : Nat) (i : Nat) : Fld := ⟨R.ZLB_LANE_STAT b i, 3, 0⟩
def ZLB_TX_PRESET_FORCE (b : Nat) (i : Nat) : Fld := ⟨R.ZLB_TX_PRESET b i, 3, 3⟩
def ZLB_TX_PRESET_VALUE (b : Nat) (i : Nat) : Fld := ⟨R.ZLB_TX_PRESET b i, 2, 0⟩
def ZLB_REPLAY_CNT (b : Nat) (i : Nat) : Fld := ⟨R.ZLB_REPLAY_CNT b i, 31, 0⟩
def ZLB_LOSS_CNT (b : Nat) (i : Nat) : Fld := ⟨R.ZLB_LOSS_CNT b i, 31, 0⟩
def ZLB_LSUPP_CNT (b : Nat) (i : Nat) : Fld := ⟨R.ZLB_LSUPP_CNT b i, 31, 0⟩
def ZLB_RETRAIN_CNT_FULL (b : Nat) (i : Nat) : Fld := ⟨R.ZLB_RETRAIN_CNT b i, 31, 16⟩
def ZLB_RETRAIN_CNT_FAST (b : Nat) (i : Nat) : Fld := ⟨R.ZLB_RETRAIN_CNT b i, 15, 0⟩
def ZLB_RX_ERR_CNT (b : Nat) (i : Nat) : Fld := ⟨R.ZLB_RX_ERR_CNT b i, 31, 0⟩
def ZLB_LAST_GOOD (b : Nat) (i : Nat) : Fld := ⟨R.ZLB_LAST_GOOD b i, 31, 0⟩
def ARB_MARGIN (i : Nat) : Fld := ⟨R.ARB_MARGIN i, 23, 0⟩
def ARB_STARVE (i : Nat) : Fld := ⟨R.ARB_STARVE i, 23, 0⟩
def ARB_WC_BLOCK (i : Nat) : Fld := ⟨R.ARB_WC_BLOCK i, 15, 0⟩
def ARB_BLOCK_MAX (i : Nat) : Fld := ⟨R.ARB_BLOCK_MAX i, 15, 0⟩
def ARB_STARVED (i : Nat) : Fld := ⟨R.ARB_STARVED i, 15, 0⟩
def ARB_CUT (i : Nat) : Fld := ⟨R.ARB_CUT i, 15, 0⟩
def ARB_HOLDING (i : Nat) : Fld := ⟨R.ARB_HOLDING i, 15, 0⟩
def ARB_REQ_CFG_SELF (i : Nat) (j : Nat) : Fld := ⟨R.ARB_REQ_CFG i j, 31, 31⟩
def ARB_REQ_CFG_OFFSET (i : Nat) (j : Nat) : Fld := ⟨R.ARB_REQ_CFG i j, 23, 0⟩
def ARB_MAX_HOLD (i : Nat) (j : Nat) : Fld := ⟨R.ARB_MAX_HOLD i j, 23, 0⟩
def ARB_REQ_CNT_PREEMPTS (i : Nat) (j : Nat) : Fld := ⟨R.ARB_REQ_CNT i j, 31, 16⟩
def ARB_REQ_CNT_CUTS (i : Nat) (j : Nat) : Fld := ⟨R.ARB_REQ_CNT i j, 15, 0⟩
def ARB_LATE_MAX (i : Nat) (j : Nat) : Fld := ⟨R.ARB_LATE_MAX i j, 23, 0⟩
def MEM_STAT_USABLE_2M : Fld := ⟨R.MEM_STAT, 31, 16⟩
def MEM_STAT_INIT_DONE : Fld := ⟨R.MEM_STAT, 15, 15⟩
def MEM_STAT_DOUBLE : Fld := ⟨R.MEM_STAT, 14, 14⟩
def MEM_STAT_REDUCED : Fld := ⟨R.MEM_STAT, 13, 13⟩
def MEM_STAT_CH_USED : Fld := ⟨R.MEM_STAT, 4, 0⟩
def MEM_CH_MAP_USED : Fld := ⟨R.MEM_CH_MAP, 31, 16⟩
def MEM_CH_MAP_GOOD : Fld := ⟨R.MEM_CH_MAP, 15, 0⟩
def MEM_RD_CFG : Fld := ⟨R.MEM_RD_CFG, 15, 0⟩
def MEM_SCRUB_EN : Fld := ⟨R.MEM_SCRUB, 31, 31⟩
def MEM_SCRUB_HOURS : Fld := ⟨R.MEM_SCRUB, 15, 0⟩
def MEM_CE_CNT : Fld := ⟨R.MEM_CE_CNT, 31, 0⟩
def MEM_UE_CNT : Fld := ⟨R.MEM_UE_CNT, 31, 0⟩
def MEM_ERR_ADDR_LO : Fld := ⟨R.MEM_ERR_ADDR_LO, 31, 0⟩
def MEM_ERR_ADDR_HI : Fld := ⟨R.MEM_ERR_ADDR_HI, 31, 0⟩
def MEM_ERR_INFO_UE : Fld := ⟨R.MEM_ERR_INFO, 31, 31⟩
def MEM_ERR_INFO_CH : Fld := ⟨R.MEM_ERR_INFO, 27, 24⟩
def MEM_ERR_INFO_BANK : Fld := ⟨R.MEM_ERR_INFO, 19, 16⟩
def MEM_ERR_INFO_PORT : Fld := ⟨R.MEM_ERR_INFO, 11, 8⟩
def MEM_ERR_INFO_WORDS : Fld := ⟨R.MEM_ERR_INFO, 7, 0⟩
def MEM_RD_ACTIONS : Fld := ⟨R.MEM_RD_ACTIONS, 31, 0⟩
def MEM_RD_OVERFLOW : Fld := ⟨R.MEM_RD_OVERFLOW, 31, 0⟩
def MEM_INIT_LEFT : Fld := ⟨R.MEM_INIT_LEFT, 15, 0⟩
def MCH_TRAIN_ATTEMPTS (i : Nat) : Fld := ⟨R.MCH_TRAIN i, 19, 16⟩
def MCH_TRAIN_TRACK_LOST (i : Nat) : Fld := ⟨R.MCH_TRAIN i, 10, 10⟩
def MCH_TRAIN_USED (i : Nat) : Fld := ⟨R.MCH_TRAIN i, 9, 9⟩
def MCH_TRAIN_GOOD (i : Nat) : Fld := ⟨R.MCH_TRAIN i, 8, 8⟩
def MCH_TRAIN_RESULT (i : Nat) : Fld := ⟨R.MCH_TRAIN i, 3, 0⟩
def MCH_TRACK_OSC_LAST (i : Nat) : Fld := ⟨R.MCH_TRACK i, 31, 16⟩
def MCH_TRACK_OSC_REF (i : Nat) : Fld := ⟨R.MCH_TRACK i, 15, 0⟩
def MCH_WDQ_TRAINED (i : Nat) : Fld := ⟨R.MCH_WDQ i, 23, 16⟩
def MCH_WDQ_CUR (i : Nat) : Fld := ⟨R.MCH_WDQ i, 7, 0⟩
def MCH_REFRESH_FORCED (i : Nat) : Fld := ⟨R.MCH_REFRESH i, 31, 16⟩
def MCH_REFRESH_PEAK (i : Nat) : Fld := ⟨R.MCH_REFRESH i, 11, 8⟩
def MCH_REFRESH_DOUBLE (i : Nat) : Fld := ⟨R.MCH_REFRESH i, 0, 0⟩
def MCH_CE_CNT (i : Nat) : Fld := ⟨R.MCH_CE_CNT i, 31, 0⟩
def MCH_UE_CNT (i : Nat) : Fld := ⟨R.MCH_UE_CNT i, 31, 0⟩
def MCH_RD_ACT_ACTIONS (i : Nat) : Fld := ⟨R.MCH_RD_ACT i, 31, 16⟩
def MCH_RD_ACT_OVERFLOWS (i : Nat) : Fld := ⟨R.MCH_RD_ACT i, 15, 0⟩
def MCH_MR4 (i : Nat) : Fld := ⟨R.MCH_MR4 i, 7, 0⟩
def CRT_CORE_BUDGET : Fld := ⟨R.CRT_CORE_BUDGET, 8, 0⟩
def CRT_CORE_FLOOR : Fld := ⟨R.CRT_CORE_FLOOR, 8, 0⟩
def CRT_CORE_STAT_EFF : Fld := ⟨R.CRT_CORE_STAT, 24, 16⟩
def CRT_CORE_STAT_GRANTED : Fld := ⟨R.CRT_CORE_STAT, 8, 0⟩
def CRT_THROTTLE_STEP_DOWNS : Fld := ⟨R.CRT_THROTTLE, 31, 16⟩
def CRT_THROTTLE_STEPS : Fld := ⟨R.CRT_THROTTLE, 3, 0⟩
def CRT_PEAK : Fld := ⟨R.CRT_PEAK, 8, 0⟩
def CRT_LINGER : Fld := ⟨R.CRT_LINGER, 15, 0⟩
def CRT_STARVE : Fld := ⟨R.CRT_STARVE, 23, 0⟩
def CRT_STARVED : Fld := ⟨R.CRT_STARVED, 7, 0⟩
def CRT_BAR_GROUP : Fld := ⟨R.CRT_BAR_GROUP, 15, 0⟩
def CRT_SHARE (i : Nat) : Fld := ⟨R.CRT_SHARE i, 8, 0⟩
def CRT_CONS_CFG_COST (i : Nat) : Fld := ⟨R.CRT_CONS_CFG i, 31, 24⟩
def CRT_CONS_CFG_OFFSET (i : Nat) : Fld := ⟨R.CRT_CONS_CFG i, 23, 0⟩
def CRT_CONS_STAT_RECALLS (i : Nat) : Fld := ⟨R.CRT_CONS_STAT i, 31, 16⟩
def CRT_CONS_STAT_WAITS (i : Nat) : Fld := ⟨R.CRT_CONS_STAT i, 15, 6⟩
def CRT_CONS_STAT_HELD (i : Nat) : Fld := ⟨R.CRT_CONS_STAT i, 5, 0⟩
def CRT_CONS_LATE (i : Nat) : Fld := ⟨R.CRT_CONS_LATE i, 23, 0⟩
def CRT_FGROUP_BUDGET (i : Nat) : Fld := ⟨R.CRT_FGROUP_BUDGET i, 15, 0⟩
def CRT_FGROUP_OVER (i : Nat) : Fld := ⟨R.CRT_FGROUP_OVER i, 31, 0⟩
def THM_CFG_FAST : Fld := ⟨R.THM_CFG, 0, 0⟩
def THM_SITE_EN : Fld := ⟨R.THM_SITE_EN, 15, 0⟩
def THM_THR_THROTTLE : Fld := ⟨R.THM_THR_THROTTLE, 15, 0⟩
def THM_THR_STOP : Fld := ⟨R.THM_THR_STOP, 15, 0⟩
def THM_THR_CRIT : Fld := ⟨R.THM_THR_CRIT, 15, 0⟩
def THM_HYST : Fld := ⟨R.THM_HYST, 7, 0⟩
def THM_TEMP_SITE : Fld := ⟨R.THM_TEMP, 19, 16⟩
def THM_TEMP_DEV : Fld := ⟨R.THM_TEMP, 15, 0⟩
def THM_TSTATE_CRIT : Fld := ⟨R.THM_TSTATE, 2, 2⟩
def THM_TSTATE_STOP : Fld := ⟨R.THM_TSTATE, 1, 1⟩
def THM_TSTATE_THROTTLE : Fld := ⟨R.THM_TSTATE, 0, 0⟩
def THM_TPEAK : Fld := ⟨R.THM_TPEAK, 15, 0⟩
def THM_ROUNDS : Fld := ⟨R.THM_ROUNDS, 31, 0⟩
def THM_SITE_TEMP (i : Nat) : Fld := ⟨R.THM_SITE i, 31, 16⟩
def THM_SITE_STATUS (i : Nat) : Fld := ⟨R.THM_SITE i, 1, 0⟩
def THM_SITE_RAW (i : Nat) : Fld := ⟨R.THM_SITE_RAW i, 15, 0⟩
def CAL_CFG_APPLY : Fld := ⟨R.CAL_CFG, 0, 0⟩
def CAL_PEND_MAX : Fld := ⟨R.CAL_PEND_MAX, 15, 0⟩
def CAL_ITEM_CFG_CAL_DT (i : Nat) : Fld := ⟨R.CAL_ITEM_CFG i, 15, 8⟩
def CAL_ITEM_CFG_AUTO (i : Nat) : Fld := ⟨R.CAL_ITEM_CFG i, 0, 0⟩
def CAL_ITEM_CMD_UNITS (i : Nat) : Fld := ⟨R.CAL_ITEM_CMD i, 24, 16⟩
def CAL_ITEM_CMD_CANCEL (i : Nat) : Fld := ⟨R.CAL_ITEM_CMD i, 2, 2⟩
def CAL_ITEM_CMD_FORCE (i : Nat) : Fld := ⟨R.CAL_ITEM_CMD i, 1, 1⟩
def CAL_ITEM_CMD_RUN (i : Nat) : Fld := ⟨R.CAL_ITEM_CMD i, 0, 0⟩
def CAL_ITEM_STAT_FAIL (i : Nat) : Fld := ⟨R.CAL_ITEM_STAT i, 31, 23⟩
def CAL_ITEM_STAT_TRIG (i : Nat) : Fld := ⟨R.CAL_ITEM_STAT i, 21, 20⟩
def CAL_ITEM_STAT_HELD (i : Nat) : Fld := ⟨R.CAL_ITEM_STAT i, 18, 18⟩
def CAL_ITEM_STAT_OVERDUE (i : Nat) : Fld := ⟨R.CAL_ITEM_STAT i, 17, 17⟩
def CAL_ITEM_STAT_PEND (i : Nat) : Fld := ⟨R.CAL_ITEM_STAT i, 8, 0⟩
def CAL_RUNNING (i : Nat) : Fld := ⟨R.CAL_RUNNING i, 8, 0⟩
def CAL_RUN_CNT (i : Nat) : Fld := ⟨R.CAL_RUN_CNT i, 31, 0⟩
def CAL_LAST_TIME_LO (i : Nat) : Fld := ⟨R.CAL_LAST_TIME_LO i, 31, 0⟩
def CAL_LAST_TIME_HI (i : Nat) : Fld := ⟨R.CAL_LAST_TIME_HI i, 31, 0⟩
def CAL_LAST_TEMP (i : Nat) : Fld := ⟨R.CAL_LAST_TEMP i, 15, 0⟩
def CAL_TAPCAL (i : Nat) : Fld := ⟨R.CAL_TAPCAL i, 11, 0⟩
def CAL_SENS_OFF (i : Nat) : Fld := ⟨R.CAL_SENS_OFF i, 15, 0⟩
def CAL_ADC_OFF_COS (i : Nat) : Fld := ⟨R.CAL_ADC_OFF i, 29, 16⟩
def CAL_ADC_OFF_SIN (i : Nat) : Fld := ⟨R.CAL_ADC_OFF i, 13, 0⟩
def CAL_ADC_GAIN_COS (i : Nat) : Fld := ⟨R.CAL_ADC_GAIN i, 31, 16⟩
def CAL_ADC_GAIN_SIN (i : Nat) : Fld := ⟨R.CAL_ADC_GAIN i, 15, 0⟩
def CAL_EQ_CTLE (i : Nat) : Fld := ⟨R.CAL_EQ i, 23, 16⟩
def CAL_EQ_DFE1 (i : Nat) : Fld := ⟨R.CAL_EQ i, 15, 8⟩
def CAL_EQ_DFE2 (i : Nat) : Fld := ⟨R.CAL_EQ i, 7, 0⟩
def DMA_STATUS_BASE_LO : Fld := ⟨R.DMA_STATUS_BASE_LO, 31, 0⟩
def DMA_STATUS_BASE_HI : Fld := ⟨R.DMA_STATUS_BASE_HI, 31, 0⟩
def DMA_STATUS_CTRL_EN : Fld := ⟨R.DMA_STATUS_CTRL, 0, 0⟩
def PAR_CFG_TILE_DIG : Fld := ⟨R.PAR_CFG, 9, 9⟩
def PAR_CFG_LINE_DIG : Fld := ⟨R.PAR_CFG, 8, 8⟩
def PAR_CFG_UNIT_ID : Fld := ⟨R.PAR_CFG, 5, 4⟩
def PAR_CFG_AUTO_RESYNC : Fld := ⟨R.PAR_CFG, 1, 1⟩
def PAR_CFG_AUTO_CLAIM : Fld := ⟨R.PAR_CFG, 0, 0⟩
def PAR_DELAY : Fld := ⟨R.PAR_DELAY, 15, 0⟩
def PAR_TIMING_GRACE : Fld := ⟨R.PAR_TIMING, 31, 24⟩
def PAR_TIMING_LINK_TO : Fld := ⟨R.PAR_TIMING, 23, 16⟩
def PAR_TIMING_LOCKET_MAX : Fld := ⟨R.PAR_TIMING, 15, 8⟩
def PAR_TIMING_DIG_WAIT : Fld := ⟨R.PAR_TIMING, 7, 0⟩
def PAR_CMD_KEY : Fld := ⟨R.PAR_CMD, 31, 16⟩
def PAR_CMD_OP : Fld := ⟨R.PAR_CMD, 3, 0⟩
def PAR_STAT_DETACH_CAUSE : Fld := ⟨R.PAR_STAT, 31, 28⟩
def PAR_STAT_PEER_ROLE : Fld := ⟨R.PAR_STAT, 21, 20⟩
def PAR_STAT_PEER_STATE : Fld := ⟨R.PAR_STAT, 19, 16⟩
def PAR_STAT_LINK_UP : Fld := ⟨R.PAR_STAT, 10, 10⟩
def PAR_STAT_HOLD_IN : Fld := ⟨R.PAR_STAT, 9, 9⟩
def PAR_STAT_HOLD_OUT : Fld := ⟨R.PAR_STAT, 8, 8⟩
def PAR_STAT_ROLE : Fld := ⟨R.PAR_STAT, 5, 4⟩
def PAR_STAT_CLAIMING : Fld := ⟨R.PAR_STAT, 2, 2⟩
def PAR_STAT_LOCKET_BUSY : Fld := ⟨R.PAR_STAT, 1, 1⟩
def PAR_STAT_ELIGIBLE : Fld := ⟨R.PAR_STAT, 0, 0⟩
def PAR_LOCKET_GEN : Fld := ⟨R.PAR_LOCKET, 31, 16⟩
def PAR_LOCKET_BAR : Fld := ⟨R.PAR_LOCKET, 10, 8⟩
def PAR_LOCKET_PHASE : Fld := ⟨R.PAR_LOCKET, 3, 0⟩
def PAR_LOCKET_BYTES_LO : Fld := ⟨R.PAR_LOCKET_BYTES_LO, 31, 0⟩
def PAR_LOCKET_BYTES_HI : Fld := ⟨R.PAR_LOCKET_BYTES_HI, 31, 0⟩
def PAR_TIME_OFS : Fld := ⟨R.PAR_TIME_OFS, 31, 0⟩
def PAR_ENC_DLY : Fld := ⟨R.PAR_ENC_DLY, 15, 0⟩
def PAR_CHANGES_TAKEOVERS : Fld := ⟨R.PAR_CHANGES, 31, 16⟩
def PAR_CHANGES_HANDOVERS : Fld := ⟨R.PAR_CHANGES, 15, 0⟩
def PAR_DIVERGE_CNT : Fld := ⟨R.PAR_DIVERGE_CNT, 31, 0⟩
def PAR_LAST_GAP : Fld := ⟨R.PAR_LAST_GAP, 15, 0⟩
def PAR_LAST_CHANGE_LO : Fld := ⟨R.PAR_LAST_CHANGE_LO, 31, 0⟩
def PAR_LAST_CHANGE_HI : Fld := ⟨R.PAR_LAST_CHANGE_HI, 31, 0⟩
def PAR_PAIR_OFS_LO : Fld := ⟨R.PAR_PAIR_OFS_LO, 31, 0⟩
def PAR_PAIR_OFS_HI : Fld := ⟨R.PAR_PAIR_OFS_HI, 31, 0⟩
def PLK_LINK_STAT_LATENCY : Fld := ⟨R.PLK_LINK_STAT, 31, 16⟩
def PLK_LINK_STAT_LANES : Fld := ⟨R.PLK_LINK_STAT, 11, 8⟩
def PLK_LINK_STAT_UP : Fld := ⟨R.PLK_LINK_STAT, 0, 0⟩
def PLK_LANE_EN : Fld := ⟨R.PLK_LANE_EN, 3, 0⟩
def PLK_RETX_CNT : Fld := ⟨R.PLK_RETX_CNT, 31, 0⟩
def PLK_CRC_CNT : Fld := ⟨R.PLK_CRC_CNT, 31, 0⟩
def PLK_LOSS_CNT : Fld := ⟨R.PLK_LOSS_CNT, 15, 0⟩
def PLK_LOAD : Fld := ⟨R.PLK_LOAD, 7, 0⟩
def SBP_CFG_TERM : Fld := ⟨R.SBP_CFG, 8, 8⟩
def SBP_RATE_CUR : Fld := ⟨R.SBP_RATE, 1, 0⟩
def SBP_RX_FRAMES : Fld := ⟨R.SBP_RX_FRAMES, 31, 0⟩
def SBP_RX_ERR_CRC : Fld := ⟨R.SBP_RX_ERR, 31, 16⟩
def SBP_RX_ERR_OTHER : Fld := ⟨R.SBP_RX_ERR, 15, 0⟩
def SBP_TX_FRAMES : Fld := ⟨R.SBP_TX_FRAMES, 31, 0⟩
def SBP_EVQ_LOST : Fld := ⟨R.SBP_EVQ, 31, 16⟩
def SBP_EVQ_COUNT : Fld := ⟨R.SBP_EVQ, 7, 0⟩
def SBP_LOG_SEQ : Fld := ⟨R.SBP_LOG_SEQ, 31, 0⟩
def CHN_ADDR : Fld := ⟨R.CHN_ADDR, 5, 0⟩
def CHN_STAT_FRONT : Fld := ⟨R.CHN_STAT, 2, 2⟩
def CHN_STAT_CHAIN_OUT : Fld := ⟨R.CHN_STAT, 1, 1⟩
def CHN_STAT_CHAIN_IN : Fld := ⟨R.CHN_STAT, 0, 0⟩
def CHN_SYNC_CFG_FWD : Fld := ⟨R.CHN_SYNC_CFG, 2, 2⟩
def CHN_SYNC_CFG_SOURCE : Fld := ⟨R.CHN_SYNC_CFG, 1, 1⟩
def CHN_SYNC_CFG_EN : Fld := ⟨R.CHN_SYNC_CFG, 0, 0⟩
def CHN_SYNC_DELAY : Fld := ⟨R.CHN_SYNC_DELAY, 15, 0⟩
def CHN_EPOCH_LO : Fld := ⟨R.CHN_EPOCH_LO, 31, 0⟩
def CHN_EPOCH_HI : Fld := ⟨R.CHN_EPOCH_HI, 31, 0⟩
def CHN_SYNC_EDGE_LO : Fld := ⟨R.CHN_SYNC_EDGE_LO, 31, 0⟩
def CHN_SYNC_EDGE_HI : Fld := ⟨R.CHN_SYNC_EDGE_HI, 31, 0⟩
def CHN_CHAIN_OFS_LO : Fld := ⟨R.CHN_CHAIN_OFS_LO, 31, 0⟩
def CHN_CHAIN_OFS_HI : Fld := ⟨R.CHN_CHAIN_OFS_HI, 31, 0⟩
def CHN_SYNC_STAT_COUNT : Fld := ⟨R.CHN_SYNC_STAT, 31, 16⟩
def CHN_SYNC_STAT_ARMED : Fld := ⟨R.CHN_SYNC_STAT, 1, 1⟩
def CHN_SYNC_STAT_VALID : Fld := ⟨R.CHN_SYNC_STAT, 0, 0⟩
def DBG_PRBS_CFG_MS : Fld := ⟨R.DBG_PRBS_CFG, 31, 16⟩
def DBG_PRBS_CFG_CHK : Fld := ⟨R.DBG_PRBS_CFG, 13, 13⟩
def DBG_PRBS_CFG_GEN : Fld := ⟨R.DBG_PRBS_CFG, 12, 12⟩
def DBG_PRBS_CFG_PATTERN : Fld := ⟨R.DBG_PRBS_CFG, 9, 8⟩
def DBG_PRBS_CFG_LANE : Fld := ⟨R.DBG_PRBS_CFG, 6, 0⟩
def DBG_PRBS_ERR : Fld := ⟨R.DBG_PRBS_ERR, 31, 0⟩
def DBG_PRBS_STAT_ABORTED : Fld := ⟨R.DBG_PRBS_STAT, 2, 2⟩
def DBG_PRBS_STAT_LOCK : Fld := ⟨R.DBG_PRBS_STAT, 1, 1⟩
def DBG_PRBS_STAT_BUSY : Fld := ⟨R.DBG_PRBS_STAT, 0, 0⟩
def DBG_IDCODE : Fld := ⟨R.DBG_IDCODE, 31, 0⟩
def DBG_LOCK_NO_REGACCESS : Fld := ⟨R.DBG_LOCK, 0, 0⟩
end Sys2Proof.Machine.F
end

