-- ==== Sys2Proof/Machine/State.lean ====
section
/-!
DEFINITION. Sys2Proof/Machine/State.lean: the state of the block as plain data, its faults and refusals, and its state right
after reset. Registers live in one register file, keyed by BAR 0 offset; what an island holds beside its registers lives in
one structure per island, so that clearing an island (R72) puts that structure back.
-/
namespace Sys2Proof.Machine

open Sys2Proof

/-- The list element at `i`, or the type's default beyond the end. -/
def nth {α : Type} [Inhabited α] (l : List α) (i : Nat) : α := l.getD i default

/-- The list with the element at `i` changed by `f`. -/
def updNth {α : Type} (l : List α) (i : Nat) (f : α → α) : List α := l.modify i f

/-! ### What leaves the device and what is recorded -/

/-- The pair messages of Table 16.2. -/
inductive PairMsg where
  | heartbeat (role state : Nat) (eligible holding : Bool) (unitId gen phase : Nat) (edgeTime : Int) (edgeCount : Int)
  | action (stamp : Int) (act : PairAct)
  | resolve (r : Resolve)
  | telem (r : Resolve)
  | tileDigest (ring idx ord digest : Nat)
  | lineDigest (bar line digest : Nat)
  | locketData (gen phase bytes : Nat)
  | locketPhase (gen phase : Nat)
  | locketSeal (gen bar line : Nat)
  | locketAbort (gen cause : Nat)
  | claim (pref : Bool) (serial : Nat)
  | resyncRequest
  | handoverRequest
  | diverged (key : DigKey)
  | record (r : Rec)
  | ack (seq : Nat)
  deriving DecidableEq, Repr, Inhabited

/-- What a ZaroLink lane transmits: training elements, the header of a line frame, a payload chunk, a control frame, and the
LDOWN notice. -/
inductive ZlTx where
  | trn (step preset checkLog2 unitId : Nat)
  | ldown (discardFrom cause : Nat)
  | header (line flags stitch : Nat) (crcs : List Nat) (hcrc : Nat)
  | payload (line : Nat) (data : List (BitVec 4))
  | replay (line chunk flags : Nat) (data : List (BitVec 4))
  | control (opc seq flags : Nat) (payload : List Byte) (crc : Nat)
  deriving DecidableEq, Repr, Inhabited

/-- What leaves the device at its balls: writes to host memory, MSI-X messages, reads of host memory, completions with
Completer Abort, data returned to a master, side-band replies, pair frames, ZaroLink transmissions, FIRE edges (in ticks of
2.5 ns / 64), encoder pass-through counts, the SYNC_OUT pulse, PRBS patterns, what the JTAG port shifts out, and the pins that the boundary register drives. -/
inductive Out where
  | memWrite (addr : Nat) (data : List Byte)
  | msix (vector addr : Nat) (data : Word)
  | dmaRead (cls ring addr len : Nat)
  | completerAbort
  | barReply (data : List Byte) (poisoned : Bool)
  | readReply (m : Master) (w : Word)
  | sbReply (frame : List Byte)
  | pair (seq : Nat) (holding : Bool) (time : Int) (m : PairMsg)
  | zl (lane : Nat) (x : ZlTx)
  | fire (output : Nat) (active : Bool) (t64 : Nat)
  | enco (ch : Nat) (counts : Int)
  | syncPulse (time : Nat)
  | prbs (lane pattern : Nat)
  | tdo (bits : List Bool)
  | boundary (instr : Nat) (cells : List Bool)
  deriving DecidableEq, Repr, Inhabited

/-- The phase of one output pad or group: at rest, in the rest-follow sequence of Table 2.7 (with a GPIO_OUT write held during
it, R46), or driving the given levels, one per pad. -/
inductive PadPhase where
  | rest
  | follow (start : Nat) (held : Option Bool)
  | driving (levels : List Bool)
  deriving DecidableEq, Repr, Inhabited

/-- Whether an island is held in reset, has a release ordered but its clock not yet qualified, or runs (R68, Table 4.3). -/
inductive IslPhase where
  | inReset | releaseHeld | released
  deriving DecidableEq, Repr, Inhabited

/-- The device states of Table 1.8. -/
inductive DevState where
  | auxonly | trimload | trimfault | powerup | memtrain | memfault | ready | armed | printing | stopping | resethold
  deriving DecidableEq, Repr, Inhabited

/-- STATE encodings of Table 1.8. -/
def DevState.code : DevState → Nat
  | .auxonly => 1 | .trimload => 2 | .trimfault => 3 | .powerup => 4 | .memtrain => 5 | .memfault => 6
  | .ready => 7 | .armed => 8 | .printing => 9 | .stopping => 10 | .resethold => 11

/-- The state that a STATE encoding names; the reserved codes, which no step writes, read as AUXONLY. -/
def DevState.ofCode : Nat → DevState
  | 2 => .trimload | 3 => .trimfault | 4 => .powerup | 5 => .memtrain | 6 => .memfault
  | 7 => .ready | 8 => .armed | 9 => .printing | 10 => .stopping | 11 => .resethold | _ => .auxonly

/-- The roles of R365. -/
inductive Role where
  | solo | active | standby | detached
  deriving DecidableEq, Repr, Inhabited

/-- ROLE encodings of Table 1.7. -/
def Role.code : Role → Nat
  | .solo => 0 | .active => 1 | .standby => 2 | .detached => 3

/-- The role that a ROLE encoding names. -/
def Role.ofCode : Nat → Role
  | 1 => .active | 2 => .standby | 3 => .detached | _ => .solo

/-! ### AUX -/

/-- Where the release sequence of R81 stands: not running, loading trim, starting the regulators, waiting for an island's
clock, training the DRAM, or stopped by BOOT_HOLD before an island (R83). -/
inductive SeqStep where
  | idle
  | trim
  | rails
  | clock (island : Nat)
  | training
  | bootHold (island : Nat)
  deriving DecidableEq, Repr, Inhabited

/-- An access of a master that waits (R103, R404): a register read or write, which may be a stamped action's, and the rest of a side-band READ (the words read
so far, and whether one came from a held island) or WRITE (the words applied so far). -/
inductive BusAcc where
  | read (m : Master) (a : Nat)
  | write (m : Master) (a : Nat) (w : Word) (stamped : Bool)
  | sbRead (addr off n : Nat) (got : List Word) (inReset : Bool)
  | sbWrite (addr off : Nat) (ws : List Word) (done : Nat)
  deriving DecidableEq, Repr, Inhabited

/-- A side-band WRITE whose present word is a stamped action of an ACTIVE unit (R373, R404): the address of the request, the offset of the word after it, the words
after it, the words applied before it, the pair frame that has to be acknowledged, and the word's own end: none until its stamp, then the code of a refusal. -/
structure SbWait where
  addr : Nat := 0
  off : Nat := 0
  ws : List Word := []
  done : Nat := 0
  waitAck : Option Nat := none
  ended : Option (Option Nat) := none
  deriving DecidableEq, Repr, Inhabited

/-- The TAP (R446): the instruction register, IDCODE after Test-Logic-Reset, and the boundary register's cells. -/
structure Tap where
  ir : Nat := 0x01
  cells : List Bool := []
  deriving DecidableEq, Repr, Inhabited

/-- What the AUX island holds beside its registers: the supplies and the reset controller, the output pads, the recorded CTRL
writes (R77), the retained log, the side-band port and the chain. -/
structure Aux where
  /-- VAUX above its power-on threshold (R63). -/
  vaux : Bool := true
  /-- VIN valid (R63). -/
  vin : Bool := false
  /-- The AUX oscillator runs (R69). -/
  osc : Bool := true
  /-- RESET_N is held low (R72). -/
  resetN : Bool := false
  /-- The level of PERST_N: low holds HOST in reset (R73). -/
  perstLow : Bool := true
  /-- The six rails are in regulation (R65). -/
  railsUp : Bool := false
  /-- A regulator fault waits for its restart after 100 ms (R66). -/
  faultWait : Bool := false
  /-- Where the release sequence stands (R81). -/
  seq : SeqStep := .idle
  /-- The islands that the acting sources clear and that the sequence has still to release, by island code (R75, R81). -/
  todo : List Nat := []
  /-- The phase of each island, by island code (R70). -/
  phases : List IslPhase := [.released, .inReset, .inReset, .inReset, .inReset, .inReset, .inReset, .inReset]
  /-- CTRL writes recorded while a page's island is held or its release waits, page and value (R77, R91). -/
  ctrlRec : List (Nat × Word) := []
  /-- The next trim load takes the side-band rate from SB_RATE (R58). -/
  rateFromStrap : Bool := true
  /-- The sequence still has to stop for BOOT_HOLD (R83). -/
  bootStop : Bool := false
  /-- The RESETHOLD mark of the retention domain (R78). -/
  holdMark : Bool := false
  /-- The retained THM SITE_EN (R345). -/
  siteEn : Word := 0xFFFF
  /-- The retained log, oldest first, at most 512 records (R79). -/
  log : List Rec := []
  /-- DEVTIME last saved in the retention domain (R71). -/
  savedTime : Nat := 0
  /-- The pads, by the codes of R44: 0 to 14 the groups of OUTGRP_EN, 16 to 31 GPIO, 32 SB_P/M, 33 CHAIN_OUT, 34 HOLD_OUT. -/
  pads : List PadPhase := List.replicate 35 .rest
  /-- Start of the watchdog's present period (R149). -/
  wdtStart : Nat := 0
  /-- The side-band event queue, oldest first, at most 128 records (R405). -/
  evq : List Rec := []
  /-- The sequence number that the next record to enter the queue takes (R405). -/
  evqSeq : Nat := 0
  /-- A full spell lasts: a discard since EVT_POLL last released an entry (R405). -/
  evqFull : Bool := false
  /-- The rate that a SET_RATE frame has scheduled (R409), with the instant of the switch. -/
  rateNext : Option (Nat × Nat) := none
  /-- An epoch arm pending: its EPOCH and the instant it expires, which the source's arm does not (R413). -/
  arm : Option (Nat × Option Nat) := none
  /-- On reaching READY the unit clears OUTGRP_EN and GPIO_OE: control was lost with no unit to take it (R385). -/
  clearOuts : Bool := false
  /-- The JTAG port may not use REGACCESS until VAUX power-on (R447). -/
  regLock : Bool := false
  /-- Holding registers of R8, per master: (master, register, held value); reads capture a _HI half, writes hold a _LO half. -/
  capt : List (Master × Nat × Word) := []
  holdLo : List (Master × Nat × Word) := []
  /-- Accesses that an apply or a side-band WRITE in progress holds, oldest first (R103, R115, R404). -/
  heldAcc : List BusAcc := []
  sbWait : Option SbWait := none
  tap : Tap := {}
  deriving DecidableEq, Repr, Inhabited

/-! ### Tiles, and what the arbiters hold -/

/-- A tile as fetched: the fields of its header (Table 6.1) and its payload bytes. -/
structure Tile where
  kind : Nat := 0
  bar : Nat := 0
  col : Nat := 0
  row : Nat := 0
  fill : Nat := 0
  rawLen : Nat := 0
  payLen : Nat := 0
  crc : Nat := 0
  payload : List Byte := []
  deriving DecidableEq, Repr, Inhabited

/-- A tile at work: its bar, the first extended line and column that it fills, the tile, and the descriptor it belongs to. -/
structure TileJob where
  bar : Nat := 0
  lx : Nat := 0
  tile : Tile := {}
  desc : Nat := 0
  deriving DecidableEq, Repr, Inhabited

/-- The work of a request: a DRAM access (with the bytes and byte enables of a write that came through BAR 2), the register accesses of a
batch that are still to be made, a tile, or a codec job. -/
inductive Work where
  | access (addr : Nat) (write : Bool) (who : Nat) (data : List (Option Byte))
  | batch (n : Nat)
  | tile (j : TileJob)
  | codec (k : Nat)
  deriving DecidableEq, Repr, Inhabited

/-- A request of an arbiter instance, waiting or held (R299 to R305): its requester, deadline and the instant it was raised; for a
holder the instant of its grant, the time it has spent stalled, since when it is stalled, and its lane. -/
structure Req where
  r : Nat := 0
  deadline : Nat := 0
  raised : Nat := 0
  work : Work := .batch 0
  starved : Bool := false
  granted : Nat := 0
  stalled : Nat := 0
  stallFrom : Option Nat := none
  lane : Nat := 0
  /-- The data of a decoder lane ends in BAD_DATA, or a codec job in FETCH: an uncorrectable read (Table 13.4). -/
  bad : Bool := false
  deriving DecidableEq, Repr, Inhabited

/-- One arbiter instance: the waiting requests in the order raised, and the holders in the order granted. -/
structure ArbInst where
  waiting : List Req := []
  holders : List Req := []
  deriving DecidableEq, Repr, Inhabited

/-! ### HSK -/

/-- A carat request or holding (R337): consumer, unit, deadline, the instant it was raised, and whether it has starved. -/
structure CReq where
  cons : Nat := 0
  unit : Nat := 0
  deadline : Nat := 0
  raised : Nat := 0
  starved : Bool := false
  deriving DecidableEq, Repr, Inhabited

/-- The phases of a calibration run: a plain run, the FIT phase of an ADC unit, the wait of its TRIM phase for a quiet window, and the
TRIM phase (R354). -/
inductive CalPhase where
  | run | fit | trimWait | trim
  deriving DecidableEq, Repr, Inhabited

/-- The present run of a calibration unit (R353 to R358): item, unit, phase, whether it runs in a job gap, and for a zone run the line L. -/
structure CalRun where
  item : Nat := 0
  unit : Nat := 0
  phase : CalPhase := .run
  gap : Bool := false
  zone : Option Nat := none
  /-- A forced run of a FIRE_DLY unit in a job (R357), and the instant at which the run began, if it has. -/
  forced : Bool := false
  since : Option Nat := none
  deriving DecidableEq, Repr, Inhabited

/-- A result that is not yet in force (R359, R360): item, unit, the values still in force by register, and the line at whose boundary it
comes into force, if it is bound to one. -/
structure CalHeld where
  item : Nat := 0
  unit : Nat := 0
  old : List (Nat × Word) := []
  line : Option Nat := none
  deriving DecidableEq, Repr, Inhabited

/-- What the HSK island holds beside its registers: the carat arbiter (R336 to R341), the thermal block (R343 to R349), and the
self-calibration block (R352 to R363). -/
structure Hsk where
  cwait : List CReq := []
  cheld : List CReq := []
  /-- Grants of the last microsecond: instant and carats (R338). -/
  grants : List (Nat × Nat) := []
  /-- Rounds for which each site's raw count has not changed (R344). -/
  same : List Nat := List.replicate 16 0
  /-- Consecutive measurements that count towards entering and towards leaving THROTTLE, STOP and CRITICAL (R346). -/
  enter : List Nat := [0, 0, 0]
  leave : List Nat := [0, 0, 0]
  /-- Consecutive measurements that count towards the next step of STEPS, up and down (R341). -/
  stepHot : Nat := 0
  stepCool : Nat := 0
  /-- Thresholds and HYST as latched at the start of the round in progress (R349), and FAST as it began (R343). -/
  thr : List Nat := [0x5F0, 0x690, 0x730]
  hyst : Nat := 0x30
  /-- A round has been measured since reset, and what each site is broken by: 0 nothing, 1 IMPLAUSIBLE, 2 FROZEN (R344). -/
  measured : Bool := false
  broken : List Nat := List.replicate 16 0
  /-- SENS_OFF as the round in progress began (R359). -/
  sens : List Int := List.replicate 16 0
  runs : List CalRun := []
  /-- When each pending unit became pending, and whether its OVERDUE has been raised: item, unit, instant (R355). -/
  pendSince : List (Nat × Nat × Nat) := []
  /-- Units that become pending again when their present run completes, with the trigger: item, unit, trigger (Table 15.2). -/
  again : List (Nat × Nat × Nat) := []
  held : List CalHeld := []
  /-- Pending units whose CAL_OVERDUE has been raised (R355): item and unit. -/
  overdue : List (Nat × Nat) := []
  /-- The units, as bits, that have completed in each item's present run (R353). -/
  ran : List Nat := [0, 0, 0, 0, 0]
  deriving DecidableEq, Repr, Inhabited

/-! ### MEM -/

/-- What the MEM island holds beside its registers (chapter 13): the front-end arbiter, the init regions written or swept so far, the
granules whose reads are uncorrectable, each bank's postponed refreshes, neighbour refreshes due (bank and row), the row-disturbance
tables with the threshold of the present window and the channels that have raised RD_OVERFLOW in it, and the check cache: per channel
the groups cached with the data granules written since the check granule was last written. Banks are numbered 16 × channel + bank. -/
structure Mem where
  arb : ArbInst := {}
  inited : List Nat := []
  bad : List Nat := []
  postponed : List Nat := List.replicate 256 0
  neighbour : List (Nat × Nat) := []
  rows : List (List (Nat × Nat)) := List.replicate 256 []
  thr : Nat := 0x1000
  overflowed : List Nat := []
  cache : List (List (Nat × List Nat)) := List.replicate 16 []
  deriving DecidableEq, Repr, Inhabited

/-! ### HOST -/

/-- A descriptor fetched from a submission ring and not yet completed (R136): its index, its 32 bytes, whether its engine has
taken it, and bytes 24 to 31 once it is done. -/
structure Desc where
  idx : Nat := 0
  bytes : List Byte := []
  taken : Bool := false
  result : Option (List Byte) := none
  deriving DecidableEq, Repr, Inhabited

/-- What the device holds of one ring beside its registers (R135 to R139, R146): the claim index, the records held on chip,
the fetched descriptors, how many items are not yet signalled and since when, whether RING_EN = 0 waits for descriptors,
and whether a descriptor fetch is outstanding. -/
structure RingRt where
  claim : Nat := 0
  held : List (List Byte) := []
  descs : List Desc := []
  unsig : Nat := 0
  unsigSince : Nat := 0
  disabling : Bool := false
  /-- Its entry of the status block has changed while DMA was stopped, and is written when DMA may run (R124, R140). -/
  statDue : Bool := false
  deriving DecidableEq, Repr, Inhabited

/-- The PCIe link (R122 to R124): down or training, in L0, or in Recovery. -/
inductive LinkState where
  | down | l0 | recovery
  deriving DecidableEq, Repr, Inhabited

/-- One AER entry (R132): the kind of error and the ring. -/
inductive AerError where
  | completionTimeout | unexpectedCompletion | poisonedTlp
  deriving DecidableEq, Repr, Inhabited

/-- What the HOST island holds beside its registers: the link, the configuration bits that commands act on, the rings, and
the AER log. -/
structure HostIf where
  link : LinkState := .down
  /-- A Hot Reset or Data Link Down holds HOST in reset until the link has been trained again (R123). -/
  inReset : Bool := false
  /-- Configuration-ready: Request Retry Status is no longer returned (R122). -/
  configReady : Bool := false
  busMaster : Bool := false
  memSpace : Bool := false
  d3hot : Bool := false
  rings : List RingRt := List.replicate 64 {}
  aer : List (AerError × Nat) := []
  /-- The JOB_ID of the last START consumed since each stream's ring was enabled (R143). -/
  prevStart : List (Option Nat) := [none, none, none, none]
  /-- The job that last ended without an END or STOP of its own on each stream, with the LINE that its later markers report (R451). -/
  r451 : List (Option (Nat × Nat)) := [none, none, none, none]
  deriving DecidableEq, Repr, Inhabited

/-! ### PIX: image store and codec (chapter 06) -/

/-- A plane slot of the page store (R162 to R168): its tiles, pin, whether it is FREEING or being loaded, the run log of its LOADs (R387),
and the times by which eviction ranks it: the last placement since it was emptied, and the completion of the last LOAD. -/
structure Plane where
  tiles : List Tile := []
  pin : Bool := false
  freeing : Bool := false
  loading : Bool := false
  placed : Option Nat := none
  loaded : Nat := 0
  runs : List (Nat × List Byte) := []
  deriving DecidableEq, Repr, Inhabited

/-- A LOAD or STREAM being fetched: its descriptor and fields, the bytes taken and the tiles left, the ordinal of the next tile, its tile
errors, whether a read of its data is outstanding, whether it waits for space that has been reported, and whether its ring was disabled
(R162, R163, R166, R168, R452). -/
structure Fetch where
  idx : Nat := 0
  stream : Bool := false
  plane : Nat := 0
  addr : Nat := 0
  len : Nat := 0
  pin : Bool := false
  verify : Bool := false
  fromDram : Bool := false
  off : Nat := 0
  tilesLeft : Nat := 0
  ord : Nat := 0
  errs : Nat := 0
  reading : Bool := false
  waiting : Bool := false
  stopping : Bool := false
  /-- The fetch executes a LOAD of a locket's run log again (R387): no descriptor of the ring completes. -/
  locket : Bool := false
  deriving DecidableEq, Repr, Inhabited

/-- A band of the contone ring not yet complete: its first extended line, its lines, the columns still to be written, and the raw bytes and
decode cycles of its AZD tiles (R172, R179). -/
structure Band where
  lx : Nat := 0
  lines : Nat := 0
  cols : List Nat := []
  bytes : Nat := 0
  cycles : Nat := 0
  deriving DecidableEq, Repr, Inhabited

/-- What the image store holds for one bar (TILE ring n): the fetch in progress, STREAM tiles fetched and waiting to be placed (with their
descriptor indices), the PRINT in placement, the bands under way, the open STREAM band (first line, lines, next column), the extended
numbers of the next line to place, the next line to complete, the first line that screening has not released, screening's fetch
position, and the line at which the (next) job's content begins (R172, R173, R201, R204). -/
structure TileRing where
  fetch : Option Fetch := none
  streams : List (Nat × Tile) := []
  print : Option Print := none
  bands : List Band := []
  openBand : Option (Nat × Nat × Nat) := none
  nextLx : Nat := 0
  wrLx : Nat := 0
  relLx : Nat := 0
  fetchLx : Nat := 0
  jobLx : Nat := 0
  deriving DecidableEq, Repr, Inhabited

/-- A decoder lane beside its grant (which the pool instance holds): the instant since which it lingers with carats and without work
(R339). -/
structure Lane where
  linger : Option Nat := none
  deriving DecidableEq, Repr, Inhabited

/-- A parked codec context (R182, R185): the 64 bytes written to host memory, the operation it resumes, the decoder or encoder left, the
string or match left to emit, the bytes written and the raw bytes so far with the running CRC, the input left of an encode, and the
input length of its first piece. -/
structure Parked where
  bytes : List Byte := []
  op : Nat := 0
  pos : Nat := 0
  dict : List (List Byte) := []
  last : List Byte := []
  rest : List Byte := []
  bits : List Bool := []
  cycles : Nat := 0
  winCodes : Nat := 0
  winBytes : Nat := 0
  totalOut : Nat := 0
  rawLen : Nat := 0
  crc : BitVec 32 := 0xFFFFFFFF
  inputLeft : Nat := 0
  firstLen : Nat := 0
  deriving DecidableEq, Repr, Inhabited

/-- The job that a CODEC ring runs (R180 to R185): its descriptor and fields, the input bytes, and the context it resumes. -/
structure CodecJob where
  idx : Nat := 0
  op : Nat := 0
  slot : Nat := 0
  dst : Nat := 0
  dstLen : Nat := 0
  dstDram : Bool := false
  bitOff : Nat := 0
  input : List Byte := []
  resume : Option Parked := none
  /-- The job ends with this status whatever its data: FETCH, INVALID, BAD_CONTEXT, CTX_BUSY or DISCARDED. -/
  fixed : Option Nat := none
  /-- An uncorrectable read of its data: the job completes FETCH (Table 13.4). -/
  bad : Bool := false
  deriving DecidableEq, Repr, Inhabited

/-- What the codec holds for ring 8 + k: its job, its 16 context slots, and each slot's 16-bit generation (R185). -/
structure CodecRing where
  job : Option CodecJob := none
  slots : List (Option Parked) := List.replicate 16 none
  gens : List Nat := List.replicate 16 0
  deriving DecidableEq, Repr, Inhabited

/-- The image store, the copy engine with the tile that it holds while the ring is full, the decoder lanes and the codec. -/
structure Img where
  planes : List Plane := List.replicate 512 {}
  rings : List TileRing := List.replicate 8 {}
  copy : Option TileJob := none
  copyStalled : Bool := false
  lanes : List Lane := List.replicate 32 {}
  codec : List CodecRing := List.replicate 4 {}
  /-- LOADs of a locket's run log that are still to be executed again: bar, index, descriptor; and whether one has failed (R387, R391). -/
  refetch : List (Nat × Nat × List Byte) := []
  refetchFail : Bool := false
  deriving DecidableEq, Repr, Inhabited

/-! ### PIX: screening, nozzle correction and jobs (chapters 05, 07 and 08) -/

/-- A line being screened (R187, R190): its number and print index, the registers and tables as they stood at the boundary that started
it (the hot heads among them), the first contone line that was not complete then, whether history is in use, the job's end index, and
when screening started. -/
structure ScreenJob where
  line : Nat := 0
  j : Int := 0
  regs : List (Nat × Word) := []
  wrLx : Nat := 0
  /-- R23 handles the line whatever is screened: the engine is not enabled, faulted or draining, or has no carats (R189, R205). -/
  dead : Bool := false
  historyEn : Bool := false
  endAt : Option Nat := none
  startedAt : Nat := 0
  deriving DecidableEq, Repr, Inhabited

/-- A screened line in the segment FIFOs (R197, R198): its number, the nozzle words in position order, the 12 drop counts of each segment,
whether R23 made it no-fire, and the line it follows was dropped or not. -/
structure LineBuf where
  line : Nat := 0
  words : List (BitVec 4) := []
  counts : List (List Nat) := []
  noFire : Bool := false
  deriving DecidableEq, Repr, Inhabited

/-- A row-line slot (R202, R203): the offset that its rows share, the extended contone line it holds, and whether its next line has been
requested. -/
structure RowSlot where
  ofs : Nat := 0
  lx : Option Nat := none
  next : Bool := false
  deriving DecidableEq, Repr, Inhabited

/-- What the screening engine of one bar holds: the line in progress, the FIFOs of up to four lines, the two history bits of each nozzle as
the sizes of the last two screened lines, the row-line slots, and what was latched at the job's first line: c, p, the first extended
contone line and whether the geometry check failed. -/
structure Scn where
  job : Option ScreenJob := none
  fifo : List LineBuf := []
  hist1 : List Bool := []
  hist2 : List Bool := []
  slots : List RowSlot := []
  cRes : Nat := 600
  pRes : Nat := 1200
  clx : Nat := 0
  bad : Bool := false
  deriving DecidableEq, Repr, Inhabited

/-- A chunk whose records are on their way back to DRAM (R213): its line, chunk, the ACC snapshot, the new COUNT and INTEG of each nozzle, KW as
it was, the DRAM accesses that are left, and whether boundary ℓ + 64 has passed. -/
structure Sweep where
  line : Nat := 0
  chunk : Nat := 0
  accs : List Nat := []
  recs : List (Nat × Int) := []
  kw : Nat := 0
  left : Nat := 0
  past : Bool := false
  deriving DecidableEq, Repr, Inhabited

/-- A density report being taken (R220, R221). -/
structure Dens where
  idx : Nat := 0
  first : Nat := 0
  count : Nat := 0
  tag : Nat := 0
  staged : Bool := false
  stagedAt : Nat := 0
  applyAt : Option Nat := none
  wcAtA : Nat := 0
  marked : Nat := 0
  deriving DecidableEq, Repr, Inhabited

/-- What nozzle correction holds for one bar: whether it counts, sweeps and visits, the latched head temperatures in force and those to
come into force at a line, visit results that take effect at the next boundary, held master writes, sweeps under way, the passes
requested (not before an instant), the density report, nozzles reported failed, and the nozzles whose last target gain was clamped. -/
structure NzcBar where
  run : Bool := false
  temps : List Int := List.replicate 64 0
  tempsNext : Option (Nat × List (Option Int)) := none
  visit : List (Nat × Word) := []
  held : List (Nat × Word) := []
  sweeps : List Sweep := []
  pass : Option Nat := none
  dens : Option Dens := none
  nchk : List Nat := []
  clamped : List Nat := []
  /-- Decisions the active sent for coming lines (R224): held writes, marks and temperature latches, with their lines. -/
  told : List Resolve := []
  /-- The line of the boundary at which counting and visits stopped for a drain (R225). -/
  stopLine : Option Nat := none
  deriving DecidableEq, Repr, Inhabited

/-- A clasp's values that a bar does not latch before its effective line (R112): the bar, that line, and the values that its registers had
before the apply. -/
structure Deferred where
  bar : Nat := 0
  line : Nat := 0
  old : List (Nat × Word) := []
  deriving DecidableEq, Repr, Inhabited

/-- What a clasp slot holds beside its registers (R109 to R119): the staged entries in order; when COMMIT was accepted and whether its condition had passed
then (R113); the line for which a LINE commit waits and the consumption instant of the job that its reference bar had at COMMIT (R111); the affected bars of
BARS (R112); the effective lines and the skips that a pair's active resolved (R117); and for a batch slot its descriptor's index while one is processed and
whether its entry list is being fetched (R119); for a slot that is APPLYING the commit point and the effective line on the reference bar. -/
structure Slot where
  entries : List (Nat × Word) := []
  armedAt : Nat := 0
  late : Bool := false
  target : Nat := 0
  jobBefore : Option Nat := none
  bars : Nat := 0
  lines : Option (List (Nat × Nat)) := none
  skips : List (Nat × Nat) := []
  desc : Option Nat := none
  fetching : Bool := false
  point : Nat := 0
  applyAt : Nat := 0
  effLine : Nat := 0
  /-- TAG of the batch descriptor, which its events carry. -/
  tag : Option Nat := none
  deriving DecidableEq, Repr, Inhabited

/-! ### FIRE: positions, line clocks and firing engines (chapters 09 and 10) -/

/-- What a position channel holds beside its registers (R227 to R236): its last edge (time and position), the intervals of the present run in
one direction (ticks and counts, newest first), whether the next edge is the first after a start or standstill, the phase in 1/65,536 of
a signal period with the last measured one in 1/4,096, runs of samples outside and inside the amplitude window, dead-reckoning (since
when, from which phase, at which speed), what is still to be absorbed after it, whether an extra tooth came since the last counted one,
the time at which the pass-through output is free and whether it is in error, the time of the last sample, and the ADC's offsets and
gains in force while they differ from their registers (sine, cosine). -/
structure Chan where
  last : Option (Nat × Int) := none
  ivals : List (Nat × Nat) := []
  fresh : Bool := true
  phase : Option Int := none
  meas : Nat := 0
  badRun : Nat := 0
  goodRun : Nat := 0
  dr : Option (Nat × Int × Int) := none
  rejoin : Int := 0
  extra : Bool := false
  encoFree : Nat := 0
  encoErr : Bool := false
  lastSample : Nat := 0
  adc : Option (Int × Int × Int × Int) := none
  deriving DecidableEq, Repr, Inhabited

/-- The latches in progress of a trigger, oldest first (R237): each with its edge time and the instant its filter ends. -/
structure Trig where
  edges : List (Nat × Nat) := []
  deriving DecidableEq, Repr, Inhabited

/-- What the commit of a line fixed (R240, R253 to R257), times in 1/64 tick: the line, t_B, F, the deferral in ticks, the cause if the line
is dropped, slots and delays of the eight segments, energies, the extent, overload, and the most loaded slot. -/
structure Commit where
  line : Nat := 0
  tB : Nat := 0
  fireAt : Nat := 0
  defer : Nat := 0
  drop : Option Nat := none
  slots : List Nat := []
  delays : List Nat := []
  energy : List Nat := []
  extent : Nat := 0
  overload : Bool := false
  peakSlot : Nat := 0
  width : Nat := 0
  spacing : Nat := 0
  inJob : Bool := false
  deriving DecidableEq, Repr, Inhabited

/-- What the line clock of one bar holds beside its registers (R239 to R245): whether a boundary has been placed since FIRE was released,
the latch point of the coming line, its commit, the last boundary in 1/64 tick, the queue of re-phase targets in 64.32 form, and
compare values that a clasp wrote for a later line. -/
structure LineClk where
  placed : Bool := false
  latched : Option Nat := none
  commit : Option Commit := none
  lastB : Nat := 0
  /-- Re-phase targets (64.32) with their triggers, in the order accepted (R238). -/
  phq : List (Nat × Nat) := []
  /-- Compare positions that a clasp wrote for later lines: line, position of the boundary that follows, lines skipped before it (R243). -/
  cmpSet : List (Nat × Nat × Nat) := []
  /-- The bar has placed no boundaries since it last had none (R244). -/
  stale : Bool := true
  /-- Lines that a forced calibration drops (R357). -/
  forced : Option (Nat × Nat) := none
  /-- A SWAP of the slot bank waits for this line (R255). -/
  swap : Option Nat := none
  /-- Compare skips that the active resolved for coming lines: line and count (R243). -/
  skips : List (Nat × Nat) := []
  deriving DecidableEq, Repr, Inhabited

/-- A head's temperature state (Table 10.3) and its dwell counts; the change that waits for its line. -/
structure Head where
  st : Nat := 0
  upHot : Nat := 0
  upStop : Nat := 0
  down : Nat := 0
  next : Option (Nat × Nat) := none
  deriving DecidableEq, Repr, Inhabited

/-- A pulse on a FIRE output: lane nn, line, and its fire edge in 1/64 tick; and whether the edge has been driven. -/
structure Pulse where
  nn : Nat := 0
  line : Nat := 0
  at64 : Nat := 0
  width : Nat := 0
  active : Bool := false
  deriving DecidableEq, Repr, Inhabited

/-- A dot capture under way (R269): the first line that may be captured (none: the next), the first line captured, the segments and lines wanted,
the lines captured and the segment lines captured. -/
structure Capture where
  stamp : Option Nat := none
  first : Option Nat := none
  mask : Nat := 0
  lines : Nat := 0
  done : Nat := 0
  segs : Nat := 0
  deriving DecidableEq, Repr, Inhabited

/-- A line as it was transmitted (R251, R265): its number, the words after suppression, the drop counts as screened, whether R23 made it no-fire, and the
segments with a stopped head. -/
structure Sent where
  line : Nat := 0
  words : List (BitVec 4) := []
  counts : List (List Nat) := []
  noFire : Bool := false
  stopped : List Nat := []
  /-- Its headers carried CONTROL = 1 (R288, R382). -/
  control : Bool := true
  deriving DecidableEq, Repr, Inhabited

/-- What the firing engine of one bar holds beside its registers: the last fired line of the job with its fire time and extent end in 1/64 tick, pulses due
and active, heads, the declarations of its nine HIB ports and a rise of the minimum line period with its line (R266), the outputs held after a cut until a
boundary releases them, the line that was transmitted last, the capture, the values of the last fit check, and HISTORY_EN as latched with a change that
waits for its line. -/
structure FireBar where
  lastLine : Option (Nat × Nat × Nat) := none
  pulses : List Pulse := []
  heads : List Head := List.replicate 64 {}
  declared : List Nat := List.replicate 9 0
  mlpRise : Option (Nat × Nat) := none
  cutHeld : Nat := 0
  sent : Option Sent := none
  capture : Option Capture := none
  /-- Captured data (host address and bytes) that waits for DMA, at most four segment lines (R269). -/
  capBuf : List (Nat × List Byte) := []
  fitKey : List Nat := []
  histEn : Bool := false
  histPend : Option (Nat × Bool) := none
  /-- A CUT that goes out after the job's last FIRE edge, with its DISCARD_FROM (R280). -/
  cutDue : Option Nat := none
  deriving DecidableEq, Repr, Inhabited

/-- What the FIRE island holds beside its registers: channels, the web count's high-water mark, recent web-channel edges (time and web
count, newest first), increments counted since ROLE changed, triggers, line clocks and firing engines. -/
structure Fire where
  chans : List Chan := List.replicate 4 {}
  hwm : Int := 0
  webEdges : List (Nat × Nat) := []
  trigs : List Trig := List.replicate 4 {}
  clks : List LineClk := List.replicate 8 {}
  bars : List FireBar := List.replicate 8 {}
  deriving DecidableEq, Repr, Inhabited

/-! ### ZL: the ZaroLink lanes (chapter 11) -/

/-- How an item that the HIB acknowledges stands (R282 to R284): not sent, sent at an instant and awaited, answered UNCHECKED, GOOD, BAD and
pending replay, or lost. -/
inductive AckState where
  | unsent | waiting (since : Nat) | unchecked | good | pending (readyAt : Nat) | lost
  deriving DecidableEq, Repr, Inhabited

/-- A line frame on a lane (R274 to R285): its line, segment, FLAGS and STITCH, whether R278 took its payload away, the states of the header and the chunks,
the chunks whose BAD is known in the order in which it became known, whether the replay window is open, whether it has closed (or there is none), and the
segment line. -/
structure ZFrame where
  line : Nat := 0
  seg : Nat := 0
  flags : Nat := 0
  stitch : Nat := 0
  absent : Bool := false
  header : AckState := .unsent
  chunks : List AckState := List.replicate 8 .unsent
  order : List Nat := []
  windowOpen : Bool := false
  closed : Bool := false
  crcs : List Nat := []
  data : List (BitVec 4) := []
  deriving DecidableEq, Repr, Inhabited

/-- A control frame that a lane has still to deliver (R279, R283): its number, opcode and payload, how often it was sent, when its last transmission ends or
ended (none: it is due to be sent, not before an instant), and whether the mailbox waits for it. -/
structure ZCtl where
  seq : Nat := 0
  opc : Nat := 0
  payload : List Byte := []
  sends : Nat := 0
  sentAt : Option Nat := none
  readyAt : Nat := 0
  mailbox : Bool := false
  deriving DecidableEq, Repr, Inhabited

/-- What a lane is transmitting (R284). -/
inductive ZSend where
  | payload | header | chunk (k : Nat) | control (seq : Nat)
  deriving DecidableEq, Repr, Inhabited

/-- A line that a lane has sent and that DISCARD_FROM still looks at (R285): whether it was dropped, and whether its header was acknowledged GOOD. -/
structure ZLine where
  line : Nat := 0
  dropped : Bool := false
  good : Bool := false
  deriving DecidableEq, Repr, Inhabited

/-- What a lane holds beside its registers: the training under way (presets still to try, whether it is a retraining, full
trainings left, whether the lane has ever been trained in full, the end of the present step, PINGs answered and the largest round trip in ns, the last
preset that passed); whether LANE_EN was cleared while a frame was on the lane; the frames, oldest first, with the control frames still to be delivered and
the next SEQ; the transmission in progress with its end in 1/6,400 tick; lines and lines with lost chunks in the present window of 1,024; the lines of
DISCARD_FROM; and whether the HIB reports a conflict. -/
structure ZLane where
  presets : List Nat := []
  retrain : Bool := false
  fullLeft : Nat := 0
  trained : Bool := false
  /-- CHECK_LOG2 and RTT_MAX as the training began (R297). -/
  check : Nat := 20
  rttMax : Nat := 400
  deadline : Nat := 0
  pings : Nat := 0
  maxRtt : Nat := 0
  okPreset : Nat := 2
  disabling : Bool := false
  frames : List ZFrame := []
  ctl : List ZCtl := []
  seq : Nat := 0
  busy : Option (ZSend × Nat) := none
  lines : Nat := 0
  lossy : Nat := 0
  sent : List ZLine := []
  conflict : Bool := false
  deriving DecidableEq, Repr, Inhabited

/-- The latest telemetry of one head: when, temperature, sensor fault (Table 11.7). -/
structure HeadTemp where
  time : Option Nat := none
  temp : Int := 0
  fault : Bool := false
  deriving DecidableEq, Repr, Inhabited

/-- What the ZL island holds beside its registers: the lanes, the head telemetry by bar, segment and head, the segment whose frames each bar's spare carries
now and when the last change of it was decided (R295), and the segments that are lost, by bar and segment (R296). -/
structure Zl where
  lanes : List ZLane := List.replicate 72 {}
  heads : List HeadTemp := List.replicate 512 {}
  spareCarry : List (Option Nat) := List.replicate 8 none
  spareAt : List Nat := List.replicate 8 0
  lostSegs : List (Nat × Nat) := []
  deriving DecidableEq, Repr, Inhabited

/-! ### PLK -/

/-- A pair frame sent and not yet acknowledged (R370): its sequence number, message, and how often it has been sent. -/
structure PairFrame where
  seq : Nat := 0
  msg : PairMsg := .resyncRequest
  sends : Nat := 1
  deriving DecidableEq, Repr, Inhabited

/-- A stamped action waiting for its stamp (R373): the stamp in this unit's DEVTIME, the action, and the sequence number of the
pair frame that must be acknowledged before the originating write completes (none on the standby, or once acknowledged). -/
structure QAction where
  stamp : Nat := 0
  act : PairAct := .handover
  waitAck : Option Nat := none
  deriving DecidableEq, Repr, Inhabited

/-- Where a claim stands (R368): not claiming, step 1's check of HOLD_IN, HOLD_OUT raised and the collision check due, or waiting
to retry. -/
inductive ClaimStep where
  | none
  | raised (due : Nat)
  | backOff (due : Nat)
  deriving DecidableEq, Repr, Inhabited

/-- A digest that waits for its partner, with the instant at which a missing tile digest counts as a mismatch. -/
structure DigWait where
  key : DigKey := .line 0 0
  digest : Nat := 0
  due : Nat := 0
  deriving DecidableEq, Repr, Inhabited

/-- A locket in progress (R386 to R391): whether this unit is the sender, the phase of Table 16.8, the 4 KiB granules of DRAM data sent and those written
since (R388), the seal line of each bar, when the transfer began and whether a recall of its carats pauses it (R340). -/
structure Locket where
  gen : Nat := 0
  sender : Bool := true
  phase : Nat := 1
  granules : List Nat := []
  dirty : List Nat := []
  sealAt : List (Option Nat) := List.replicate 8 none
  started : Nat := 0
  deriving DecidableEq, Repr, Inhabited

/-- What the PLK island holds beside its registers (R365 to R397). -/
structure Plk where
  /-- The instant at which HOLD_IN fell below VIL, while the takeover wait of R381 runs. -/
  holdFell : Option Nat := none
  /-- When HOLD_IN last became low (R368 step 1), none while it is high. -/
  lowSince : Option Nat := some 0
  /-- The send time, in this unit's DEVTIME, of the partner's last block that carried HOLDING = 1. -/
  lastHolding : Option Int := none
  claim : ClaimStep := .none
  collisions : Nat := 0
  /-- The partner has announced a claim: its ROLE_PREF and serial number (R368 step 2). -/
  peerClaim : Option (Bool × Nat) := none
  /-- When that announcement arrived. -/
  peerClaimAt : Nat := 0
  txSeq : Nat := 0
  unacked : List PairFrame := []
  /-- The last pair frame accepted, so that one sent again is not taken twice. -/
  rxSeq : Option Nat := none
  /-- When the last valid block arrived (R384). -/
  lastValid : Nat := 0
  /-- The first alignment after link-up has been made (R371), and the whole-tick remainder being slewed. -/
  aligned : Bool := false
  slew : Int := 0
  slewAt : Nat := 0
  /-- ENC_DLY's samples since the last average (R372). -/
  encSum : Int := 0
  encCount : Nat := 0
  /-- The end of the grace after link loss (R384). -/
  graceEnd : Option Nat := none
  actions : List QAction := []
  ownDigs : List DigWait := []
  peerDigs : List DigWait := []
  locket : Option Locket := none
  /-- The unit has asked for a resync that has not begun (R386): by command or by itself. -/
  resyncWait : Bool := false
  /-- The partner has given up control by a hand-over that this unit awaits (R392). -/
  handover : Bool := false
  /-- A locket was in progress when HOLD_IN fell (R385). -/
  fellLocket : Bool := false
  /-- UNIT_ID of the partner's last heartbeat (R369). -/
  peerUnit : Option Nat := none
  /-- Lines not fired since the former active's last line, per bar (R382). -/
  gap : List Nat := List.replicate 8 0
  /-- Boundaries of job lines since the partner's last block that carried HOLDING = 1: bar and DEVTIME (R382). -/
  gapTimes : List (Nat × Nat) := []
  deriving DecidableEq, Repr, Inhabited

/-- A PRBS run (R447): its lane, when it ends, and the index of the LANE_BERT descriptor that it serves, if it was not started by PRBS_CFG. -/
structure Prbs where
  lane : Nat := 0
  due : Nat := 0
  desc : Option Nat := none
  deriving DecidableEq, Repr, Inhabited

/-- What the PIX island holds beside its registers: the image store and codec, the fabric and pool instances of the arbiter, the
aggregator of EVT with RECORD_LOST's arming, screening, nozzle correction, jobs, clasp slots, the copy of the web count that a FIRE
hold does not lose (R234), the copy of MASK checks under way, and the per-line STATS accumulators. -/
structure Pix where
  img : Img := {}
  fabric : ArbInst := {}
  pool : ArbInst := {}
  agg : List (Nat × Rec) := []
  lostArmed : Bool := true
  scn : List Scn := List.replicate 8 {}
  nzc : List NzcBar := List.replicate 8 {}
  jobs : List (Option Job) := [none, none, none, none]
  bars : List (Option BarRun) := List.replicate 8 none
  slots : List Slot := List.replicate 16 {}
  deferred : List Deferred := []
  /-- The PRBS run in progress (R447, R448). -/
  prbs : Option Prbs := none
  maskChk : List Nat := []
  /-- Bars whose last job has ended and that still have to reach a boundary (R28, R30). -/
  draining : List Nat := []
  webCopy : Nat := 0
  /-- Counts since the last STATS interval of each bar (R427). -/
  stats : List (List Nat) := List.replicate 8 []
  deriving DecidableEq, Repr, Inhabited

/-! ### The whole machine -/

/-- The state of the block. `regs` is the register file of BAR 0 in canonical form: offsets strictly rising, and no entry that
equals the reset value of its offset (`resetVal`). `dram` is the data of the in-package DRAM by data offset, in canonical form:
an offset that is not listed reads 0 (log entry 3). `out` is the model's own record of what has left the device, newest first
(log entry 4); `free` counts the free values taken so far (log entry 6). -/
structure State where
  pending : List Instr
  devtime : Nat
  regs : List (Nat × Word)
  dram : List Host.Cell
  aux : Aux
  hsk : Hsk
  mem : Mem
  pix : Pix
  fire : Fire
  zl : Zl
  plk : Plk
  host : HostIf
  out : List Out
  free : Nat
  deriving DecidableEq, Repr

/-- The reasons a step stops with a fault. -/
inductive Fault where
  /-- A requester other than a bar's window names a byte of the DRAM beyond the usable capacity, an address that does not exist
  (R316); raised by ARB_REQUEST. Safe: the step stops (log entry 5). -/
  | noSuchAddress
  deriving DecidableEq, Repr

/-- The reasons a command is refused by the model. -/
inductive Refusal where
  /-- A command without a meaning yet; raised by an arm of `exec` only. Safe: nothing is claimed of the command. -/
  | notModelled (mnemonic : String)
  deriving DecidableEq, Repr

/-- The first record of the retained log after a VAUX power-on: RESET with SOURCE bit 0 and COUNT 1, sequence number 0, marked
free-running since VIN is absent (R79, R20, Table 18.4). -/
def State.resetRec : Rec :=
  { flags := 0x32, code := 0xFF01, roleState := 0x02, detail := [0x01, 0x00, 0x10, 0x00] }

/-- The machine right after a VAUX power-on, at the release of AUX (Table 3.9): TRIMLOAD, the trim load running, RST_CAUSE
with COUNT 1 and SOURCE bit 0, one record in the retained log, and everything else at its reset value. -/
def State.reset : State :=
  { pending := [], devtime := 0,
    regs := [(0x1040, 0x00100001), (0xB058, 1)],
    dram := [],
    aux := { seq := .trim, todo := [1, 2, 3, 4, 5, 6, 7], log := [State.resetRec] },
    hsk := {}, mem := {}, pix := {}, fire := {}, zl := {}, plk := {}, host := {},
    out := [], free := 0 }

end Sys2Proof.Machine
end

