-- ==== Sys2Proof/Machine/Ops.lean ====
section
/-!
DEFINITION. Sys2Proof/Machine/Ops.lean: the named operations over the state: bytes, register fields, the register file, the
DRAM, time, free values, the islands' phases and the outputs.
-/
namespace Sys2Proof.Machine

open Sys2Proof

/-! ### Bytes and numbers (R6, R9, R428) -/

/-- The `n` little-endian bytes of a number (R6). -/
def leBytes : Nat → Nat → List Byte
  | 0, _ => []
  | n + 1, v => BitVec.ofNat 8 v :: leBytes n (v / 256)

/-- The number that little-endian bytes spell (R6). -/
def leNat : List Byte → Nat
  | [] => 0
  | b :: bs => b.toNat + 256 * leNat bs

/-- The byte of a list at `i`, 0 beyond its end. -/
def byteAt (l : List Byte) (i : Nat) : Nat := (l.getD i 0).toNat

/-- `n` bytes of a list from `i` on, as a little-endian number. -/
def leAt (l : List Byte) (i n : Nat) : Nat := leNat ((l.drop i).take n)

/-- A list of bytes cut or filled with zeros to `n` bytes. -/
def padTo (n : Nat) (l : List Byte) : List Byte := (l ++ List.replicate n 0).take n

/-- The distance of `a` ahead of `b` on `w` bits (R428); a distance of exactly half the range counts as behind. -/
def sdiff (w a b : Nat) : Int :=
  let d := (a + 2 ^ w - b % 2 ^ w) % 2 ^ w
  if d < 2 ^ (w - 1) then (d : Int) else (d : Int) - 2 ^ w

/-- The signed value of `w` bits. -/
def signedOf (w v : Nat) : Int := if v % 2 ^ w < 2 ^ (w - 1) then ((v % 2 ^ w : Nat) : Int) else ((v % 2 ^ w : Nat) : Int) - 2 ^ w

/-- The `w`-bit two's complement of an integer. -/
def unsignedOf (w : Nat) (x : Int) : Nat := (x % (2 ^ w : Nat)).toNat

/-- `clamp(x, lo, hi)` of R13. -/
def clampInt (x lo hi : Int) : Int := if x < lo then lo else if hi < x then hi else x

/-- Bit `i` of a number. -/
def bit (v i : Nat) : Bool := v.testBit i

/-- The number whose bits are those of a list, bit 0 first. -/
def ofBits : List Bool → Nat
  | [] => 0
  | b :: bs => (if b then 1 else 0) + 2 * ofBits bs

/-- The indices below `n` whose bit of `v` is set. -/
def bitsOf (v n : Nat) : List Nat := (List.range n).filter fun i => v.testBit i

/-- One bit as a number. -/
def b2n (b : Bool) : Nat := if b then 1 else 0

/-- Fold a state change over a list. -/
def foldS {α σ : Type} (l : List α) (f : α → σ → σ) (s : σ) : σ := l.foldl (fun s a => f a s) s

/-! ### CRC-32C (R155) -/

/-- One byte of the reflected CRC-32C with polynomial 0x1EDC6F41, bit by bit. -/
def crc32cByte (crc : BitVec 32) (b : Byte) : BitVec 32 :=
  let step (c : BitVec 32) : BitVec 32 := if c.getLsbD 0 then (c >>> 1) ^^^ 0x82F63B78#32 else c >>> 1
  step (step (step (step (step (step (step (step (crc ^^^ b.setWidth 32))))))))

/-- The CRC-32C of a list of bytes: initial value and final XOR all ones. -/
def crc32c (l : List Byte) : BitVec 32 := l.foldl crc32cByte 0xFFFFFFFF#32 ^^^ 0xFFFFFFFF#32

/-! ### The register file -/

/-- The value that a canonical list holds for a key, if it lists it. -/
def lookupKey {α : Type} : List (Nat × α) → Nat → Option α
  | [], _ => none
  | (k, v) :: l, a => if k = a then some v else lookupKey l a

/-- A canonical list without a key. -/
def eraseKey {α : Type} (l : List (Nat × α)) (a : Nat) : List (Nat × α) := l.filter fun p => p.1 ≠ a

/-- A key and value put into a rising list that does not hold the key. -/
def insertKey {α : Type} : List (Nat × α) → Nat → α → List (Nat × α)
  | [], a, v => [(a, v)]
  | (k, w) :: l, a, v => if a < k then (a, v) :: (k, w) :: l else (k, w) :: insertKey l a v

/-- The list with `v` at key `a`, where `d` is what an unlisted key holds: writing `d` removes the entry. -/
def putKey {α : Type} [DecidableEq α] (d : α) (l : List (Nat × α)) (a : Nat) (v : α) : List (Nat × α) :=
  if v = d then eraseKey l a else insertKey (eraseKey l a) a v

/-- The value of the register at a BAR 0 offset; the reset value while nothing else is listed. -/
def State.reg (s : State) (a : Nat) : Word := (lookupKey s.regs a).getD (resetVal a)

/-- Set the register at a BAR 0 offset. -/
def State.setReg (s : State) (a : Nat) (w : Word) : State := { s with regs := putKey (resetVal a) s.regs a w }

/-- Put the registers that `p` selects back to their reset values. -/
def State.clearRegs (s : State) (p : Nat → Bool) : State := { s with regs := s.regs.filter fun e => !p e.1 }

/-- A field of a word. -/
def getBits (hi lo : Nat) (w : Word) : Nat := w.toNat / 2 ^ lo % 2 ^ (hi + 1 - lo)

/-- A word with one field replaced. -/
def putBits (hi lo : Nat) (w : Word) (v : Nat) : Word :=
  let m := (2 ^ (hi + 1 - lo) - 1) * 2 ^ lo
  (w &&& ~~~(BitVec.ofNat 32 m)) ||| BitVec.ofNat 32 (v % 2 ^ (hi + 1 - lo) * 2 ^ lo)

/-- The value of a register field. -/
def State.get (s : State) (f : Fld) : Nat := getBits f.hi f.lo (s.reg f.addr)

/-- Set a register field, leaving the register's other bits. -/
def State.put (s : State) (f : Fld) (v : Nat) : State := s.setReg f.addr (putBits f.hi f.lo (s.reg f.addr) v)

/-- A one-bit field read as a truth value. -/
def State.on (s : State) (f : Fld) : Bool := s.get f ≠ 0

/-- The largest value of a field. -/
def fldMax (f : Fld) : Nat := 2 ^ (f.hi + 1 - f.lo) - 1

/-- Add to a saturating counter (R9). -/
def State.satAdd (s : State) (f : Fld) (n : Nat) : State := s.put f (min (fldMax f) (s.get f + n))

/-- Add to a counter that its register says wraps. -/
def State.wrapAdd (s : State) (f : Fld) (n : Nat) : State := s.put f (s.get f + n)

/-- Raise a field to `v` if it holds less (a peak or largest-value register). -/
def State.peak (s : State) (f : Fld) (v : Nat) : State := s.put f (max (s.get f) (min (fldMax f) v))

/-- Set one bit of a register. -/
def State.setBit (s : State) (a i : Nat) (b : Bool) : State := s.put ⟨a, i, i⟩ (b2n b)

/-- A 64-bit quantity in a _LO register and the _HI register 4 above it (R8). -/
def State.get64 (s : State) (lo : Nat) : Nat := (s.reg lo).toNat + 2 ^ 32 * (s.reg (lo + 4)).toNat

/-- Set both halves of a 64-bit quantity. -/
def State.put64 (s : State) (lo v : Nat) : State :=
  (s.setReg lo (BitVec.ofNat 32 v)).setReg (lo + 4) (BitVec.ofNat 32 (v / 2 ^ 32))

/-- A signed 64-bit quantity. -/
def State.getInt64 (s : State) (lo : Nat) : Int := signedOf 64 (s.get64 lo)

/-- Set a signed 64-bit quantity. -/
def State.putInt64 (s : State) (lo : Nat) (v : Int) : State := s.put64 lo (unsignedOf 64 v)

/-! ### Changing one part -/

def State.modAux (s : State) (f : Aux → Aux) : State := { s with aux := f s.aux }
def State.modHsk (s : State) (f : Hsk → Hsk) : State := { s with hsk := f s.hsk }
def State.modMem (s : State) (f : Mem → Mem) : State := { s with mem := f s.mem }
def State.modPix (s : State) (f : Pix → Pix) : State := { s with pix := f s.pix }
def State.modFire (s : State) (f : Fire → Fire) : State := { s with fire := f s.fire }
def State.modZl (s : State) (f : Zl → Zl) : State := { s with zl := f s.zl }
def State.modPlk (s : State) (f : Plk → Plk) : State := { s with plk := f s.plk }
def State.modHost (s : State) (f : HostIf → HostIf) : State := { s with host := f s.host }

/-! ### The DRAM (data offsets; R317, R328) -/

/-- One byte of DRAM data; a byte that nothing has written reads 0 (R328, log entry 3). -/
def State.dramByte (s : State) (a : Nat) : Byte := (lookupKey s.dram a).getD 0

/-- Write one byte of DRAM data, keeping the canonical form. -/
def State.setDramByte (s : State) (a : Nat) (b : Byte) : State := { s with dram := putKey 0 s.dram a b }

/-- Write bytes of DRAM data from an offset on. -/
def State.putDram (s : State) : Nat → List Byte → State
  | _, [] => s
  | a, b :: bs => (s.setDramByte a b).putDram (a + 1) bs

/-- INIT_LEFT: the init regions of 2 MiB within the usable capacity that are not initialised (R328). -/
def State.initLeft (s : State) : State := s.put F.MEM_INIT_LEFT (s.get F.MEM_STAT_USABLE_2M - s.mem.inited.length)

/-- A write of `n` bytes at `a`: the init regions it touches are initialised first (R328), and granules that it covers whole read without
error again (Table 13.4); a granule that a locket has sent is dirty again (R388). -/
def State.touchDram (s : State) (a n : Nat) : State :=
  if n = 0 then s else
  let regions := (List.range ((a + n - 1) / 0x200000 - a / 0x200000 + 1)).map (· + a / 0x200000)
  let new := regions.filter fun r => !s.mem.inited.contains r
  let s := s.modMem fun m => { m with
    inited := m.inited ++ new
    bad := m.bad.filter fun g => !(decide (a ≤ 64 * g) && decide (64 * g + 64 ≤ a + n)) }
  let s := s.modPlk fun p => { p with locket := p.locket.map fun k =>
      { k with dirty := k.dirty ++ k.granules.filter fun g => decide (a < 4096 * g + 4096) && decide (4096 * g < a + n) && !k.dirty.contains g } }
  s.initLeft

/-- Write bytes of DRAM data from an offset on, as a port of the controller does. -/
def State.setDram (s : State) (a : Nat) (l : List Byte) : State := (s.touchDram a l.length).putDram a l

/-- Read `n` bytes of DRAM data from an offset on. -/
def State.dramBytes (s : State) (a n : Nat) : List Byte := (List.range n).map fun i => s.dramByte (a + i)

/-! ### Time and free values -/

/-- Bring DEVTIME to the instant of an event; DEVTIME never decreases (R71). -/
def State.atTime (s : State) (t : Nat) : State := { s with devtime := max s.devtime t }

/-- Ticks of 2.5 ns in a microsecond. -/
def us : Nat := 400

/-- Ticks in a millisecond. -/
def ms : Nat := 400000

/-- Take a fresh free word (log entry 6). -/
def State.freshWord (s : State) : Word × State := (Config.freeWord s.free, { s with free := s.free + 1 })

/-- Record something that leaves the device. -/
def State.emit (s : State) (o : Out) : State := { s with out := o :: s.out }

/-! ### Islands, device state and role -/

/-- The phase of an island by its code (R70). -/
def State.phase (s : State) (i : Nat) : IslPhase := nth s.aux.phases i

/-- An island is out of reset. -/
def State.up (s : State) (i : Nat) : Bool := s.phase i == .released

/-- HOST's logic is out of reset: the island is released, PERST_N is high (R73, R82), and the link has been trained again since a Hot Reset or
Data Link Down (R123). -/
def State.hostUp (s : State) : Bool := s.up 7 && !s.aux.perstLow && !s.host.inReset

/-- The page lies in an island that is out of reset. -/
def State.pageUp (s : State) (p : Nat) : Bool := if pageIsland p = 7 then s.hostUp else s.up (pageIsland p)

/-- DEVSTATE.STATE (Table 1.8). -/
def State.dev (s : State) : DevState := DevState.ofCode (s.get F.DEV_DEVSTATE_STATE)

/-- DEVSTATE.ROLE (R365). -/
def State.role (s : State) : Role := Role.ofCode (s.get F.DEV_DEVSTATE_ROLE)

/-- The states in which outputs may be enabled (R34). -/
def DevState.operating : DevState → Bool
  | .ready | .armed | .printing | .stopping => true
  | _ => false

/-- The states in which a job is armed, running or draining. -/
def DevState.inJob : DevState → Bool
  | .armed | .printing | .stopping => true
  | _ => false

/-- Pages by name (Table 4.6). -/
def P_DEV : Nat := 0x00
def P_RSC : Nat := 0x01
def P_PWR : Nat := 0x02
def P_CLK : Nat := 0x03
def P_TRM : Nat := 0x04
def P_CLS : Nat := 0x05
def P_EVT : Nat := 0x06
def P_TMB : Nat := 0x07
def P_HIF : Nat := 0x08
def P_DMA : Nat := 0x09
def P_SBP : Nat := 0x0B
def P_CHN : Nat := 0x0C
def P_PAR : Nat := 0x0D
def P_PLK : Nat := 0x0E
def P_CDC : Nat := 0x0F
def P_IMG : Nat := 0x10
def P_SCN (b : Nat) : Nat := 0x11 + b
def P_NZC : Nat := 0x19
def P_POS : Nat := 0x1A
def P_LCK : Nat := 0x1B
def P_FIRE (b : Nat) : Nat := 0x1C + b
def P_ZLK : Nat := 0x24
def P_ZLB (b : Nat) : Nat := 0x25 + b
def P_MEM : Nat := 0x2D
def P_MCH : Nat := 0x2E
def P_ARB : Nat := 0x2F
def P_CRT : Nat := 0x30
def P_THM : Nat := 0x31
def P_CAL : Nat := 0x32
def P_DBG : Nat := 0x33

/-- CTRL.ENABLE of a page. -/
def State.enabled (s : State) (p : Nat) : Bool := s.on ⟨R.CTRL p, 0, 0⟩

/-- Bits of STATE (Table 4.3). -/
def F.S_FAULT (p : Nat) : Fld := ⟨R.STATE p, 5, 5⟩
def F.S_RELEASE_HELD (p : Nat) : Fld := ⟨R.STATE p, 4, 4⟩
def F.S_IN_RESET (p : Nat) : Fld := ⟨R.STATE p, 3, 3⟩
def F.S_REARM (p : Nat) : Fld := ⟨R.STATE p, 2, 2⟩
def F.S_DRAINING (p : Nat) : Fld := ⟨R.STATE p, 1, 1⟩
def F.S_IDLE (p : Nat) : Fld := ⟨R.STATE p, 0, 0⟩
def F.C_ENABLE (p : Nat) : Fld := ⟨R.CTRL p, 0, 0⟩

/-- ACCESS.LOCKSTEP of a page (Table 4.4). -/
def State.lockstep (s : State) (p : Nat) : Bool := s.on ⟨R.ACCESS p, 1, 1⟩

/-- The page is lockstep-marked and the unit is in a pair (R106). -/
def State.paired (s : State) : Bool := s.role ≠ .solo

end Sys2Proof.Machine
end

