-- ==== Sys2Proof/Machine/Azd.lean ====
section
/-!
DEFINITION. Sys2Proof/Machine/Azd.lean: the AZD dictionary code (R156 to R160, R177, R182): codes packed least-significant bit
first, the decoder that defines the format, and the encoder of the device.
-/
namespace Sys2Proof.Machine

open Sys2Proof

/-- The number of bits of a number, at least 1. -/
def bitLength : Nat → Nat → Nat
  | 0, _ => 0
  | k + 1, n => if n < 2 then 1 else 1 + bitLength k (n / 2)

/-- W(i): the width of the code at position i (R156). -/
def azdWidth (i : Nat) : Nat := min 16 (bitLength 20 (258 + i))

/-- The bits of a byte list, the low bit of byte 0 first (R156). -/
def bitsOfBytes : List Byte → List Bool
  | [] => []
  | b :: bs => (List.range 8).map (fun i => b.getLsbD i) ++ bitsOfBytes bs

/-- Whole bytes of a bit list and the bits left over; `pad` fills the last byte with zeros (R156). -/
def bytesOfBits (l : List Bool) : List Byte := (List.range (l.length / 8)).map fun i => BitVec.ofNat 8 (ofBits ((l.drop (8 * i)).take 8))

/-- All bits as bytes, the last byte filled with zeros. -/
def bytesOfBitsPad (l : List Bool) : List Byte := bytesOfBits (l ++ List.replicate ((8 - l.length % 8) % 8) false)

/-- The `n` low bits of a number, lowest first. -/
def bitsOfNat (n v : Nat) : List Bool := (List.range n).map fun i => v.testBit i

/-- Where a decoder stands: position, entries 258 and up, the string of the previous code, what is left to emit of the present
string, and the decode cycles spent on codes (R158, R177). -/
structure AzdDec where
  i : Nat := 0
  dict : List (List Byte) := []
  prev : List Byte := []
  rest : List Byte := []
  cycles : Nat := 0

/-- dict[c] for a code below the next free one. -/
def azdEntry (dict : List (List Byte)) (c : Nat) : List Byte :=
  if c < 256 then [BitVec.ofNat 8 c] else dict.getD (c - 258) []

/-- The cycles of a string of a data code (R177). -/
def azdCost (len : Nat) : Nat := max 1 ((len + 15) / 16)

/-- What one code does to a decoder: END, a string, or BAD_DATA (R157, R158). -/
inductive AzdStep where
  | stop
  | go (d : AzdDec) (out : List Byte)
  | bad

/-- One turn of the loop of R158 for the code `c`. -/
def azdCode (d : AzdDec) (c : Nat) : AzdStep :=
  if c = 257 then .stop
  else if c = 256 then .go { i := 0, dict := [], prev := [], cycles := d.cycles + 1 } []
  else if d.i = 0 then
    if 255 < c then .bad
    else .go { i := 1, dict := [], prev := azdEntry [] c, cycles := d.cycles + 1 } (azdEntry [] c)
  else
    let n := max 258 (min (257 + d.i) 65536)
    if c < n then
      let str := azdEntry d.dict c
      .go { i := d.i + 1, dict := if n < 65536 then d.dict ++ [d.prev ++ str.take 1] else d.dict, prev := str,
            cycles := d.cycles + azdCost str.length } str
    else if c = n ∧ n < 65536 then
      let str := d.prev ++ d.prev.take 1
      .go { i := d.i + 1, dict := d.dict ++ [str], prev := str, cycles := d.cycles + azdCost str.length } str
    else .bad

/-- How a decode ended: END met, the output space is full, BAD_DATA, or the input ended without END. -/
inductive AzdEnd where
  | stop | full | bad | short
  deriving DecidableEq, Repr

/-- What a decode gives: how it ended, the output, the bits consumed, and the decoder left for a resume. -/
structure AzdResult where
  ending : AzdEnd
  out : List Byte
  used : Nat
  dec : AzdDec

/-- Decode a bit list into at most `room` bytes; `fuel` bounds the codes. A string that does not fit wholly is cut at the room and
its rest kept, and one of which nothing fits is not consumed (R182, log entry 109). -/
def azdDecode : Nat → AzdDec → List Bool → Nat → Nat → AzdResult
  | 0, d, _, _, used => ⟨.short, [], used, d⟩
  | fuel + 1, d, l, room, used =>
    if l.length < azdWidth d.i then ⟨.short, [], used, d⟩
    else
      match azdCode d (ofBits (l.take (azdWidth d.i))) with
      | .stop => ⟨.stop, [], used + azdWidth d.i, { d with cycles := d.cycles + 1 }⟩
      | .bad => ⟨.bad, [], used, d⟩
      | .go d' str =>
        if room = 0 ∧ str ≠ [] then ⟨.full, [], used, d⟩
        else if room < str.length then
          ⟨.full, str.take room, used + azdWidth d.i, { d' with rest := str.drop room }⟩
        else
          let r := azdDecode fuel d' (l.drop (azdWidth d.i)) (room - str.length) (used + azdWidth d.i)
          { r with out := str ++ r.out }

/-- The decode cycles of a tile: 8 and those of its codes (R177). -/
def decodeCycles (d : AzdDec) : Nat := 8 + d.cycles

/-- A tile payload decoded to exactly `rawLen` bytes; `none` is BAD_DATA (R159): output beyond RAW_LEN, an early END, or a missing END. Bytes after the one that
holds END are not read (log entry 109). The answer gives the bytes decoded and the decode cycles. -/
def decodeTile (payload : List Byte) (rawLen : Nat) : Option (List Byte) × List Byte × Nat :=
  let r := azdDecode (8 * payload.length + 1) {} (bitsOfBytes payload) rawLen 0
  let ok := r.ending == .stop && r.out.length == rawLen
  (if ok then some r.out else none, r.out, decodeCycles r.dec)

/-! ### The encoder (R158, R160, R182, R184) -/

/-- The clear policy of ENC_POLICY (Table 6.2). -/
structure EncPolicy where
  mode : Nat
  window : Nat
  minString : Nat

/-- Where an encoder stands: position, entries 258 and up, the last string written (whose add waits for the next input byte), bits
not yet written as whole bytes, cycles for the yield, and RATIO's count of codes and bytes in the present window. -/
structure AzdEnc where
  i : Nat := 0
  dict : List (List Byte) := []
  last : List Byte := []
  bits : List Bool := []
  cycles : Nat := 0
  winCodes : Nat := 0
  winBytes : Nat := 0

/-- The longest dictionary string that begins the input, with its code (R158: a greedy parse). -/
def azdMatch (dict : List (List Byte)) (input : List Byte) : Nat × Nat :=
  (List.range dict.length).foldl (fun best k =>
    let e := dict.getD k []
    if best.2 < e.length && e.isPrefixOf input then (258 + k, e.length) else best)
    ((input.getD 0 0).toNat, 1)

/-- Append a code at the present position (R156). -/
def azdEmit (e : AzdEnc) (c : Nat) : AzdEnc :=
  { e with bits := e.bits ++ bitsOfNat (azdWidth e.i) c, i := e.i + 1 }

/-- Before the next data code: the add of the last string with the next input byte, or a CLEAR in its place where the policy asks for
one (R160, log entry 20). -/
def azdAdd (p : EncPolicy) (e : AzdEnc) (next : Byte) : AzdEnc :=
  if e.i = 0 then e
  else
    let n := 257 + e.i
    let clear : AzdEnc :=
      { azdEmit e 256 with i := 0, dict := [], last := [], winCodes := 0, winBytes := 0, cycles := e.cycles + 1 }
    if n < 65536 then
      if p.mode = 1 ∧ n = 65535 then clear else { e with dict := e.dict ++ [e.last ++ [next]] }
    else if p.mode = 2 ∧ p.window * 256 ≤ e.winCodes then
      if e.winBytes * 256 < p.minString * e.winCodes then clear else { e with winCodes := 0, winBytes := 0 }
    else e

/-- How an encode ended. -/
inductive EncEnd where
  | ok | full | noGain
  deriving DecidableEq, Repr

/-- What an encode gives: how it ended, the encoder left, and the input bytes covered by codes written. -/
structure EncResult where
  ending : EncEnd
  enc : AzdEnc
  used : Nat

/-- Encode the input: `room` bounds the bits that this piece may hold as whole bytes, `before` the bits written by earlier pieces as
bytes, `limit` the total input length for NO_GAIN (R184, which comes before OUT_FULL at the same code). -/
def azdEncode : Nat → EncPolicy → AzdEnc → List Byte → Nat → Nat → Nat → Nat → EncResult
  | 0, _, e, _, _, _, _, used => ⟨.full, e, used⟩
  | fuel + 1, p, e, input, room, before, limit, used =>
    match input with
    | [] =>
      let e' := { azdEmit e 257 with cycles := e.cycles + 1 }
      if limit ≤ before + (e'.bits.length + 7) / 8 then ⟨.noGain, e, used⟩
      else if room < (e'.bits.length + 7) / 8 then ⟨.full, e, used⟩
      else ⟨.ok, e', used⟩
    | b :: _ =>
      let e1 := azdAdd p e b
      let m := azdMatch e1.dict input
      let e2 := { azdEmit e1 m.1 with
        last := input.take m.2, cycles := e1.cycles + azdCost m.2,
        winCodes := if 65536 ≤ 257 + e1.i then e1.winCodes + 1 else 0,
        winBytes := if 65536 ≤ 257 + e1.i then e1.winBytes + m.2 else 0 }
      if limit ≤ before + (e2.bits.length + 7) / 8 then ⟨.noGain, e, used⟩
      else if room < e2.bits.length / 8 then ⟨.full, e, used⟩
      else azdEncode fuel p e2 (input.drop m.2) room before limit (used + m.2)

end Sys2Proof.Machine
end

