-- ==== Sys2Proof/Machine/Rings.lean ====
section
/-!
DEFINITION. Sys2Proof/Machine/Rings.lean: the DMA ring engine (R130 to R147): when DMA may run, MSI-X messages, the status
block, records written to record rings, and descriptors completed on submission rings.
-/
namespace Sys2Proof.Machine

open Sys2Proof

/-- DMA reads, DMA writes and MSI-X messages may leave (R124). -/
def State.dmaOk (s : State) : Bool := s.hostUp && s.host.busMaster && !s.host.d3hot && s.host.link == .l0

/-- Write bytes to host memory. -/
def State.hostWrite (s : State) (a : Nat) (d : List Byte) : State := s.emit (.memWrite a d)

/-- What the device holds of ring `n`. -/
def State.rt (s : State) (n : Nat) : RingRt := nth s.host.rings n

/-- Change what the device holds of ring `n`. -/
def State.modRt (s : State) (n : Nat) (f : RingRt → RingRt) : State :=
  s.modHost fun h => { h with rings := updNth h.rings n f }

/-- Ring `n` is a submission ring (Table 5.7). -/
def isSubmission (n : Nat) : Bool :=
  decide (n < 12) || (decide (16 ≤ n) && decide (n < 28)) || (decide (56 ≤ n) && decide (n < 60)) || decide (n = 62)

/-- STAT.RUNNING of ring `n`: enabled and not stopped. -/
def State.ringRunning (s : State) (n : Nat) : Bool := s.on (F.DMA_RING_STAT_RUNNING n)

/-- The number of entries of ring `n`. -/
def State.ringSize (s : State) (n : Nat) : Nat := 2 ^ s.get (F.DMA_RING_CFG_LOG2_SIZE n)

/-- Entries produced and not consumed, modulo 2^32 (R136, R137). -/
def State.ringFill (s : State) (n : Nat) : Nat := (s.reg (R.DMA_RING_PROD n) - s.reg (R.DMA_RING_CONS n)).toNat

/-- Host address of entry `i` of ring `n` (R136). -/
def State.ringEntry (s : State) (n i : Nat) : Nat := s.get64 (R.DMA_RING_BASE_LO n) + 32 * (i % s.ringSize n)

/-! ### MSI-X (R146, R147) -/

/-- The mask bit of an MSI-X vector; the table lies at 0x800, 16 bytes a vector (R126). -/
def F.MSIX_MASK (v : Nat) : Fld := ⟨0x80C + 16 * v, 0, 0⟩

/-- The pending bit of a vector, in the PBA at 0x700 (R126). -/
def F.PBA (v : Nat) : Fld := ⟨0x700 + 4 * (v / 32), v % 32, v % 32⟩

/-- Send the message of a vector; a masked vector, or a message that R124 stops, sets its PBA bit (log entry 8). -/
def State.sendMsix (s : State) (v : Nat) : State :=
  if s.dmaOk && !s.on (F.MSIX_MASK v) then
    s.emit (.msix v (s.get64 (0x800 + 16 * v)) (s.reg (0x808 + 16 * v)))
  else if s.hostUp then s.put (F.PBA v) 1 else s

/-- Send the messages that were held and may go now. -/
def State.flushMsix (s : State) : State :=
  foldS (List.range 128) (fun v s =>
    if s.on (F.PBA v) && s.dmaOk && !s.on (F.MSIX_MASK v) then (s.put (F.PBA v) 0).sendMsix v else s) s

/-- Count one item of ring `n` and send its message when the items not yet signalled reach COAL_CNT (R146). -/
def State.ringItem (s : State) (n : Nat) : State :=
  if s.on (F.DMA_RING_CFG_IRQ_EN n) then
    let k := (s.rt n).unsig + 1
    if max 1 (s.get (F.DMA_RING_CFG_COAL_CNT n)) ≤ k then
      (s.modRt n fun r => { r with unsig := 0 }).sendMsix (s.get (F.DMA_RING_CFG_VECTOR n))
    else s.modRt n fun r => { r with unsig := k, unsigSince := if r.unsig = 0 then s.devtime else r.unsigSince }
  else s

/-- Write ring `n`'s entry of the status block, while STATUS_CTRL.EN = 1 (R140); while DMA is stopped (R124) the entry is due. -/
def State.statusWrite (s : State) (n : Nat) : State :=
  if !s.on F.DMA_STATUS_CTRL_EN then s
  else if !s.dmaOk then s.modRt n fun r => { r with statDue := true }
  else
    (s.modRt n fun r => { r with statDue := false }).hostWrite (s.get64 R.DMA_STATUS_BASE_LO + 16 * n)
      (leBytes 4 (s.reg (R.DMA_RING_PROD n)).toNat ++ leBytes 4 (s.reg (R.DMA_RING_CONS n)).toNat
        ++ leBytes 4 (s.reg (R.DMA_RING_DONE n)).toNat ++ leBytes 4 (s.reg (R.DMA_RING_STAT n)).toNat)

/-! ### Record rings (R137) -/

/-- Show whether a record ring is full (STAT.FULL). -/
def State.ringFullFlag (s : State) (n : Nat) : State :=
  s.put (F.DMA_RING_STAT_FULL n) (b2n (decide (s.ringSize n ≤ s.ringFill n)))

/-- Write one entry of a record ring and advance PROD. -/
def State.ringWriteEntry (s : State) (n : Nat) (e : List Byte) : State :=
  let s := s.hostWrite (s.ringEntry n (s.reg (R.DMA_RING_PROD n)).toNat) (padTo 32 e)
  let s := s.setReg (R.DMA_RING_PROD n) (s.reg (R.DMA_RING_PROD n) + 1)
  ((s.ringFullFlag n).statusWrite n).ringItem n

/-- A record for ring `n`: written, held on chip (at most 64) while the ring is full or DMA is stopped, or discarded and
counted in STAT.LOST (R137). A ring that does not run discards it (Table 18.5). The answer says whether LOST left 0. -/
def State.ringPut (s : State) (n : Nat) (e : List Byte) : State × Bool :=
  if !s.ringRunning n then (s, false)
  else if s.dmaOk && decide (s.ringFill n < s.ringSize n) && (s.rt n).held.isEmpty then (s.ringWriteEntry n e, false)
  else if (s.rt n).held.length < 64 then (s.modRt n fun r => { r with held := r.held ++ [e] }, false)
  else ((s.satAdd (F.DMA_RING_STAT_LOST n) 1).statusWrite n, decide (s.get (F.DMA_RING_STAT_LOST n) = 0))

/-- Write the held records of ring `n` that have room now, at most `k` of them. -/
def State.ringFlush : Nat → State → Nat → State
  | 0, s, _ => s
  | k + 1, s, n =>
    match (s.rt n).held with
    | [] => s
    | e :: es =>
      if s.ringRunning n && s.dmaOk && decide (s.ringFill n < s.ringSize n) then
        ((s.modRt n fun r => { r with held := es }).ringWriteEntry n e).ringFlush k n
      else s

/-! ### Submission rings (R134, R136, R139) -/

/-- The index of a descriptor that its ring has forgotten, because it was enabled afresh or HOST was reset while an engine still worked on it: it matches no descriptor
of the ring any more. -/
def staleIdx (i : Nat) : Nat := i + 2 ^ 32

/-- An engine works for a descriptor that its ring has forgotten. -/
def isStale (i : Nat) : Bool := decide (2 ^ 32 ≤ i)

/-- Clear RUNNING of a ring whose RING_EN was written 0 once it holds no descriptor (R139). -/
def State.ringFinish (s : State) (n : Nat) : State :=
  if (s.rt n).disabling && (s.rt n).descs.isEmpty then
    ((s.modRt n fun r => { r with disabling := false }).put (F.DMA_RING_STAT_RUNNING n) 0).statusWrite n
  else s

/-- Complete the descriptors at the head of ring `n` that are done, in index order: bytes 24 to 31 are written back before
DONE passes the descriptor (R136). Nothing is written while DMA is stopped (R124). -/
def State.ringComplete : Nat → State → Nat → State
  | 0, s, n => s.ringFinish n
  | k + 1, s, n =>
    match (s.rt n).descs with
    | [] => s.ringFinish n
    | d :: ds =>
      match d.result with
      | none => s
      | some r =>
        if s.dmaOk then
          let s := s.hostWrite (s.ringEntry n d.idx + 24) (padTo 8 r)
          let s := s.modRt n fun q => { q with descs := ds }
          let s := s.setReg (R.DMA_RING_DONE n) (s.reg (R.DMA_RING_DONE n) + 1)
          ((s.statusWrite n).ringItem n).ringComplete k n
        else s

/-- The engine of ring `n` is done with the descriptor of index `i`: keep bytes 24 to 31 and complete what is at the head. -/
def State.descDone (s : State) (n i : Nat) (r : List Byte) : State :=
  (s.modRt n fun q => { q with descs := q.descs.map fun d => if d.idx = i then { d with taken := true, result := some r } else d }).ringComplete 8 n

/-- Descriptors of ring `n` are carried out: it runs, or it completes those it has fetched after RING_EN was written 0 (R139). A ring that an error has
stopped starts none (Table 5.9). -/
def State.ringLive (s : State) (n : Nat) : Bool := s.ringRunning n || (s.rt n).disabling

/-- The oldest descriptor of ring `n` that its engine has not taken. -/
def State.nextDesc (s : State) (n : Nat) : Option Desc := if s.ringLive n then (s.rt n).descs.find? fun d => !d.taken else none

/-- The engine takes the descriptor of index `i` of ring `n`. -/
def State.takeDesc (s : State) (n i : Nat) : State :=
  s.modRt n fun q => { q with descs := q.descs.map fun d => if d.idx = i then { d with taken := true } else d }

/-- Stop a ring with an error (Table 5.9): ERROR and the cause are set and RUNNING clears. The caller raises RING_STOP. -/
def State.ringErr (s : State) (n cause : Nat) : State :=
  (((s.put (F.DMA_RING_STAT_ERROR n) 1).put (F.DMA_RING_STAT_ERR n) cause).put (F.DMA_RING_STAT_RUNNING n) 0).statusWrite n

/-- DMA may run again: finish descriptors, write held records and status entries that are due, and send held messages (R124, R137, R140). -/
def State.dmaResume (s : State) : State :=
  (foldS (List.range 64) (fun n s =>
    let s := (s.ringComplete 8 n).ringFlush 64 n
    if (s.rt n).statDue then s.statusWrite n else s) s).flushMsix

end Sys2Proof.Machine
end

