-- ==== Sys2Proof/Machine/Flags.lean ====
section
/-!
DEFINITION. Sys2Proof/Machine/Flags.lean: event flags, event records and their routes (R92 to R94, R416 to R424), refused
accesses (R96), the retained log (R79, R424), and the device state with its mirror.
-/
namespace Sys2Proof.Machine

open Sys2Proof

/-! ### Pair frames (R370, R371) -/

/-- Pair time: DEVTIME + PAIR_OFS (R371). -/
def State.pairTime (s : State) : Int := (s.devtime : Int) + s.getInt64 R.PAR_PAIR_OFS_LO

/-- A DEVTIME of this unit as pair time. -/
def State.toPair (s : State) (t : Nat) : Int := (t : Int) + s.getInt64 R.PAR_PAIR_OFS_LO

/-- A pair time as this unit's DEVTIME. -/
def State.fromPair (s : State) (t : Int) : Int := t - s.getInt64 R.PAR_PAIR_OFS_LO

/-- The unit carries HOLDING = 1 in its frames exactly while it is ACTIVE (R380, R381). -/
def State.holding (s : State) : Bool := s.role == .active

/-- The pair link is up (PLK LINK_STAT.UP). -/
def State.linkUp (s : State) : Bool := s.up 6 && s.on F.PLK_LINK_STAT_UP

/-- Send a pair frame: it takes the next 16-bit sequence number and waits for its acknowledgement; an ACK frame does not. -/
def State.sendPair (s : State) (m : PairMsg) : State :=
  if s.linkUp then
    let s := s.emit (.pair s.plk.txSeq s.holding s.pairTime m)
    match m with
    | .ack _ => s
    | _ => s.modPlk fun p =>
        { p with txSeq := (p.txSeq + 1) % 0x10000, unacked := p.unacked ++ [{ seq := p.txSeq, msg := m }] }
  else s

/-! ### Event records -/

/-- An occurrence: page, event bit, the bar and line the event names, its detail bytes, and whether EVT_FORCE made it. -/
structure Evt where
  page : Nat
  bit : Nat
  bar : Option Nat := none
  line : Option Nat := none
  detail : List Byte := []
  forced : Bool := false

/-- The classes of a page's block events, from bit 4 on (Table 18.3): 0 INFO, 1 WARNING, 2 LOSS, 3 FAULT. -/
def blockEvents (p : Nat) : List Nat :=
  if p = 0x00 then [1, 3, 1, 3] else if p = 0x05 then [0, 1, 1] else if p = 0x06 then [1] else if p = 0x07 then [0]
  else if p = 0x09 then [2, 1] else if p = 0x0B then [1, 1] else if p = 0x0C then [0, 0, 0, 1, 1]
  else if p = 0x0D then [1, 3, 3, 3, 0, 1, 1, 1, 3, 3] else if p = 0x0F then [1, 1] else if p = 0x10 then [2, 1, 1, 1, 0]
  else if 0x11 ≤ p ∧ p ≤ 0x18 then [2, 2, 0] else if p = 0x19 then [0, 1, 1, 1, 1]
  else if p = 0x1A then [3, 1, 1, 0, 0, 0, 2] else if p = 0x1B then [2, 1, 3]
  else if 0x1C ≤ p ∧ p ≤ 0x23 then [2, 1, 3, 1, 2, 1, 0, 1] else if p = 0x24 then [1]
  else if 0x25 ≤ p ∧ p ≤ 0x2C then [0, 1, 3, 1, 2, 3, 3, 0] else if p = 0x2D then [1, 3, 1, 1, 0, 3]
  else if p = 0x2F then [1, 1, 3] else if p = 0x30 then [1, 1] else if p = 0x31 then [1, 3, 3, 3]
  else if p = 0x32 then [0, 1, 1] else if p = 0x33 then [0] else []

/-- The class of an event (Tables 18.2 and 18.3). -/
def evtClass (p b : Nat) : Nat :=
  if b < 4 then ([3, 1, 0, 0] : List Nat).getD b 0 else (blockEvents p).getD (b - 4) 0

/-- The bits of the event registers of a page that stand for events; the others are reserved (R92). -/
def eventBits (p : Nat) : Nat := 2 ^ (4 + (blockEvents p).length) - 1

/-- The bar that a page's events concern by themselves: n for SCN_n, FIRE_n and ZLB_n (R417). -/
def pageBar (p : Nat) : Option Nat :=
  if 0x11 ≤ p ∧ p ≤ 0x18 then some (p - 0x11) else if 0x1C ≤ p ∧ p ≤ 0x23 then some (p - 0x1C)
  else if 0x25 ≤ p ∧ p ≤ 0x2C then some (p - 0x25) else none

/-- The stamps of the AUX island are free-running while VIN is absent (R20). -/
def State.freeRunning (s : State) (p : Nat) : Bool := decide (pageIsland p = 0) && !s.aux.vin

/-- The record of an occurrence (R416 to R418), without its destination's sequence number. -/
def State.evtRec (s : State) (e : Evt) : Rec :=
  let bar := (pageBar e.page).or e.bar
  { time := s.devtime
    line := match e.line, bar with
      | some l, _ => l
      | none, some b => s.get (F.LCK_LINE b)
      | none, none => 0
    bar := bar.getD 0xFF
    flags := b2n e.forced + 2 * b2n (s.freeRunning e.page) + 16 * evtClass e.page e.bit
    code := e.page * 0x100 + e.bit
    addr := s.get F.CHN_ADDR
    roleState := s.get F.DEV_DEVSTATE_ROLE * 64 + s.get F.DEV_DEVSTATE_STATE
    detail := if e.forced then [] else e.detail.take 8 }

/-- The 32 bytes of a record (Table 18.1). -/
def Rec.bytes (r : Rec) : List Byte :=
  leBytes 8 r.time ++ leBytes 4 r.line ++ leBytes 1 r.bar ++ leBytes 1 r.flags ++ leBytes 2 r.code ++ leBytes 2 r.seq
    ++ leBytes 1 r.addr ++ leBytes 1 r.roleState ++ leBytes 4 0 ++ padTo 8 r.detail

/-- EVT_RAW and EVT_PEND of an occurrence (R93); ARB STARVE and CRT CARAT_STARVE count as unmasked (R422). -/
def evtUnmasked (s : State) (p b : Nat) : Bool :=
  (s.reg (R.EVT_MASK p)).toNat.testBit b || (p == 0x2F && b == 4) || (p == 0x30 && b == 4)

/-- Set the flags of an occurrence (R93). -/
def State.evtFlags (s : State) (p b : Nat) : State :=
  let s' := s.setBit (R.EVT_RAW p) b true
  if evtUnmasked s p b then s'.setBit (R.EVT_PEND p) b true else s'

/-- Show in SBP EVQ.COUNT how many records are queued. -/
def State.evqCount (s : State) : State := s.put F.SBP_EVQ_COUNT s.aux.evq.length

/-- A record enters the side-band queue with the next 16-bit sequence number, or is discarded and counted (R405). The answer says
whether the discard opens a full spell. -/
def State.evqPut (s : State) (r : Rec) : State × Bool :=
  if s.aux.evq.length < 128 then
    ((s.modAux fun a => { a with evq := a.evq ++ [{ r with seq := a.evqSeq }], evqSeq := (a.evqSeq + 1) % 0x10000 }).evqCount, false)
  else
    ((s.satAdd F.SBP_EVQ_LOST 1).modAux fun a => { a with evqFull := true },
      !s.aux.evqFull && !(r.code == 0x0B05))

/-- A record reaches the aggregator of EVT: it takes the next host SEQ and is buffered, or is discarded when 256 records wait
(R419). The answer says whether RECORD_LOST is to be raised. -/
def State.aggPut (s : State) (r : Rec) (urgency : Nat) : State × Bool :=
  let r := { r with seq := s.get F.EVT_SEQ_NEXT }
  let s := s.wrapAdd F.EVT_SEQ_NEXT 1
  if s.pix.agg.length < 256 then (s.modPix fun p => { p with agg := p.agg ++ [(urgency, r)] }, false)
  else ((s.satAdd F.EVT_LOST 1).modPix fun p => { p with lostArmed := false }, s.pix.lostArmed)

/-- A record with PAIR routing goes to the partner; it is counted in EVT LOST while the link is down (R420). The answer says whether
RECORD_LOST is to be raised. -/
def State.pairPut (s : State) (r : Rec) : State × Bool :=
  if s.linkUp then (s.sendPair (.record r), false)
  else ((s.satAdd F.EVT_LOST 1).modPix fun p => { p with lostArmed := false }, s.pix.lostArmed)

/-- Route a record (R94, R419, R420): `route` holds the bits of EVT_ROUTE. `k` bounds the chain of records that losses raise. -/
def State.routeRec : Nat → State → Nat → Rec → State
  | 0, s, _, _ => s
  | k + 1, s, route, r =>
    let raiseIn (s : State) (p b : Nat) : State :=
      let e : Evt := { page := p, bit := b }
      let t := s.evtFlags p b
      if evtUnmasked s p b then t.routeRec k (s.reg (R.EVT_ROUTE p)).toNat (s.evtRec e) else t
    let s := if route.testBit 9 then
        let x := s.evqPut r
        if x.2 then raiseIn x.1 0x0B 5 else x.1
      else s
    let s := if route.testBit 8 && s.up 3 then
        let x := s.aggPut r (route % 4)
        if x.2 then raiseIn x.1 0x06 4 else x.1
      else s
    if route.testBit 10 && s.up 3 then
      let x := s.pairPut r
      if x.2 then raiseIn x.1 0x06 4 else x.1
    else s

/-- Occurrence of an event in a page whose island runs (R93): flags, and a record if the event is unmasked. -/
def State.occur (s : State) (e : Evt) : State :=
  if s.pageUp e.page then
    let t := s.evtFlags e.page e.bit
    if evtUnmasked s e.page e.bit then t.routeRec 3 (s.reg (R.EVT_ROUTE e.page)).toNat (s.evtRec e) else t
  else s

/-- The aggregator hands the records it has buffered to EVENT rings 28 to 31, by their urgency; a record lost there raises RECORD_DROP when the ring's
LOST leaves 0 (Table 18.3). -/
def State.deliver (s : State) : State :=
  let l := s.pix.agg
  foldS l (fun e s =>
    let n := 28 + e.1 % 4
    let x := s.ringPut n e.2.bytes
    if x.2 then x.1.occur { page := 0x09, bit := 5, detail := leBytes 1 n } else x.1)
    (s.modPix fun p => { p with agg := [] })

/-- Raise an event: the occurrence, and the delivery of the records that now wait in the aggregator. -/
def State.raise (s : State) (e : Evt) : State := (s.occur e).deliver

/-- A record that is not an event record goes to record ring `n`; RECORD_DROP as above. -/
def State.putRecord (s : State) (n : Nat) (b : List Byte) : State :=
  let x := s.ringPut n b
  if x.2 then x.1.raise { page := 0x09, bit := 5, detail := leBytes 1 n } else x.1

/-- Stop a ring with an error and raise RING_STOP (Tables 5.9 and 18.3). -/
def State.ringStop (s : State) (n cause : Nat) : State :=
  (s.ringErr n cause).raise { page := 0x09, bit := 4, detail := leBytes 1 n ++ leBytes 1 cause }

/-! ### Refused accesses (R96) -/

/-- MASTER encodings of ERR_CODE (Table 4.5); the DEBUG requester shows as the side-band (R446). -/
def masterCode : Master → Nat
  | .host => 0 | .sideband => 1 | .claspEngine => 2 | .pairApply => 3 | .debug => 1

/-- Record a refusal in the ERR_CODE of page `p` and raise REFUSED there. -/
def State.errCode (s : State) (p off : Nat) (m : Master) (code : Nat) : State :=
  let n := min 255 (getBits 31 24 (s.reg (R.ERR_CODE p)) + 1)
  (s.setReg (R.ERR_CODE p) (BitVec.ofNat 32 (n * 0x1000000 + off % 0x1000 * 0x1000 + masterCode m * 0x400 + code))).raise
    { page := p, bit := 1 }

/-- Refuse an access to BAR 0 offset `a`: ERR_CODE of its page, or of RSC where that page cannot record it (R96). -/
def State.refuse (s : State) (a : Nat) (m : Master) (code : Nat) : State :=
  let p := a / 0x1000
  if p < 0x34 && s.pageUp p then s.errCode p a m code else s.errCode P_RSC a m code

/-! ### The retained log (R79, R424, R71) -/

/-- Write a record to the retained log: it takes LOG_SEQ, the oldest of 512 leaves, DEVTIME is saved in the retention domain, and the
record is copied to ring 61 while that ring runs. -/
def State.logRec (s : State) (code cls extra : Nat) (detail : List Byte) : State :=
  let r : Rec :=
    { time := s.devtime, bar := 0xFF, flags := 2 * b2n (!s.aux.vin) + 16 * cls + extra, code := code,
      seq := (s.reg R.SBP_LOG_SEQ).toNat % 0x10000, addr := s.get F.CHN_ADDR,
      roleState := s.get F.DEV_DEVSTATE_ROLE * 64 + s.get F.DEV_DEVSTATE_STATE, detail := detail }
  let s := s.modAux fun a => { a with log := (a.log ++ [r]).drop ((a.log.length + 1) - 512), savedTime := s.devtime }
  (s.wrapAdd F.SBP_LOG_SEQ 1).putRecord 61 r.bytes

/-! ### The device state (R27, R28, Table 5.5) -/

/-- Copy DEVSTATE to its HIF mirror and send vector 65 (R147), while HOST runs; and ROLE to PAR STAT, while PLK runs. -/
def State.mirror (s : State) : State :=
  let s := if s.up 6 then
      (s.put F.PAR_STAT_ROLE (s.get F.DEV_DEVSTATE_ROLE)).put F.PAR_STAT_ELIGIBLE (b2n (s.role == .standby)) else s
  if s.hostUp then
    if s.reg R.HIF_DEVSTATE_MIRROR = s.reg R.DEV_DEVSTATE then s
    else (s.setReg R.HIF_DEVSTATE_MIRROR (s.reg R.DEV_DEVSTATE)).sendMsix 65
  else s

/-- The STATE field of a device state. -/
def State.putDev (s : State) (d : DevState) : State := (s.put F.DEV_DEVSTATE_STATE d.code).mirror

/-- Set STATE.FAULT of a page and raise its FAULT event (R92). -/
def State.pageFault (s : State) (p : Nat) : State := (s.put (F.S_FAULT p) 1).raise { page := p, bit := 0 }

/-- FAULT_N and ALERT_N sink current while a pending event's class is selected (R423): the classes pending in any page. -/
def State.classPend (s : State) : Nat :=
  (List.range 0x34).foldl (fun c p =>
    if s.pageUp p then
      (bitsOf (s.reg (R.EVT_PEND p)).toNat 32).foldl (fun c b => c ||| 2 ^ evtClass p b) c
    else c) 0

/-- FAULT_N sinks current (R423). -/
def State.faultSinks (s : State) : Bool := s.on ⟨R.DEV_OUTGRP_ACT, 13, 13⟩ && s.classPend &&& s.get F.EVT_PIN_CFG_FAULT ≠ 0

/-- ALERT_N sinks current (R423). -/
def State.alertSinks (s : State) : Bool := s.on ⟨R.DEV_OUTGRP_ACT, 14, 14⟩ && s.classPend &&& s.get F.EVT_PIN_CFG_ALERT ≠ 0

end Sys2Proof.Machine
end

