-- ==== Sys2Proof/Machine/Arbiter.lean ====
section
/-!
DEFINITION. Sys2Proof/Machine/Arbiter.lean: the deadline arbiter (R299 to R313), as the three instances share it: stamps, ranking,
panic, grants, preemption, cut offs and starvation. What a grant means at an instance is said where its work is modelled.
-/
namespace Sys2Proof.Machine

open Sys2Proof

/-- Instance `i`: 0 the DRAM front end, 1 the register fabric, 2 the decoder-lane pool (Table 12.1). -/
def State.arb (s : State) (i : Nat) : ArbInst :=
  if i = 0 then s.mem.arb else if i = 1 then s.pix.fabric else s.pix.pool

/-- Put back an instance; HOLDING_i shows the requesters that hold a grant. -/
def State.setArb (s : State) (i : Nat) (a : ArbInst) : State :=
  let s := if i = 0 then s.modMem fun m => { m with arb := a } else if i = 1 then s.modPix fun p => { p with fabric := a }
    else s.modPix fun p => { p with pool := a }
  s.put (F.ARB_HOLDING i) (a.holders.foldl (fun b q => b ||| 2 ^ q.r) 0)

/-- The island of an instance (Table 12.1). -/
def arbIsland (i : Nat) : Nat := if i = 0 then 2 else 3

/-- Request `a` goes before `b`: the nearer deadline, then the one raised first, then the lower requester (R300). -/
def Req.before (a b : Req) : Bool :=
  decide (a.deadline < b.deadline) ||
    (decide (a.deadline = b.deadline) && (decide (a.raised < b.raised) || (decide (a.raised = b.raised) && decide (a.r < b.r))))

/-- The request of a list that R300 ranks first. -/
def nearest : List Req → Option Req
  | [] => none
  | q :: l => match nearest l with
    | none => some q
    | some b => some (if b.before q then b else q)

/-- The holder that a preemption takes: the latest deadline, and among equals the one granted most recently (R303). -/
def victimOf : List Req → Option Req
  | [] => none
  | q :: l => match victimOf l with
    | none => some q
    | some b => some (if decide (b.deadline < q.deadline) || (decide (b.deadline = q.deadline) && decide (b.granted < q.granted)) then q else b)

/-- The stamp of a request raised now (R299): raise time plus OFFSET, or the instant of need minus OFFSET for a self-stamped
requester; the present time while the requester is in panic (R302). -/
def State.stamp (s : State) (i r need : Nat) (panic : Bool) : Nat :=
  if panic then s.devtime
  else if s.on (F.ARB_REQ_CFG_SELF i r) then need - s.get (F.ARB_REQ_CFG_OFFSET i r)
  else s.devtime + s.get (F.ARB_REQ_CFG_OFFSET i r)

/-- Requester `r` of an instance is below its panic level: its waiting deadlines become the present time, unless earlier (R302). -/
def State.panicRewrite (s : State) (i r : Nat) : State :=
  s.setArb i { s.arb i with waiting := (s.arb i).waiting.map fun q => if q.r = r then { q with deadline := min q.deadline s.devtime } else q }

/-- Raise a request (R299). -/
def State.arbRaise (s : State) (i r need : Nat) (panic : Bool) (w : Work) : State :=
  let s := if panic then s.panicRewrite i r else s
  s.setArb i { s.arb i with waiting := (s.arb i).waiting ++ [{ r := r, deadline := s.stamp i r need panic, raised := s.devtime, work := w }] }

/-- Take a request out of a list, once. -/
def dropReq (q : Req) (l : List Req) : List Req := l.erase q

/-- Grant a waiting request, on a lane at the pool: LATE_MAX keeps the largest grant time minus deadline, and BLOCK_MAX the largest
blocking measured; BLOCK_OVER reports one beyond WC_BLOCK (R308, R313). -/
def State.arbGive (s : State) (i : Nat) (q : Req) (lane blocked : Nat) : State :=
  let a := s.arb i
  let s := s.setArb i { waiting := dropReq q a.waiting, holders := a.holders ++ [{ q with granted := s.devtime, stalled := 0, stallFrom := none, lane := lane }] }
  let s := s.peak (F.ARB_LATE_MAX i q.r) (s.devtime - q.deadline)
  let s := s.peak (F.ARB_BLOCK_MAX i) blocked
  if s.get (F.ARB_WC_BLOCK i) < blocked then s.raise { page := P_ARB, bit := 6, detail := leBytes 1 i ++ leBytes 2 (min 0xFFFF blocked) } else s

/-- A holder gives its grant back: its work is complete, or it is withdrawn (R306). -/
def State.arbDone (s : State) (i : Nat) (q : Req) : State :=
  s.setArb i { s.arb i with holders := dropReq q (s.arb i).holders }

/-- `q` preempts holder `h`: its deadline is earlier by more than PREEMPT_MARGIN (R303). -/
def State.mayPreempt (s : State) (i : Nat) (q h : Req) : Bool := decide (q.deadline + s.get (F.ARB_MARGIN i) < h.deadline)

/-- The loser of a preemption waits again with its stamp, and PREEMPTS counts the restart (R303). -/
def State.arbLose (s : State) (i : Nat) (h : Req) : State :=
  let a := s.arb i
  (s.setArb i { waiting := a.waiting ++ [{ h with granted := 0, stalled := 0, stallFrom := none }], holders := dropReq h a.holders }).satAdd
    (F.ARB_REQ_CNT_PREEMPTS i h.r) 1

/-- The time for which a holder could use its grant: time spent stalled is not counted (R304, R174). -/
def Req.heldFor (q : Req) (now : Nat) : Nat :=
  now - q.granted - (q.stalled + match q.stallFrom with | none => 0 | some t => now - t)

/-- Cut a holder off: its work is raised again with a fresh stamp, CUT and CUTS record it, and HOLD_CUT is raised (R304). -/
def State.arbCut (s : State) (i : Nat) (h : Req) (need : Nat) (panic : Bool) : State :=
  let s := (s.arbDone i h).arbRaise i h.r need panic h.work
  ((s.setBit (R.ARB_CUT i) h.r true).satAdd (F.ARB_REQ_CNT_CUTS i h.r) 1).raise
    { page := P_ARB, bit := 5, detail := leBytes 1 i ++ leBytes 1 h.r }

/-- A request of `r` that has waited STARVE_LIMIT beyond its deadline starves, once (R305). The detail bytes hold instance, requester
and the low six bytes of the deadline, which is all that eight bytes hold (log entry 21). -/
def State.arbStarve (s : State) (i r : Nat) : State :=
  match (s.arb i).waiting.find? fun q => decide (q.r = r) && !q.starved && decide (q.deadline + s.get (F.ARB_STARVE i) ≤ s.devtime) with
  | none => s
  | some q =>
    let s := s.setArb i { s.arb i with waiting := (s.arb i).waiting.map fun p => if p = q then { p with starved := true } else p }
    (s.setBit (R.ARB_STARVED i) r true).raise { page := P_ARB, bit := 4, detail := leBytes 1 i ++ leBytes 1 r ++ leBytes 6 q.deadline }

/-- Withdraw the requests and grants of an instance that a reset clears; nothing is counted (R306). -/
def State.arbWithdraw (s : State) (i : Nat) (p : Req → Bool) : State :=
  let a := s.arb i
  s.setArb i { waiting := a.waiting.filter fun q => !p q, holders := a.holders.filter fun q => !p q }

/-! ### The register fabric (R311) -/

/-- The fabric requester of a master (Table 12.4). -/
def fabricReq : Master → Nat
  | .claspEngine => 0 | .pairApply => 1 | .host => 2 | .sideband => 3 | .debug => 5

/-- One access of the batch that requester `r` holds has completed; the grant ends with the last (R311). -/
def State.fabricAccess (s : State) (r : Nat) : State :=
  match (s.arb 1).holders.find? fun q => decide (q.r = r) with
  | some q =>
    match q.work with
    | .batch n =>
      if n ≤ 1 then s.arbDone 1 q
      else s.setArb 1 { s.arb 1 with holders := (s.arb 1).holders.map fun h => if h = q then { h with work := .batch (n - 1) } else h }
    | _ => s.arbDone 1 q
  | none => s

/-- The whole grant of requester `r` ends: an apply or a stamped action is complete. -/
def State.fabricEnd (s : State) (r : Nat) : State :=
  match (s.arb 1).holders.find? fun q => decide (q.r = r) with
  | some q => s.arbDone 1 q
  | none => s

end Sys2Proof.Machine
end

