-- ==== Sys2Proof/Machine/Carats.lean ====
section
/-!
DEFINITION. Sys2Proof/Machine/Carats.lean: the core carats (R336 to R341): requests, grants in deadline order, releases, lingering
decoder lanes, recall, and the budget in force.
-/
namespace Sys2Proof.Machine

open Sys2Proof

/-- The base reserve in carats (R336). -/
def baseReserve : Nat := 64

/-- COST of a consumer's unit (Table 14.1). -/
def State.caratCost (s : State) (c : Nat) : Nat := s.get (F.CRT_CONS_CFG_COST c)

/-- Units of a consumer: engines, decoder lanes, bar groups, channels, encoder lanes (Table 14.1). -/
def caratUnits (c : Nat) : Nat := ([8, 32, 8, 16, 1, 32, 4, 1] : List Nat).getD c 0

/-- Two consumers share the units of the decoder lanes (R337). -/
def sameUnit (c u c' u' : Nat) : Bool :=
  decide (u = u') && (decide (c = c') || (decide (c = 1) && decide (c' = 5)) || (decide (c = 5) && decide (c' = 1)))

/-- A unit holds its carats. -/
def State.holdsCarats (s : State) (c u : Nat) : Bool := s.hsk.cheld.any fun q => sameUnit c u q.cons q.unit

/-- A unit waits for its carats. -/
def State.waitsCarats (s : State) (c u : Nat) : Bool := s.hsk.cwait.any fun q => sameUnit c u q.cons q.unit

/-- GRANTED and the HELD counts follow the holdings; PEAK keeps the largest GRANTED (Table 14.7). -/
def State.caratCounts (s : State) : State :=
  let g := s.hsk.cheld.foldl (fun n q => n + s.caratCost q.cons) 0
  let s := foldS (List.range 8) (fun c s => s.put (F.CRT_CONS_STAT_HELD c) (s.hsk.cheld.countP fun q => q.cons == c)) s
  (s.put F.CRT_CORE_STAT_GRANTED g).peak F.CRT_PEAK g

/-- Carat request `a` ranks before `b` (R300, R338). -/
def CReq.before (a b : CReq) : Bool :=
  decide (a.deadline < b.deadline) ||
    (decide (a.deadline = b.deadline) && (decide (a.raised < b.raised) || (decide (a.raised = b.raised) && decide (a.cons < b.cons))))

/-- The carat request that ranks first. -/
def nearestC : List CReq → Option CReq
  | [] => none
  | q :: l => match nearestC l with
    | none => some q
    | some b => some (if b.before q then b else q)

/-- The carats granted within the last microsecond (R338). -/
def State.recentGrants (s : State) : Nat :=
  s.hsk.grants.foldl (fun n g => if s.devtime < g.1 + us then n + g.2 else n) 0

/-- The cost fits the budget in force (R336). -/
def State.caratFits (s : State) (c : Nat) : Bool :=
  decide (baseReserve + s.get F.CRT_CORE_STAT_GRANTED + s.caratCost c ≤ s.get F.CRT_CORE_STAT_EFF)

/-- The cost fits the grant-rate window (R338). -/
def State.caratRate (s : State) (c : Nat) : Bool := decide (s.recentGrants + s.caratCost c ≤ 64)

/-- Raise a carat request for a unit that neither holds nor awaits its carats: offset-stamped, or self-stamped from the deadline of the
lane's pool request (DEC_BAR), or stamped with the present time in panic. WAITS counts a request that does not fit at once (R337, R338). -/
def State.caratRequest (s : State) (c u : Nat) (poolDeadline : Nat) (panic : Bool) : State :=
  if s.holdsCarats c u || s.waitsCarats c u then s else
  let dl := if panic then s.devtime else if c = 1 then poolDeadline - s.get (F.CRT_CONS_CFG_OFFSET c)
    else s.devtime + s.get (F.CRT_CONS_CFG_OFFSET c)
  let s := if s.caratFits c && s.hsk.cwait.isEmpty then s else s.satAdd (F.CRT_CONS_STAT_WAITS c) 1
  s.modHsk fun h => { h with cwait := h.cwait ++ [{ cons := c, unit := u, deadline := dl, raised := s.devtime }] }

/-- Grant the waiting request that ranks first if it fits the budget and the rate; a request that does not fit blocks those behind it
(R338). The answer says whether a grant was made. -/
def State.caratGrant (s : State) : State × Bool :=
  match nearestC s.hsk.cwait with
  | none => (s, false)
  | some q =>
    if s.caratFits q.cons && s.caratRate q.cons then
      let s := s.modHsk fun h =>
        { h with cwait := h.cwait.erase q, cheld := h.cheld ++ [q],
                 grants := (h.grants.filter fun g => decide (s.devtime < g.1 + us)) ++ [(s.devtime, s.caratCost q.cons)] }
      (s.caratCounts.peak (F.CRT_CONS_LATE q.cons) (s.devtime - q.deadline), true)
    else (s, false)

/-- Grant as long as requests fit; `k` bounds the number of grants. -/
def State.caratGrants : Nat → State → State
  | 0, s => s
  | k + 1, s => let x := s.caratGrant; if x.2 then caratGrants k x.1 else s

/-- A unit releases its carats (R337). -/
def State.caratRelease (s : State) (c u : Nat) : State :=
  (s.modHsk fun h => { h with cheld := h.cheld.filter fun q => !sameUnit c u q.cons q.unit }).caratCounts

/-- A reset clears consumers: their requests are withdrawn and their carats released; nothing is counted (Table 14.2). -/
def State.caratWithdraw (s : State) (p : CReq → Bool) : State :=
  (s.modHsk fun h => { h with cheld := h.cheld.filter fun q => !p q, cwait := h.cwait.filter fun q => !p q }).caratCounts

/-- A lane that holds carats changes class with the work it starts (R337). -/
def State.caratClass (s : State) (lane c : Nat) : State :=
  (s.modHsk fun h => { h with cheld := h.cheld.map fun q => if sameUnit 1 lane q.cons q.unit then { q with cons := c } else q }).caratCounts

/-- A carat request of consumer `c` that has waited STARVE_LIMIT beyond its deadline raises CARAT_STARVE, once (R338, R305). -/
def State.caratStarve (s : State) (c : Nat) : State :=
  match s.hsk.cwait.find? fun q => decide (q.cons = c) && !q.starved && decide (q.deadline + s.get F.CRT_STARVE ≤ s.devtime) with
  | none => s
  | some q =>
    let s := s.modHsk fun h => { h with cwait := h.cwait.map fun p => if p = q then { p with starved := true } else p }
    (s.setBit R.CRT_STARVED c true).raise { page := P_CRT, bit := 4, detail := leBytes 1 c ++ leBytes 7 q.deadline }

/-! ### Recall and throttling (R340, R341) -/

/-- A lane lingers: it holds carats and has no work (R339). -/
def State.lingering (s : State) (lane : Nat) : Bool := (nth s.pix.img.lanes lane).linger.isSome

/-- A holder that a recall may take: a lingering lane, a codec decode or encode job, or the locket (Table 14.1). -/
def State.recallable (s : State) (q : CReq) : Bool :=
  if q.cons = 1 ∨ q.cons = 5 then s.lingering q.unit || decide (q.cons = 5) else decide (q.cons = 6) || decide (q.cons = 7)

/-- The holder with the latest deadline. -/
def latestC : List CReq → Option CReq
  | [] => none
  | q :: l => match latestC l with
    | none => some q
    | some b => some (if b.deadline < q.deadline then q else b)

/-- A recalled holder stops and releases: a lingering lane at once, a codec job so that it restarts from its descriptor with PREEMPTS
counted, an encoder or the locket so that it waits for carats again (R340). -/
def State.recallOne (s : State) (q : CReq) : State :=
  let s := (s.caratRelease q.cons q.unit).satAdd (F.CRT_CONS_STAT_RECALLS q.cons) 1
  if q.cons = 1 ∨ q.cons = 5 then
    if s.lingering q.unit then
      s.modPix fun p => { p with img := { p.img with lanes := updNth p.img.lanes q.unit fun _ => {} } }
    else match (s.arb 2).holders.find? fun h => decide (h.lane = q.unit) with
      | some h => s.arbLose 2 h
      | none => s
  else
    let s := if q.cons = 6 then s.satAdd (F.ARB_REQ_CNT_PREEMPTS 2 8) 1 else s
    s.caratRequest q.cons q.unit 0 false

/-- Recall holders while base reserve and GRANTED exceed EFF (R340); `k` bounds the number of holders. -/
def State.recallAll : Nat → State → State
  | 0, s => s
  | k + 1, s =>
    if s.get F.CRT_CORE_STAT_EFF < baseReserve + s.get F.CRT_CORE_STAT_GRANTED then
      match latestC (s.hsk.cheld.filter s.recallable) with
      | some q => recallAll k (s.recallOne q)
      | none => s
    else s

/-- EFF as R341 computes it. -/
def State.effNow (s : State) : Nat :=
  max (s.get F.CRT_CORE_BUDGET - 32 * s.get F.CRT_THROTTLE_STEPS) (min (s.get F.CRT_CORE_FLOOR) (s.get F.CRT_CORE_BUDGET))

/-- Take over EFF; a change raises BUDGET_STEP with the new EFF and leads to a recall (R340, R341). -/
def State.effUpdate (s : State) : State :=
  if s.effNow = s.get F.CRT_CORE_STAT_EFF then s
  else (((s.put F.CRT_CORE_STAT_EFF s.effNow).raise { page := P_CRT, bit := 5, detail := leBytes 2 s.effNow }).recallAll 128)

end Sys2Proof.Machine
end

