-- ==== Sys2Proof/Machine/Output.lean ====
section
/-!
DEFINITION. Sys2Proof/Machine/Output.lean: the output pads: enable bits, rest-follow and the return to rest (R34, R40 to R49).
Pads are numbered as R44 numbers them: 0 to 7 the FIRE groups, 8 to 11 ENCO, 12 SYNC_OUT, 13 FAULT_N, 14 ALERT_N, 16 to 31 GPIO,
32 SB_P/M, 33 CHAIN_OUT, 34 HOLD_OUT.
-/
namespace Sys2Proof.Machine

open Sys2Proof

/-- The phase of a pad. -/
def State.pad (s : State) (p : Nat) : PadPhase := nth s.aux.pads p

/-- Set the phase of a pad; OUTGRP_ACT shows the groups that drive. An encoder output at rest is out of its error (R236). -/
def State.setPad (s : State) (p : Nat) (x : PadPhase) : State :=
  let s := s.modAux fun a => { a with pads := updNth a.pads p fun _ => x }
  let s := if 8 ≤ p ∧ p < 12 ∧ x = .rest then s.modFire fun f => { f with chans := updNth f.chans (p - 8) fun c => { c with encoErr := false } } else s
  if p < 15 then s.setBit R.DEV_OUTGRP_ACT p (match x with | .driving _ => true | _ => false) else s

/-- The enable bit of a pad in OUTGRP_EN or GPIO_OE (R42). -/
def State.padBit (s : State) (p : Nat) : Bool :=
  if p < 15 then (s.reg R.DEV_OUTGRP_EN).toNat.testBit p else (s.reg R.DEV_GPIO_OE).toNat.testBit (p - 16)

/-- Enable bits take effect in READY to STOPPING (R34), a FIRE group only on a unit that holds control (R49), and the groups of
the FIRE island while it runs (R72). -/
def State.padAllowed (s : State) (p : Nat) : Bool :=
  s.dev.operating && (decide (12 ≤ p) || s.up 4) && (decide (8 ≤ p) || s.role == .solo || s.role == .active)

/-- A FIRE pulse of bar `b` is active. -/
def State.pulsing (s : State) (b : Nat) : Bool := (nth s.fire.bars b).pulses.any fun q => q.active

/-- The device temperature is in the STOP state (R347). -/
def State.inStop (s : State) : Bool := s.on F.THM_TSTATE_STOP

/-- Bring one pad in line with its enable bit: a pad at rest whose bit has effect starts rest-follow, unless the STOP state holds it off
(R347); one whose bit has none returns to rest, a FIRE group after the pulse in progress (R47). -/
def State.padUpdate (s : State) (p : Nat) : State :=
  if s.padBit p && s.padAllowed p then
    match s.pad p with
    | .rest => if s.inStop then s else s.setPad p (.follow s.devtime none)
    | _ => s
  else
    match s.pad p with
    | .rest => s
    | _ => if decide (p < 8) && s.pulsing p then s else s.setPad p .rest

/-- The pads that OUTGRP_EN and GPIO_OE enable. -/
def enabledPads : List Nat := List.range 15 ++ (List.range 16).map (· + 16)

/-- Bring every pad in line with its enable bit. -/
def State.padsUpdate (s : State) : State := foldS enabledPads (fun p s => s.padUpdate p) s

/-- Forced return to rest: every group and GPIO pad at once, with OUTGRP_EN and GPIO_OE cleared (R47). -/
def State.forceRest (s : State) : State :=
  foldS enabledPads (fun p s => s.setPad p .rest) ((s.setReg R.DEV_OUTGRP_EN 0).setReg R.DEV_GPIO_OE 0)

/-- Enter a device state: outside READY to STOPPING the outputs are forced to rest (R34, R47); inside, pending enables take effect (R43). -/
def State.enterDev (s : State) (d : DevState) : State :=
  let s := s.putDev d
  if d.operating then s.padsUpdate else s.forceRest

/-- The level of 16 samples: the one they all show, or none when one is undecided or they differ (R44). -/
def decided (l : List PadSample) : Option Bool :=
  if l.length = 16 ∧ (∀ x ∈ l, x = .high) then some true
  else if l.length = 16 ∧ (∀ x ∈ l, x = .low) then some false
  else none

/-- How many signals a pad or group has: nine pairs of FIRE, A, B and Z of ENCO (Table 2.5). -/
def padSignals (p : Nat) : Nat := if p < 8 then 9 else if p < 12 then 3 else 1

/-- The safe level of a pad: OUTGRP_SAFE, GPIO_OUT for a GPIO pin (R44); the chain pads rest low and the side-band idles high. -/
def State.safeLevel (s : State) (p : Nat) : Bool :=
  if p < 15 then (s.reg R.DEV_OUTGRP_SAFE).toNat.testBit p
  else if p < 32 then (s.reg R.DEV_GPIO_OUT).toNat.testBit (p - 16)
  else decide (p = 32)

/-- The rest-follow samples of a pad are complete (R44 to R46): a FIRE group drives only if all nine pairs sampled inactive; any other pad
drives the sampled or the safe level, and a GPIO write held meanwhile follows. HOLD_OUT and CHAIN_OUT then
go high (R367, R407); the side-band driver sends its reply and returns to rest (R398). -/
def State.followDone (s : State) (p : Nat) (samples : List (List PadSample)) (held : Option Bool) : State :=
  let lv := (List.range (padSignals p)).map fun i => decided (nth samples i)
  if p < 8 then
    if lv.all (· == some false) then s.setPad p (.driving (List.replicate 9 false))
    else ((s.setPad p .rest).setBit R.DEV_OUTGRP_EN p false).raise { page := P_DEV, bit := 5, detail := leBytes 1 p }
  else
    let levels := lv.map fun x => x.getD (s.safeLevel p)
    let s := if lv.any Option.isNone then s.raise { page := P_DEV, bit := 4, detail := leBytes 1 p } else s
    if p < 15 then s.setPad p (.driving levels)
    else if p < 32 then
      let s := s.setBit R.DEV_GPIO_OUT (p - 16) (levels.headD false)
      let s := match held with | none => s | some b => s.setBit R.DEV_GPIO_OUT (p - 16) b
      s.setPad p (.driving [held.getD (levels.headD false)])
    else if p = 34 then (s.setPad p (.driving [true])).put F.PAR_STAT_HOLD_OUT 1
    else if p = 33 then s.setPad p (.driving [true])
    else s.setPad p .rest

end Sys2Proof.Machine
end

