-- ==== Sys2Proof/Machine/Pairing.lean ====
section
/-!
DEFINITION. Sys2Proof/Machine/Pairing.lean: changes of role (R365 to R367, R49, R234), PAIR records (R397), and the digests of a pair
with their comparison (R377 to R379).
-/
namespace Sys2Proof.Machine

open Sys2Proof

/-- A record for PAIR ring 60 (Table 16.12). -/
def State.pairRecord (s : State) (kind bar gen line : Nat) (detail : List Byte) : State :=
  s.putRecord 60 (leBytes 8 s.devtime ++ leBytes 1 kind ++ leBytes 1 bar ++ leBytes 2 gen ++ leBytes 4 line ++ padTo 16 detail)

/-- The web channel: ACT_CH in SOLO and ACTIVE, STBY_CH in STANDBY and DETACHED (R234). -/
def State.webCh (s : State) : Nat :=
  if s.role == .solo || s.role == .active then s.get F.POS_WEB_SEL_ACT_CH else s.get F.POS_WEB_SEL_STBY_CH

/-- The high-water mark moves to the web channel's position; the web count goes on from there (R234). -/
def State.webSwitch (s : State) : State :=
  s.modFire fun f => { f with hwm := s.getInt64 (R.POS_POS_LO s.webCh), webEdges := [] }

/-- Causes of becoming DETACHED (Table 16.10, DETACH_CAUSE). -/
def causeDiverged : Nat := 1
def causeActionLate : Nat := 2
def causePeerLost : Nat := 3
def causeHoldFault : Nat := 4
def causeSelf : Nat := 5
def causeTempStop : Nat := 6
def causeCmd : Nat := 7
def causeLocketFail : Nat := 8
def causeGaveUp : Nat := 9

/-- Change the role (Table 16.1): HOLD_OUT is driven exactly while ACTIVE (R367), the FIRE groups follow (R49), the web channel changes with
the role (R234), SRC_DIFF starts again (R235), and ROLE_CHANGE is raised and recorded (R395, R397). `gap` is the number of lines left
unfired. A role that does not change changes nothing. -/
def State.setRole (s : State) (r : Role) (cause gap : Nat) : State :=
  let old := s.role
  if old = r then s else
  let web := s.webCh
  let s := (s.put F.DEV_DEVSTATE_ROLE r.code).mirror
  let s := if r = .detached then s.put F.PAR_STAT_DETACH_CAUSE cause else s.put F.PAR_STAT_DETACH_CAUSE 0
  let s := s.put64 R.PAR_LAST_CHANGE_LO s.devtime
  let s := if r = .active then s.setPad 34 (.follow s.devtime none) else (s.setPad 34 .rest).put F.PAR_STAT_HOLD_OUT 0
  let s := if r = .solo then s.put64 R.PAR_PAIR_OFS_LO 0 else s
  let s := if s.webCh = web then s else s.webSwitch
  let s := (s.setReg R.POS_SRC_DIFF 0).padsUpdate
  let d := leBytes 1 old.code ++ leBytes 1 r.code ++ leBytes 1 cause ++ leBytes 2 gap
  (s.raise { page := P_PAR, bit := 4, detail := d }).pairRecord 0x01 0xFF 0 0 d

/-! ### Digests (R377 to R379) -/

/-- The detail bytes of a mismatch: own digest, partner digest, ring, descriptor index, tile ordinal (Table 16.12). -/
def digDetail (k : DigKey) (own peer : Nat) : List Byte :=
  match k with
  | .tile ring idx ord => leBytes 4 own ++ leBytes 4 peer ++ leBytes 1 ring ++ leBytes 4 idx ++ leBytes 2 ord
  | .line _ _ => leBytes 4 own ++ leBytes 4 peer

/-- A mismatch: DIVERGED, its count and record; a STANDBY unit becomes DETACHED (R379). -/
def State.diverge (s : State) (k : DigKey) (own peer : Nat) : State :=
  let kind := match k with | .tile _ _ _ => 2 | .line _ _ => 3
  let bar := match k with | .tile ring _ _ => ring | .line b _ => b
  let line := match k with | .tile _ _ _ => 0 | .line _ l => l
  let key := match k with | .tile ring idx ord => leBytes 1 ring ++ leBytes 4 idx ++ leBytes 2 ord | .line _ _ => []
  let s := s.satAdd F.PAR_DIVERGE_CNT 1
  let s := s.raise { page := P_PAR, bit := 6, bar := some bar, line := some line, detail := leBytes 1 kind ++ key }
  let s := s.pairRecord kind bar 0 line (digDetail k own peer)
  let s := s.sendPair (.diverged k)
  if s.role == .standby then s.setRole .detached causeDiverged 0 else s

/-- When a digest without partner counts as a mismatch: DIG_WAIT ms for a tile; a line digest 64 lines later (R377, R378). -/
def State.digDue (s : State) (k : DigKey) : Nat :=
  match k with
  | .tile _ _ _ => s.devtime + s.get F.PAR_TIMING_DIG_WAIT * ms
  | .line _ l => (l + 64) % 2 ^ 32

/-- This unit's own digest: sent to the partner, and compared with the partner's if that has arrived (R377, R378). -/
def State.ownDigest (s : State) (k : DigKey) (d : Nat) : State :=
  let s := match k with
    | .tile ring idx ord => s.sendPair (.tileDigest ring idx ord d)
    | .line b l => s.sendPair (.lineDigest b l d)
  match s.plk.peerDigs.find? fun w => decide (w.key = k) with
  | some w =>
    let s := s.modPlk fun p => { p with peerDigs := p.peerDigs.erase w }
    if w.digest = d then s else s.diverge k d w.digest
  | none => s.modPlk fun p => { p with ownDigs := p.ownDigs ++ [{ key := k, digest := d, due := s.digDue k }] }

/-- The partner's digest has arrived. -/
def State.peerDigest (s : State) (k : DigKey) (d : Nat) : State :=
  match s.plk.ownDigs.find? fun w => decide (w.key = k) with
  | some w =>
    let s := s.modPlk fun p => { p with ownDigs := p.ownDigs.erase w }
    if w.digest = d then s else s.diverge k w.digest d
  | none => s.modPlk fun p => { p with peerDigs := p.peerDigs ++ [{ key := k, digest := d, due := s.digDue k }] }

/-- A digest has waited too long for its partner: a mismatch with a missing digest. -/
def State.digestMissing (s : State) (own : Bool) (w : DigWait) : State :=
  if own then (s.modPlk fun p => { p with ownDigs := p.ownDigs.erase w }).diverge w.key w.digest 0
  else (s.modPlk fun p => { p with peerDigs := p.peerDigs.erase w }).diverge w.key 0 w.digest

/-- The digest of a tile that a LOAD or a STREAM fetched (R170, R377). -/
def State.tileDigest (s : State) (ring idx ord : Nat) (bytes : List Byte) : State :=
  if s.paired && s.linkUp && s.on F.PAR_CFG_TILE_DIG then s.ownDigest (.tile ring idx ord) (crc32c bytes).toNat else s

/-- The digest of a line of a job (R378). -/
def State.lineDigest (s : State) (b line : Nat) (bytes : List Byte) : State :=
  if s.paired && s.linkUp && s.on F.PAR_CFG_LINE_DIG then s.ownDigest (.line b line) (crc32c bytes).toNat else s

end Sys2Proof.Machine
end

