-- ==== Sys2Proof/Machine/Tiles.lean ====
section
/-!
DEFINITION. Sys2Proof/Machine/Tiles.lean: the image store (R152 to R179): tiles, planes of the page store, fetching, placement into
the contone rings, and the completion of bands.
-/
namespace Sys2Proof.Machine

open Sys2Proof

/-! ### Geometry of the contone ring (R152, R172) -/

/-- Tile columns of a band at the bar's cross-web resolution (R152). -/
def State.tileCols (s : State) (b : Nat) : Nat := if s.on (F.IMG_CRING_CFG_XRES b) then 97 else 49

/-- Width of a tile column (R152). -/
def State.colWidth (s : State) (b c : Nat) : Nat := if !s.on (F.IMG_CRING_CFG_XRES b) && c == 48 then 512 else 1024

/-- Bytes of a contone line (R172). -/
def State.pitchBytes (s : State) (b : Nat) : Nat := if s.on (F.IMG_CRING_CFG_XRES b) then 99328 else 49664

/-- Lines of the contone ring (R172). -/
def State.ringLines (s : State) (b : Nat) : Nat := s.get (F.IMG_CRING_CFG_BANDS b) * 64

/-- DRAM offset of byte `k` of extended line `lx` (R172). -/
def State.contoneAddr (s : State) (b lx k : Nat) : Nat :=
  s.get (F.IMG_CRING_BASE b) * 0x200000 + lx % s.ringLines b * s.pitchBytes b + k

/-- The image-store state of bar `b`. -/
def State.img (s : State) (b : Nat) : TileRing := nth s.pix.img.rings b

/-- Change the image-store state of bar `b`. -/
def State.modImg (s : State) (b : Nat) (f : TileRing → TileRing) : State :=
  s.modPix fun p => { p with img := { p.img with rings := updNth p.img.rings b f } }

/-- Plane slot `p` of bar `b`. -/
def State.plane (s : State) (b p : Nat) : Plane := nth s.pix.img.planes (64 * b + p)

/-- Change a plane slot. -/
def State.modPlane (s : State) (b p : Nat) (f : Plane → Plane) : State :=
  s.modPix fun x => { x with img := { x.img with planes := updNth x.img.planes (64 * b + p) f } }

/-- Line `lx` may be written: screening has released the ring's line slot (R173, R174). -/
def State.slotFree (s : State) (b lx : Nat) : Bool := decide (lx < (s.img b).relLx + s.ringLines b)

/-- The bar panics: decoded lines lead the screening fetch position by fewer than PANIC_BANDS × 64 (R173). -/
def State.barPanic (s : State) (b : Nat) : Bool :=
  decide ((s.img b).wrLx < (s.img b).fetchLx + s.get (F.IMG_CRING_CFG_PANIC_BANDS b) * 64)

/-! ### Tile headers (R152 to R154) -/

/-- The tile whose header begins `l`, if every field is valid for bar `b` (Table 6.1, R154); its payload is not yet taken. -/
def State.parseTile (s : State) (b : Nat) (l : List Byte) : Option Tile :=
  let w0 := leAt l 0 4; let w1 := leAt l 4 4; let w2 := leAt l 8 4
  let kind := w0 / 2 ^ 16 % 16; let col := w1 % 256; let fill := w1 / 2 ^ 24
  let raw := w2 % 2 ^ 16 + 1; let pay := w2 / 2 ^ 16; let w := s.colWidth b col
  if w0 % 2 ^ 16 = 0x5A41 ∧ w0 / 2 ^ 20 % 16 = 1 ∧ w0 / 2 ^ 24 % 8 = b ∧ w0 / 2 ^ 27 = 0 ∧ 1 ≤ kind ∧ kind ≤ 3
      ∧ col < s.tileCols b ∧ raw % w = 0 ∧ 1 ≤ raw / w ∧ raw / w ≤ 64
      ∧ (kind = 3 ∨ fill = 0) ∧ (if kind = 1 then 1 ≤ pay ∧ pay < raw else pay = 0) then
    some { kind := kind, bar := b, col := col, row := w1 / 2 ^ 8 % 2 ^ 16, fill := fill, rawLen := raw, payLen := pay, crc := leAt l 12 4 }
  else none

/-- Payload bytes that follow a header (R154). -/
def Tile.payBytes (t : Tile) : Nat := if t.kind = 1 then t.payLen else if t.kind = 2 then t.rawLen else 0

/-- Lines of a tile in column width `w`. -/
def Tile.lines (t : Tile) (w : Nat) : Nat := t.rawLen / w

/-- Store pages of a tile: a 128-byte record and the payload in pages of 4 KiB; none for a FILL tile (R167). -/
def Tile.pages (t : Tile) : Nat := if t.kind = 3 then 0 else (128 + t.payBytes + 4095) / 4096

/-! ### The page store (R167, R168) -/

/-- There is a page store: STORE_SIZE is at least 32 (R167). -/
def State.hasStore (s : State) : Bool := decide (32 ≤ s.get F.IMG_STORE_SIZE)

/-- Every tile that holds pages and a directory entry: those of the planes, and STREAM tiles until they are placed (R163, R168). -/
def State.storedTiles (s : State) : List Tile :=
  (s.pix.img.planes.map fun p => p.tiles).flatten ++ (s.pix.img.rings.map fun r => r.streams.map fun x => x.2).flatten

/-- Free store pages (R167). -/
def State.storeFree (s : State) : Nat :=
  if s.hasStore then s.get F.IMG_STORE_SIZE * 512 - 12288 - s.storedTiles.foldl (fun n t => n + t.pages) 0 else 0

/-- Free directory entries (R167). -/
def State.dirFree (s : State) : Nat := if s.hasStore then 1048576 - s.storedTiles.length else 0

/-- Fields of a TILE descriptor (Table 6.4). -/
def tdOp (d : Desc) : Nat := leAt d.bytes 12 1
def tdPlane (d : Desc) : Nat := leAt d.bytes 13 1
def tdFlags (d : Desc) : Nat := leAt d.bytes 14 1
def tdCount (d : Desc) : Nat := leAt d.bytes 16 4
def tdHeight (d : Desc) : Nat := leAt d.bytes 20 4

/-- A descriptor of ring `b` that has been fetched and has not completed. -/
def State.openDescs (s : State) (b : Nat) : List Desc := (s.rt b).descs.filter fun d => d.result.isNone

/-- The plane's references: PRINT descriptors of its ring, fetched and not completed (R168). -/
def State.planeRefs (s : State) (b p : Nat) : Nat :=
  ((s.openDescs b).countP fun d => tdOp d == 3 && tdPlane d == p) + (match (s.img b).print with | some q => b2n (isStale q.idx && q.plane == p) | none => 0)

/-- The planes that may be evicted, with the time that ranks each (R168). -/
def State.evictable (s : State) : List (Nat × Nat × Nat) :=
  ((List.range 512).filter fun i =>
    let p := nth s.pix.img.planes i
    !p.tiles.isEmpty && !p.pin && !p.freeing && !p.loading && s.planeRefs (i / 64) (i % 64) == 0).map fun i =>
      let p := nth s.pix.img.planes i
      (p.placed.getD p.loaded, i / 64, i % 64)

/-- The entry with the oldest time. -/
def oldest : List (Nat × Nat × Nat) → Option (Nat × Nat × Nat)
  | [] => none
  | x :: l => match oldest l with
    | none => some x
    | some y => some (if y.1 < x.1 then y else x)

/-- Evict the plane that R168 ranks first, with its count and its event; `false` where none is eligible. -/
def State.evictOne (s : State) : State × Bool :=
  match oldest s.evictable with
  | none => (s, false)
  | some (_, b, p) =>
    let s := s.modPlane b p fun _ => {}
    let s := s.satAdd F.IMG_STORE_EVICT 1
    (s.raise { page := P_IMG, bit := 8, detail := leBytes 1 b ++ leBytes 1 p }, true)

/-- Evict planes until `pages` store pages and `entries` directory entries are free, or none is eligible (R168). -/
def State.makeRoom : Nat → State → Nat → Nat → State
  | 0, s, _, _ => s
  | k + 1, s, pages, entries =>
    if pages ≤ s.storeFree ∧ entries ≤ s.dirFree then s
    else
      let x := s.evictOne
      if x.2 then makeRoom k x.1 pages entries else s

/-! ### Descriptors of TILE rings (R161 to R166) -/

/-- Bytes 24 to 31 of a TILE descriptor (Table 6.4). -/
def tileResult (res errs reps line : Nat) : List Byte := leBytes 1 res ++ leBytes 1 (min 255 errs) ++ leBytes 2 reps ++ leBytes 4 line

/-- A descriptor completes INVALID and its ring stops with DESC. -/
def State.tileInvalid (s : State) (b idx errs reps line : Nat) : State :=
  if isStale idx then s else
  (s.descDone b idx (tileResult 0x0F errs reps line)).ringStop b 3

/-- The image store works: IMG is enabled in an island that runs (R452). -/
def State.imgOn (s : State) : Bool := s.up 3 && s.enabled P_IMG

/-- IMG drains (R452). -/
def State.imgDraining (s : State) : Bool := s.up 3 && s.on (F.S_DRAINING P_IMG)

/-- The reserved bits of a TILE descriptor are 0, its operation is none that is reserved, and its fields are in range (Table 6.4). -/
def tdValid (d : Desc) : Bool :=
  let op := tdOp d
  decide (1 ≤ op) && decide (op ≤ 4) && decide (tdPlane d < 64) && decide (tdFlags d < 8) && decide (leAt d.bytes 15 1 = 0) &&
  (if op = 1 ∨ op = 2 then decide (leAt d.bytes 0 8 % 16 = 0) else decide (leAt d.bytes 0 8 = 0) && decide (leAt d.bytes 8 4 = 0)) &&
  (if op = 1 then decide (1 ≤ tdCount d) && decide (tdCount d ≤ 1048576) else if op = 3 then true else decide (tdCount d = 0)) &&
  (if op = 3 then decide (1 ≤ tdHeight d) && decide (tdHeight d ≤ 4194304) else decide (tdHeight d = 0))

/-- The next LOAD or STREAM of ring `b` that has not been taken, or the next descriptor with a reserved operation: fetching goes in ring order (R161, R168). -/
def State.nextFetch (s : State) (b : Nat) : Option Desc := (s.openDescs b).find? fun d => !d.taken && tdOp d != 3 && tdOp d != 4

/-- The LOAD `d` waits (R162): an earlier PRINT of the ring still references its plane, the plane is FREEING, or an earlier FREE has still to mark it. -/
def State.loadWaits (s : State) (b : Nat) (d : Desc) : Bool :=
  (s.openDescs b).any (fun e => (tdOp e == 3 || (tdOp e == 4 && !e.taken)) && tdPlane e == tdPlane d && (s.rt b).descs.idxOf e < (s.rt b).descs.idxOf d)
    || (match (s.img b).print with | some q => isStale q.idx && q.plane == tdPlane d | none => false) || (s.plane b (tdPlane d)).freeing

/-- Start a fetch: the descriptor is taken and the read of its data begins. -/
def State.startFetch (s : State) (b : Nat) (d : Desc) (stream : Bool) : State :=
  let addr := leAt d.bytes 0 8
  let dram := bit (tdFlags d) 2
  let f : Fetch :=
    { idx := d.idx, stream := stream, plane := tdPlane d, addr := addr, len := leAt d.bytes 8 4, pin := bit (tdFlags d) 0,
      verify := bit (tdFlags d) 1, fromDram := dram, tilesLeft := if stream then 1 else tdCount d, reading := true }
  let s := (s.takeDesc b d.idx).modImg b fun r => { r with fetch := some f }
  let s := if stream then s else s.modPlane b (tdPlane d) fun p => { p with loading := true, pin := p.pin || bit (tdFlags d) 0, runs := p.runs ++ [(d.idx, d.bytes)] }
  let cls := if (nth s.pix.bars b).isSome && (s.dev == .armed || s.dev == .printing) then 3 else 5
  if dram then s else s.emit (.dmaRead cls b addr f.len)

/-- A LOAD that is next to be fetched (R162); a descriptor with a reserved operation is INVALID. -/
def State.tileLoad (s : State) (b : Nat) : State :=
  if !s.imgOn || !s.ringLive b || (s.img b).fetch.isSome || s.pix.img.refetch.any (fun x => x.1 == b) then s else
  match s.nextFetch b with
  | none => s
  | some d =>
    if tdOp d = 2 then s
    else if !tdValid d || !s.hasStore || decide (leAt d.bytes 8 4 < 16) then (s.takeDesc b d.idx).tileInvalid b d.idx 0 0 0
    else if s.loadWaits b d then s
    else s.startFetch b d false

/-- A STREAM that is next to be fetched (R163). -/
def State.tileStream (s : State) (b : Nat) : State :=
  if !s.imgOn || !s.ringLive b || (s.img b).fetch.isSome || s.pix.img.refetch.any (fun x => x.1 == b) then s else
  match s.nextFetch b with
  | none => s
  | some d =>
    if tdOp d = 1 then s
    else if !tdValid d || !s.hasStore || decide (leAt d.bytes 8 4 < 16) then (s.takeDesc b d.idx).tileInvalid b d.idx 0 0 0
    else s.startFetch b d true

/-- The next LOAD of a locket's run log for bar `b` is executed again against this unit's own host memory (R387). -/
def State.refetchNext (s : State) (b : Nat) : State :=
  if !s.imgOn || (s.img b).fetch.isSome then s else
  match s.pix.img.refetch.find? fun x => decide (x.1 = b) with
  | none => s
  | some (_, i, l) =>
    let d : Desc := { idx := i, bytes := l }
    let f : Fetch :=
      { idx := i, plane := tdPlane d, addr := leAt l 0 8, len := leAt l 8 4, verify := bit (tdFlags d) 1, fromDram := bit (tdFlags d) 2,
        tilesLeft := tdCount d, reading := true, locket := true }
    let s := s.modPix fun p => { p with img := { p.img with refetch := p.img.refetch.erase (b, i, l) } }
    let s := s.modImg b fun r => { r with fetch := some f }
    let s := s.modPlane b f.plane fun p => { p with loading := true }
    if f.fromDram then s else s.emit (.dmaRead 5 b f.addr f.len)

/-- A fetch of a locket ends: a failed one fails the locket (R391). -/
def State.refetchEnd (s : State) (b : Nat) (bad : Bool) : State :=
  if bad then s.modPix fun p => { p with img := { p.img with refetchFail := true } } else s.refetchNext b

/-- The fetch of ring `b` ends with a result. -/
def State.endFetch (s : State) (b : Nat) (f : Fetch) (invalid : Bool) : State :=
  let s := s.modImg b fun r => { r with fetch := none }
  let s := if f.stream then s else s.modPlane b f.plane fun p => { p with loading := false, loaded := s.devtime }
  if f.locket then s.refetchEnd b (invalid || decide (f.errs ≠ 0))
  else if invalid then s.tileInvalid b f.idx f.errs 0 0
  else if f.stopping then s.descDone b f.idx (tileResult 0x04 f.errs 0 0)
  else s.descDone b f.idx (tileResult (if f.errs = 0 then 0x01 else 0x02) f.errs 0 0)

/-- A tile error: TILE_ERR_CNT, and TILE_ERR with the column, the row and the cause (R176). -/
def State.tileErr (s : State) (b col row cause : Nat) : State :=
  (s.satAdd F.IMG_TILE_ERR_CNT 1).raise
    { page := P_IMG, bit := 4, bar := some b, detail := leBytes 1 col ++ leBytes 2 row ++ leBytes 1 cause }

/-- How a tile's payload decodes: the raw bytes, the cause of a tile error if any, and the decode cycles (R159, R175 to R177). After
BAD_DATA the rest of the area is written with 0 (R176). -/
def tileRaw (t : Tile) (bad : Bool) : List Byte × Option Nat × Nat :=
  let check (l : List Byte) : Option Nat := if (crc32c l).toNat = t.crc then none else some 1
  if t.kind = 1 then
    let d := decodeTile t.payload t.rawLen
    if bad then (List.replicate t.rawLen 0, some 0, d.2.2)
    else match d.1 with
      | some l => (l, check l, d.2.2)
      | none => (padTo t.rawLen d.2.1, some 0, d.2.2)
  else
    let l := if t.kind = 2 then t.payload else List.replicate t.rawLen (BitVec.ofNat 8 t.fill)
    (l, check l, 0)

/-- Store a tile in its plane: one with the same column and row is replaced (R162). -/
def storeTile (t : Tile) (l : List Tile) : List Tile := l.filter (fun u => !(u.col == t.col && u.row == t.row)) ++ [t]

/-- A read of tile data completes with the bytes from the fetch's present offset on (R162, R163, R168, R170). Bytes that do not yet cover the
tile leave the fetch waiting for more. With SRC_DRAM the bytes come from DRAM. -/
def State.loadRead (s : State) (b : Nat) (data : List Byte) : State :=
  if !(s.imgOn || s.imgDraining) then s else
  match (s.img b).fetch with
  | none => s
  | some f =>
    if !f.reading then s else
    let head := if f.fromDram then s.dramBytes (f.addr + f.off) 16 else data.take 16
    if head.length < 16 then s else
    match s.parseTile b head with
    | none => s.endFetch b f true
    | some t0 =>
      let n := 16 + t0.payBytes
      if f.len < f.off + n then s.endFetch b f true
      else
        let all := if f.fromDram then s.dramBytes (f.addr + f.off) n else data.take n
        if all.length < n then s else
        let t := { t0 with payload := all.drop 16 }
        let s := s.makeRoom 512 t.pages 1
        if s.storeFree < t.pages ∨ s.dirFree < 1 then
          if f.waiting then s
          else
            let s := s.modImg b fun r => { r with fetch := some { f with waiting := true } }
            s.raise { page := P_IMG, bit := if s.storeFree < t.pages then 5 else 6, bar := some b }
        else
          let s := s.tileDigest b f.idx f.ord all
          let s := if f.stream then s.modImg b fun r => { r with streams := r.streams ++ [(f.idx, t)] }
            else s.modPlane b f.plane fun p => { p with tiles := storeTile t p.tiles }
          let x := if f.verify && !f.stream && t.kind == 1 then (tileRaw t false).2.1 else none
          let s := match x with | some c => s.tileErr b t.col t.row c | none => s
          let off := (f.off + n + 15) / 16 * 16
          let g : Fetch := { f with off := off, tilesLeft := f.tilesLeft - 1, ord := f.ord + 1, errs := f.errs + b2n x.isSome, waiting := false, reading := s.imgOn }
          if g.stream then s.modImg b fun r => { r with fetch := none }
          else if g.stopping || decide (g.tilesLeft = 0) then s.endFetch b g false
          else if f.len < off + 16 then s.endFetch b g true
          else s.modImg b fun r => { r with fetch := some g }

/-! ### Bands (R172, R176, R179) -/

/-- Write the raw bytes of a tile into the contone ring, line by line (R152, R172). -/
def State.writeTile (s : State) (b lx : Nat) (t : Tile) (raw : List Byte) : State :=
  let w := s.colWidth b t.col
  foldS (List.range (t.lines w)) (fun l s => s.setDram (s.contoneAddr b (lx + l) (1024 * t.col)) ((raw.drop (w * l)).take w)) s

/-- A completed band: its yield, and DECODE_SLOW if that lies below YIELD_MIN_n; a band without AZD tiles has no yield (R179). -/
def State.bandYield (s : State) (b : Nat) (x : Band) : State :=
  if x.cycles = 0 then s else
  let y := min 0xFFFF (256 * x.bytes / x.cycles)
  let s := s.put (F.IMG_YIELD b) y
  if y < s.get (F.IMG_YIELD_MIN b) then (s.satAdd (F.IMG_SLOW_CNT b) 1).raise { page := P_IMG, bit := 7, bar := some b } else s

/-- Complete the bands at the head of the ring that have no column left: WR_LINE advances over them in order (R172). -/
def State.bandsDone : Nat → State → Nat → State
  | 0, s, _ => s
  | k + 1, s, b =>
    match (s.img b).bands with
    | [] => s
    | x :: l =>
      if x.cols.isEmpty then
        let s := s.modImg b fun r => { r with bands := l, wrLx := x.lx + x.lines }
        let s := s.setReg (R.IMG_WR_LINE b) (BitVec.ofNat 32 (x.lx + x.lines))
        bandsDone k (s.bandYield b x) b
      else s

/-- A column of a band has been written. -/
def State.columnDone (s : State) (b : Nat) (lx col bytes cycles : Nat) : State :=
  (s.modImg b fun r => { r with bands := r.bands.map fun x =>
    if x.lx = lx then { x with cols := x.cols.erase col, bytes := x.bytes + bytes, cycles := x.cycles + cycles } else x }).bandsDone 64 b

/-- The columns of a band. -/
def State.allCols (s : State) (b : Nat) : List Nat := List.range (s.tileCols b)

/-- Open a band of `n` lines at the next line to place. -/
def State.openBand (s : State) (b n : Nat) : State :=
  s.modImg b fun r => { r with bands := r.bands ++ [{ lx := r.nextLx, lines := n, cols := s.allCols b }], nextLx := r.nextLx + n }

/-- Close the band that STREAM descriptors left open: its missing columns are written as 0, and TILE_ERR is raised once with cause 2 and
the first missing column (R164). -/
def State.closeBand (s : State) (b : Nat) : State :=
  match (s.img b).openBand with
  | none => s
  | some (lx, n, col) =>
    let missing := (s.allCols b).filter fun c => col ≤ c
    let s := foldS missing (fun c s => s.writeTile b lx { col := c, rawLen := s.colWidth b c * n } (List.replicate (s.colWidth b c * n) 0)) s
    let s := s.modImg b fun r => { r with openBand := none }
    let s := foldS missing (fun c s => s.columnDone b lx c 0 0) s
    s.tileErr b col 0 2

/-! ### Placement (R163, R164) -/

/-- An earlier PRINT or STREAM of the ring has not completed (R164). -/
def State.placementAhead (s : State) (b idx : Nat) : Bool :=
  ((s.rt b).descs.takeWhile fun d => decide (d.idx ≠ idx)).any fun d => d.result.isNone && (tdOp d == 3 || tdOp d == 2)

/-- The tiles that a PRINT needs are all there with the right heights (R164, Checks). -/
def State.printReady (s : State) (b p height : Nat) : Bool :=
  let rows := (height + 63) / 64
  (List.range rows).all fun r => (s.allCols b).all fun c =>
    (s.plane b p).tiles.any fun t => t.col == c && t.row == r && t.lines (s.colWidth b c) == (if r + 1 < rows then 64 else height - 64 * (rows - 1))

/-- A PRINT that becomes the next placement (R164): an open STREAM band is closed first, once its line slots are released (R174), then the PRINT is checked. -/
def State.tilePrint (s : State) (b : Nat) : State :=
  if !s.imgOn || !s.ringLive b || (s.img b).print.isSome then s else
  match (s.openDescs b).find? fun d => !d.taken && tdOp d == 3 with
  | none => s
  | some d =>
    if s.placementAhead b d.idx then s
    else if ((s.rt b).descs.takeWhile fun e => decide (e.idx ≠ d.idx)).any fun e => e.result.isNone && tdOp e == 1 && tdPlane e == tdPlane d then s
    else if (match (s.img b).openBand with | some (lx, n, _) => !s.slotFree b (lx + n - 1) | none => false) then s
    else
      let s := (s.takeDesc b d.idx).closeBand b
      if !tdValid d || !s.printReady b (tdPlane d) (tdHeight d) then s.tileInvalid b d.idx 0 0 0
      else
        let lx := (s.img b).nextLx
        s.modImg b fun r => { r with print := some { idx := d.idx, plane := tdPlane d, height := tdHeight d, count := tdCount d, passLx := lx, firstLx := lx } }

/-- The tile of a plane at a row and column. -/
def State.planeTile (s : State) (b p row col : Nat) : Option Tile := (s.plane b p).tiles.find? fun t => t.row == row && t.col == col

/-- The next tile of ring `b` to be placed, in placement order, with the state after its dispatch: a tile of the PRINT in placement, or the
oldest STREAM tile once no earlier placement is open. Nothing is dispatched into a line slot that screening has not released (R173). A
STREAM tile that does not continue the open band completes INVALID and stops the ring (R163); the answer then holds no tile. -/
def State.nextTile (s : State) (b : Nat) : Option TileJob × State :=
  let r := s.img b
  match r.print with
  | some p =>
    if !s.imgOn || decide ((p.height + 63) / 64 ≤ p.row) then (none, s) else
    let lx := p.passLx + 64 * p.row
    let lines := min 64 (p.height - 64 * p.row)
    if !s.slotFree b lx then (none, s) else
    match s.planeTile b p.plane p.row p.col with
    | none => (none, s)
    | some t =>
      let s := if p.col = 0 then s.openBand b lines else s
      let last := decide (s.tileCols b ≤ p.col + 1)
      let s := s.modImg b fun r => { r with print := some { p with row := if last then p.row + 1 else p.row, col := if last then 0 else p.col + 1 } }
      (some { bar := b, lx := lx, tile := t, desc := p.idx }, s)
  | none =>
    match r.streams with
    | [] => (none, s)
    | (idx, t) :: rest =>
      if !(s.imgOn || s.imgDraining) then (none, s)
      else if ((s.rt b).descs.takeWhile fun d => decide (d.idx ≠ idx)).any fun d => d.result.isNone && tdOp d == 3 then (none, s)
      else
        let lines := t.lines (s.colWidth b t.col)
        let want := match r.openBand with | none => (0, lines, r.nextLx) | some (lx, n, c) => (c, n, lx)
        if t.col ≠ want.1 ∨ lines ≠ want.2.1 then (none, (s.modImg b fun r => { r with streams := rest }).tileInvalid b idx 0 0 0)
        else if !s.slotFree b want.2.2 then (none, s)
        else
          let s := if t.col = 0 then s.openBand b lines else s
          let s := s.modImg b fun r => { r with streams := rest, openBand := if s.tileCols b ≤ t.col + 1 then none else some (want.2.2, lines, t.col + 1) }
          (some { bar := b, lx := want.2.2, tile := t, desc := idx }, s)

/-- A tile's data is in the ring: errors are counted under its descriptor, the column is complete, and a STREAM completes (R163, R176). -/
def State.tilePlaced (s : State) (j : TileJob) (bad : Bool) : State :=
  let b := j.bar
  let x := tileRaw j.tile bad
  let s := s.writeTile b j.lx j.tile x.1
  let s := match x.2.1 with | some c => s.tileErr b j.tile.col j.tile.row c | none => s
  let n := b2n x.2.1.isSome
  let s := s.modImg b fun r => { r with print := r.print.map fun p => if p.idx = j.desc then { p with errs := p.errs + n } else p }
  let s := s.columnDone b j.lx j.tile.col (if j.tile.kind = 1 then j.tile.rawLen else 0) x.2.2
  match (s.rt b).descs.find? fun d => decide (d.idx = j.desc) && tdOp d == 2 with
  | some d => s.descDone b d.idx (tileResult (if n = 0 then 0x01 else 0x02) n 0 (j.lx % 2 ^ 32))
  | none =>
    match (s.img b).print with
    | some p => s.modPlane b p.plane fun q => { q with placed := some s.devtime }
    | none => s

/-- A PRINT ends: bytes 24 to 31 carry the result, errors, repeats and first line (Table 6.4). -/
def State.endPrint (s : State) (b res : Nat) (p : Print) : State :=
  (s.modImg b fun r => { r with print := none }).descDone b p.idx (tileResult res p.errs (p.done % 2 ^ 16) (p.firstLx % 2 ^ 32))

/-- A PRINT finishes a pass once every tile of it is in the ring (R164): it completes after COUNT passes, or SUPERSEDED at the end of a pass
when a later placement has been fetched, or else goes on with the next pass on the next line. -/
def State.passEnd (s : State) (b : Nat) : State :=
  match (s.img b).print with
  | none => s
  | some p =>
    if p.row < (p.height + 63) / 64 ∨ (s.img b).wrLx < p.passLx + p.height then s
    else
      let p := { p with done := p.done + 1 }
      let later := (if isStale p.idx then (s.rt b).descs else ((s.rt b).descs.dropWhile fun d => decide (d.idx ≠ p.idx)).drop 1).any fun d => tdOp d == 2 || tdOp d == 3
      if p.count = 0 then
        if later then s.endPrint b 0x03 p
        else s.modImg b fun r => { r with print := some { p with row := 0, col := 0, passLx := p.passLx + p.height } }
      else if p.done < p.count then s.modImg b fun r => { r with print := some { p with row := 0, col := 0, passLx := p.passLx + p.height } }
      else s.endPrint b (if p.errs = 0 then 0x01 else 0x02) p

/-! ### FREE and the release of planes (R165) -/

/-- A FREE: the pin is cleared and the plane FREEING; of an empty plane it completes at once. It waits for earlier LOADs of its ring into
the plane (log entry 22). -/
def State.tileFree (s : State) (b : Nat) : State :=
  if !s.imgOn || !s.ringLive b then s else
  match (s.openDescs b).find? fun d => !d.taken && tdOp d == 4 with
  | none => s
  | some d =>
    if ((s.rt b).descs.takeWhile fun e => decide (e.idx ≠ d.idx)).any fun e => e.result.isNone && tdOp e == 1 && tdPlane e == tdPlane d then s
    else
      let s := s.takeDesc b d.idx
      if !tdValid d then s.tileInvalid b d.idx 0 0 0
      else
        let s := s.modPlane b (tdPlane d) fun p => { p with pin := false }
        if (s.plane b (tdPlane d)).tiles.isEmpty then s.descDone b d.idx (tileResult 0x01 0 0 0)
        else s.modPlane b (tdPlane d) fun p => { p with freeing := true }

/-- A FREEING plane that no earlier PRINT references is released, and its FREE completes (R165). -/
def State.planeRelease (s : State) (b p : Nat) : State :=
  if !s.imgOn || !(s.plane b p).freeing || (match (s.img b).print with | some q => isStale q.idx && q.plane == p | none => false) then s else
  match (s.rt b).descs.find? fun d => d.taken && d.result.isNone && tdOp d == 4 && tdPlane d == p with
  | none => s.modPlane b p fun _ => {}
  | some d =>
    if ((s.rt b).descs.takeWhile fun e => decide (e.idx ≠ d.idx)).any fun e => e.result.isNone && tdOp e == 3 && tdPlane e == p then s
    else (s.modPlane b p fun _ => {}).descDone b d.idx (tileResult 0x01 0 0 0)

/-! ### Lanes and the copy engine (R173 to R176) -/

/-- Every line slot that the tile fills has been released (R174). -/
def State.tileSlots (s : State) (j : TileJob) : Bool :=
  s.slotFree j.bar (j.lx + j.tile.lines (s.colWidth j.bar j.tile.col) - 1)

/-- The holder of lane `k` of the pool. -/
def State.laneHolder (s : State) (k : Nat) : Option Req := (s.arb 2).holders.find? fun q => decide (q.lane = k)

/-- Change the holder of a lane. -/
def State.modHolder (s : State) (q q' : Req) : State :=
  s.setArb 2 { s.arb 2 with holders := (s.arb 2).holders.map fun h => if h = q then q' else h }

/-- Set since when a lane lingers. -/
def State.setLinger (s : State) (k : Nat) (t : Option Nat) : State :=
  s.modPix fun p => { p with img := { p.img with lanes := updNth p.img.lanes k fun l => { l with linger := t } } }

/-- A lane ends its work: it gives the grant back and lingers with its carats, or releases them and asks again later if the budget is
exceeded (R339, R340). -/
def State.laneEnd (s : State) (q : Req) : State :=
  let s := (s.arbDone 2 q).setLinger q.lane (some s.devtime)
  if s.get F.CRT_CORE_STAT_EFF < baseReserve + s.get F.CRT_CORE_STAT_GRANTED then (s.caratRelease 1 q.lane).setLinger q.lane none else s

/-- A decoder lane finishes a tile (R176), or stalls because a line slot that it needs is not released (R174). A lane without carats does not
run (R337). -/
def State.tileDecoded (s : State) (k : Nat) : State :=
  match s.laneHolder k with
  | none => s
  | some q =>
    match q.work with
    | .tile j =>
      if !s.holdsCarats 1 k || q.stallFrom.isSome then s
      else if s.tileSlots j then (s.laneEnd q).tilePlaced j q.bad
      else s.modHolder q { q with stallFrom := some s.devtime }
    | _ => s

/-- The copy engine finishes the next RAW or FILL tile of ring `b` (R175), or stalls on it (R174). -/
def State.tileCopied (s : State) (b : Nat) : State :=
  let finish (s : State) (j : TileJob) : State :=
    if s.tileSlots j then (s.modPix fun p => { p with img := { p.img with copy := none } }).tilePlaced j false
    else s.modPix fun p => { p with img := { p.img with copy := some j, copyStalled := true } }
  match s.pix.img.copy with
  | some j => if j.bar = b ∧ !s.pix.img.copyStalled then finish s j else s
  | none =>
    match s.nextTile b with
    | (some j, s') => if j.tile.kind = 1 then s else finish s' j
    | (none, s') => s'

/-- A stalled lane, or the copy engine (32), goes on: the line slots it waited for have been released (R174). Stalled time does not count
towards MAX_HOLD. -/
def State.stallResume (s : State) (k : Nat) : State :=
  if k = 32 then
    match s.pix.img.copy with
    | some j => if s.tileSlots j then s.modPix fun p => { p with img := { p.img with copyStalled := false } } else s
    | none => s
  else match s.laneHolder k with
    | some q =>
      match q.work, q.stallFrom with
      | .tile j, some t =>
        if s.tileSlots j then s.modHolder q { q with stallFrom := none, stalled := q.stalled + (s.devtime - t) } else s
      | _, _ => s
    | none => s

/-! ### The end of placement (R166, R169, R201) -/

/-- Lanes and the copy engine abandon the tiles of bar `b`. -/
def State.abandonTiles (s : State) (b : Nat) : State :=
  let isTile (q : Req) : Bool := match q.work with | .tile j => decide (j.bar = b) | _ => false
  let lanes := ((s.arb 2).holders.filter isTile).map fun q => q.lane
  let s := s.arbWithdraw 2 isTile
  let s := foldS lanes (fun k s => s.setLinger k (some s.devtime)) s
  s.modPix fun p => { p with img := { p.img with copy := if p.img.copy.any (fun j => decide (j.bar = b)) then none else p.img.copy } }

/-- Every placement of ring `b` that has been fetched completes STOPPED, the one in progress at the point it has reached (R166). -/
def State.stopPlacements (s : State) (b : Nat) : State :=
  let s := s.abandonTiles b
  let s := match (s.img b).print with | some p => s.endPrint b 0x04 p | none => s
  let open_ := (s.openDescs b).filter fun d => tdOp d == 2 || tdOp d == 3
  let s := s.modImg b fun r => { r with streams := [], fetch := match r.fetch with | some f => if f.stream then none else some f | none => none }
  foldS open_ (fun d s => s.descDone b d.idx (tileResult 0x04 0 0 0)) s

/-- A job that includes bar `b` has ended: placement goes on at the first multiple of 64 above the highest line placed or begun; lines beyond
the job's end are discarded, and every line of the job is released (R166, R201, R204). -/
def State.imgJobEnd (s : State) (b : Nat) : State :=
  let s := s.stopPlacements b
  let n := (s.img b).nextLx
  let next := if n = 0 then 0 else ((n - 1) / 64 + 1) * 64
  let s := s.modImg b fun r => { r with bands := [], openBand := none, nextLx := next, wrLx := next, relLx := next, fetchLx := next, jobLx := next }
  s.setReg (R.IMG_WR_LINE b) (BitVec.ofNat 32 next)

/-- TILE ring `b` is disabled (R166): placements complete STOPPED, a LOAD after the read that is outstanding, and a FREE once its plane is
released, which no PRINT holds back any more. -/
def State.tileRingOff (s : State) (b : Nat) : State :=
  let s := s.stopPlacements b
  let s := match (s.img b).fetch with
    | some f => if f.reading && !f.waiting then s.modImg b fun r => { r with fetch := some { f with stopping := true } } else s.endFetch b { f with stopping := true } false
    | none => s
  let rest := (s.openDescs b).filter fun d => !d.taken
  let s := foldS (rest.filter fun d => tdOp d == 1) (fun d s => s.descDone b d.idx (tileResult 0x04 0 0 0)) s
  foldS (rest.filter fun d => tdOp d == 4) (fun d s =>
    (s.modPlane b (tdPlane d) fun _ => {}).descDone b d.idx (tileResult 0x01 0 0 0)) s

/-- IMG runs again: fetches that draining interrupted read the rest of their data (R452). -/
def State.imgResume (s : State) : State :=
  foldS (List.range 8) (fun b s => match (s.img b).fetch with
    | some f =>
      if f.reading || !(f.locket || s.ringLive b) then s
      else
        let s := s.modImg b fun r => { r with fetch := some { f with reading := true } }
        if f.fromDram then s else s.emit (.dmaRead 5 b (f.addr + f.off) (f.len - f.off))
    | none => s) s

/-- A reset clears PIX while HOST is kept: every TILE descriptor fetched and not completed completes STOPPED (R169). -/
def State.tileReset (s : State) (b : Nat) : State :=
  foldS (s.openDescs b) (fun d s => s.descDone b d.idx (tileResult 0x04 0 0 0)) s

end Sys2Proof.Machine
end

