-- ==== Sys2Proof/Machine/Codec.lean ====
section
/-!
DEFINITION. Sys2Proof/Machine/Codec.lean: codec job mode (R180 to R185): jobs taken from the CODEC rings, their results, contexts parked
and resumed, and completion records.
-/
namespace Sys2Proof.Machine

open Sys2Proof

/-- Fields of a CODEC descriptor (Table 6.8). -/
def cdSrc (d : Desc) : Nat := leAt d.bytes 0 8
def cdDst (d : Desc) : Nat := leAt d.bytes 8 8
def cdSrcLen (d : Desc) : Nat := leAt d.bytes 16 3
def cdDstLen (d : Desc) : Nat := leAt d.bytes 19 3
def cdOp (d : Desc) : Nat := leAt d.bytes 22 1 % 16
def cdSlot (d : Desc) : Nat := leAt d.bytes 22 1 / 16
def cdFlags (d : Desc) : Nat := leAt d.bytes 23 1

/-- Statuses of a completion record (Table 6.9). -/
def csOk : Nat := 0
def csOutFull : Nat := 1
def csNoGain : Nat := 2
def csBadData : Nat := 3
def csCrcErr : Nat := 4
def csBadContext : Nat := 5
def csCtxBusy : Nat := 6
def csFetch : Nat := 7
def csInvalid : Nat := 8
def csDiscarded : Nat := 9

/-- What the codec holds for ring 8 + `k`. -/
def State.codec (s : State) (k : Nat) : CodecRing := nth s.pix.img.codec k

/-- Change what the codec holds for ring 8 + `k`. -/
def State.modCodec (s : State) (k : Nat) (f : CodecRing → CodecRing) : State :=
  s.modPix fun p => { p with img := { p.img with codec := updNth p.img.codec k f } }

/-- The context parked in a slot. -/
def State.parked (s : State) (k slot : Nat) : Option Parked := nth (s.codec k).slots slot

/-- Park a context in a slot, or free the slot; a context parked takes the next 16-bit generation (R185). -/
def State.setParked (s : State) (k slot : Nat) (p : Option Parked) : State :=
  s.modCodec k fun c =>
    { c with slots := updNth c.slots slot fun _ => p, gens := if p.isSome then updNth c.gens slot fun g => (g + 1) % 0x10000 else c.gens }

/-- `n` fresh free bytes (log entry 6). -/
def State.freshBytes (s : State) (n : Nat) : List Byte × State :=
  ((List.range n).map fun i => Config.freeByte (s.free + i), { s with free := s.free + n })

/-- The input of a decode from its first bit on (SRC_BITOFF, Table 6.8). -/
def fromBit (off : Nat) (l : List Byte) : List Byte := if off = 0 then l else bytesOfBits ((bitsOfBytes l).drop off)

/-- The fields of a tile header that do not depend on a bar hold what an AZD tile has (Table 6.1). -/
def azdHeader (l : List Byte) : Bool :=
  decide (leAt l 0 2 = 0x5A41) && decide (leAt l 2 1 = 0x11) && decide (leAt l 3 1 < 8) && decide (leAt l 7 1 = 0)

/-- A job that reads its input: what its descriptor and its operation require of it (R181, R183; log entry 109). -/
def jobInvalid (d : Desc) (input : List Byte) (res : Option Parked) : Bool :=
  let op := match res with | some p => p.op | none => cdOp d
  let tile := fromBit (cdFlags d % 8) input
  decide (32 ≤ cdFlags d) ||
  (decide (op = 1 ∨ op = 2) && decide (cdFlags d % 8 ≠ 0)) ||
  (decide (op = 1) &&
    (decide (cdDstLen d < cdSrcLen d) || decide (cdSrcLen d < 17) || decide (leAt input 8 2 + 1 + 16 ≠ cdSrcLen d) || !azdHeader input)) ||
  (decide (op = 3) &&
    (!azdHeader tile || decide (leAt tile 10 2 = 0) || decide (leAt tile 8 2 < leAt tile 10 2) || decide (cdDstLen d < leAt tile 8 2 + 1))) ||
  (match res with
    | some p => if p.op = 2 then decide (cdSrcLen d ≠ p.inputLeft) else decide (cdSrcLen d = 0)
    | none => decide (cdSrcLen d = 0))

/-- The CODEC ring `8 + k` takes its next descriptor, if that is for the operation `op` or for none that exists: the checks of R181 and R185
fix the status of a job that does not run. `host` is the input read from host memory, `ctx` the 64 bytes of the context area. -/
def State.codecTake (s : State) (k op : Nat) (host ctx : List Byte) : State :=
  if !(s.up 3 && s.enabled P_CDC) || (s.codec k).job.isSome then s else
  match s.nextDesc (8 + k) with
  | none => s
  | some d =>
    let reserved := decide (cdOp d = 0) || decide (6 < cdOp d)
    if !reserved && cdOp d != op then s
    else
      let n := cdSrcLen d
      let dram := bit (cdFlags d) 3
      let input := if dram then s.dramBytes (cdSrc d) n else padTo n host
      let parked := s.parked k (cdSlot d)
      let res := if op = 5 then (match parked with | some p => if p.bytes = ctx then some p else none | none => none) else none
      let fixed : Option Nat :=
        if reserved then some csInvalid
        else if op = 6 then some csDiscarded
        else if op = 5 ∧ res.isNone then some csBadContext
        else if op ≠ 5 ∧ parked.isSome then some csCtxBusy
        else if jobInvalid d input res then some csInvalid
        else none
      let s := s.takeDesc (8 + k) d.idx
      let s := if dram || fixed.isSome then s else s.emit (.dmaRead 5 (8 + k) (cdSrc d) n)
      s.modCodec k fun c =>
        { c with job := some { idx := d.idx, op := cdOp d, slot := cdSlot d, dst := cdDst d, dstLen := cdDstLen d, dstDram := bit (cdFlags d) 4,
                               bitOff := cdFlags d % 8, input := input, resume := res, fixed := fixed } }

/-- What a job comes to: status, operation carried out, output bytes, input bits, context left, raw bytes and cycles so far, the running
CRC, and TOTAL_OUT. -/
structure JobEnd where
  status : Nat
  op : Nat
  out : List Byte := []
  inBits : Nat := 0
  ctx : Option Parked := none
  rawLen : Nat := 0
  cycles : Nat := 0
  crc : Nat := 0
  total : Nat := 0
  /-- NO_GAIN: bytes that the job had written at DST, which are undefined now (R184). -/
  lost : Nat := 0

/-- MEAN_STRING: the yield of the data so far in 1/256 byte per cycle (R177, Table 6.9). -/
def JobEnd.mean (j : JobEnd) : Nat := min 0xFFFF (256 * j.rawLen / (8 + j.cycles))

/-- The running CRC of more raw data, without the final XOR. -/
def crcMore (c : BitVec 32) (l : List Byte) : BitVec 32 := l.foldl crc32cByte c

/-- The CRC value of a running CRC. -/
def crcValue (c : BitVec 32) : Nat := (c ^^^ 0xFFFFFFFF#32).toNat

/-- The clear policy in force (Table 6.2). -/
def State.encPolicy (s : State) : EncPolicy :=
  { mode := s.get F.CDC_ENC_POLICY_MODE, window := s.get F.CDC_ENC_POLICY_WINDOW, minString := s.get F.CDC_ENC_POLICY_MIN_STRING }

/-- An ENCODE_TILE job: a whole AZD tile, or NO_GAIN (R181, R184). -/
def runEncodeTile (p : EncPolicy) (j : CodecJob) : JobEnd :=
  let raw := j.input.drop 16
  let r := azdEncode (raw.length + 1) p {} raw (8 * raw.length + 64) 0 raw.length 0
  let pay := bytesOfBitsPad r.enc.bits
  let crc := crcMore 0xFFFFFFFF#32 raw
  match r.ending with
  | .ok =>
    let out := j.input.take 10 ++ leBytes 2 pay.length ++ leBytes 4 (crcValue crc) ++ pay
    { status := csOk, op := 1, out := out, inBits := 8 * j.input.length, rawLen := raw.length, cycles := r.enc.cycles, crc := crcValue crc, total := out.length }
  | _ => { status := csNoGain, op := 1, inBits := 8 * (16 + r.used), rawLen := r.used, cycles := r.enc.cycles, crc := crcValue (crcMore 0xFFFFFFFF#32 (raw.take r.used)), lost := 16 + r.enc.bits.length / 8 }

/-- An ENCODE_STREAM job or its continuation (R182 to R184). -/
def runEncodeStream (p : EncPolicy) (j : CodecJob) : JobEnd :=
  let c : Parked := j.resume.getD { op := 2, firstLen := j.input.length }
  let e : AzdEnc := { i := c.pos, dict := c.dict, last := c.last, bits := c.bits, cycles := c.cycles, winCodes := c.winCodes, winBytes := c.winBytes }
  let r := azdEncode (j.input.length + 1) p e j.input j.dstLen c.totalOut c.firstLen 0
  let crc := crcMore c.crc (j.input.take r.used)
  let base : JobEnd :=
    { status := csNoGain, op := 2, inBits := 8 * r.used, rawLen := c.rawLen + r.used, cycles := r.enc.cycles, crc := crcValue crc, total := c.totalOut }
  match r.ending with
  | .ok =>
    let out := bytesOfBitsPad r.enc.bits
    { base with status := csOk, out := out, total := c.totalOut + out.length }
  | .full =>
    let out := bytesOfBits r.enc.bits
    let total := c.totalOut + out.length
    { base with
      status := csOutFull, out := out, total := total
      ctx := some { c with pos := r.enc.i, dict := r.enc.dict, last := r.enc.last, bits := r.enc.bits.drop (8 * out.length), cycles := r.enc.cycles,
                           winCodes := r.enc.winCodes, winBytes := r.enc.winBytes, totalOut := total, rawLen := c.rawLen + r.used, crc := crc,
                           inputLeft := j.input.length - r.used } }
  | .noGain => { base with lost := r.enc.bits.length / 8 }

/-- A DECODE_TILE job (R159, R181). -/
def runDecodeTile (j : CodecJob) : JobEnd :=
  let tile := fromBit j.bitOff j.input
  let raw := leAt tile 8 2 + 1
  let pay := leAt tile 10 2
  let d := decodeTile ((tile.drop 16).take pay) raw
  let crc := (crc32c d.2.1).toNat
  let st := match d.1 with | none => csBadData | some _ => if crc = leAt tile 12 4 then csOk else csCrcErr
  { status := st, op := 3, out := d.2.1, inBits := 8 * (16 + pay), rawLen := d.2.1.length, cycles := d.2.2 - 8, crc := crc, total := d.2.1.length }

/-- A DECODE_STREAM job or its continuation, in mid-string (R182, R183). -/
def runDecodeStream (j : CodecJob) : JobEnd :=
  let c : Parked := j.resume.getD { op := 4 }
  let held := c.rest.take j.dstLen
  let d : AzdDec := { i := c.pos, dict := c.dict, prev := c.last, cycles := c.cycles }
  let bits := (bitsOfBytes j.input).drop j.bitOff
  let r : AzdResult :=
    if j.dstLen < c.rest.length then ⟨.full, [], 0, { d with rest := c.rest.drop j.dstLen }⟩
    else azdDecode (bits.length + 1) d bits (j.dstLen - held.length) 0
  let out := held ++ r.out
  let crc := crcMore c.crc out
  let total := c.totalOut + out.length
  let base : JobEnd :=
    { status := csBadData, op := 4, out := out, inBits := r.used, rawLen := c.rawLen + out.length, cycles := r.dec.cycles, crc := crcValue crc, total := total }
  match r.ending with
  | .stop => { base with status := csOk }
  | .full =>
    { base with
      status := csOutFull
      ctx := some { c with pos := r.dec.i, dict := r.dec.dict, last := r.dec.prev, rest := r.dec.rest, cycles := r.dec.cycles, totalOut := total,
                           rawLen := c.rawLen + out.length, crc := crc } }
  | _ => base

/-- What the job of ring 8 + `k` comes to. -/
def State.runJob (s : State) (j : CodecJob) (fetchErr : Bool) : JobEnd :=
  match j.fixed with
  | some st => { status := st, op := j.op }
  | none =>
    let op := match j.resume with | some p => p.op | none => j.op
    if fetchErr then { status := csFetch, op := op }
    else if op = 1 then runEncodeTile s.encPolicy j
    else if op = 2 then runEncodeStream s.encPolicy j
    else if op = 3 then runDecodeTile j
    else runDecodeStream j

/-- The pool lane that the decode job of ring 8 + `k` holds. -/
def State.codecLane (s : State) (k : Nat) : Option Req :=
  (s.arb 2).holders.find? fun q => match q.work with | .codec i => decide (i = k) | _ => false

/-- A job may end: it has a fixed status, or it is a decode on a lane with carats, or an encode with its carats (R337). -/
def State.jobCanEnd (s : State) (k : Nat) (j : CodecJob) : Bool :=
  if j.fixed.isSome then true
  else
    let op := match j.resume with | some p => p.op | none => j.op
    if op = 1 ∨ op = 2 then s.holdsCarats 6 k
    else match s.codecLane k with | some q => s.holdsCarats 5 q.lane | none => false

/-- The completion record of Table 6.9. -/
def jobRecord (j : CodecJob) (e : JobEnd) (now : Nat) : List Byte :=
  leBytes 4 j.idx ++ leBytes 1 e.status ++ leBytes 1 (e.op + 16 * j.slot) ++ leBytes 2 e.mean ++ leBytes 4 e.inBits ++ leBytes 4 e.out.length
    ++ leBytes 4 e.total ++ leBytes 4 e.crc ++ leBytes 8 now

/-- Write bytes to host memory or to DRAM. -/
def State.writeOut (s : State) (dram : Bool) (a : Nat) (l : List Byte) : State :=
  if l.isEmpty then s else if dram then s.setDram a l else s.hostWrite a l

/-- The job of ring 8 + `k` ends (R182, R184, R185): output (free bytes where a job that ends NO_GAIN had written), then the context and the parked dictionary, then the record and the descriptor;
the counters and events of Table 6.10. INVALID stops the ring with DESC, FETCH with FETCH. -/
def State.codecComplete (s : State) (k : Nat) : State :=
  match (s.codec k).job with
  | none => s
  | some j =>
    if !s.jobCanEnd k j then s else
    let lane := s.codecLane k
    let e := s.runJob j j.bad
    if !s.dmaOk && (e.ctx.isSome || (!j.dstDram && (!e.out.isEmpty || decide (e.lost ≠ 0)))) then s else
    let lost := s.freshBytes e.lost
    let s := lost.2.writeOut j.dstDram j.dst (e.out ++ lost.1)
    let s := match e.ctx with
      | some c =>
        let f := s.freshBytes 64
        (f.2.setParked k j.slot (some { c with bytes := f.1 })).hostWrite (s.get64 (R.CDC_CTX_BASE_LO k) + 64 * j.slot) f.1
      | none => if e.status ≤ csCrcErr ∨ e.status = csDiscarded then s.setParked k j.slot none else s
    let s := match lane with | some q => s.laneEnd q | none => s
    let s := s.modCodec k fun c => { c with job := none }
    let s := s.wrapAdd (F.CDC_JOBS k) 1
    let s := s.satAdd F.CDC_NOGAIN_CNT (b2n (e.status == csNoGain))
    let s := s.satAdd F.CDC_BADDATA_CNT (b2n (e.status == csBadData || e.status == csCrcErr))
    let s := s.satAdd F.CDC_CTXERR_CNT (b2n (e.status == csBadContext || e.status == csCtxBusy))
    let s := s.putRecord (12 + k) (jobRecord j e s.devtime)
    let s := s.descDone (8 + k) j.idx (leBytes 1 e.status ++ [0] ++ leBytes 2 e.mean ++ leBytes 4 e.out.length)
    let d := leBytes 1 (8 + k) ++ leBytes 4 j.idx
    let s := if e.status = csBadData ∨ e.status = csCrcErr ∨ e.status = csFetch ∨ e.status = csInvalid then s.raise { page := P_CDC, bit := 4, detail := d }
      else if e.status = csBadContext ∨ e.status = csCtxBusy then s.raise { page := P_CDC, bit := 5, detail := d } else s
    if e.status = csInvalid then s.ringStop (8 + k) 3 else if e.status = csFetch then s.ringStop (8 + k) 2 else s

end Sys2Proof.Machine
end

