-- ==== Sys2Proof/Machine/Dram.lean ====
section
/-!
DEFINITION. Sys2Proof/Machine/Dram.lean: the DRAM controller (R315 to R335): the mapping of data offsets, accesses with the check cache,
refresh, row disturbance, errors, initialisation and the results of training.
-/
namespace Sys2Proof.Machine

open Sys2Proof

/-! ### Mapping (R316) -/

/-- The number of channels in the interleave: 16, or 8 when REDUCED. -/
def State.chCount (s : State) : Nat := if s.on F.MEM_STAT_REDUCED then 8 else 16

/-- log2 of the number of channels. -/
def State.chLog (s : State) : Nat := if s.on F.MEM_STAT_REDUCED then 3 else 4

/-- The hash of a granule index that selects the channel. -/
def chHash (n g : Nat) : Nat := (g ^^^ g / 2 ^ 8 ^^^ g / 2 ^ 16) % n

/-- The channel of a data offset: the h-th set bit of CH_MAP.USED. -/
def State.dramCh (s : State) (a : Nat) : Nat := nth (bitsOf (s.get F.MEM_CH_MAP_USED) 16) (chHash s.chCount (a / 64))

/-- The granule index of a data offset within its channel. -/
def State.dramG (s : State) (a : Nat) : Nat := a / 64 / 2 ^ s.chLog

/-- The group of seven data granules that share a check granule. -/
def State.dramGroup (s : State) (a : Nat) : Nat := s.dramG a / 7

/-- The bank of a data offset, numbered 16 × channel + bank. -/
def State.dramBank (s : State) (a : Nat) : Nat := 16 * s.dramCh a + s.dramGroup a % 16

/-- The row of a group in its bank: slots of 64 bytes, 32 to a row of 2 KiB (R315, R324). -/
def groupRow (grp : Nat) : Nat := grp / 64

/-- The data granules (data offset divided by 64) of group `grp` of the channel that comes `h`-th in the interleave. -/
def State.groupGranules (s : State) (h grp : Nat) : List Nat :=
  let n := s.chCount
  (List.range 7).map fun k =>
    let base := (7 * grp + k) * n
    base + ((h ^^^ base / 2 ^ 8 ^^^ base / 2 ^ 16) % n)

/-- The usable capacity in bytes. -/
def State.dramSize (s : State) : Nat := s.get F.MEM_STAT_USABLE_2M * 0x200000

/-! ### Row disturbance (R324) -/

/-- The entry of a full table that is evicted: the lowest count, and the lowest entry number among equals. -/
def lowestRow : List (Nat × Nat) → Nat → Option (Nat × Nat × Nat)
  | [], _ => none
  | (r, c) :: l, i =>
    match lowestRow l (i + 1) with
    | none => some (i, r, c)
    | some (j, r', c') => if c' < c then some (j, r', c') else some (i, r, c)

/-- Count an activate of a row of a bank, and schedule a neighbour refresh when its count reaches the threshold. -/
def State.activate (s : State) (bank row : Nat) : State :=
  let ch := bank / 16
  let t := nth s.mem.rows bank
  let known := t.any fun e => e.1 == row
  let past := !known && decide (16 ≤ t.length)
  let t' :=
    if known then t.map fun e => if e.1 = row then (row, e.2 + 1) else e
    else if past then
      match lowestRow t 0 with
      | some (i, _, c) => updNth t i fun _ => (row, c + 1)
      | none => t
    else t ++ [(row, 1)]
  let hit := t'.any fun e => e.1 == row && decide (s.mem.thr ≤ e.2)
  let t' := if hit then t'.map fun e => if e.1 = row then (row, 0) else e else t'
  let s := s.modMem fun m => { m with rows := updNth m.rows bank fun _ => t', neighbour := if hit then m.neighbour ++ [(bank, row)] else m.neighbour }
  let s := if hit then (s.satAdd F.MEM_RD_ACTIONS 1).satAdd (F.MCH_RD_ACT_ACTIONS ch) 1 else s
  if past then
    let s := (s.satAdd F.MEM_RD_OVERFLOW 1).satAdd (F.MCH_RD_ACT_OVERFLOWS ch) 1
    if s.mem.overflowed.contains ch then s
    else (s.modMem fun m => { m with overflowed := ch :: m.overflowed }).raise
      { page := P_MEM, bit := 7, detail := leBytes 1 ch ++ leBytes 1 (bank % 16) }
  else s

/-- A refresh window starts: the tables are cleared and a new threshold applies. -/
def State.rdWindow (s : State) : State :=
  s.modMem fun m => { m with rows := List.replicate 256 [], thr := s.get F.MEM_RD_CFG, overflowed := [] }

/-! ### Refresh (R321, R322) -/

/-- An access to the bank waits at the front end. -/
def State.bankWaiting (s : State) (bank : Nat) : Bool :=
  s.mem.arb.waiting.any fun q => match q.work with | .access a _ _ _ => decide (s.dramBank a = bank) | _ => false

/-- An access to the bank is in progress. -/
def State.bankBusy (s : State) (bank : Nat) : Bool :=
  s.mem.arb.holders.any fun q => match q.work with | .access a _ _ _ => decide (s.dramBank a = bank) | _ => false

/-- A bank's postponed count. -/
def State.postponed (s : State) (bank : Nat) : Nat := nth s.mem.postponed bank

/-- Set a bank's postponed count; PEAK keeps the channel's largest. -/
def State.setPostponed (s : State) (bank n : Nat) : State :=
  (s.modMem fun m => { m with postponed := updNth m.postponed bank fun _ => n }).peak (F.MCH_REFRESH_PEAK (bank / 16)) n

/-- A forced refresh is issued; it leaves the count at 7. -/
def State.forcedRefresh (s : State) (bank : Nat) : State :=
  (s.setPostponed bank (s.postponed bank - 1)).satAdd (F.MCH_REFRESH_FORCED (bank / 16)) 1

/-- The gap after an access: at most one operation that is no request takes the bank, a forced refresh before a neighbour refresh before a
due refresh, and a due refresh only while no access waits (R322, log entry 23). -/
def State.bankGap (s : State) (bank : Nat) : State :=
  if 8 ≤ s.postponed bank then s.forcedRefresh bank
  else match s.mem.neighbour.find? fun e => decide (e.1 = bank) with
    | some e => s.modMem fun m => { m with neighbour := m.neighbour.erase e }
    | none =>
      if s.postponed bank ≠ 0 ∧ !s.bankWaiting bank then s.setPostponed bank (s.postponed bank - 1) else s

/-- A per-bank refresh falls due: issued at once on an idle bank, else postponed; the eighth postponement forces it (R321). -/
def State.refreshDue (s : State) (bank : Nat) : State :=
  if s.bankWaiting bank || s.bankBusy bank then
    let s := s.setPostponed bank (min 8 (s.postponed bank + 1))
    if decide (8 ≤ s.postponed bank) && !s.bankBusy bank then s.forcedRefresh bank else s
  else s.setPostponed bank (s.postponed bank - 1)

/-! ### The check cache (R318) -/

/-- The cache entries of a channel: group, and which of its seven data granules were written since the check granule was. -/
def State.checkCache (s : State) (ch : Nat) : List (Nat × List Nat) := nth s.mem.cache ch

/-- Put a channel's cache entries. -/
def State.setCache (s : State) (ch : Nat) (l : List (Nat × List Nat)) : State :=
  s.modMem fun m => { m with cache := updNth m.cache ch fun _ => l }

/-- Cache a group; a full cache evicts the entry that `victim` picks (the spec gives no rule for it), which writes the check granule if it
is dirty. -/
def State.cacheGroup (s : State) (ch grp victim : Nat) : State :=
  let l := s.checkCache ch
  if l.any fun e => e.1 == grp then s
  else if l.length < 32 then s.setCache ch (l ++ [(grp, [])])
  else
    let e := nth l (victim % 32)
    let s := if e.2.isEmpty then s else s.activate (16 * ch + e.1 % 16) (groupRow e.1)
    s.setCache ch (l.erase e ++ [(grp, [])])

/-- A whole granule was written: the check granule is written back when all seven have been. -/
def State.cacheWrite (s : State) (ch grp pos victim : Nat) : State :=
  let s := s.cacheGroup ch grp victim
  let l := (s.checkCache ch).map fun e => if e.1 = grp ∧ pos ∉ e.2 then (grp, pos :: e.2) else e
  if l.any fun e => e.1 == grp && decide (7 ≤ e.2.length) then
    (s.setCache ch (l.map fun e => if e.1 = grp then (grp, []) else e)).activate (16 * ch + grp % 16) (groupRow grp)
  else s.setCache ch l

/-! ### Accesses and errors (R317, R325 to R328) -/

/-- The bytes of a write that carries byte enables, over what stands there. -/
def mergeBytes (old : List Byte) (new : List (Option Byte)) : List Byte :=
  (List.range old.length).map fun i => (nth new i).getD (old.getD i 0)

/-- Record an error in ERR_ADDR and ERR_INFO (Table 13.6). -/
def State.eccInfo (s : State) (ue : Bool) (a port words : Nat) : State :=
  let ch := s.dramCh a
  let s := s.put64 R.MEM_ERR_ADDR_LO a
  s.setReg R.MEM_ERR_INFO (BitVec.ofNat 32 (b2n ue * 2 ^ 31 + ch * 2 ^ 24 + s.dramBank a % 16 * 2 ^ 16 + port % 16 * 2 ^ 8 + words % 256))

/-- A corrected error (R326): it is counted and raised, and its write-back is a request of the SCRUB port. -/
def State.eccCorrected (s : State) (a port words : Nat) : State :=
  let ch := s.dramCh a
  let s := ((s.satAdd F.MEM_CE_CNT 1).satAdd (F.MCH_CE_CNT ch) 1).eccInfo false a port words
  (s.raise { page := P_MEM, bit := 4, detail := leBytes 1 ch }).arbRaise 0 9 0 false (.access (a / 64 * 64) true 0 [])

/-- An uncorrectable error is counted and raised (R327). -/
def State.eccUncorrectable (s : State) (a port words : Nat) : State :=
  let ch := s.dramCh a
  let s := ((s.satAdd F.MEM_UE_CNT 1).satAdd (F.MCH_UE_CNT ch) 1).eccInfo true a port words
  s.raise { page := P_MEM, bit := 5, detail := leBytes 1 ch ++ leBytes 1 port }

/-- Mark granules as uncorrectable. -/
def State.markBad (s : State) (l : List Nat) : State :=
  s.modMem fun m => { m with bad := m.bad ++ l.filter fun g => !m.bad.contains g }

/-- What the consumer at a port receives for an uncorrectable error, as far as the data goes (Table 13.4): contone bytes read 0 from then on, a
merge poisons its group, a lane's tile and a codec job end badly. -/
def State.eccResult (s : State) (port who a : Nat) (write : Bool) : State :=
  if write then
    if port = 0 ∨ port = 3 then s.markBad (s.groupGranules (chHash s.chCount (a / 64)) (s.dramGroup a)) else s
  else if port = 1 then s.markBad [a / 64]
  else if port = 2 then
    match s.laneHolder who with
    | some q => s.modHolder q { q with bad := true }
    | none => s
  else if port = 5 then s.modCodec who fun c => { c with job := c.job.map fun j => { j with bad := true } }
  else s

/-- A DRAM byte as a consumer reads it: 0 in a granule that is uncorrectable. -/
def State.dramRead (s : State) (a : Nat) : Byte := if s.mem.bad.contains (a / 64) then 0 else s.dramByte a

/-- The oldest access that port `port` holds. -/
def State.dramHolder (s : State) (port : Nat) : Option Req := s.mem.arb.holders.find? fun q => decide (q.r = port)

/-- The access of port `port` completes: it comes with the words in which an error was corrected (`ce`) or found uncorrectable (`ue`). The
answer holds the access and whether it met an uncorrectable error. -/
def State.dramAccess (s : State) (port ce ue victim : Nat) : State × Option (Req × Bool) :=
  match s.dramHolder port with
  | none => (s, none)
  | some q =>
    match q.work with
    | .access a write who data =>
      let ch := s.dramCh a; let grp := s.dramGroup a; let bank := s.dramBank a
      let fresh := !s.mem.inited.contains (a / 0x200000)
      let whole := write && data.all fun b => b.isSome
      let s := s.arbDone 0 q
      let ue := if whole || fresh then 0 else if s.mem.bad.contains (a / 64) then 0xFF else ue % 256
      let ce := if whole || fresh then 0 else ce % 256
      let cached := (s.checkCache ch).any fun e => e.1 == grp
      let s := if whole || (fresh && !write) then s
        else (if cached then s else s.activate bank (groupRow grp)).cacheGroup ch grp victim
      let s := s.activate bank (groupRow grp)
      let s := if write then
          let g := a / 64 * 64
          let s := if data.isEmpty then s.touchDram g 64 else s.setDram a (mergeBytes (s.dramBytes a data.length) data)
          s.cacheWrite ch grp (s.dramG a % 7) victim
        else s
      let s := if ce ≠ 0 ∧ ue = 0 then s.eccCorrected a port ce else s
      let s := if ue ≠ 0 then (s.eccUncorrectable a port ue).eccResult port who a write else s
      let s := if port = 4 ∧ !write ∧ who = 0 then
          (if ue ≠ 0 ∧ s.hostUp then s.satAdd F.HIF_BAR2_POISON 1 else s).emit (.barReply (s.dramBytes (a / 64 * 64) 64) (decide (ue ≠ 0))) else s
      (s.bankGap bank, some (q, decide (ue ≠ 0)))
    | _ => (s.arbDone 0 q, none)

/-! ### Initialisation and training (R328 to R330) -/

/-- Every init region is initialised (R328). -/
def State.initDone (s : State) : State :=
  if s.get F.MEM_STAT_USABLE_2M = 0 ∨ s.on F.MEM_STAT_INIT_DONE then s else
  let s := s.modMem fun m => { m with inited := List.range (s.get F.MEM_STAT_USABLE_2M) }
  ((s.put F.MEM_INIT_LEFT 0).put F.MEM_STAT_INIT_DONE 1).raise { page := P_MEM, bit := 8 }

/-- Load the training results of the channels (Table 13.7) and choose the channels in use (R330). The answer says whether at least 8 are
good. -/
def State.trained (s : State) (l : List ChannelTrained) : State × Bool :=
  let l := l.take 16
  let good := (List.range l.length).filter fun c => match l[c]? with | some x => decide (x.result = 1) | none => false
  let used := if good.length = 16 then good else if 8 ≤ good.length then good.take 8 else []
  let mask (m : List Nat) : Nat := m.foldl (fun v c => v ||| 2 ^ c) 0
  let s := foldS (List.range l.length) (fun c s =>
    match l[c]? with
    | some x =>
      let s := s.setReg (R.MCH_TRAIN c) (BitVec.ofNat 32
        (x.attempts % 4 * 2 ^ 16 + b2n (used.contains c) * 2 ^ 9 + b2n (decide (x.result = 1)) * 2 ^ 8 + x.result % 16))
      let s := s.put (F.MCH_TRACK_OSC_REF c) x.oscRef
      if x.result = 1 then (s.put (F.MCH_WDQ_TRAINED c) x.wdq).put (F.MCH_WDQ_CUR c) x.wdq else s
    | none => s) s
  let s := (s.put F.MEM_CH_MAP_GOOD (mask good)).put F.MEM_CH_MAP_USED (mask used)
  let s := (s.put F.DEV_DEVSTATE_MEM_CH_GOOD good.length).mirror
  if good.length < 8 then (s, false)
  else
    let reduced := decide (used.length = 8)
    let s := ((s.put F.MEM_STAT_CH_USED used.length).put F.MEM_STAT_REDUCED (b2n reduced)).put F.MEM_STAT_USABLE_2M (if reduced then 7168 else 14336)
    let s := ((s.put F.DEV_DEVSTATE_MEM_REDUCED (b2n reduced)).mirror.modMem fun m => { m with inited := [] }).initLeft
    (if reduced then s.raise { page := P_MEM, bit := 9, detail := leBytes 2 (mask good) } else s, true)

/-- The controller has read mode register 4 of a channel (R321). -/
def State.mr4 (s : State) (ch rate : Nat) (doubled : Bool) : State :=
  let s := (s.put (F.MCH_MR4 ch) rate).put (F.MCH_REFRESH_DOUBLE ch) (b2n doubled)
  s.put F.MEM_STAT_DOUBLE (b2n ((bitsOf (s.get F.MEM_CH_MAP_USED) 16).any fun c => s.on (F.MCH_REFRESH_DOUBLE c)))

end Sys2Proof.Machine
end

