-- ==== Sys2Proof/Machine/Thermal.lean ====
section
/-!
DEFINITION. Sys2Proof/Machine/Thermal.lean: rounds of the thermal block (R343 to R349) and throttling (R341).
-/
namespace Sys2Proof.Machine

open Sys2Proof

/-- Site `k` takes part in the device temperature (R345). -/
def State.siteOn (s : State) (k : Nat) : Bool := bit (s.get F.THM_SITE_EN) k

/-- The temperature of a broken enabled site: hotter than every threshold (R344); the largest value of TEMP.DEV (log entry 24). -/
def hottest : Int := 0x7FFF

/-- Measure one site (R343, R344): its raw count, its status, and SENSOR_BAD when it becomes broken. The conversion of the count by the OTP trim
comes with the sample, and SENS_OFF corrects it (log entry 25). -/
def State.measureSite (s : State) (k : Nat) (x : SiteSample) : State :=
  let same := if s.hsk.measured && decide (x.raw = s.get (F.THM_SITE_RAW k)) then nth s.hsk.same k + 1 else 0
  let was := nth s.hsk.broken k
  let now := if x.implausible then 1 else if 64 ≤ same then 2 else 0
  let s := s.modHsk fun h => { h with same := updNth h.same k fun _ => same, broken := updNth h.broken k fun _ => now }
  let s := s.put (F.THM_SITE_RAW k) x.raw
  let s := s.put (F.THM_SITE_TEMP k) (unsignedOf 16 (x.temp + nth s.hsk.sens k))
  let s := s.put (F.THM_SITE_STATUS k) (if s.siteOn k then now else 3)
  if was = 0 ∧ now ≠ 0 then s.raise { page := P_THM, bit := 7, detail := leBytes 1 k ++ leBytes 1 now } else s

/-- The temperature with which site `k` takes part. -/
def State.siteTemp (s : State) (k : Nat) : Int :=
  if nth s.hsk.broken k ≠ 0 then hottest else signedOf 16 (s.get (F.THM_SITE_TEMP k))

/-- The hottest site of a list; the first among equals. -/
def State.hottestSite (s : State) : List Nat → Option (Nat × Int)
  | [] => none
  | k :: l =>
    match s.hottestSite l with
    | none => some (k, s.siteTemp k)
    | some (j, x) => if s.siteTemp k < x then some (j, x) else some (k, s.siteTemp k)

/-- The state bit of threshold `i`: 0 THROTTLE, 1 STOP, 2 CRITICAL. -/
def tstate (i : Nat) : Fld := ⟨R.THM_TSTATE, i, i⟩

/-- One threshold sees the device temperature of a round (R346). The answer says whether its state was entered or left. -/
def State.threshold (s : State) (i : Nat) (dev : Int) : State × Option Bool :=
  let thr : Int := signedOf 16 (nth s.hsk.thr i)
  let e := if thr ≤ dev then nth s.hsk.enter i + 1 else 0
  let l := if dev < thr - (s.hsk.hyst : Int) then nth s.hsk.leave i + 1 else 0
  let holds := s.on (tstate i)
  let s := s.modHsk fun h => { h with enter := updNth h.enter i fun _ => min e 16, leave := updNth h.leave i fun _ => min l 16 }
  if !holds && decide (16 ≤ e) then (s.put (tstate i) 1, some true)
  else if holds && decide (16 ≤ l) then (s.put (tstate i) 0, some false)
  else (s, none)

/-- EFF is at its lower limit (R341). -/
def State.effAtFloor (s : State) : Bool := decide (s.effNow ≤ min (s.get F.CRT_CORE_FLOOR) (s.get F.CRT_CORE_BUDGET))

/-- STEPS rises by one, unless EFF is at its lower limit. -/
def State.stepDown (s : State) : State :=
  if s.effAtFloor then s else ((s.satAdd F.CRT_THROTTLE_STEPS 1).satAdd F.CRT_THROTTLE_STEP_DOWNS 1).effUpdate

/-- STEPS falls by one. -/
def State.stepUp (s : State) : State :=
  if s.get F.CRT_THROTTLE_STEPS = 0 then s else (s.put F.CRT_THROTTLE_STEPS (s.get F.CRT_THROTTLE_STEPS - 1)).effUpdate

/-- STEPS after a round (R341); `change` is the THROTTLE state's change in it. -/
def State.throttle (s : State) (dev : Int) (change : Option Bool) : State :=
  let thr : Int := signedOf 16 (nth s.hsk.thr 0)
  match change with
  | some true => (s.modHsk fun h => { h with stepHot := 0, stepCool := 0 }).stepDown
  | some false => s.modHsk fun h => { h with stepHot := 0, stepCool := 0 }
  | none =>
    if s.on F.THM_TSTATE_THROTTLE then
      if thr ≤ dev then
        if 16 ≤ s.hsk.stepHot + 1 then (s.modHsk fun h => { h with stepHot := 0 }).stepDown
        else s.modHsk fun h => { h with stepHot := h.stepHot + 1 }
      else s.modHsk fun h => { h with stepHot := 0 }
    else if dev < thr - (s.hsk.hyst : Int) then
      if 16 ≤ s.hsk.stepCool + 1 then (s.modHsk fun h => { h with stepCool := 0 }).stepUp
      else s.modHsk fun h => { h with stepCool := h.stepCool + 1 }
    else s.modHsk fun h => { h with stepCool := 0 }

/-- The thresholds, HYST and SENS_OFF that the coming round uses (R349, R359). -/
def State.latchThermal (s : State) : State :=
  s.modHsk fun h =>
    { h with measured := true,
             thr := [s.get F.THM_THR_THROTTLE, s.get F.THM_THR_STOP, s.get F.THM_THR_CRIT], hyst := s.get F.THM_HYST,
             sens := (List.range 16).map fun k => signedOf 16 (s.get (F.CAL_SENS_OFF k)) }

/-- What a round changed: the STOP and the CRITICAL state, entered or left. -/
structure Round where
  stop : Option Bool := none
  crit : Option Bool := none

/-- One round (R343): sites, device temperature, thresholds and throttling, and the events of entering and leaving (R351; 1 is entering, log
entry 26). The actions of STOP and CRITICAL are the caller's. -/
def State.thermalRound (s : State) (sites : List SiteSample) : State × Round :=
  let s := foldS (List.range 16) (fun k s => s.measureSite k (sites.getD k ⟨0, 0, true⟩)) s
  let top := (s.hottestSite ((List.range 16).filter s.siteOn)).getD (0, 0)
  let dev := top.2
  let s := (s.put F.THM_TEMP_SITE top.1).put F.THM_TEMP_DEV (unsignedOf 16 dev)
  let s := if signedOf 16 (s.get F.THM_TPEAK) < dev then s.put F.THM_TPEAK (unsignedOf 16 dev) else s
  let s := s.wrapAdd F.THM_ROUNDS 1
  let a := s.threshold 0 dev
  let b := a.1.threshold 1 dev
  let c := b.1.threshold 2 dev
  let s := c.1
  let s := match a.2 with | some x => s.raise { page := P_THM, bit := 4, detail := leBytes 1 (b2n x) } | none => s
  let s := s.throttle dev a.2
  let s := match b.2 with | some x => s.raise { page := P_THM, bit := 5, detail := leBytes 1 (b2n x) } | none => s
  let s := match c.2 with | some true => s.raise { page := P_THM, bit := 6 } | _ => s
  (s.latchThermal, { stop := b.2, crit := c.2 })

/-! ### Lingering lanes (R337, R339) -/

/-- A lane's LINGER has run out: it gates its clocks and releases its carats. -/
def State.lingerExpiry (s : State) (k : Nat) : State :=
  match (nth s.pix.img.lanes k).linger with
  | some t => if t + s.get F.CRT_LINGER ≤ s.devtime then (s.caratRelease 1 k).setLinger k none else s
  | none => s

end Sys2Proof.Machine
end

