-- ==== Sys2Proof/Machine/Position.lean ====
section
/-!
DEFINITION. Sys2Proof/Machine/Position.lean: the position channels, the web count, the encoder outputs and the trigger latches (R227 to
R237), and the prediction of the web position (R240 to R242).
-/
namespace Sys2Proof.Machine

open Sys2Proof

/-- Channel `n`. -/
def State.chan (s : State) (n : Nat) : Chan := nth s.fire.chans n

/-- Change channel `n`. -/
def State.modChan (s : State) (n : Nat) (f : Chan → Chan) : State := s.modFire fun x => { x with chans := updNth x.chans n f }

/-- Modes of Table 9.1. -/
def modeQuad : Nat := 1
def modeSincos : Nat := 2
def modeTooth : Nat := 3

/-- MODE of channel `n`. -/
def State.chMode (s : State) (n : Nat) : Nat := s.get (F.POS_CH_CFG_MODE n)

/-- Channel `n` counts: FIRE runs, POS is enabled, and the channel has not faulted (R230, R247). -/
def State.counting (s : State) (n : Nat) : Bool := s.up 4 && s.enabled P_POS && !s.on (F.POS_STAT_FAULT n)

/-- The flags of Table 9.2, bits 2 to 0: REVERSAL, STILL, SPEED_VALID. -/
def flStill : Nat := 2
def flNone : Nat := 0
def flValid : Nat := 1
def flReversal : Nat := 4

/-- Set the speed flags. -/
def State.setFlags (s : State) (n v : Nat) : State := s.put (F.POS_STAT_SPEEDST n) v

/-- SPEED_VALID of channel `n`. -/
def State.speedValid (s : State) (n : Nat) : Bool := bit (s.get (F.POS_STAT_SPEEDST n)) 0

/-- The channel stands still (Table 9.2). -/
def State.chStill (s : State) (n : Nat) : State :=
  ((s.putInt64 (R.POS_SPEED_LO n) 0).setFlags n flStill).modChan n fun c => { c with fresh := true, ivals := [] }

/-- The channel starts (R230, R247): as after standstill, and its position goes on. -/
def State.chRestart (s : State) (n : Nat) : State :=
  let s := ((s.chStill n).put (F.POS_STAT_REF_SEEN n) 0).put (F.POS_STAT_DR n) 0
  let s := s.put (F.POS_STAT_AMP_OK n) 0
  s.modChan n fun c => { c with last := none, phase := none, badRun := 0, goodRun := 0, dr := none, rejoin := 0, extra := false }

/-- The channel faults (R230); a fault of the web channel while a line clock is on raises WEB_LOST (R248). -/
def State.chFault (s : State) (n : Nat) : State :=
  let s := (((s.chStill n).put (F.POS_STAT_FAULT n) 1).put (F.POS_STAT_DR n) 0).modChan n fun c => { c with dr := none }
  let s := s.raise { page := P_POS, bit := 4, detail := leBytes 1 n }
  if n = s.webCh ∧ ((List.range 8).any fun b => s.on (F.LCK_BAR_CFG_EN b)) then s.raise { page := P_LCK, bit := 6 } else s

/-! ### Counters, references and the web count (R232, R234, R235) -/

/-- REV_POS and REV_CNT after `d` counts (R232). -/
def State.revCount (s : State) (n : Nat) (d : Int) : State :=
  let len : Int := s.get (F.POS_REV_LEN n)
  if len = 0 then s else
  let x := (s.get (F.POS_REV_POS n) : Int) + d
  let s := s.put (F.POS_REV_POS n) (x % len).toNat
  s.put (F.POS_REV_CNT n) (unsignedOf 32 (signedOf 32 (s.get (F.POS_REV_CNT n)) + x / len))

/-- A reference mark in forward travel (R232). -/
def State.refMark (s : State) (n : Nat) : State :=
  let s := s.put (F.POS_STAT_REF_SEEN n) 1
  let len := s.get (F.POS_REV_LEN n); let v := s.get (F.POS_REF_VAL n); let at_ := s.get (F.POS_REV_POS n)
  if len = 0 then s
  else if s.get (F.POS_CH_CFG_REF n) = 1 then
    let s := s.put (F.POS_REV_POS n) v
    if len < 2 * (at_ - v) then s.put (F.POS_REV_CNT n) (s.get (F.POS_REV_CNT n) + 1) else s
  else if s.get (F.POS_CH_CFG_REF n) = 2 ∧ at_ ≠ v then
    (s.satAdd (F.POS_ERR_CNT_REF_ERR n) 1).raise { page := P_POS, bit := 6, detail := leBytes 1 n }
  else s

/-- The web count (R234). -/
def State.webCount (s : State) : Nat := s.get64 R.POS_WEB_COUNT_LO

/-- The web channel stands at position `pos` at time `t`: the web count advances past the high-water mark, and PIX keeps a copy (R234). -/
def State.webMove (s : State) (t : Nat) (pos : Int) : State :=
  if s.fire.hwm < pos then
    let w := s.webCount + (pos - s.fire.hwm).toNat
    let s := s.put64 R.POS_WEB_COUNT_LO w
    let s := if s.up 3 then s.modPix fun p => { p with webCopy := w } else s
    s.modFire fun f => { f with hwm := pos, webEdges := ((t, w) :: f.webEdges).take 2048 }
  else s

/-- SRC_DIFF in a pair: own-source increments minus partner increments (R235). -/
def State.srcDiff (s : State) (n : Nat) (d : Int) : State :=
  if s.paired then
    let own : Int := if n = s.get F.POS_WEB_SEL_ACT_CH then d else 0
    let par : Int := if n = s.get F.POS_WEB_SEL_STBY_CH then d else 0
    s.put F.POS_SRC_DIFF (unsignedOf 32 (clampInt (signedOf 32 (s.get F.POS_SRC_DIFF) + own - par) (-0x80000000) 0x7FFFFFFF))
  else s

/-- The encoder output of channel `n` repeats `d` counts from time `t` on: 8 ticks from edge to edge, a queue of 65,535 counts, and beyond it the
error in which A and B hold their levels (R236). -/
def State.encoOut (s : State) (n t : Nat) (d : Int) : State :=
  match s.pad (8 + n) with
  | .driving _ =>
    if (s.chan n).encoErr || d == 0 then s else
    let start := max (s.chan n).encoFree t
    if 65535 < (start - t) / 8 + d.natAbs then
      (s.modChan n fun c => { c with encoErr := true }).raise { page := P_POS, bit := 4, detail := leBytes 1 n }
    else (s.modChan n fun c => { c with encoFree := start + 8 * d.natAbs }).emit (.enco n d)
  | _ => s

/-! ### Edges and speed (R233) -/

/-- Sum of the first `k` intervals: ticks and counts. -/
def ivalSum (k : Nat) (l : List (Nat × Nat)) : Nat × Nat := (l.take k).foldl (fun a x => (a.1 + x.1, a.2 + x.2)) (0, 0)

/-- The intervals of the speed estimate: N = min(2^AVG, intervals available). -/
def State.speedSum (s : State) (n : Nat) : Nat × Nat := ivalSum (2 ^ s.get (F.POS_CH_CFG_AVG n)) (s.chan n).ivals

/-- SPEED shows the estimate, signed 32.32 counts per second, rounded down (log entry 27). -/
def State.putSpeed (s : State) (n : Nat) (reverse : Bool) : State :=
  let x := s.speedSum n
  let v : Int := (x.2 * 400000000 * 2 ^ 32 : Nat)
  s.putInt64 (R.POS_SPEED_LO n) (if x.1 = 0 then 0 else Int.fdiv (if reverse then -v else v) x.1)

/-- An edge of channel `n` at time `t` that counts `d` (Table 9.2). An interval that holds a gap or an extra tooth does not enter the speed
estimate (`skip`, R231). The web channel's edges move the web count. -/
def State.countEdge (s : State) (n t : Nat) (d : Int) (skip : Bool) : State :=
  let reverse := decide (d < 0)
  let was := s.on (F.POS_STAT_DIR n)
  let pos := s.getInt64 (R.POS_POS_LO n) + d
  let s := (s.putInt64 (R.POS_POS_LO n) pos).revCount n d
  let c := s.chan n
  let dt := match c.last with | some x => t - x.1 | none => 0
  let s :=
    if c.fresh || c.last.isNone then
      (((s.put (F.POS_STAT_DIR n) (b2n reverse)).putInt64 (R.POS_SPEED_LO n) 0).setFlags n flNone).modChan n fun c => { c with ivals := [] }
    else if reverse = was then
      let s := s.modChan n fun c => { c with ivals := if skip then c.ivals else ((dt, d.natAbs) :: c.ivals).take 1024 }
      if (s.chan n).ivals.isEmpty then s else (s.setFlags n flValid).putSpeed n reverse
    else
      (((s.put (F.POS_STAT_DIR n) (b2n reverse)).putInt64 (R.POS_SPEED_LO n) 0).setFlags n flReversal).modChan n fun c => { c with ivals := [] }
  let s := s.modChan n fun c => { c with fresh := false, last := some (t, pos), extra := false }
  let s := s.srcDiff n d
  if n = s.webCh then
    let s := if reverse && !was then s.raise { page := P_POS, bit := 7, detail := leBytes 1 n } else s
    s.webMove t pos
  else s

/-- The measured pass-through delay is taken from the edge times of the partner channel (R372). -/
def State.edgeTime (s : State) (n t : Nat) : Nat :=
  if s.role = .standby ∧ n = s.get F.POS_WEB_SEL_STBY_CH then ((t : Int) - signedOf 16 (s.get F.PAR_ENC_DLY) / 16).toNat else t

/-- A filtered edge of channel `n` in QUAD or TOOTH mode (R228, R231): `fwd` is the direction of the quadrature step, or the level of ENC_n_B;
`mark` a rising edge of Z with it. -/
def State.encoderEdge (s : State) (t n : Nat) (fwd mark : Bool) : State :=
  if !s.counting n then s else
  let et := s.edgeTime n t
  let inv := s.on (F.POS_CH_CFG_INVERT n)
  let sign (up : Bool) : Int := if up = inv then -1 else 1
  if s.chMode n = modeQuad then
    let d := sign fwd
    let s := (s.countEdge n et d false).encoOut n t (if fwd then 1 else -1)
    if mark ∧ 0 < d then s.refMark n else s
  else if s.chMode n = modeTooth then
    let up := if s.on (F.POS_CH_CFG_TW_DIR n) then fwd else true
    let d := sign up
    let c := s.chan n
    let x := s.speedSum n
    let dt := match c.last with | some y => et - y.1 | none => 0
    let kind := s.get (F.POS_TW_CFG_REFKIND n)
    let known := s.speedValid n && c.last.isSome
    if known ∧ kind = 2 ∧ 64 * dt * x.2 ≤ s.get (F.POS_TW_CFG_EXTRA_RATIO n) * x.1 then
      let s := (s.modChan n fun c => { c with extra := true }).encoOut n t (if up then 1 else -1)
      if 0 < d then s.refMark n else s
    else if known ∧ kind = 1 ∧ s.get (F.POS_TW_CFG_GAP_RATIO n) * x.1 ≤ 64 * dt * x.2 then
      let s := (s.countEdge n et (d * (s.get (F.POS_TW_CFG_GAP_TEETH n) + 1)) true).encoOut n t (if up then 1 else -1)
      if 0 < d then s.refMark n else s
    else (s.countEdge n et d c.extra).encoOut n t (if up then 1 else -1)
  else s

/-! ### SINCOS (R229, R230) -/

/-- Offsets and gains in force: sine offset, cosine offset, sine gain, cosine gain. -/
def State.adcNow (s : State) (n : Nat) : Int × Int × Int × Int :=
  (s.chan n).adc.getD (signedOf 14 (s.get (F.CAL_ADC_OFF_SIN n)), signedOf 14 (s.get (F.CAL_ADC_OFF_COS n)),
    s.get (F.CAL_ADC_GAIN_SIN n), s.get (F.CAL_ADC_GAIN_COS n))

/-- Move `x` towards `y` by at most `k`. -/
def towards (x y k : Int) : Int := x + clampInt (y - x) (-k) k

/-- An ADC result of channel `n` is held (R360): APPLY is BOUNDARY, a bar belongs to a job, and the channel does not stand still. -/
def State.adcHeld (s : State) (n : Nat) : Bool :=
  s.hsk.held.any (fun h => h.item == 2 && h.unit == n) && s.on F.CAL_CFG_APPLY && s.pix.bars.any Option.isSome
    && !bit (s.get (F.POS_STAT_SPEEDST n)) 1

/-- The values in force move towards their registers by one code and 0x0002 a sample (R359), unless the result is held (R360). -/
def State.adcSlew (s : State) (n : Nat) : State :=
  match (s.chan n).adc with
  | none => s
  | some (os, oc, gs, gc) =>
    if s.adcHeld n then s else
    let s := s.modHsk fun h => { h with held := h.held.filter fun x => !(x.item == 2 && x.unit == n) }
    let s := if s.hsk.held.any (fun x => x.item == 2) then s else s.put (F.CAL_ITEM_STAT_HELD 2) 0
    let ts := signedOf 14 (s.get (F.CAL_ADC_OFF_SIN n)); let tc := signedOf 14 (s.get (F.CAL_ADC_OFF_COS n))
    let us_ : Int := s.get (F.CAL_ADC_GAIN_SIN n); let uc : Int := s.get (F.CAL_ADC_GAIN_COS n)
    let v := (towards os ts 1, towards oc tc 1, towards gs us_ 2, towards gc uc 2)
    s.modChan n fun c => { c with adc := if v = (ts, tc, us_, uc) then none else some v }

/-- r² of a sample times 2^30: corrected by offset and gain (R229). -/
def State.ampSq (s : State) (n : Nat) (sin cos : Int) : Nat :=
  let k := s.adcNow n
  ((sin - k.1) * k.2.2.1).natAbs ^ 2 + ((cos - k.2.1) * k.2.2.2).natAbs ^ 2

/-- Track the amplitude: AMP, AMP_OK and AMP_ERR (R229). -/
def State.amplitude (s : State) (n : Nat) (sin cos : Int) : State :=
  let x := 256 * s.ampSq n sin cos
  let nom := s.get (F.POS_AMP_NOM n) * 2 ^ 30
  let s := s.put (F.POS_STAT_AMP n) (if nom = 0 then 0xFFFF else min 0xFFFF (x / nom))
  let inside := decide (s.get (F.POS_AMP_WIN_LO n) * nom ≤ x) && decide (x ≤ s.get (F.POS_AMP_WIN_HI n) * nom)
  let s := s.modChan n fun c => { c with badRun := if inside then 0 else c.badRun + 1, goodRun := if inside then c.goodRun + 1 else 0 }
  let k := s.get (F.POS_AMP_CFG_AMP_N n)
  if k ≤ (s.chan n).badRun ∧ s.on (F.POS_STAT_AMP_OK n) then
    (s.put (F.POS_STAT_AMP_OK n) 0).raise { page := P_POS, bit := 5, detail := leBytes 1 n }
  else if k ≤ (s.chan n).goodRun then s.put (F.POS_STAT_AMP_OK n) 1 else s

/-- The ADC of channel `n` is in its TRIM phase (R354). -/
def State.adcTrim (s : State) (n : Nat) : Bool :=
  s.hsk.runs.any fun r => r.item == 2 && r.unit == n && (r.phase == .trim)

/-- Counts of a phase at 2^`k` per period, where a period is 65,536. -/
def phaseCount (k : Nat) (p : Int) : Int := Int.fdiv (p * 2 ^ k) 65536

/-- The phase of channel `n` becomes `p`: the counts in between are an edge at time `t`, and the output repeats them at its own resolution (R236). -/
def State.phaseTo (s : State) (n t : Nat) (p : Int) : State :=
  let old := (s.chan n).phase.getD p
  let s := s.modChan n fun c => { c with phase := some p }
  let inv := s.on (F.POS_CH_CFG_INVERT n)
  let k := s.get (F.POS_CH_CFG_LOG2_INTERP n)
  let d := phaseCount k p - phaseCount k old
  let s := s.encoOut n t (phaseCount (s.get (F.POS_CH_CFG_LOG2_PT n)) p - phaseCount (s.get (F.POS_CH_CFG_LOG2_PT n)) old)
  if d = 0 then s else s.countEdge n t (if inv then -d else d) false

/-- The phase that dead-reckoning gives at time `t`. -/
def drPhase (k : Nat) (d : Nat × Int × Int) (t : Nat) : Int :=
  d.2.1 + Int.fdiv (d.2.2 * ((t - d.1 : Nat) : Int) * 65536) (2 ^ 32 * 400000000 * 2 ^ k)

/-- A sample of channel `n` in SINCOS mode, every 500 ns (R229): the codes of the ADC, the phase that the device computes from them in 1/4,096 of a
signal period (log entry 28), and a rising edge of Z since the last sample. -/
def State.sincosSample (s : State) (t n : Nat) (sin cos : Int) (phase : Nat) (mark : Bool) : State :=
  if !s.counting n || s.chMode n ≠ modeSincos then s else
  let s := ((s.adcSlew n).amplitude n sin cos).modChan n fun c => { c with lastSample := t }
  let k := s.get (F.POS_CH_CFG_LOG2_INTERP n)
  let measuring := s.on (F.POS_STAT_AMP_OK n) && !s.adcTrim n
  let c := s.chan n
  let s :=
    if !measuring then
      match c.dr with
      | some d =>
        match c.phase with
        | some _ => s.phaseTo n t (drPhase k d t)
        | none => s
      | none =>
        let inv : Int := if s.on (F.POS_CH_CFG_INVERT n) then -1 else 1
        let v := if s.speedValid n then inv * s.getInt64 (R.POS_SPEED_LO n) else 0
        (s.put (F.POS_STAT_DR n) 1).modChan n fun c => { c with dr := some (t, c.phase.getD (16 * (phase : Int)), v) }
    else
      let δ := sdiff 12 phase c.meas
      match c.dr, c.phase with
      | some d, some _ =>
        let p := drPhase k d t
        let s := s.phaseTo n t p
        (s.put (F.POS_STAT_DR n) 0).modChan n fun c => { c with dr := none, rejoin := sdiff 16 (16 * phase) (p % 65536).toNat }
      | some _, none => (s.put (F.POS_STAT_DR n) 0).modChan n fun c => { c with dr := none, phase := some (16 * (phase : Int)) }
      | none, none => s.modChan n fun c => { c with phase := some (16 * (phase : Int)) }
      | none, some p =>
        if 512 < δ.natAbs then s.chFault n
        else
          let adj := clampInt c.rejoin (-(δ.natAbs : Int)) δ.natAbs
          (s.modChan n fun c => { c with rejoin := c.rejoin - adj }).phaseTo n t (p + 16 * δ + adj)
  let s := s.modChan n fun c => { c with meas := phase % 4096 }
  if mark && !s.on (F.POS_STAT_DIR n) then s.refMark n else s

/-- Dead-reckoning has lasted longer than DR_MAX: the channel faults (R229). -/
def State.drLimit (s : State) (t n : Nat) : State :=
  match (s.chan n).dr with
  | some d => if d.1 + s.get (F.POS_AMP_CFG_DR_MAX n) * us < t then s.chFault n else s
  | none => s

/-- No edge for ZERO_TO µs (Table 9.2). -/
def State.zeroTimeout (s : State) (t n : Nat) : State :=
  match (s.chan n).last with
  | some e =>
    if s.counting n ∧ e.1 + s.get (F.POS_ZERO_TO n) * us ≤ t ∧ s.get (F.POS_STAT_SPEEDST n) ≠ flStill then
      let s := s.chStill n
      if n = s.webCh then s.raise { page := P_POS, bit := 8, detail := leBytes 1 n } else s
    else s
  | none => s

/-! ### The web position (R240 to R242) -/

/-- The last web edge: its time and the web count. -/
def State.webEdge (s : State) : Option (Nat × Nat) := s.fire.webEdges.head?

/-- The web moves forward past its high-water mark with a valid speed, so that positions can be predicted (R242). -/
def State.webMoving (s : State) : Bool :=
  s.up 4 && s.speedValid s.webCh && !s.on (F.POS_STAT_DIR s.webCh) && decide (s.getInt64 (R.POS_POS_LO s.webCh) = s.fire.hwm) && s.webEdge.isSome

/-- The time in 1/64 tick at which the web position reaches `pos` (64.32), extrapolated from the last edge at the speed estimate (R240); a
position that is already passed is reached at the edge. Fractions of 1/64 tick are rounded up (log entry 29). -/
def State.reach64 (s : State) (pos : Nat) : Option Nat :=
  if s.webMoving then
    match s.webEdge with
    | some (te, w) =>
      let x := s.speedSum s.webCh
      if x.2 = 0 then none else
      let need := pos - w * 2 ^ 32
      some (64 * te + (need * 64 * x.1 + (x.2 * 2 ^ 32 - 1)) / (x.2 * 2 ^ 32))
    | none => none
  else none

/-- The web position (64.32) at time `t`: the web count extended at the speed estimate, at most one count beyond the last edge, or the travel
of 750 ns beyond the last sample (R240). -/
def State.webPos (s : State) (t : Nat) : Nat :=
  match s.webEdge with
  | some (te, w) =>
    if s.webMoving then
      let x := s.speedSum s.webCh
      let travel (dt : Nat) : Nat := if x.1 = 0 then 0 else dt * x.2 * 2 ^ 32 / x.1
      let cap := if s.chMode s.webCh = modeSincos then travel ((s.chan s.webCh).lastSample - te + 300) else 2 ^ 32
      w * 2 ^ 32 + min (travel (t - te)) cap
    else s.webCount * 2 ^ 32
  | none => s.webCount * 2 ^ 32

/-- The cap of R240 lets the web position reach `pos` (64.32) before the next edge. -/
def State.withinCap (s : State) (pos : Nat) : Bool :=
  match s.webEdge with
  | some (te, w) =>
    let x := s.speedSum s.webCh
    let cap := if s.chMode s.webCh = modeSincos then
        (if x.1 = 0 then 0 else ((s.chan s.webCh).lastSample - te + 300) * x.2 * 2 ^ 32 / x.1) else 2 ^ 32
    decide (pos ≤ w * 2 ^ 32 + cap)
  | none => false

/-- The web position (64.32) at an earlier time `t`: between the web edges on either side, else as `webPos` gives it (R237). -/
def State.webPosAt (s : State) (t : Nat) : Nat :=
  let after := (s.fire.webEdges.takeWhile fun e => decide (t ≤ e.1)).getLast?
  let before := s.fire.webEdges.find? fun e => decide (e.1 < t)
  match before, after with
  | some (t0, w0), some (t1, w1) => w0 * 2 ^ 32 + (w1 - w0) * 2 ^ 32 * (t - t0) / (t1 - t0)
  | none, some (_, w1) => w1 * 2 ^ 32
  | _, none => s.webPos t

/-! ### Trigger latches (R237) -/

/-- An edge of trigger `t_`, rising or falling, at time `t`, whose level lasts for at least the filter time: the edges that EDGE selects start a
latch while POS is enabled. -/
def State.triggerEdge (s : State) (t k : Nat) (rising : Bool) : State :=
  let sel := s.get (F.POS_TRIG_CFG_EDGE k)
  if s.up 4 && s.enabled P_POS && bit sel (if rising then 0 else 1) then
    s.modFire fun f => { f with trigs := updNth f.trigs k fun x => { edges := x.edges ++ [(t, t + s.get (F.POS_TRIG_CFG_FILT k) * 40)] } }
  else s

/-- When trigger `k`'s latch completes: 50 ns after the later of the filter's end and the first web edge or sample after the edge time (samples come every 500 ns). -/
def State.latchDue (s : State) (k : Nat) : Option Nat :=
  match (nth s.fire.trigs k).edges.head? with
  | none => none
  | some (e, f) =>
    let next := if s.chMode s.webCh = modeSincos then
        (let ls := (s.chan s.webCh).lastSample
         if e < ls then some (ls - 200 * ((ls - e - 1) / 200)) else none)
      else ((s.fire.webEdges.takeWhile fun x => decide (e < x.1)).getLast?).map fun x => x.1
    next.map fun x => max f x + 20

/-- A latch completes (R237): its fields, LAT_CNT and TRIG_LATCH. The answer is the latched web position in 64.32 form. -/
def State.triggerLatch (s : State) (t k : Nat) : State × Option Nat :=
  match (nth s.fire.trigs k).edges.head?, s.latchDue k with
  | some (e, _), some due =>
    if t < due ∨ !(s.up 4 && s.enabled P_POS) then (s, none) else
    let p := s.webPosAt e
    let s := s.modFire fun f => { f with trigs := updNth f.trigs k fun x => { edges := x.edges.drop 1 } }
    let s := s.put64 (R.POS_LAT_WC_LO k) (p / 2 ^ 32)
    let s := (s.put (F.POS_LAT_FRAC k) p).put64 (R.POS_LAT_TIME_LO k) e
    let s := s.wrapAdd (F.POS_LAT_CNT k) 1
    (s.raise { page := P_POS, bit := 9, detail := leBytes 1 k ++ leBytes 7 (p / 2 ^ 32) }, some p)
  | _, _ => (s, none)

/-! ### The POS block (R247) -/

/-- POS is enabled: every channel restarts. -/
def State.posEnable (s : State) : State := foldS (List.range 4) (fun n s => s.chRestart n) s

/-- POS is disabled: edges whose filter runs are discarded (R237). -/
def State.posDisable (s : State) : State := s.modFire fun f => { f with trigs := List.replicate 4 {} }

/-- FIRE is released while PIX was kept: the web count resumes from the copy (R234). -/
def State.webResume (s : State) : State := s.put64 R.POS_WEB_COUNT_LO s.pix.webCopy

end Sys2Proof.Machine
end

