-- ==== Sys2Proof/Machine/Lines.lean ====
section
/-!
DEFINITION. Sys2Proof/Machine/Lines.lean: line numbers and their comparison (R10), the values in force at a boundary of a bar while a clasp's
values wait for their effective line (R112), the prediction of a bar's boundaries (R239, R245), and the jobs' bars.
-/
namespace Sys2Proof.Machine

open Sys2Proof

/-- Line numbers wrap modulo 2^32 (R10). -/
def lineAdd (l n : Nat) : Nat := (l + n) % 2 ^ 32

/-- Line `a` comes before line `b` in serial-number arithmetic (R10). -/
def lineBefore (a b : Nat) : Bool := decide (sdiff 32 a b < 0)

/-- Line `a` comes before line `b` or is `b`. -/
def lineUpTo (a b : Nat) : Bool := !lineBefore b a

/-- How many lines `a` lies ahead of `b`; 0 if behind. -/
def lineGap (a b : Nat) : Nat := (sdiff 32 a b).toNat

/-- The line clock of bar `b`. -/
def State.clk (s : State) (b : Nat) : LineClk := nth s.fire.clks b

/-- Change the line clock of bar `b`. -/
def State.modClk (s : State) (b : Nat) (f : LineClk → LineClk) : State := s.modFire fun x => { x with clks := updNth x.clks b f }

/-- The firing engine of bar `b`. -/
def State.fbar (s : State) (b : Nat) : FireBar := nth s.fire.bars b

/-- Change the firing engine of bar `b`. -/
def State.modFbar (s : State) (b : Nat) (f : FireBar → FireBar) : State := s.modFire fun x => { x with bars := updNth x.bars b f }

/-- The number of bar `b`'s next boundary: 0 for the first after FIRE was released (R239). -/
def State.nextLine (s : State) (b : Nat) : Nat := if (s.clk b).placed then lineAdd (s.get (F.LCK_LINE b)) 1 else 0

/-- The register values that bar `b` uses at boundary `l`: those that a clasp wrote for a later line are still the former ones (R112). -/
def State.view (s : State) (b l : Nat) : State :=
  { s with regs := s.pix.deferred.foldr (fun d r =>
      if d.bar = b ∧ lineBefore l d.line then d.old.foldl (fun r e => putKey (resetVal e.1) r e.1 e.2) r else r) s.regs }

/-- Forget the clasp values that boundary `l` of bar `b` brings into force. -/
def State.viewDone (s : State) (b l : Nat) : State :=
  s.modPix fun p => { p with deferred := p.deferred.filter fun d => !(decide (d.bar = b) && lineUpTo d.line l) }

/-- CMP_b in 64.32 form, the compare position of bar `b`'s next line (R243). -/
def State.cmp (s : State) (b : Nat) : Nat := s.get64 (R.LCK_CMP_LO b) * 2 ^ 32 + (s.reg (R.LCK_CMP_FRAC b)).toNat

/-- Set CMP_b. -/
def State.putCmp (s : State) (b v : Nat) : State := (s.put64 (R.LCK_CMP_LO b) (v / 2 ^ 32)).setReg (R.LCK_CMP_FRAC b) (BitVec.ofNat 32 v)

/-- SPACING_b in 32.32 web counts, as in force at line `l`. -/
def State.spacing (s : State) (b l : Nat) : Nat := (s.view b l).get64 (R.LCK_SPACING_LO b)

/-- OFFSET_b in 32.32 web counts. -/
def State.barOffset (s : State) (b : Nat) : Nat := s.get64 (R.LCK_OFFSET_LO b)

/-- The line clock of bar `b` is on (R239). -/
def State.clockOn (s : State) (b : Nat) : Bool := s.up 4 && s.enabled P_LCK && s.on (F.LCK_BAR_CFG_EN b)

/-- Bar `b` can place boundaries: its clock is on and its spacing is not 0 (R244). -/
def State.hasLines (s : State) (b : Nat) : Bool := s.clockOn b && decide (s.spacing b (s.nextLine b) ≠ 0)

/-- A queued re-phase target takes effect at a line whose compare position `c` satisfies V − SPACING ≤ c ≤ V (R238). -/
def phaseAt (v sp c : Nat) : Bool := decide (v ≤ c + sp) && decide (c ≤ v)

/-- The compare positions of bar `b`'s next `n` lines, with the queued re-phase targets applied; targets that the grid has passed drop out (R238, R239). -/
def cmpSeq : Nat → Nat → Nat → List Nat → List Nat
  | 0, _, _, _ => []
  | n + 1, c, sp, q =>
    match q.dropWhile fun v => decide (v < c) with
    | v :: q' => if phaseAt v sp c then v :: cmpSeq n (v + sp) sp q' else c :: cmpSeq n (c + sp) sp (v :: q')
    | [] => c :: cmpSeq n (c + sp) sp []

/-- The predicted time in 1/64 tick of the boundary of bar `b` that lies `k` lines after its next one (R241); none without a prediction. -/
def State.predict (s : State) (b k : Nat) : Option Nat :=
  if s.hasLines b then
    match (cmpSeq (k + 1) (s.cmp b) (s.spacing b (s.nextLine b)) ((s.clk b).phq.map Prod.fst)).getLast? with
    | some c => s.reach64 c
    | none => none
  else none

/-- Bar `b` belongs to an armed or running job. -/
def State.inJob (s : State) (b : Nat) : Bool := (nth s.pix.bars b).isSome

/-- Some bar belongs to an armed or running job. -/
def State.anyJob (s : State) : Bool := s.pix.bars.any Option.isSome

/-- What bar `b` does in its job. -/
def State.run (s : State) (b : Nat) : Option BarRun := nth s.pix.bars b

/-- Change what bar `b` does in its job. -/
def State.modRun (s : State) (b : Nat) (f : BarRun → BarRun) : State :=
  s.modPix fun p => { p with bars := updNth p.bars b fun r => r.map f }

/-- The job print index of line `l` of bar `b` (R200); negative before the job's first line. -/
def BarRun.index (r : BarRun) (l : Nat) : Option Int :=
  r.first.map fun j => (r.jAt : Int) + sdiff 32 l j

/-- The last line of a job's bar, in print indices: E − 1 + TAIL (R201). -/
def BarRun.lastIndex (r : BarRun) : Option Int := r.endAt.map fun e => (e : Int) - 1 + r.tail

/-- Line `l` is one of the lines that the job prints on the bar (R145, R201, R31). -/
def BarRun.covers (r : BarRun) (l : Nat) : Bool :=
  match r.first, r.index l with
  | some j, some i =>
    lineUpTo j l && (match r.lastIndex with | some e => decide (i ≤ e) | none => true) && (match r.stopAt with | some x => lineBefore l x | none => true)
  | _, _ => false

/-- Line `l` belongs to bar `b`'s job. -/
def State.jobLine (s : State) (b l : Nat) : Bool := match s.run b with | some r => r.covers l | none => false

/-- The first line of bar `b` whose predicted latch point lies at least 2 µs after now, as R117 resolves effective lines; the next line if there is no
prediction. `k` bounds the search. -/
def State.lineAfter (s : State) (b : Nat) (ticks : Nat) : Nat → Nat → Nat
  | 0, i => i
  | k + 1, i =>
    match s.predict b i with
    | none => i
    | some t => if 64 * (s.devtime + ticks) ≤ t then i else s.lineAfter b ticks k (i + 1)

/-- The line that a decision of an active unit takes effect at: its latch point lies at least 2 µs ahead, hence its boundary 3 µs (R117). -/
def State.resolveLine (s : State) (b : Nat) : Nat := lineAdd (s.nextLine b) (s.lineAfter b 1200 64 0)

end Sys2Proof.Machine
end

