-- ==== Sys2Proof/Machine/Nozzle.lean ====
section
/-!
DEFINITION. Sys2Proof/Machine/Nozzle.lean: nozzle correction (R208 to R225): tone words, model state, the sweep of the counter records, the
target gain, visits and passes, density reports, and missing nozzles.
-/
namespace Sys2Proof.Machine

open Sys2Proof

/-- Nozzles of a bar (R190). -/
def nozzles : Nat := 99328

/-- The tone-correction word of nozzle `x` of bar `b` (Table 4.7). -/
def toneAddr (b x : Nat) : Nat := 0x1000000 + 0x80000 * b + 4 * x

/-- GAIN, OFFSET, CURVE, ROW, NOFIRE, DENS_IGNORE and HOLD of a tone word (Tables 7.3 and 8.1). -/
def F.GAIN (b x : Nat) : Fld := ⟨toneAddr b x, 11, 0⟩
def F.TOFS (b x : Nat) : Fld := ⟨toneAddr b x, 19, 12⟩
def F.TCURVE (b x : Nat) : Fld := ⟨toneAddr b x, 23, 20⟩
def F.TROW (b x : Nat) : Fld := ⟨toneAddr b x, 27, 24⟩
def F.NOFIRE (b x : Nat) : Fld := ⟨toneAddr b x, 28, 28⟩
def F.DENS_IGNORE (b x : Nat) : Fld := ⟨toneAddr b x, 30, 30⟩
def F.HOLD (b x : Nat) : Fld := ⟨toneAddr b x, 31, 31⟩

/-- The missing-nozzle bit (Table 4.7). -/
def F.MISS (b x : Nat) : Fld := ⟨0x1400000 + 0x4000 * b + 4 * (x / 32), x % 32, x % 32⟩

/-- ACC and DELTA of the model state (Table 8.2). -/
def F.ACC (b x : Nat) : Fld := ⟨0x1500000 + 0x40000 * b + 4 * (x / 2), 16 * (x % 2) + 15, 16 * (x % 2) + 8⟩
def F.DELTA (b x : Nat) : Fld := ⟨0x1500000 + 0x40000 * b + 4 * (x / 2), 16 * (x % 2) + 7, 16 * (x % 2)⟩

/-- What nozzle correction holds for bar `b`. -/
def State.nz (s : State) (b : Nat) : NzcBar := nth s.pix.nzc b

/-- Change it. -/
def State.modNz (s : State) (b : Nat) (f : NzcBar → NzcBar) : State := s.modPix fun p => { p with nzc := updNth p.nzc b f }

/-- The head, 8 × segment + head, that the head map assigns nozzle `x` of bar `b` (R263). -/
def State.headOf (s : State) (b x : Nat) : Nat :=
  let q := x % 12416
  let starts := (List.range 8).map fun h => if h % 2 = 0 then s.get (F.FIRE_HMAP_START_LO b (x / 12416) (h / 2)) else s.get (F.FIRE_HMAP_START_HI b (x / 12416) (h / 2))
  8 * (x / 12416) + (starts.countP (fun st => decide (st ≤ q)) - 1)

/-- A head of bar `b` is stale (R214). -/
def State.headStale (s : State) (b h : Nat) : Bool := bit (s.get64 (R.NZC_STALE_LO b)) h

/-! ### The model (R213, R215) -/

/-- The wear term, in 1/65,536 of nominal mass (R213). -/
def wear (kw count : Nat) : Nat := kw * (count / 2 ^ 12) / 2 ^ 20

/-- DELTA of a record (R213). -/
def deltaOf (kw count : Nat) (integ : Int) : Int := clampInt ((integ - wear kw count + 64) / 128) (-128) 127

/-- The predicted relative mass × 16,384 (R215). -/
def massM (delta kt tref temp : Int) : Int := clampInt (16384 + 32 * delta + kt * (temp - tref) / 64) 8192 32767

/-- The target gain before its clamp (R215). -/
def gainRaw (m : Int) : Int := (33554432 + m / 2) / m

/-- The target gain of nozzle `x` of bar `b`, and whether the clamp limited it (R215). -/
def State.targetGain (s : State) (b x : Nat) : Nat × Bool :=
  let m := massM (signedOf 8 (s.get (F.DELTA b x))) (signedOf 16 (s.get (F.NZC_TEMP_KT b))) (s.get (F.NZC_TEMP_TREF b)) (nth (s.nz b).temps (s.headOf b x))
  let g := gainRaw m
  let c := clampInt g (s.get (F.NZC_GLIM_GMIN b)) (s.get (F.NZC_GLIM_GMAX b))
  (c.toNat, decide (c ≠ g))

/-- A visit or a pass leaves the nozzle alone: HOLD, MISS, or a stale head (R216). -/
def State.visitSkips (s : State) (b x : Nat) : Bool := s.on (F.HOLD b x) || s.on (F.MISS b x) || s.headStale b (s.headOf b x)

/-- Record which of the nozzles just computed were clamped (R215): LIMIT_NOZ, and GAIN_LIMIT when it leaves 0. -/
def State.noteClamped (s : State) (b : Nat) (l : List (Nat × Bool)) : State :=
  let was := (s.nz b).clamped
  let now := was.filter (fun x => !l.any fun e => e.1 == x) ++ (l.filter fun e => e.2).map fun e => e.1
  let s := (s.modNz b fun z => { z with clamped := now }).put (F.NZC_LIMIT_NOZ b) now.length
  match was, now with
  | [], x :: _ => s.raise { page := P_NZC, bit := 7, bar := some b, detail := leBytes 3 x }
  | _, _ => s

/-- NZC acts on bar `b`: enabled and loaded, and the bar's EN set (R208, R225). -/
def State.nzcActs (s : State) (b : Nat) : Bool := (s.nz b).run && s.on (F.NZC_BAR_CFG_EN b)

/-- The locket's seal of bar `b` suspends visits at boundary `l`: from J until J + 192 (R389). -/
def State.sealing (s : State) (b l : Nat) : Bool :=
  match s.plk.locket with
  | some k => (match nth k.sealAt b with | some j => lineUpTo j l && decide (lineGap l j < 192) | none => false)
  | none => false

/-- No report starts folding from boundary J_0 until boundary J_7 + 192 (R390). -/
def State.densBarred (s : State) (a : Nat) : Bool :=
  match s.plk.locket with
  | some k =>
    (match nth k.sealAt 0 with | some j => lineUpTo j a | none => false) &&
    (match nth k.sealAt 7 with | some j => lineBefore a (lineAdd j 192) | none => true)
  | none => false

/-- The visit of boundary `l` (R216): G* of the nozzles with x mod 4 = l mod 4, and in GRADUAL mode, on one visit in 2^RATE, one code toward it from
the next boundary on. `v` holds the values in force. -/
def State.nzcVisit (s v : State) (b l : Nat) : State :=
  if s.sealing b l then s.modNz b fun z => { z with visit := [] } else
  let xs := (List.range (nozzles / 4)).map fun i => 4 * i + l % 4
  let res := (xs.filter fun x => !s.visitSkips b x).map fun x => (x, v.targetGain b x)
  let s := s.noteClamped b (res.map fun e => (e.1, e.2.2))
  if !v.on F.NZC_CFG_APPLY ∧ l / 4 % 2 ^ v.get (F.NZC_BAR_CFG_RATE b) = 0 then
    let moves := res.filterMap fun e =>
      let g := s.get (F.GAIN b e.1)
      if g < e.2.1 then some (e.1, BitVec.ofNat 32 (g + 1)) else if e.2.1 < g then some (e.1, BitVec.ofNat 32 (g - 1)) else none
    s.modNz b fun z => { z with visit := moves }
  else s.modNz b fun z => { z with visit := [] }

/-- A pass over bar `b` (R217): every nozzle that a visit would not skip takes its target gain. -/
def State.nzcPass (s v : State) (b : Nat) : State :=
  if !(s.up 3 && v.nzcActs b) then s else
  let res := ((List.range nozzles).filter fun x => !s.visitSkips b x).map fun x => (x, v.targetGain b x)
  foldS res (fun e s => s.put (F.GAIN b e.1) e.2.1) (s.noteClamped b (res.map fun e => (e.1, e.2.2)))

/-- Results of the last visit take effect, except where a held master write touches the word (R216, R219); then the held writes land. -/
def State.nzcLand (s : State) (b : Nat) : State :=
  let held := (s.nz b).held
  let s := foldS ((s.nz b).visit.filter fun e => !held.any fun h => h.1 == toneAddr b e.1) (fun e s => s.put (F.GAIN b e.1) e.2.toNat) s
  let s := foldS held (fun h s => s.setReg h.1 h.2) s
  s.modNz b fun z => { z with visit := [], held := [] }

/-- A master write to a tone word or missing-nozzle word of a bar in a job is held; a later one to the same word replaces it (R219). -/
def State.nzcHold (s : State) (b a : Nat) (w : Word) : State :=
  s.modNz b fun z => { z with held := z.held.filter (fun h => h.1 ≠ a) ++ [(a, w)] }

/-- The decisions that the active sent for boundary `l` or an earlier one (R224), and those still to come. -/
def dueTold (l : Nat) (t : List Resolve) : List Resolve × List Resolve :=
  t.partition fun r => match r with
    | .nzcWrites _ x _ => lineUpTo x l
    | .nchkMarks _ x _ => lineUpTo x l
    | .headTemps _ x _ => lineUpTo x l
    | .densityLine _ x => lineUpTo x l
    | _ => true

/-! ### Missing nozzles (R222) -/

/-- Mark a nozzle missing automatically: the MISS bit, the count and the event; `src` is 0 for density, 1 for a nozzle check. -/
def State.autoMiss (s : State) (b x src : Nat) : State :=
  if s.on (F.MISS b x) then s
  else ((s.put (F.MISS b x) 1).satAdd F.NZC_AUTO_MISS_CNT 1).raise
    { page := P_NZC, bit := 6, bar := some b, detail := leBytes 3 x ++ leBytes 1 src }

/-! ### Counting and the sweep (R211 to R213) -/

/-- DRAM offset of the record of nozzle `x` of bar `b` (R211). -/
def State.recordAddr (s : State) (b x : Nat) : Nat := s.get F.NZC_REGION * 0x200000 + 0x100000 * b + 8 * x

/-- DRAM offset of bar `b`'s staging area (R211). -/
def State.stagingAddr (s : State) (b : Nat) : Nat := s.get F.NZC_REGION * 0x200000 + 0x800000 + 0x40000 * b

/-- COUNT and INTEG of a record in DRAM (Table 8.3). -/
def State.record (s : State) (b x : Nat) : Nat × Int :=
  let l := s.dramBytes (s.recordAddr b x) 8
  (leAt l 0 5, signedOf 16 (leAt l 6 2))

/-- The eight bytes of a record. -/
def recordBytes (r : Nat × Int) : List Byte := leBytes 5 r.1 ++ [0] ++ leBytes 2 (unsignedOf 16 r.2)

/-- The record as the block knows it: that of a chunk still on its way back to DRAM, or the one in DRAM. -/
def State.recordNow (s : State) (b x : Nat) : Nat × Int :=
  match (s.nz b).sweeps.reverse.find? fun w => decide (w.chunk = x / 776) with
  | some w => w.recs.getD (x % 776) (s.record b x)
  | none => s.record b x

/-- Count the drops of a fired line (R212). -/
def State.nzcCount (s : State) (b : Nat) (words : List (BitVec 4)) : State :=
  (words.foldl (fun (a : Nat × State) w =>
    (a.1 + 1, if w.toNat % 4 ≠ 0 then a.2.put (F.ACC b a.1) (min 255 (a.2.get (F.ACC b a.1) + 1)) else a.2)) (0, s)).2

/-- The deviation that a folding report gives nozzle `x`, if it gives one (R213, R220). -/
def State.deviation (s : State) (b x : Nat) (d : Dens) : Option Int :=
  if d.first ≤ x ∧ x < d.first + d.count then
    let v := signedOf 16 (leNat (s.dramBytes (s.stagingAddr b + 2 * (x - d.first)) 2))
    if v = -32768 ∨ s.on (F.DENS_IGNORE b x) then none else some v
  else none

/-- The report of bar `b` folds at line `l`: lines A to A + 127 (R221). -/
def Dens.folds (d : Dens) (l : Nat) : Bool :=
  match d.applyAt with
  | some a => d.staged && lineUpTo a l && decide (lineGap l a < 128)
  | none => false

/-- INTEG after folding a deviation (R213). -/
def foldInteg (integ : Int) (kd : Nat) (d : Int) : Int := clampInt (integ + (kd : Int) * d / 4) (-32768) 32767

/-- One nozzle of a sweep (R213): ACC is snapshotted and cleared, its drops are counted, and a folding report moves INTEG and may mark the nozzle. The
answer holds the snapshot and the new record. -/
def State.sweepNozzle (s v : State) (b x : Nat) (dens : Option Dens) : State × Nat × Nat × Int :=
  let a := s.get (F.ACC b x)
  let r := s.recordNow b x
  let count := min (r.1 + a) (2 ^ 40 - 1)
  let dev := match dens with | some d => s.deviation b x d | none => none
  let s := s.put (F.ACC b x) 0
  match dev with
  | none => (s, a, count, r.2)
  | some d =>
    let integ := if !s.on (F.MISS b x) && decide (v.get (F.NZC_BAR_CFG_DBAND b) < d.natAbs) then foldInteg r.2 (v.get (F.NZC_BAR_CFG_KD b)) d else r.2
    if v.on F.NZC_CFG_AUTO_MISS_DENS && decide (d ≤ signedOf 16 (v.get F.NZC_MISS_THR)) then
      let fresh := !s.on (F.MISS b x)
      let s := s.autoMiss b x 0
      let s := if fresh then s.modNz b fun z => { z with dens := z.dens.map fun q => { q with marked := q.marked + 1 } } else s
      (s, a, count, integ)
    else (s, a, count, integ)

/-- The sweep of the chunk of line `l` (R213): 194 accesses of 64 bytes carry its records to the block and back. -/
def State.nzcSweep (s v : State) (b l : Nat) : State :=
  let c := l % 128
  let dens := match (s.nz b).dens with | some d => if d.folds l then some d else none | none => none
  let r := (List.range 776).foldl (fun (a : State × List Nat × List (Nat × Int)) i =>
    let y := a.1.sweepNozzle v b (776 * c + i) dens
    (y.1, a.2.1 ++ [y.2.1], a.2.2 ++ [(y.2.2.1, y.2.2.2)])) (s, [], [])
  r.1.modNz b fun z => { z with sweeps := z.sweeps ++ [{ line := l, chunk := c, accs := r.2.1, recs := r.2.2, kw := v.get (F.NZC_KW b), left := 194 }] }

/-- The records of a chunk are in DRAM. -/
def State.writeChunk (s : State) (b : Nat) (w : Sweep) : State :=
  foldS ((List.range 776).zip w.recs) (fun e s => s.setDram (s.recordAddr b (776 * w.chunk + e.1)) (recordBytes e.2)) s

/-- One DRAM access for bar `b`'s sweeps has completed; the chunk it completes is written back. -/
def State.sweepAccess (s : State) (b : Nat) : State :=
  match (s.nz b).sweeps.find? fun w => decide (w.left ≠ 0) with
  | none => s
  | some w =>
    let w' := { w with left := w.left - 1 }
    let s := if w'.left = 0 then s.writeChunk b w' else s
    s.modNz b fun z =>
      { z with sweeps := (z.sweeps.map fun u => if u = w then w' else u).filter fun u => !(u.past && decide (u.left = 0)) }

/-- An uncorrectable read of a counter granule (Table 13.4): the records in it become COUNT = ACC and INTEG = 0. -/
def State.sweepBad (s : State) (b a : Nat) : State :=
  s.modNz b fun z => { z with sweeps := z.sweeps.map fun w =>
    if w.left = 0 then w else { w with recs := (w.recs.zip w.accs).zipIdx.map fun e =>
      if (s.recordAddr b (776 * w.chunk + e.2)) / 64 = a / 64 then (e.1.2, 0) else e.1.1 } }

/-- At boundary `l` the DELTA values of the chunk swept at line l − 64 take effect, all at once, unless its records are not back: then the chunk is
late and keeps its old values (R213). -/
def State.nzcDeltas (s : State) (b l : Nat) : State :=
  foldS ((s.nz b).sweeps.filter fun w => !w.past && decide (64 ≤ lineGap l w.line)) (fun w s =>
    let s := s.modNz b fun z => { z with sweeps := z.sweeps.filterMap fun u => if u = w then (if u.left = 0 then none else some { u with past := true }) else some u }
    if w.left = 0 then
      foldS ((List.range 776).zip w.recs) (fun e s => s.put (F.DELTA b (776 * w.chunk + e.1)) (unsignedOf 8 (deltaOf w.kw e.2.1 e.2.2))) s
    else
      (s.satAdd F.NZC_SWEEP_LATE_CNT 1).raise { page := P_NZC, bit := 8, bar := some b, line := some w.line, detail := leBytes 1 w.chunk }) s

/-! ### Head temperatures (R214, R224) -/

/-- The latch of a bar's head temperatures: the value of each head, or none for a stale one. -/
def State.latchTemps (s : State) (b : Nat) : List (Option Int) :=
  (List.range 64).map fun h =>
    let x := nth s.zl.heads (64 * b + h)
    match x.time with
    | some t => if s.devtime ≤ t + s.get F.NZC_TSTALE * ms then some x.temp else none
    | none => none

/-- Take a latched set into use 64 lines on: STALE follows it, with HEAD_STALE for each head that becomes stale. -/
def State.takeTemps (s : State) (b l : Nat) (t : List (Option Int)) : State :=
  let s := foldS (List.range 64) (fun h s =>
    let stale := (nth t h).isNone
    let was := s.headStale b h
    let s := s.put64 (R.NZC_STALE_LO b) (let v := s.get64 (R.NZC_STALE_LO b); if stale then v ||| 2 ^ h else v - (v &&& 2 ^ h))
    if stale && !was then s.raise { page := P_NZC, bit := 5, bar := some b, detail := leBytes 1 (h / 8) ++ leBytes 1 (h % 8) } else s) s
  s.modNz b fun z => { z with tempsNext := some (lineAdd l 64, t) }

/-- A latched set as a number list for the pair link; 0x10000 stands for a stale head. -/
def tempsOut (t : List (Option Int)) : List Nat := t.map fun x => match x with | some v => unsignedOf 16 v | none => 0x10000

/-- And back. -/
def tempsIn (t : List Nat) : List (Option Int) := t.map fun v => if v = 0x10000 then none else some (signedOf 16 v)

/-- At boundaries that are multiples of 1,024 a unit latches, and an active sends the set; a standby uses what it received (R214, R224). -/
def State.nzcTemps (s : State) (b l : Nat) : State :=
  let s := match (s.nz b).tempsNext with
    | some (at_, t) =>
      if lineUpTo at_ l then
        s.modNz b fun z => { z with tempsNext := none, temps := (z.temps.zip t).map fun e => e.2.getD e.1 }
      else s
    | none => s
  if l % 1024 = 0 ∧ s.role ≠ .standby then
    let t := s.latchTemps b
    let s := if s.role = .active then s.sendPair (.resolve (.headTemps b l (tempsOut t))) else s
    s.takeTemps b l t
  else s

/-- Nozzles that checks reported failed are marked at boundaries that are multiples of 64, if AUTO_MISS_NC asks for it (R222). -/
def State.nzcNchk (s v : State) (b l : Nat) : State :=
  if l % 64 ≠ 0 then s else
  let xs := (s.nz b).nchk
  let s := s.modNz b fun z => { z with nchk := [] }
  if v.on F.NZC_CFG_AUTO_MISS_NC && v.nzcActs b then
    let s := if s.role = .active ∧ !xs.isEmpty then s.sendPair (.resolve (.nchkMarks b l xs)) else s
    foldS xs (fun x s => s.autoMiss b x 1) s
  else s

/-! ### Density reports (R220, R221) -/

/-- Bytes 24 to 31 of a DENSITY descriptor (Table 8.4). -/
def densResult (res marked line : Nat) : List Byte := leBytes 1 res ++ [0] ++ leBytes 2 (min 0xFFFF marked) ++ leBytes 4 line

/-- A report completes with RESULT `res`. -/
def State.densEnd (s : State) (b res : Nat) (d : Dens) (line : Nat) : State :=
  let s := s.modNz b fun z => { z with dens := none }
  let s := if res = 1 then s.satAdd (F.NZC_DENS_CNT_APPLIED b) 1 else s.satAdd (F.NZC_DENS_CNT_REJECTED b) 1
  let s := s.descDone (16 + b) d.idx (densResult res d.marked line)
  if res = 1 then s.raise { page := P_NZC, bit := 4, bar := some b, detail := leBytes 1 res ++ leBytes 4 d.tag } else s

/-- The next report of DENSITY ring 16 + `b` is taken (R220, R221): checked, tested for freshness, and its buffer read. -/
def State.densityReport (s : State) (b : Nat) : State :=
  if !(s.up 3 && s.enabled P_NZC) || (s.nz b).dens.isSome then s else
  match s.nextDesc (16 + b) with
  | none => s
  | some q =>
    let addr := leAt q.bytes 0 8; let first := leAt q.bytes 8 4; let count := leAt q.bytes 12 4; let tag := leAt q.bytes 16 8
    let d : Dens := { idx := q.idx, first := first, count := count, tag := tag }
    let s := s.takeDesc (16 + b) q.idx
    if addr % 64 ≠ 0 ∨ count = 0 ∨ nozzles < first + count ∨ leAt q.bytes 25 1 ≠ 0 ∨ s.webCount < tag then
      (s.densEnd b 0x0F d 0).ringStop (16 + b) 3
    else if tag < s.get64 (R.NZC_LAST_WC_LO b) + s.get64 (R.NZC_SETTLE_LO b) then s.densEnd b 2 d 0
    else (s.modNz b fun z => { z with dens := some d }).emit (.dmaRead 4 (16 + b) addr (2 * count))

/-- The apply line of a staged report: the first multiple of 128 whose boundary is predicted at least 1 ms after staging (R221); an active sends it to its
partner, and a standby waits for it (R224). `k` bounds the search. -/
def State.densResolve (s : State) (b : Nat) : State :=
  match (s.nz b).dens with
  | none => s
  | some d =>
    if d.applyAt.isSome then s
    else if s.role == .standby then
      match (s.nz b).told.findSome? fun r => match r with | .densityLine _ x => some x | _ => none with
      | some a => s.modNz b fun z => { z with dens := some { d with applyAt := some a } }
      | none => s
    else if !d.staged then s else
    let cand := (List.range 8192).find? fun i =>
      decide (lineAdd (s.nextLine b) i % 128 = 0) && !s.densBarred (lineAdd (s.nextLine b) i) && (match s.predict b i with | some t => decide (64 * (d.stagedAt + ms) ≤ t) | none => false)
    match cand with
    | none => s
    | some i =>
      let a := lineAdd (s.nextLine b) i
      let s := s.modNz b fun z => { z with dens := some { d with applyAt := some a } }
      if s.role = .active then s.sendPair (.resolve (.densityLine b a)) else s

/-- The buffer of the report is in the staging area (R221). -/
def State.densityStaged (s : State) (b : Nat) (data : List Byte) : State :=
  match (s.nz b).dens with
  | none => s
  | some d =>
    if d.staged then s else
    let s := s.setDram (s.stagingAddr b) (padTo (2 * d.count) data)
    (s.modNz b fun z => { z with dens := z.dens.map fun q => { q with staged := true, stagedAt := s.devtime } }).densResolve b

/-- The report at boundary `l` (R221, R224): the web count at A is noted, a report not staged by then is LATE, and one folded completes APPLIED at
boundary A + 191. -/
def State.nzcDens (s : State) (b l : Nat) : State :=
  let s := s.densResolve b
  match (s.nz b).dens with
  | none => s
  | some d =>
    match d.applyAt with
    | none => s
    | some a =>
      if l = a then
        if d.staged then s.modNz b fun z => { z with dens := some { d with wcAtA := s.webCount } } else s.densEnd b 3 d 0
      else if lineUpTo (lineAdd a 191) l then
        ((s.put64 (R.NZC_LAST_WC_LO b) d.wcAtA).put (F.NZC_APPLY_LINE b) a).densEnd b 1 d a
      else s

/-! ### Boundaries, load and drain (R216, R217, R224, R225) -/

/-- What the active told a standby for this boundary takes effect (R224). -/
def State.nzcTold (s : State) (b l : Nat) : State :=
  let t := dueTold l (s.nz b).told
  let s := s.modNz b fun z => { z with told := t.2 }
  foldS t.1 (fun r s => match r with
    | .nzcWrites _ _ ws => s.modNz b fun z => { z with held := z.held.filter (fun h => !ws.any fun w => w.1 == h.1) ++ ws }
    | .nchkMarks _ _ xs => foldS xs (fun x s => s.autoMiss b x 1) s
    | .headTemps _ x ts => s.takeTemps b x (tempsIn ts)
    | _ => s) s

/-- Nozzle correction at boundary `l`, before screening starts (R187): earlier results land, DELTA and temperatures come into force, a pass that is due is
made. -/
def State.nzcBefore (s : State) (b l : Nat) : State :=
  if !s.up 3 then s else
  let s := (s.nzcTold b l).nzcLand b
  let s := if (s.view b l).nzcActs b then (s.nzcDeltas b l).nzcTemps b l else s
  let s := s.nzcNchk (s.view b l) b l
  match (s.nz b).pass with
  | some t => if t ≤ s.devtime then (s.modNz b fun z => { z with pass := none }).nzcPass (s.view b l) b else s
  | none => s

/-- Nozzle correction at boundary `l`, after the line has fired: counting, the sweep, the density report and the visit (R212, R213, R216, R221). A block
that drains stops here (R225). -/
def State.nzcAfter (s : State) (b l : Nat) (fired : Option (List (BitVec 4))) : State :=
  if !(s.up 3) then s
  else if s.on (F.S_DRAINING P_NZC) then s.modNz b fun z => { z with run := false, visit := [], stopLine := if z.run then some l else z.stopLine }
  else
    let v := s.view b l
    if !v.nzcActs b then s else
    let s := match fired with | some w => s.nzcCount b w | none => s
    ((s.nzcSweep v b l).nzcDens b l).nzcVisit v b l

/-- The job of bar `b` ends before the boundary at which held writes would land: they land now (R219). -/
def State.nzcJobEnd (s : State) (b : Nat) : State :=
  let s := foldS (s.nz b).held (fun h s => s.setReg h.1 h.2) s
  s.modNz b fun z => { z with held := [] }

/-- A load is complete (R225): DELTA of every nozzle comes from its record, ACC is 0, and counting, sweeps and visits start with the next boundary. -/
def State.nzcLoaded (s : State) : State :=
  let s := foldS (List.range 8) (fun b s =>
    let s := foldS (List.range nozzles) (fun x s =>
      let r := s.record b x
      (s.put (F.ACC b x) 0).put (F.DELTA b x) (unsignedOf 8 (deltaOf (s.get (F.NZC_KW b)) r.1 r.2))) s
    s.modNz b fun z => { z with run := true }) s
  s.put ⟨R.STATE P_NZC, 8, 8⟩ 0

/-- Draining completes (R225): a report being folded completes as though its remaining chunks had been folded, and every ACC is added into its record. A report that had not
begun to fold finds a new apply line when the block runs again. -/
def State.nzcDrained (s : State) : State :=
  foldS (List.range 8) (fun b s =>
    let s := foldS ((s.nz b).sweeps.filter fun w => decide (w.left ≠ 0)) (fun w s => s.writeChunk b w) s
    let s := s.modNz b fun z => { z with sweeps := [] }
    let stop := (s.nz b).stopLine.getD (s.nextLine b)
    let dens := match (s.nz b).dens with
      | some d => (match d.applyAt with | some a => if d.staged && lineBefore a stop then some d else none | none => none)
      | none => none
    let a := match dens with | some d => d.applyAt.getD 0 | none => 0
    let done := lineGap stop a
    let rest := if dens.isSome then (List.range 128).filter fun i => decide (done ≤ i) else []
    let s := foldS (List.range nozzles) (fun x s =>
      let folds := rest.any fun i => decide ((a + i) % 128 = x / 776)
      let y := s.sweepNozzle s b x (if folds then dens else none)
      y.1.setDram (s.recordAddr b x) (recordBytes (y.2.2.1, y.2.2.2))) s
    let s := match (s.nz b).dens with
      | some d =>
        if dens.isSome then ((s.put64 (R.NZC_LAST_WC_LO b) d.wcAtA).put (F.NZC_APPLY_LINE b) a).densEnd b 1 d a
        else if State.role s == Role.standby then s
        else s.modNz b fun z => { z with dens := some { d with applyAt := none } }
      | none => s
    s.modNz b fun z => { z with run := false, visit := [], pass := none, stopLine := none }) s

end Sys2Proof.Machine
end

