-- ==== Sys2Proof/Machine/Screening.lean ====
section
/-!
DEFINITION. Sys2Proof/Machine/Screening.lean: the screening engines (R186 to R205): tone of a nozzle, redistribution and size, history variant and word,
segment lines and drop counts, the row geometry, and the start and the completion of a line.
-/
namespace Sys2Proof.Machine

open Sys2Proof

/-! ### The per-dot computation (R190 to R196) -/

/-- The level of a contone value under GAIN and OFFSET (R190). -/
def toneLevel (v gain : Nat) (offset : Int) : Int := clampInt (((v * 257 * gain + 16384) / 2 ^ 15 : Nat) + 4 * offset) 0 4096

/-- Knot `i` of curve `c`; curve 0 is the identity (R192). -/
def State.knot (s : State) (b c i : Nat) : Int :=
  if c = 0 then 512 * i
  else if i % 2 = 0 then s.get (F.SCN_CURVE_KNOT_LO b (c - 1) (i / 2)) else s.get (F.SCN_CURVE_KNOT_HI b (c - 1) (i / 2))

/-- A curve through its knots `k`, at input `l` (R192). -/
def curveAt (k : Nat → Int) (l : Int) : Int :=
  let s := min (l.toNat / 512) 7
  clampInt (k s + ((k (s + 1) - k s) * (l - 512 * s) + 256) / 512) 0 4096

/-- What phase 1 gives for a nozzle: its tone, whether it is blank, its position within the job's image, and whether its row entry is disabled or its contone
line missing (R190). -/
structure Dot where
  t : Int := 0
  a : Int := 0
  blank : Bool := false
  rowinv : Bool := false
  under : Bool := false

/-- C(cl, k): a byte of the contone ring; an uncorrectable one reads 0 (R172, Table 13.4). -/
def State.contone (s : State) (b lx k : Nat) : Nat := (s.dramRead (s.contoneAddr b lx k)).toNat

/-- Contone under image column `col` of a line (R190): nearest, or centred linear at 600 ppi. -/
def sampleAt (xres ups : Bool) (c : Nat → Nat) (col : Int) : Nat :=
  if col < 0 ∨ 99327 < col then 0
  else
    let x := col.toNat
    if xres then c x
    else
      let k := x / 2
      if !ups then c k
      else
        let k2 := if x % 2 = 0 then k - 1 else min (k + 1) 49663
        (3 * c k + c k2 + 2) / 4

/-- Phase 1 for nozzle `x` of the line `j` of bar `b` (R190). `s` holds the registers as they stood at the boundary that started the line. -/
def State.dot (s : State) (b : Nat) (k : Scn) (q : ScreenJob) (x : Nat) : Dot :=
  let r := s.get (F.TROW b x)
  if !bit (s.get (F.SCN_ROW_EN b)) r then { blank := true, rowinv := true }
  else
    let a := q.j - s.get (F.SCN_ROW_OFF b r)
    if decide (a < 0) || (match q.endAt with | some e => decide ((e : Int) ≤ a) | none => false) then { a := a, blank := true }
    else
      let lx := k.clx + (a.toNat * k.cRes) / k.pRes
      if q.wrLx ≤ lx then { a := a, blank := true, under := true }
      else
        let v := sampleAt (s.on (F.IMG_CRING_CFG_XRES b)) (s.on (F.SCN_CFG_UPS b)) (s.contone b lx) (x + signedOf 16 (s.get (F.SCN_XSHIFT b)))
        if v = 0 then { a := a }
        else { a := a, t := curveAt (s.knot b (s.get (F.TCURVE b x))) (toneLevel v (s.get (F.GAIN b x)) (signedOf 8 (s.get (F.TOFS b x)))) }

/-- BAYER of Table 7.2. -/
def bayer (ym xm : Nat) : Nat := ([0, 8, 2, 10, 12, 4, 14, 6, 3, 11, 1, 9, 15, 7, 13, 5] : List Nat).getD (4 * (ym % 4) + xm % 4) 0

/-- TH(set, k, xm, ym): a byte of a threshold mask (R193). -/
def State.threshAt (s : State) (set k xm ym : Nat) : Nat :=
  let a := 0x1800000 + 0x100000 * set + 0x40000 * (k - 1) + 512 * ym + xm
  getBits (8 * (a % 4) + 7) (8 * (a % 4)) (s.reg (a / 4 * 4))

/-- The number of thresholds that a tone exceeds (R190). -/
def sizeOf_ (th : Nat → Nat) (bay : Nat) (t : Int) : Nat :=
  ([1, 2, 3] : List Nat).countP fun k => decide ((16 * th k + bay : Nat) < t)

/-- The tone that missing neighbours pass on to a nozzle, added to its own (R190). -/
def redistribute (w1 w2 : Nat) (t m1 m1' m2 m2' : Int) : Int :=
  min (t + (w1 * (m1 + m1') + w2 * (m2 + m2') + 128) / 256) 4096

/-- Phase 2: the size of nozzle `x` (R190). -/
def State.dotSize (s : State) (b : Nat) (k : Scn) (q : ScreenJob) (x : Nat) : Nat :=
  let d := s.dot b k q x
  if d.blank || s.on (F.MISS b x) || s.on (F.NOFIRE b x) then 0
  else
    let m (i : Int) : Int :=
      if i < 0 ∨ 99327 < i then 0 else if s.on (F.MISS b i.toNat) then (s.dot b k q i.toNat).t else 0
    let t := redistribute (s.get F.NZC_REDIST_W1) (s.get F.NZC_REDIST_W2) d.t (m (x - 1)) (m (x + 1)) (m (x - 2)) (m (x + 2))
    let xm := (x + s.get (F.SCN_MASK_OFF_X b)) % 512
    let ym := ((d.a + s.get (F.SCN_MASK_OFF_Y b)) % 512).toNat
    sizeOf_ (fun k => s.threshAt (s.get (F.SCN_CFG_MASK_SET b)) k xm ym) (bayer ym xm) t

/-- The history entry for a size and the two history bits, in a bank's word (R196, R261). -/
def variantOf (w : Word) (size : Nat) (o1 o2 : Bool) : Nat :=
  let i := 4 * size + 2 * b2n o1 + b2n o2
  getBits (2 * i + 1) (2 * i) w

/-- The history word in use for a head: the set that SEL selects, and the hot bank while the head is HOT or STOPPED (R196, R261, R265). -/
def State.historyWord (s : State) (b head : Nat) : Word :=
  s.reg (0x1700000 + 0x2000 * b + 8 * s.get (F.FIRE_SEL_HIST_SET b) + (if bit (s.get64 (R.FIRE_HOT_LO b)) head then 4 else 0))

/-- The nozzle word (R196): variant in bits 3:2 and size in bits 1:0; 0 for size 0. -/
def State.nozzleWord (s : State) (b : Nat) (q : ScreenJob) (x size : Nat) (o1 o2 : Bool) : BitVec 4 :=
  if size = 0 then 0
  else
    let v := if q.historyEn then variantOf (s.historyWord b (s.headOf b x)) size o1 o2 else 0
    BitVec.ofNat 4 (4 * v + size)

/-- A list of booleans filled with false to a line's length. -/
def boolLine (l : List Bool) : List Bool := (l ++ List.replicate nozzles false).take nozzles

/-- The words of a line (R190, R196). -/
def State.screenWords (s : State) (b : Nat) (k : Scn) (q : ScreenJob) : List (BitVec 4) :=
  let v := { s with regs := q.regs }
  ((List.range nozzles).zip ((boolLine k.hist1).zip (boolLine k.hist2))).map fun e =>
    v.nozzleWord b q e.1 (v.dotSize b k q e.1) e.2.1 e.2.2

/-- The 12 drop counts of a segment line (R198), index 4 × (size − 1) + variant. -/
def dropCounts (words : List (BitVec 4)) : List Nat :=
  (List.range 12).map fun i => words.countP fun w => decide (w.toNat % 4 = i / 4 + 1) && decide (w.toNat / 4 = i % 4)

/-- The segment lines of a bar's words (R197). -/
def segLine (words : List (BitVec 4)) (seg : Nat) : List (BitVec 4) := (words.drop (12416 * seg)).take 12416

/-- The 6,208 bytes of a segment line: even local indices in the low nibbles (R197). -/
def segBytes : List (BitVec 4) → List Byte
  | a :: b :: l => BitVec.ofNat 8 (a.toNat + 16 * b.toNat) :: segBytes l
  | [a] => [BitVec.ofNat 8 a.toNat]
  | [] => []

/-! ### Geometry (R199, R202, R205) -/

/-- Offsets of the enabled rows. -/
def State.rowOffsets (s : State) (b : Nat) : List Nat := (bitsOf (s.get (F.SCN_ROW_EN b)) 16).map fun r => s.get (F.SCN_ROW_OFF b r)

/-- The distinct ones of a list. -/
def distinct : List Nat → List Nat
  | [] => []
  | x :: l => if l.contains x then distinct l else x :: distinct l

/-- F: the distinct offsets among the enabled rows. -/
def State.fetchF (s : State) (b : Nat) : Nat := (distinct (s.rowOffsets b)).length

/-- The largest offset of the enabled rows: TAIL. -/
def State.maxOffset (s : State) (b : Nat) : Nat := (s.rowOffsets b).foldl max 0

/-- The smallest offset of the enabled rows. -/
def State.minOffset (s : State) (b : Nat) : Nat := (s.rowOffsets b).foldl min (s.maxOffset b)

/-- The print pitch in lines per inch (Table 9.5). -/
def State.pitch (s : State) (b : Nat) : Nat := ([600, 900, 1200, 1600] : List Nat).getD (s.get (F.LCK_BAR_CFG_PITCH b)) 1200

/-- The contone down-web resolution in lines per inch (Table 6.6). -/
def State.contoneRes (s : State) (b : Nat) : Nat := ([300, 600, 1200] : List Nat).getD (s.get (F.IMG_CRING_CFG_YRES b)) 300

/-- SPAN in contone lines (R205). -/
def spanOf (dmax c p : Nat) : Nat := (dmax * c + p - 1) / p

/-- BANDS_min (R205). -/
def bandsMin (span : Nat) : Nat := (span + 2 + 63) / 64 + 2

/-- The first condition of the geometry check that fails, if any (R205). -/
def State.geometryFail (s : State) (b : Nat) (span : Nat) : Option Nat :=
  if (if s.on (F.IMG_CRING_CFG_XRES b) then 8 else 16) < s.fetchF b then some 0
  else if s.get (F.SCN_ROW_EN b) = 0 then some 1
  else if 4095 < span then some 2
  else if s.get (F.IMG_CRING_CFG_BANDS b) < bandsMin span then some 3
  else none

/-! ### Lines -/

/-- The screening engine of bar `b`. -/
def State.scn (s : State) (b : Nat) : Scn := nth s.pix.scn b

/-- Change it. -/
def State.modScn (s : State) (b : Nat) (f : Scn → Scn) : State := s.modPix fun p => { p with scn := updNth p.scn b f }

/-- A line of the bar's FIFO. -/
def State.fifoLine (s : State) (b l : Nat) : Option LineBuf := (s.scn b).fifo.find? fun x => decide (x.line = l)

/-- Put a line into the FIFO, which holds four. -/
def State.putFifo (s : State) (b : Nat) (x : LineBuf) : State :=
  s.modScn b fun k => { k with fifo := (k.fifo.filter (fun y => y.line ≠ x.line) ++ [x]).drop (k.fifo.length - 3) }

/-- A line sent as all no-fire words (R23). -/
def noFireLine (l : Nat) : LineBuf :=
  { line := l, words := List.replicate nozzles 0, counts := List.replicate 8 (List.replicate 12 0), noFire := true }

/-- The latch at a job's first line `j` on bar `b` (R190, R200, R201, R205): c, p, JOB_LINE0, JOB_CLINE, empty history, and the geometry check. -/
def State.screenFirst (s : State) (b j : Nat) : State :=
  let c := s.contoneRes b
  let p := s.pitch b
  let span := spanOf (s.maxOffset b) c p
  let s := s.modScn b fun k => { k with cRes := c, pRes := p, clx := (s.img b).jobLx, hist1 := [], hist2 := [], fifo := [], job := none, bad := false }
  let s := (s.put (F.SCN_JOB_LINE0 b) j).put (F.SCN_JOB_CLINE b) (s.img b).jobLx
  let s := ((s.put (F.SCN_FETCH_SPAN b) (min 0xFFF span)).put (F.SCN_FETCH_F b) (s.fetchF b)).put (F.SCN_TAIL b) (s.maxOffset b)
  match s.geometryFail b span with
  | none => s
  | some code =>
    ((s.modScn b fun k => { k with bad := true }).put (F.S_FAULT (P_SCN b)) 1).raise { page := P_SCN b, bit := 0, detail := leBytes 1 code }

/-- The engine can screen: enabled, not draining, without a geometry fault, and its carats granted (R189, R205). -/
def State.canScreen (s : State) (b : Nat) : Bool :=
  s.enabled (P_SCN b) && !s.on (F.S_DRAINING (P_SCN b)) && !s.on (F.S_FAULT (P_SCN b)) && !(s.scn b).bad && s.holdsCarats 0 b

/-- The contone line that a row of offset `d` reads at index `j`. -/
def contoneLine (k : Scn) (j : Int) (d : Nat) : Nat := k.clx + ((j - d).toNat * k.cRes) / k.pRes

/-- The next contone line that a row of offset `d` will need after index `j` (R203, R204). -/
def nextContone (k : Scn) (j : Int) (d : Nat) : Nat := if j < d then k.clx else max (contoneLine k j d + 1) (contoneLine k (j + 1) d)

/-- Release ring slots and move the fetch position as the line of index `j` starts (R204): lines below the one that the row with the largest offset reads are
released, and the fetch position is the next line that the row with the smallest offset will need. Row-line slots follow (R202, R203). -/
def State.screenFetch (s : State) (b : Nat) (j : Int) : State :=
  let k := s.scn b
  let rel := contoneLine k j (s.maxOffset b)
  let next := nextContone k j (s.minOffset b)
  let s := s.modImg b fun r => { r with relLx := max r.relLx rel, fetchLx := max r.fetchLx next }
  let wr := (s.img b).wrLx
  s.modScn b fun k => { k with slots := (distinct (s.rowOffsets b)).map fun d =>
    { ofs := d, lx := if (d : Int) ≤ j then some (contoneLine k j d) else none, next := decide (nextContone k j d < wr) } }

/-- The line that was being screened is not complete when its transmission is due (R23): it goes out as no-fire words, and is counted and reported with cause 1.
A line whose screening had started counts as screened in the history (R196). -/
def State.screenLate (s : State) (b l : Nat) : State :=
  let s := match (s.scn b).job with
    | some q =>
      if q.line = l ∧ !q.dead then
        let w := s.screenWords b (s.scn b) q
        s.modScn b fun k => { k with hist2 := k.hist1, hist1 := w.map fun (x : BitVec 4) => decide (x.toNat % 4 ≠ 0) }
      else s
    | none => s
  let s := s.modScn b fun k => { k with job := match k.job with | some q => if q.line = l then none else some q | none => none }
  ((s.putFifo b (noFireLine l)).satAdd (F.SCN_INCOMPL_CNT b) 1).raise { page := P_SCN b, bit := 4, line := some l, detail := leBytes 1 1 }

/-- Screening of line `l` with index `j` starts at a boundary whose values are in `v` (R186, R187). -/
def State.screenStart (s v : State) (b l : Nat) (j : Int) (endAt : Option Nat) : State :=
  let s := s.put64 (R.SCN_JOB_INDEX_LO b) j.toNat
  let s := s.screenFetch b j
  let q : ScreenJob :=
    { line := l, j := j, regs := v.regs, wrLx := (s.img b).wrLx, dead := !s.canScreen b, historyEn := (s.fbar b).histEn, endAt := endAt, startedAt := s.devtime }
  s.modScn b fun k => { k with job := some q }

/-- Screening of the line in progress is complete (R186, R196 to R199): words and counts go to the FIFO, the history moves on, missing contone lines and disabled
rows are counted and reported, and the cycles are kept. A line that R23 handles does not complete. -/
def State.screenDone (s : State) (b : Nat) : State :=
  match (s.scn b).job with
  | none => s
  | some q =>
    if q.dead then s else
    let k := s.scn b
    let v := { s with regs := q.regs }
    let words := s.screenWords b k q
    let dots := (List.range nozzles).map fun x => (x, v.dot b k q x)
    let inv := dots.filter fun d => d.2.rowinv
    let under := dots.any fun d => d.2.under
    let counts := (List.range 8).map fun i => dropCounts (segLine words i)
    let s := s.modScn b fun k => { k with job := none, hist2 := k.hist1, hist1 := words.map fun (w : BitVec 4) => decide (w.toNat % 4 ≠ 0) }
    let s := (s.putFifo b { line := q.line, words := words, counts := counts }).put (F.SCN_LINE b) q.line
    let cyc := min 0xFFFF (s.devtime - q.startedAt)
    let s := (s.put (F.SCN_CYC_LAST b) cyc).peak (F.SCN_CYC_MAX b) cyc
    let s := if under then
        (s.satAdd (F.SCN_UNDER_CNT b) 1).raise { page := P_SCN b, bit := 4, line := some q.line, detail := leBytes 1 0 } else s
    let s := s.satAdd (F.SCN_ROWINV_CNT b) inv.length
    match inv with
    | d :: _ => s.raise { page := P_SCN b, bit := 5, line := some q.line, detail := leBytes 3 d.1 }
    | [] => s

/-- At boundary `l` (R21, R203): line l + 1 is due for transmission and must be complete; then screening of l + 2 starts if it is a line of the job. -/
def State.screenBoundary (s v : State) (b l : Nat) : State :=
  match s.run b with
  | none => s
  | some r =>
    let s := if r.covers (lineAdd l 1) && (s.fifoLine b (lineAdd l 1)).isNone then s.screenLate b (lineAdd l 1) else s
    let l2 := lineAdd l 2
    match r.index l2 with
    | none => s
    | some j =>
      if r.covers l2 then
        let s := if r.first = some l2 then s.screenFirst b l2 else s
        s.screenStart v b l2 j r.endAt
      else s

/-! ### Threshold masks (R194, R195) -/

/-- The mask sets in use: selected by an enabled SCN page (R194). -/
def State.masksInUse (s : State) : Nat :=
  (List.range 8).foldl (fun m b =>
    if s.up 3 && s.enabled (P_SCN b) then m ||| 2 ^ (s.view b (s.nextLine b)).get (F.SCN_CFG_MASK_SET b) else m) 0

/-- A check of mask set `k` starts (R195). -/
def State.maskCheck (s : State) (k : Nat) : State :=
  if s.pix.maskChk.contains k then s
  else (s.modPix fun p => { p with maskChk := p.maskChk ++ [k] }).put F.SCN_MASK_STAT_CHK_BUSY (s.get F.SCN_MASK_STAT_CHK_BUSY ||| 2 ^ k)

/-- The bytes of mask set `k` in address order (R195). -/
def State.maskBytes (s : State) (k : Nat) : List Byte :=
  ((List.range 196608).map fun i => leBytes 4 (s.reg (0x1800000 + 0x100000 * k + 4 * i)).toNat).flatten

/-- The check of mask set `k` is done: its CRC-32C, and MASK_CHK_DONE (R195). -/
def State.maskCheckDone (s : State) (k : Nat) : State :=
  if s.pix.maskChk.contains k then
    let s := s.modPix fun p => { p with maskChk := p.maskChk.erase k }
    let s := s.put F.SCN_MASK_STAT_CHK_BUSY (s.get F.SCN_MASK_STAT_CHK_BUSY - 2 ^ k)
    (s.put (F.SCN_MASK_CRC k) (crc32c (s.maskBytes k)).toNat).raise { page := P_SCN 0, bit := 6, detail := leBytes 1 k }
  else s

end Sys2Proof.Machine
end

