-- ==== Sys2Proof/Machine/Firing.lean ====
section
/-!
DEFINITION. Sys2Proof/Machine/Firing.lean: the firing engines (R249 to R269): minimum line period, fire time, deferral and dropping, phase slots, delays and
the fit check, the fired line, pulses and the strobe watchdog, head states, and dot capture.
-/
namespace Sys2Proof.Machine

open Sys2Proof

/-! ### Values in force (R251, R252, R255) -/

/-- SEGDLY of segment `g` of bar `b`. -/
def State.segDelay (s : State) (b g : Nat) : Nat := getBits (8 * (g % 4) + 5) (8 * (g % 4)) (s.reg (R.FIRE_SEGDLY b (g / 4)))

/-- The largest SEGDLY of bar `b`. -/
def State.segDelayMax (s : State) (b : Nat) : Nat := (List.range 8).foldl (fun m g => max m (s.segDelay b g)) 0

/-- STITCH of segment `g` of bar `b`, as its 8 bits. -/
def State.stitch (s : State) (b g : Nat) : Nat := getBits (8 * (g % 4) + 7) (8 * (g % 4)) (s.reg (R.FIRE_STITCH b (g / 4)))

/-- WEIGHT of index `i` = 4 × (size − 1) + variant (Table 10.6). -/
def State.weight (s : State) (b i : Nat) : Nat := if i % 2 = 0 then s.get (F.FIRE_WEIGHT_W_LO b (i / 2)) else s.get (F.FIRE_WEIGHT_W_HI b (i / 2))

/-- The slot bank in force at line `l`: SEL, toggled by a SWAP that is due by then (R255). -/
def State.bankAt (s : State) (b l : Nat) : Nat :=
  let k := (s.view b l).get (F.FIRE_SEL_SLOT_BANK b)
  match (s.clk b).swap with
  | some x => if lineUpTo x l then 1 - k else k
  | none => k

/-- The minimum line period that registers and HIBs ask for (R252). -/
def State.mlpWanted (s : State) (b : Nat) : Nat := max 2500 (max (s.get (F.FIRE_MLP_FLOOR b)) (s.get (F.FIRE_MLP_HEAD b)))

/-- The minimum line period in force at line `l` (R252). -/
def State.mlpAt (s : State) (b l : Nat) : Nat :=
  match (s.fbar b).mlpRise with
  | some (x, v) => if lineUpTo x l then max v (s.get (F.FIRE_MLP_EFF b)) else s.get (F.FIRE_MLP_EFF b)
  | none => s.get (F.FIRE_MLP_EFF b)

/-- The first line from `l` on whose number is a multiple of 64. -/
def next64 (l : Nat) : Nat := lineAdd l ((64 - l % 64) % 64)

/-- The HIB at port `p` of bar `b` declares a period (R252): a rise during a job takes effect at a multiple of 64; in a pair the active decides its line (R266). -/
def State.declareMlp (s : State) (b p v : Nat) : State :=
  if !s.up 4 then s else
  let s := s.modFbar b fun f => { f with declared := updNth f.declared p fun _ => v }
  let s := s.put (F.FIRE_MLP_HEAD b) ((s.fbar b).declared.foldl max 0)
  let held := match (s.fbar b).mlpRise with | some (_, x) => max x (s.get (F.FIRE_MLP_EFF b)) | none => s.get (F.FIRE_MLP_EFF b)
  if s.inJob b ∧ held < s.mlpWanted b ∧ s.role ≠ .standby then
    if s.role = .active then
      let x := next64 (s.resolveLine b)
      (s.modFbar b fun f => { f with mlpRise := some (x, s.mlpWanted b) }).sendPair (.resolve (.mlpRaise b x (s.mlpWanted b)))
    else s.modFbar b fun f => { f with mlpRise := some (next64 (s.nextLine b), s.mlpWanted b) }
  else s

/-- The allowance B of bar `b` per slot (R342). -/
def State.allowance (s : State) (b : Nat) : Nat :=
  min 65535 (s.get (F.CRT_FGROUP_BUDGET (getBits (2 * b + 1) (2 * b) (s.reg R.CRT_BAR_GROUP))) * s.get (F.CRT_SHARE b) / 256)

/-! ### Slots and delays (R256, R257) -/

/-- e[s] of a segment from its 12 drop counts, in 2^−12 firing carat. -/
def energy (w : Nat → Nat) (cnt : List Nat) : Nat := (List.range 12).foldl (fun e i => e + nth cnt i * w i) 0

/-- Insert a segment into a list by decreasing energy, equal energies by increasing number. -/
def insertSeg (e : Nat → Nat) (g : Nat) : List Nat → List Nat
  | [] => [g]
  | x :: l => if e x < e g ∨ (e x = e g ∧ g < x) then g :: x :: l else x :: insertSeg e g l

/-- The segments in the order of the assignment. -/
def segOrder (e : Nat → Nat) : List Nat := (List.range 8).foldl (fun l g => insertSeg e g l) []

/-- The slot with the least load, equal loads by the lowest slot; `loads` is not empty. -/
def leastLoad (loads : List Nat) : Nat :=
  (List.range loads.length).foldl (fun k i => if nth loads i < nth loads k then i else k) 0

/-- The slot of a segment of energy `e` with home slot `h` (R256). -/
def pickSlot (nslot b h e : Nat) (loads : List Nat) : Nat :=
  (((List.range nslot).map fun i => (h + i) % nslot).find? fun k => decide (nth loads k + e ≤ 4096 * b)).getD (leastLoad loads)

/-- Slots of the eight segments, and the loads of the slots (R256). -/
def assignSlots (nslot : Nat) (spread : Bool) (home : Nat → Nat) (b : Nat) (e : Nat → Nat) : List Nat × List Nat :=
  let n := max 1 nslot
  let start : List Nat × List Nat := (List.replicate 8 0, List.replicate n 0)
  (if spread then segOrder e else List.range 8).foldl (fun a g =>
    let h := min (home g) (n - 1)
    let k := if spread then pickSlot n b h (e g) a.2 else h
    (updNth a.1 g fun _ => k, updNth a.2 k fun x => x + e g)) start

/-- The most loaded slot, equal loads by the lowest slot. -/
def peakLoad (loads : List Nat) : Nat :=
  (List.range loads.length).foldl (fun k i => if nth loads k < nth loads i then i else k) 0

/-- d[s] in 1/64 tick: SEGDLY × T̂ / 64 rounded to the nearest tap of 39.0625 ps, where T̂ = spacing × ticks / counts (R257). -/
def delay64 (dly spacing ticks counts : Nat) : Nat :=
  if counts = 0 then 0 else (2 * dly * spacing * ticks + counts * 2 ^ 32) / (2 * counts * 2 ^ 32)

/-! ### Commit of a line (R240, R253 to R257) -/

/-- What the commit of line `l` fixes for the firing engine, given t_B in 1/64 tick. The line is one that was transmitted (`q`). -/
def State.fireCommit (s : State) (b l tB : Nat) (q : Sent) : Commit :=
  let v := s.view b l
  let k := s.bankAt b l
  let mlp := s.mlpAt b l
  let speed := s.speedSum s.webCh
  let spacing := v.spacing b l
  let e := (List.range 8).map fun g => energy (v.weight b) (nth q.counts g)
  let home := (s.reg (R.FIRE_SLOT_HOME b k)).toNat
  let a := assignSlots (s.get (F.FIRE_SLOT_CFG_NSLOT b k)) (s.on (F.FIRE_SLOT_CFG_SPREAD b k)) (fun g => home / 8 ^ g % 8) (v.allowance b) (fun g => nth e g)
  let gap := s.get (F.FIRE_SLOT_CFG_SPACING b k)
  let d := (List.range 8).map fun g => delay64 (v.segDelay b g) spacing speed.1 speed.2
  let width := v.get (F.FIRE_WIDTH b)
  let extent := ((List.range 8).foldl (fun m g => max m (64 * gap * nth a.1 g + nth d g)) 0) + 64 * width
  let f := match (s.fbar b).lastLine with
    | none => tB
    | some (_, fp, xp) => max tB (max (fp + 64 * mlp) (xp + 64 * 40))
  let deferMax := v.get (F.FIRE_DEFER_NOM_PERIOD b) * v.get (F.FIRE_DEFER_FRAC b) / 256
  let drop :=
    if 64 * deferMax < f - tB then some 0
    else if spacing * speed.1 * 64 < (f + extent + 64 * 40 - tB) * (speed.2 * 2 ^ 32) then some 1
    else none
  { line := l, tB := tB, fireAt := f, defer := f - tB, drop := drop, slots := a.1, delays := d, energy := e, extent := extent,
    overload := a.2.any fun x => decide (4096 * v.allowance b < x), peakSlot := peakLoad a.2, width := width, spacing := gap, inJob := true }

/-- The fit check of bar `b` with the values of `v`, slot bank `k` and minimum line period `mlp` (R258). -/
def fits (v : State) (b k mlp : Nat) : Bool :=
  decide ((v.get (F.FIRE_SLOT_CFG_NSLOT b k) - 1) * v.get (F.FIRE_SLOT_CFG_SPACING b k) + (v.segDelayMax b * mlp + 63) / 64
    + v.get (F.FIRE_WIDTH b) + 40 ≤ mlp)

/-- The values on which the fit check depends (R258). -/
def fitKeyOf (v : State) (b k mlp : Nat) : List Nat :=
  [(v.reg (R.FIRE_SEL b)).toNat, k, (v.reg (R.FIRE_SLOT_CFG b k)).toNat, (v.reg (R.FIRE_SLOT_HOME b k)).toNat, (v.reg (R.FIRE_SEGDLY b 0)).toNat,
    (v.reg (R.FIRE_SEGDLY b 1)).toNat, v.get (F.FIRE_WIDTH b), mlp]

/-- Make the fit check at line `l` and report a failure (R258). -/
def State.fitCheck (s v : State) (b l : Nat) : State :=
  let k := v.get (F.FIRE_SEL_SLOT_BANK b)
  let mlp := s.get (F.FIRE_MLP_EFF b)
  let s := s.modFbar b fun f => { f with fitKey := fitKeyOf v b k mlp }
  if fits v b k mlp then s else s.raise { page := P_FIRE b, bit := 9, line := some l }

/-- A START that includes bar `b` is consumed: MLP is fixed, and the fit check made (R252, R258). -/
def State.fireJobStart (s : State) (b : Nat) : State :=
  let s := (s.put (F.FIRE_MLP_EFF b) (s.mlpWanted b)).modFbar b fun f => { f with lastLine := none, mlpRise := none }
  s.fitCheck (s.view b (s.nextLine b)) b (s.nextLine b)

/-! ### Head states (R264 to R266) -/

/-- The START of head `h` of segment `g` (R263). -/
def State.headStart (s : State) (b g h : Nat) : Nat :=
  if h % 2 = 0 then s.get (F.FIRE_HMAP_START_LO b g (h / 2)) else s.get (F.FIRE_HMAP_START_HI b g (h / 2))

/-- Head `h` (8 × segment + head) of bar `b` is used (R263). -/
def State.headUsed (s : State) (b h : Nat) : Bool := decide (s.headStart b (h / 8) (h % 8) < 12416)

/-- θ of a head: its latest temperature; above every threshold if it is stale or its sensor failed (R264). -/
def State.headTheta (s : State) (b h : Nat) : Int :=
  let x := nth s.zl.heads (64 * b + h)
  match x.time with
  | some t => if s.devtime ≤ t + s.get F.NZC_TSTALE * ms ∧ !x.fault then x.temp else 0x10000
  | none => 0x10000

/-- One measurement of a head (Table 10.3). The answer holds the new state if it changes. -/
def headStep (limit warn hyst : Int) (dwell : Nat) (θ : Int) (h : Head) : Head × Option Nat :=
  let n (c : Bool) (k : Nat) : Nat := if c then k + 1 else 0
  let move (st : Nat) : Head × Option Nat := ({ h with st := st, upHot := 0, upStop := 0, down := 0 }, some st)
  if h.st = 0 then
    let a := n (decide (limit ≤ θ)) h.upStop
    let b := n (decide (warn ≤ θ) && decide (θ < limit)) h.upHot
    if dwell ≤ a then move 2 else if dwell ≤ b then move 1 else ({ h with upStop := a, upHot := b, down := 0 }, none)
  else if h.st = 1 then
    let a := n (decide (limit ≤ θ)) h.upStop
    let c := n (decide (θ < warn - hyst)) h.down
    if dwell ≤ a then move 2 else if dwell ≤ c then move 0 else ({ h with upStop := a, down := c, upHot := 0 }, none)
  else
    let c := n (decide (θ < limit - hyst)) h.down
    if dwell ≤ c then move 1 else ({ h with down := c, upStop := 0, upHot := 0 }, none)

/-- A change of a head's state waits for its line (R265). -/
def State.headChange (s : State) (b h line st : Nat) : State :=
  s.modFbar b fun f => { f with heads := updNth f.heads h fun x => { x with st := st, next := some (line, st) } }

/-- A measurement of every used head of bar `b` (R264); a standby leaves the decisions to the active (R266). -/
def State.headMeasure (s : State) (b : Nat) : State :=
  if !(s.up 4 && s.enabled (P_FIRE b)) || s.role == .standby then s else
  let limit := signedOf 16 (s.get (F.FIRE_HTEMP_LIMIT b))
  let warn := signedOf 16 (s.get (F.FIRE_HTEMP_WARN b))
  foldS ((List.range 64).filter fun h => s.headUsed b h) (fun h s =>
    let r := headStep limit warn (s.get (F.FIRE_HTEMP_CFG_HYST b)) (s.get (F.FIRE_HTEMP_CFG_DWELL b)) (s.headTheta b h) (nth (s.fbar b).heads h)
    let s := s.modFbar b fun f => { f with heads := updNth f.heads h fun _ => r.1 }
    match r.2 with
    | none => s
    | some st =>
      let x := s.resolveLine b
      let s := s.headChange b h x st
      if s.role = .active then s.sendPair (.resolve (.headState b x h st)) else s) s

/-- The state in force of a head, as HOT and STOPPED show it (R265). -/
def State.headState (s : State) (b h : Nat) : Nat :=
  if bit (s.get64 (R.FIRE_STOPPED_LO b)) h then 2 else if bit (s.get64 (R.FIRE_HOT_LO b)) h then 1 else 0

/-- A 64-bit number with one bit set or cleared. -/
def setBit64 (v i : Nat) (on : Bool) : Nat := if on then v ||| 2 ^ i else v - (v &&& 2 ^ i)

/-- Changes of head states that are due at boundary `l` take effect (R265). -/
def State.headsLand (s : State) (b l : Nat) : State :=
  foldS (List.range 64) (fun h s =>
    match (nth (s.fbar b).heads h).next with
    | none => s
    | some (x, st) =>
      if !lineUpTo x l then s else
      let old := s.headState b h
      let s := s.modFbar b fun f => { f with heads := updNth f.heads h fun y => { y with next := none } }
      if old = st then s else
      let s := s.put64 (R.FIRE_HOT_LO b) (setBit64 (s.get64 (R.FIRE_HOT_LO b)) h (decide (st ≠ 0)))
      let s := s.put64 (R.FIRE_STOPPED_LO b) (setBit64 (s.get64 (R.FIRE_STOPPED_LO b)) h (decide (st = 2)))
      s.raise { page := P_FIRE b, bit := if old = 2 ∨ st = 2 then 8 else 7, line := some l,
                detail := leBytes 1 (h / 8) ++ leBytes 1 (h % 8) ++ leBytes 1 (b2n (decide (old < st))) }) s

/-! ### What changes at a boundary (R252, R255, R258, R262) -/

/-- A change of HISTORY_EN: latched at the next boundary, in a pair at the one that the active resolves (R262). -/
def State.historyChange (s : State) (b : Nat) (on : Bool) : State :=
  if s.role = .standby then s
  else if s.role = .active then
    let x := s.resolveLine b
    (s.modFbar b fun f => { f with histPend := some (x, on) }).sendPair (.resolve (.historyEn b x on))
  else s.modFbar b fun f => { f with histPend := some (s.nextLine b, on) }

/-- A SWAP of the slot bank (R255): pending until the first line whose latch point has not been reached; in a pair the active resolves the line. -/
def State.swapCmd (s : State) (b : Nat) : State :=
  let s := s.put (F.FIRE_SEL_CMD_SWAP b) 1
  if s.role = .standby then s
  else if s.role = .active then
    let x := s.resolveLine b
    (s.modClk b fun c => { c with swap := some x }).sendPair (.resolve (.slotSwap b x))
  else
    let n := s.nextLine b
    s.modClk b fun c => { c with swap := some (if c.latched.isSome then lineAdd n 1 else n) }

/-- STATE.BLOCK of FIRE (R270): the slot bank and the history set in force. -/
def F.FIRE_BANK_NOW (b : Nat) : Fld := ⟨R.STATE (P_FIRE b), 9, 9⟩
def F.FIRE_SET_NOW (b : Nat) : Fld := ⟨R.STATE (P_FIRE b), 10, 10⟩

/-- The firing engine's values at boundary `l`: SWAP, HISTORY_EN, MLP, head states, outputs released from a cut, B, and the fit check (R252, R255, R258,
R259, R262, R265, R342). -/
def State.fireValues (s : State) (b l : Nat) : State :=
  let s := match (s.clk b).swap with
    | some x =>
      if lineUpTo x l then
        ((s.put (F.FIRE_SEL_SLOT_BANK b) (1 - s.get (F.FIRE_SEL_SLOT_BANK b))).put (F.FIRE_SEL_CMD_SWAP b) 0).modClk b fun c => { c with swap := none }
      else s
    | none => s
  let s := match (s.fbar b).histPend with
    | some (x, on) => if lineUpTo x l then s.modFbar b fun f => { f with histEn := on, histPend := none } else s
    | none => s
  let s := match (s.fbar b).mlpRise with
    | some (x, v) =>
      if lineUpTo x l then
        let s := s.modFbar b fun f => { f with mlpRise := none }
        if s.get (F.FIRE_MLP_EFF b) < v then (s.put (F.FIRE_MLP_EFF b) v).raise { page := P_FIRE b, bit := 11, line := some l, detail := leBytes 2 v } else s
      else s
    | none => s
  let s := s.headsLand b l
  let s := s.modFbar b fun f => { f with cutHeld := f.cutHeld &&& s.get (F.FIRE_CUT b) }
  let v := s.view b l
  let s := (s.put (F.FIRE_BANK_NOW b) (v.get (F.FIRE_SEL_SLOT_BANK b))).put (F.FIRE_SET_NOW b) (v.get (F.FIRE_SEL_HIST_SET b))
  let s := s.put (F.FIRE_BUDGET b) (v.allowance b)
  if s.inJob b && decide (fitKeyOf v b (v.get (F.FIRE_SEL_SLOT_BANK b)) (s.get (F.FIRE_MLP_EFF b)) ≠ (s.fbar b).fitKey) then s.fitCheck v b l else s

/-! ### The fired line (R249, R250, R254, R257, R260) -/

/-- The bar's FIRE group drives. -/
def State.groupDrives (s : State) (b : Nat) : Bool := match s.pad b with | .driving _ => true | _ => false

/-- Bar `b` fires its lines (R250); a unit that does not hold control fires as the active does, with its outputs at rest (R33, R266). -/
def State.fires (s : State) (b : Nat) : Bool :=
  s.enabled (P_FIRE b) && s.inJob b && s.dev.inJob && (s.groupDrives b || s.role == .standby || s.role == .detached)

/-- The segment that the spare of bar `b` carries now (R295). -/
def State.spareSeg (s : State) (b : Nat) : Option Nat := nth s.zl.spareCarry b

/-- A FIRE_DLY run of bar `b` is in progress: its edges use the 2.5 ns grid without the fine taps (R356). -/
def State.coarse (s : State) (b : Nat) : Bool := s.hsk.runs.any fun r => r.item == 0 && r.unit == b

/-- The pulses of a line (R249, R257): the eight segments, and the spare with the segment that it serves (R38). -/
def State.linePulses (s : State) (b : Nat) (c : Commit) : List Pulse :=
  let at_ (g : Nat) : Nat :=
    let x := c.fireAt + 64 * c.spacing * nth c.slots g + nth c.delays g
    if s.coarse b then 64 * (x / 64) else x
  let p (nn g : Nat) : Pulse := { nn := nn, line := c.line, at64 := at_ g, width := c.width }
  (List.range 8).map (fun g => p (9 * b + g) g) ++ (match s.spareSeg b with | some g => [p (9 * b + 8) g] | none => [])

/-- What became of a line at its boundary, for the statistics (R427). -/
inductive LineFate where
  | fired (deferred : Bool)
  | dropped
  | suppressed
  deriving DecidableEq, Repr

/-- Boundary `l` of a line that was transmitted and committed (R249, R250, R254, R257, R260); without a header sent with CONTROL = 1 there is no pulse (R382). -/
def State.fireLine (s v : State) (b l : Nat) (c : Commit) (q : Sent) : State × LineFate :=
  if !s.fires b then (s.satAdd (F.FIRE_SUPP_CNT b) 1, .suppressed)
  else
    match c.drop with
    | some cause =>
      ((s.satAdd (F.FIRE_OVERSPEED_CNT b) 1).raise
        { page := P_FIRE b, bit := 4, line := some l, detail := leBytes 2 (min 0xFFFF (c.defer / 64)) ++ leBytes 1 cause }, .dropped)
    | none =>
      let s := s.wrapAdd (F.FIRE_LINES_FIRED b) 1
      let s := if c.defer = 0 then s else (s.satAdd (F.FIRE_DEFER_CNT b) 1).peak (F.FIRE_DEFER_PEAK b) (c.defer / 64)
      let s := if c.overload then
          ((s.satAdd (F.FIRE_BUDGET_CNT b) 1).satAdd (F.CRT_FGROUP_OVER (getBits (2 * b + 1) (2 * b) (v.reg R.CRT_BAR_GROUP))) 1).raise
            { page := P_FIRE b, bit := 5, line := some l, detail := leBytes 1 c.peakSlot }
        else s
      let s := if q.noFire || decide ((s.fbar b).cutHeld ≠ 0) then s.satAdd (F.FIRE_SUPP_CNT b) 1 else s
      let ps := if s.groupDrives b && q.control then s.linePulses b c else []
      (s.modFbar b fun f => { f with lastLine := some (l, c.fireAt, c.fireAt + c.extent), pulses := f.pulses ++ ps }, .fired (decide (c.defer ≠ 0)))

/-- The words of a line after suppression, and the segments with a stopped head (R265). -/
def State.suppressWords (s : State) (b : Nat) (words : List (BitVec 4)) : List (BitVec 4) × List Nat :=
  let st := s.get64 (R.FIRE_STOPPED_LO b)
  if st = 0 then (words, [])
  else
    ((words.foldl (fun (a : Nat × List (BitVec 4)) w => (a.1 + 1, (if bit st (s.headOf b a.1) then 0 else w) :: a.2)) (0, [])).2.reverse,
      (List.range 8).filter fun g => decide (st / 2 ^ (8 * g) % 256 ≠ 0))

/-- Line `l` + 1 is transmitted at boundary `l` (R21, R265): what is sent is kept for its commit and boundary, and stopped heads are counted. -/
def State.sendLine (s : State) (b l : Nat) : State :=
  match s.fifoLine b (lineAdd l 1) with
  | none => s.modFbar b fun f => { f with sent := none }
  | some x =>
    let w := s.suppressWords b x.words
    let n := (bitsOf (s.get64 (R.FIRE_STOPPED_LO b)) 64).length
    let q : Sent := { line := x.line, words := w.1, counts := x.counts, noFire := x.noFire, stopped := w.2, control := s.role == .solo || s.role == .active }
    (s.satAdd (F.FIRE_HSUPP_CNT b) n).modFbar b fun f => { f with sent := some q }

/-! ### Pulses and the strobe watchdog (R249, R259, R260) -/

/-- Bit of lane `nn` in its bar's CUT. -/
def F.CUT (nn : Nat) : Fld := ⟨R.FIRE_CUT (nn / 9), nn % 9, nn % 9⟩

/-- The FIRE edge of output `nn` that is due at time `t` (R249): the output goes active, unless it is held after a cut. -/
def State.fireEdge (s : State) (t nn : Nat) : State :=
  let b := nn / 9
  match (s.fbar b).pulses.find? fun p => decide (p.nn = nn) && !p.active && decide (p.at64 / 64 ≤ t) with
  | none => s
  | some p =>
    if !s.groupDrives b || bit (s.fbar b).cutHeld (nn % 9) then s.modFbar b fun f => { f with pulses := f.pulses.erase p }
    else
      ((s.modFbar b fun f => { f with pulses := f.pulses.map fun q => if q = p then { q with active := true } else q }).setPad b
        (match s.pad b with | .driving lv => .driving (updNth lv (nn % 9) fun _ => true) | x => x)).emit (.fire nn true p.at64)

/-- The pulse of output `nn` is over: the output returns inactive, and a group that is waiting for it returns to rest (R47). -/
def State.pulseOff (s : State) (p : Pulse) (t64 : Nat) : State :=
  let b := p.nn / 9
  let s := s.modFbar b fun f => { f with pulses := f.pulses.erase p }
  let s := (s.setPad b (match s.pad b with | .driving lv => .driving (updNth lv (p.nn % 9) fun _ => false) | x => x)).emit (.fire p.nn false t64)
  s.padUpdate b

/-- WIDTH after its edge the pulse of output `nn` ends (R249, R259). -/
def State.pulseEnd (s : State) (t nn : Nat) : State :=
  match (s.fbar (nn / 9)).pulses.find? fun p => decide (p.nn = nn) && p.active && decide (p.at64 / 64 + p.width ≤ t) with
  | none => s
  | some p => s.pulseOff p (p.at64 + 64 * p.width)

/-- The strobe watchdog of output `nn` cuts a pulse that has been active for WDOG.MAX (R259). -/
def State.strobeCut (s : State) (t nn : Nat) : State :=
  let b := nn / 9
  match (s.fbar b).pulses.find? fun p => decide (p.nn = nn) && p.active && decide (p.at64 / 64 + s.get (F.FIRE_WDOG b) ≤ t) with
  | none => s
  | some p =>
    let s := s.pulseOff p (p.at64 + 64 * s.get (F.FIRE_WDOG b))
    let s := ((s.put (F.CUT nn) 1).satAdd (F.FIRE_CUT_CNT b) 1).modFbar b fun f => { f with cutHeld := f.cutHeld ||| 2 ^ (nn % 9) }
    s.raise { page := P_FIRE b, bit := 6, detail := leBytes 1 nn }

/-! ### Dot capture (R269) -/

/-- A capture is armed. -/
def State.captureArm (s : State) (b : Nat) : State :=
  let s := ((s.put (F.FIRE_CAP_CTRL_ARM b) 1).put (F.FIRE_CAP_STAT_LOST b) 0).put (F.FIRE_CAP_STAT_DONE b) 0
  let p : Capture :=
    { stamp := if s.on (F.FIRE_CAP_CTRL_STAMP_EN b) then some (s.get (F.FIRE_CAP_STAMP b)) else none,
      mask := s.get (F.FIRE_CAP_CTRL_SEGMASK b), lines := s.get (F.FIRE_CAP_CTRL_LINES b) }
  s.modFbar b fun f => { f with capture := some p }

/-- Captured data goes to host memory, or waits for DMA, or is lost; the answer says whether it is lost. -/
def State.captureData (s : State) (b a : Nat) (d : List Byte) : State × Bool :=
  if s.dmaOk && (s.fbar b).capBuf.isEmpty then (s.hostWrite a d, false)
  else if (s.fbar b).capBuf.length < 4 then (s.modFbar b fun f => { f with capBuf := f.capBuf ++ [(a, d)] }, false)
  else (s.put (F.FIRE_CAP_STAT_LOST b) 1, true)

/-- DMA runs again: captured data that waits is written. -/
def State.captureFlush (s : State) (b : Nat) : State :=
  if s.dmaOk then
    foldS (s.fbar b).capBuf (fun e s => s.hostWrite e.1 e.2) (s.modFbar b fun f => { f with capBuf := [] })
  else s

/-- One captured segment line and its record (Table 10.5). -/
def State.captureSeg (s : State) (b g m : Nat) (c : Commit) (q : Sent) (dropped : Bool) : State :=
  let d := segBytes (segLine q.words g)
  let x := s.captureData b (s.get64 (R.FIRE_CAP_BASE_LO b) + 8192 * m) d
  let flags := b2n dropped + 2 * b2n q.noFire + 4 * b2n (q.stopped.contains g) + 8 * b2n c.overload + 16 * b2n x.2
  x.1.putRecord (48 + b)
    (leBytes 8 ((if dropped then c.tB else c.fireAt) / 64) ++ leBytes 4 c.line ++ leBytes 1 b ++ leBytes 1 g ++ leBytes 1 (nth c.slots g) ++ leBytes 1 flags
      ++ leBytes 4 (8192 * m) ++ leBytes 2 (min 0xFFFF (nth c.energy g / 4096)) ++ leBytes 2 (min 0xFFFF (c.defer / 64)) ++ leBytes 4 (crc32c d).toNat ++ leBytes 4 0)

/-- The capture at the boundary of a transmitted line. -/
def State.captureLine (s : State) (b : Nat) (c : Commit) (q : Sent) (dropped : Bool) : State :=
  match (s.fbar b).capture with
  | none => s
  | some p =>
    let starts := p.first.isSome || (match p.stamp with | none => true | some x => !lineBefore c.line x)
    if !starts then s else
    let segs := bitsOf p.mask 8
    let s := foldS segs.zipIdx (fun e s => s.captureSeg b e.1 (p.segs + e.2) c q dropped) s
    let p := { p with first := some (p.first.getD c.line), segs := p.segs + segs.length, done := p.done + 1 }
    let s := s.put (F.FIRE_CAP_STAT_DONE b) (min 0xFFFF p.done)
    if p.lines ≤ p.done then
      ((s.put (F.FIRE_CAP_CTRL_ARM b) 0).modFbar b fun f => { f with capture := none }).raise { page := P_FIRE b, bit := 10, line := p.first }
    else s.modFbar b fun f => { f with capture := some p }

end Sys2Proof.Machine
end

