-- ==== Sys2Proof/Machine/ZlFrames.lean ====
section
/-!
DEFINITION. Sys2Proof/Machine/ZlFrames.lean: what a ZaroLink lane transmits (R271 to R280, R284, R285, R288): line frames, control frames, the order of the
replay window, and DISCARD_FROM. Instants within a lane are in 1/6,400 of a tick of 2.5 ns, in which a block of 6.4 ns is 16,384.
-/
namespace Sys2Proof.Machine

open Sys2Proof

/-! ### Lanes -/

/-- Lane `nn` = 9 × bar + s (R37). -/
def State.lane (s : State) (nn : Nat) : ZLane := nth s.zl.lanes nn

/-- Change lane `nn`. -/
def State.modLane (s : State) (nn : Nat) (f : ZLane → ZLane) : State := s.modZl fun z => { z with lanes := updNth z.lanes nn f }

/-- LANE_STAT.STATE (Table 11.10). -/
def F.LSTATE (nn : Nat) : Fld := F.ZLB_LANE_STAT_STATE (nn / 9) (nn % 9)

def zOff : Nat := 0
def zLock : Nat := 1
def zCheck : Nat := 2
def zMeasure : Nat := 3
def zActive : Nat := 4
def zDown : Nat := 5

/-- STATE of lane `nn`. -/
def State.laneState (s : State) (nn : Nat) : Nat := s.get (F.LSTATE nn)

/-- LANES_ACTIVE counts the lanes in ACTIVE. -/
def State.lanesActive (s : State) : State :=
  s.put F.ZLK_LANES_ACTIVE ((List.range 72).countP fun n => s.laneState n == zActive)

/-- Set STATE of lane `nn`. -/
def State.setLaneState (s : State) (nn v : Nat) : State := (s.put (F.LSTATE nn) v).lanesActive

/-- The measured round trip of lane `nn` in ns. -/
def State.laneRtt (s : State) (nn : Nat) : Nat := s.get (F.ZLB_LANE_STAT_RTT (nn / 9) (nn % 9))

/-- An event of lane `nn`, which its detail bytes name. -/
def State.laneEvent (s : State) (nn bit : Nat) (line : Option Nat) (more : List Byte) : State :=
  s.raise { page := P_ZLB (nn / 9), bit := bit, line := line, detail := leBytes 1 nn ++ more }

/-- The segment whose HIB lane `nn` is cabled to: its own, or SPARE_CFG.SEG for the spare (R37, R271). -/
def State.laneSeg (s : State) (nn : Nat) : Nat := if nn % 9 = 8 then s.get (F.ZLB_SPARE_CFG_SEG (nn / 9)) else nn % 9

/-- CONTROL: the unit holds control (R288). -/
def State.control (s : State) : Bool := s.role == .solo || s.role == .active

/-! ### Instants -/

/-- An instant of DEVTIME. -/
def zAt (t : Nat) : Nat := 6400 * t

/-- `n` blocks of 6.4 ns (R274). -/
def zBlocks (n : Nat) : Nat := 16384 * n

/-- The first tick at or after an instant. -/
def zTick (z : Nat) : Nat := (z + 6399) / 6400

/-- The predicted or committed time of bar `b`'s next boundary, in 1/64 tick (R284). -/
def State.nextBoundary64 (s : State) (b : Nat) : Option Nat :=
  match (s.clk b).commit with
  | some c => if c.line = s.nextLine b then some c.tB else s.predict b 0
  | none => s.predict b 0

/-- RPL_END of lane `nn` (R284): 100 ns and half a round trip before the bar's next boundary; none without a predicted boundary. -/
def State.rplEnd (s : State) (nn : Nat) : Option Nat :=
  (s.nextBoundary64 (nn / 9)).map fun p => 100 * p - zAt 40 - 1280 * s.laneRtt nn

/-- HDR_END of lane `nn` (R285): 400 ns before the bar's next boundary. -/
def State.hdrEnd (s : State) (nn : Nat) : Option Nat := (s.nextBoundary64 (nn / 9)).map fun p => 100 * p - zAt 160

/-! ### FLAGS and check values (R276, R277) -/

/-- FLAGS (Table 11.2). -/
def zFlags (seg : Nat) (absent first dropPrev control : Bool) : Nat := 16 * seg + 8 * b2n absent + 4 * b2n first + 2 * b2n dropPrev + b2n control

/-- The data of chunk `k` of a segment line (R274). -/
def chunkWords (data : List (BitVec 4)) (k : Nat) : List (BitVec 4) := (data.drop (1552 * k)).take 1552

/-- HCRC of a header (R277). -/
def headerCrc (line flags stitch : Nat) (crcs : List Nat) : Nat :=
  (crc32c (leBytes 4 line ++ leBytes 1 flags ++ leBytes 1 stitch ++ [0] ++ (crcs.zipIdx.map fun e => leBytes 4 e.1 ++ leBytes 1 e.2 ++ [0, 0]).flatten)).toNat

/-- The data bytes of a control frame with their padding (R279). -/
def ctlBytes (p : List Byte) : List Byte := padTo (8 * ((p.length + 7) / 8)) p

/-- The blocks of a control frame (R279). -/
def ctlBlocks (p : List Byte) : Nat := 2 + (p.length + 7) / 8

/-- The check value of a control frame (R277). -/
def ctlCrc (opc seq flags : Nat) (p : List Byte) : Nat :=
  (crc32c (leBytes 1 opc ++ leBytes 2 seq ++ leBytes 1 p.length ++ leBytes 1 flags ++ [0, 0] ++ ctlBytes p)).toNat

/-! ### What goes out next (R278, R283, R284) -/

/-- Change the newest frame of a lane. -/
def ZLane.modNewest (l : ZLane) (f : ZFrame → ZFrame) : ZLane :=
  { l with frames := match l.frames.reverse with | [] => [] | x :: r => r.reverse ++ [f x] }

/-- The newest frame of a lane. -/
def ZLane.newest (l : ZLane) : Option ZFrame := l.frames.getLast?

/-- The lane begins the header of its newest frame at instant `z`. -/
def State.sendHeader (s : State) (nn z : Nat) (x : ZFrame) : State :=
  let e := z + zBlocks 10
  (s.modLane nn fun l => { l.modNewest fun f => { f with header := .waiting (zTick e) } with busy := some (.header, e) }).emit
    (.zl nn (.header x.line x.flags x.stitch x.crcs (headerCrc x.line x.flags x.stitch x.crcs)))

/-- The lane begins the replay of chunk `k` of its newest frame at instant `z`; RPL carries the CONTROL of the header (R288). -/
def State.sendReplay (s : State) (nn z k : Nat) (x : ZFrame) : State :=
  let e := z + zBlocks 98
  ((s.modLane nn fun l =>
      { l.modNewest fun f => { f with chunks := updNth f.chunks k fun _ => .waiting (zTick e), order := f.order.erase k } with busy := some (.chunk k, e) }).satAdd
    (F.ZLB_REPLAY_CNT (nn / 9) (nn % 9)) 1).emit
    (.zl nn (.replay x.line k (16 * x.seg + x.flags % 2) (chunkWords x.data k)))

/-- The lane begins a control frame at instant `z` (R279). -/
def State.sendControl (s : State) (nn z : Nat) (c : ZCtl) : State :=
  let e := z + zBlocks (ctlBlocks c.payload)
  let fl := zFlags (s.laneSeg nn) false false false s.control
  (s.modLane nn fun l =>
      { l with ctl := l.ctl.map fun d => if d.seq = c.seq then { d with sends := d.sends + 1, sentAt := some (zTick e) } else d, busy := some (.control c.seq, e) }).emit
    (.zl nn (.control c.opc c.seq fl c.payload (ctlCrc c.opc c.seq fl c.payload)))

/-- An item becomes due for sending again 50 ns after the acknowledgement that made it pending (R284). -/
def startAt (now readyAt : Nat) : Nat := zAt (max now readyAt)

/-- A transmission of `n` blocks from instant `z` ends by RPL_END (R284). -/
def State.zFits (s : State) (nn z n : Nat) : Bool := match s.rplEnd nn with | none => true | some e => decide (z + zBlocks n ≤ e)

/-- The lane is idle: begin what is due, in the precedence of R284: a header that R278 put off, a pending header, pending chunks in the order in which their BAD became
known, then control frames. -/
def State.zlNext (s : State) (nn : Nat) : State :=
  let l := s.lane nn
  if s.laneState nn = zMeasure then
    match l.busy, l.ctl.find? fun c => c.sentAt.isNone with
    | none, some c => s.sendControl nn (zAt s.devtime) c
    | _, _ => s
  else if s.laneState nn ≠ zActive ∨ l.busy.isSome then s else
  let ctl (open_ : Bool) : State :=
    match l.ctl.find? fun c => c.sentAt.isNone with
    | some c =>
      let z := startAt s.devtime c.readyAt
      if (s.nextBoundary64 (nn / 9)).isNone || (open_ && s.zFits nn z (ctlBlocks c.payload)) then s.sendControl nn z c else s
    | none => s
  match l.newest with
  | none => ctl true
  | some x =>
    if x.header = .unsent then s.sendHeader nn (zAt s.devtime) x
    else if !x.windowOpen || x.closed then ctl false
    else
      match x.header with
      | .pending r =>
        let z := startAt s.devtime r
        if s.zFits nn z 10 then (s.satAdd (F.ZLB_REPLAY_CNT (nn / 9) (nn % 9)) 1).sendHeader nn z x else ctl true
      | _ =>
        match x.order with
        | k :: _ =>
          let r := match nth x.chunks k with | .pending r => r | _ => 0
          let z := startAt s.devtime r
          if s.zFits nn z 98 then s.sendReplay nn z k x else ctl true
        | [] => ctl true

/-- A control frame for a lane takes the lane's next SEQ, and waits for its turn (R279). -/
def State.queueControl (s : State) (nn opc : Nat) (payload : List Byte) (mailbox : Bool) : State :=
  let q := (s.lane nn).seq
  (s.modLane nn fun l => { l with ctl := l.ctl ++ [({ seq := q, opc := opc, payload := payload, mailbox := mailbox } : ZCtl)], seq := (q + 1) % 0x10000 }).zlNext nn

/-- TELEM_CFG goes to the HIB of lane `nn` (Table 11.3). -/
def State.telemCfg (s : State) (nn : Nat) : State :=
  s.queueControl nn 0x03 (leBytes 2 (s.get F.ZLK_TELEM_PER_TEMP) ++ leBytes 1 (s.get F.ZLK_TELEM_PER_STATUS)) false

/-- A job has ended on bar `b`: CUT goes to its HIBs with the first line of the job that was not fired (R280). -/
def State.zlCut (s : State) (b line : Nat) : State :=
  foldS ((List.range 9).filter fun g => s.laneState (9 * b + g) == zActive) (fun g s => s.queueControl (9 * b + g) 0x06 (leBytes 4 line) false) s

/-! ### DISCARD_FROM (R285) -/

/-- DISCARD_FROM of lane `nn`: its lowest line that was dropped while the next header is not GOOD, or whose own header is not GOOD; without one, the next line to be
sent. -/
def State.discardFrom (s : State) (nn : Nat) : Nat :=
  let l := (s.lane nn).sent
  match l.find? fun x => !x.good || x.dropped && !(l.any fun y => decide (y.line = lineAdd x.line 1) && y.good) with
  | some x => x.line
  | none => lineAdd (s.nextLine (nn / 9)) 1

/-- The header of line `line` was acknowledged GOOD on lane `nn`. -/
def goodHeader (line : Nat) (l : List ZLine) : List ZLine := l.map fun x => if x.line = line then { x with good := true } else x

/-- Line `line` of bar `b` was dropped. -/
def State.zlDropped (s : State) (b line : Nat) : State :=
  foldS (List.range 9) (fun g s => s.modLane (9 * b + g) fun l =>
    { l with sent := l.sent.map fun x => if x.line = line then { x with dropped := true } else x }) s

/-! ### Line frames (R274 to R278, R293, R296) -/

/-- The lane that carries the frames of segment `g` of bar `b` now: the spare, or the working lane (R295). -/
def State.carrier (s : State) (b g : Nat) : Nat := if s.spareSeg b = some g then 9 * b + 8 else 9 * b + g

/-- Eight free words, one for each check value of a header without payload, which the spec does not state (R278). -/
def State.freshCrcs (s : State) : List Nat × State :=
  (List.range 8).foldl (fun (a : List Nat × State) _ => let x := a.2.freshWord; (a.1 ++ [x.1.toNat], x.2)) ([], s)

/-- The frame of line `q.line` for segment `g` goes out on lane `nn` at boundary `l`, whose time is `tB` in 1/64 tick (R275, R276). If a transmission still runs when the
header is due, the header waits for its end, carries ABSENT, and has no payload; the line before has no replay window (R278). -/
def State.zlFrame (s v : State) (nn g tB : Nat) (q : Sent) (first dropPrev : Bool) : State :=
  let b := nn / 9
  let z := 100 * tB
  let late := match (s.lane nn).busy with | some (_, e) => decide (z - zBlocks 10 < e) | none => false
  let s := s.modLane nn fun l =>
    { l with frames := (l.frames.map fun f => { f with closed := true, windowOpen := false }).drop (l.frames.length - 1),
             sent := (l.sent ++ [({ line := q.line } : ZLine)]).drop (l.sent.length - 15), lines := l.lines + 1 }
  let data := segLine q.words g
  let fl := zFlags g late first dropPrev s.control
  if late then
    let c := s.freshCrcs
    let x : ZFrame := { line := q.line, seg := g, flags := fl, stitch := v.stitch b g, absent := true, crcs := c.1 }
    (c.2.satAdd (F.ZLB_LSUPP_CNT b (nn % 9)) 1).modLane nn fun l => { l with frames := l.frames ++ [x] }
  else
    let crcs := (List.range 8).map fun k => (crc32c (segBytes (chunkWords data k))).toNat
    let x : ZFrame := { line := q.line, seg := g, flags := fl, stitch := v.stitch b g, header := .waiting (zTick z), crcs := crcs, data := data,
                        chunks := (List.range 8).map fun k => .waiting (zTick (z + zBlocks (97 * (k + 1)))) }
    ((s.modLane nn fun l => { l with frames := l.frames ++ [x], busy := some (.payload, z + zBlocks 776) }).emit
      (.zl nn (.header x.line x.flags x.stitch crcs (headerCrc x.line x.flags x.stitch crcs)))).emit (.zl nn (.payload x.line data))

/-- The spare's segment changes with the first header that falls due at least 1 µs after the decision (R295). -/
def State.spareTurn (s : State) (b tB : Nat) : State :=
  let want := if s.on (F.ZLB_SPARE_STAT_SERVING b) then some (s.get (F.ZLB_SPARE_STAT_SEG b)) else none
  if want ≠ s.spareSeg b ∧ zAt (nth s.zl.spareAt b + us) ≤ 100 * tB - zBlocks 10 then
    s.modZl fun z => { z with spareCarry := updNth z.spareCarry b fun _ => want }
  else s

/-- A lane that begins no frame at a boundary: control frames may go out again until RPL_END (R284). -/
def State.zlIdle (s : State) (nn : Nat) : State := (s.modLane nn fun l => { l with frames := [] }).zlNext nn

/-- The transmission of a line at a boundary (R21, R275): each segment's frame goes out on its lane; a lane that cannot deliver counts the line (R293, R296). `v` holds the
values in force. -/
def State.zlTransmit (s v : State) (b tB : Nat) (q : Sent) (first dropPrev : Bool) : State :=
  let s := s.spareTurn b tB
  foldS (List.range 8) (fun g s =>
    let nn := s.carrier b g
    if s.zl.lostSegs.contains (b, g) then s.satAdd (F.ZLB_LSUPP_CNT b g) 1
    else if s.laneState nn = zActive ∧ !(s.lane nn).disabling then s.zlFrame v nn g tB q first dropPrev
    else s.satAdd (F.ZLB_LSUPP_CNT b (nn % 9)) 1) s

end Sys2Proof.Machine
end

