-- ==== Sys2Proof/Machine/Calibration.lean ====
section
/-!
DEFINITION. Sys2Proof/Machine/Calibration.lean: the self-calibration block (R352 to R363).
-/
namespace Sys2Proof.Machine

open Sys2Proof

/-- Units of each item (Table 15.1). -/
def calUnits (i : Nat) : Nat := ([8, 1, 4, 9, 1] : List Nat).getD i 0

/-- Shortest run of each item in ticks (Table 15.1): 12 µs, 40 µs, the TRIM phase's 50 µs, 200 µs and 2 µs. -/
def calTicks (i : Nat) : Nat := ([12, 40, 50, 200, 2] : List Nat).getD i 0 * us

/-- Reference sites of each item (Table 15.1). -/
def calSites (i : Nat) : List Nat := ([[10], [0], [1], [11, 12, 13], [2, 3]] : List (List Nat)).getD i []

/-- The reference temperature of an item (R353): its hottest reference site that is enabled and not broken, else the device temperature. -/
def State.refTemp (s : State) (i : Nat) : Int :=
  match (calSites i).filter fun k => s.siteOn k && decide (nth s.hsk.broken k = 0) with
  | [] => signedOf 16 (s.get F.THM_TEMP_DEV)
  | k :: l => l.foldl (fun m k => max m (s.siteTemp k)) (s.siteTemp k)

/-- Unit `u` of item `i` is pending. -/
def State.calPending (s : State) (i u : Nat) : Bool := bit (s.get (F.CAL_ITEM_STAT_PEND i)) u

/-- The present run of unit `u` of item `i`. -/
def State.calRun (s : State) (i u : Nat) : Option CalRun := s.hsk.runs.find? fun r => r.item == i && r.unit == u

/-- Set the PEND bit of a unit. -/
def State.putPend (s : State) (i u : Nat) (on : Bool) : State := s.setBit (R.CAL_ITEM_STAT i) u on

/-- OVERDUE shows while a pending unit of the item is overdue (R355). -/
def State.calOverdueFlag (s : State) (i : Nat) : State :=
  s.put (F.CAL_ITEM_STAT_OVERDUE i) (b2n (s.hsk.overdue.any fun x => x.1 == i))

/-- A unit becomes pending with trigger `trig` (0 INIT, 1 TEMP, 2 CMD; R353, Table 15.2). -/
def State.calPend (s : State) (i u trig : Nat) : State :=
  if (s.calRun i u).isSome then
    s.modHsk fun h => { h with again := if h.again.any (fun x => x.1 == i && x.2.1 == u) then h.again else h.again ++ [(i, u, trig)] }
  else if s.calPending i u then s
  else
    ((s.putPend i u true).put (F.CAL_ITEM_STAT_TRIG i) trig).modHsk fun h => { h with pendSince := h.pendSince ++ [(i, u, s.devtime)] }

/-- A unit is no longer pending. -/
def State.calUnpend (s : State) (i u : Nat) : State :=
  ((s.putPend i u false).modHsk fun h =>
    { h with pendSince := h.pendSince.filter fun x => !(x.1 == i && x.2.1 == u), overdue := h.overdue.filter fun x => !(x.1 == i && x.2 == u) }).calOverdueFlag i

/-- HSK is released: every unit of every item is pending since now, as the reset value of PEND shows (R353, Table 15.3). -/
def State.calReleased (s : State) : State :=
  s.modHsk fun h =>
    { h with pendSince := (List.range 5).flatMap fun i => (List.range (calUnits i)).map fun u => (i, u, s.devtime) }

/-- The island of an item's circuit is released: INIT (R353). The serdes units' trigger is a lane reaching ACTIVE. -/
def State.calInit (s : State) (island : Nat) : State :=
  if !s.up 1 then s else
  let all (i : Nat) (s : State) : State := foldS (List.range (calUnits i)) (fun u s => s.calPend i u 0) s
  if island = 4 then all 2 (all 0 s) else if island = 2 then all 4 s else s

/-- A lane of serdes unit `u` has reached ACTIVE (R353). -/
def State.calLane (s : State) (u : Nat) : State := if s.up 1 then s.calPend 3 u 0 else s

/-- An ADC unit exists for a channel in SINCOS mode (Table 15.1). -/
def State.sincosOn (s : State) (u : Nat) : Bool := s.up 4 && decide (s.chMode u = modeSincos)

/-- The temperature trigger, taken at each round (R353). -/
def State.calTemp (s : State) : State :=
  foldS (List.range 5) (fun i s =>
    let d := (s.refTemp i - signedOf 16 (s.get (F.CAL_LAST_TEMP i))).natAbs
    if s.on (F.CAL_ITEM_CFG_AUTO i) && decide (s.get (F.CAL_ITEM_CFG_CAL_DT i) < d) then
      foldS ((List.range (calUnits i)).filter fun u => i != 2 || s.sincosOn u) (fun u s => s.calPend i u 1) s
    else s) s

/-! ### Starting a run (R354, R356, R357) -/

/-- The circuit of a unit can be measured: its island runs, and it is there to be measured. -/
def State.calCircuit (s : State) (i u : Nat) : Bool :=
  if i = 0 then s.up 4
  else if i = 1 then true
  else if i = 2 then s.counting u && s.sincosOn u
  else if i = 3 then (if u = 8 then s.linkUp else s.up 5 && (List.range 9).any fun j => decide (s.laneState (9 * u + j) = zActive))
  else s.up 2

/-- A unit starts its run. -/
def State.calBegin (s : State) (r : CalRun) : State :=
  ((s.calUnpend r.item r.unit).setBit (R.CAL_RUNNING r.item) r.unit true).modHsk fun h => { h with runs := h.runs ++ [r] }

/-- Every word of line `l` of bar `b` has been screened, and is 0. -/
def State.blankLine (s : State) (b l : Nat) : Bool :=
  match s.fifoLine b l with
  | some x => x.words.all fun w => w == 0
  | none => false

/-- A non-print zone of bar `b` opens at the commit of the coming line (R356): that line with its t_B in ticks. -/
def State.zone (s : State) (b : Nat) : Option (Nat × Nat) :=
  match (s.clk b).commit, s.predict b 2 with
  | some c, some t2 =>
    if s.blankLine b c.line && s.blankLine b (lineAdd c.line 1) && decide (c.tB + 64 * 96 + 64 * 4896 ≤ t2) then some (c.line, c.tB / 64) else none
  | _, _ => none

/-- No bar belongs to a job, or the channel is not the web channel: an ADC unit's quiet window (Table 15.1). -/
def State.adcQuiet (s : State) (u : Nat) : Bool := !(u == s.webCh) || !s.anyJob

/-- A pending unit reaches the quiet window that its item requires and starts (R353, R356); an ADC unit starts its FIT phase at once, or goes on with its TRIM phase
in the quiet window (R354). -/
def State.calUnitStart (s : State) (i u : Nat) : State :=
  if !(s.up 1 && decide (u < calUnits i)) then s
  else
    match s.calRun i u with
    | some r =>
      if r.phase = .trimWait ∧ s.adcQuiet u then
        s.modHsk fun h => { h with runs := h.runs.map fun x => if x = r then { x with phase := .trim, gap := true, since := some s.devtime } else x }
      else s
    | none =>
      if !(s.calPending i u && s.calCircuit i u) then s
      else if i = 0 ∧ s.inJob u then
        match s.zone u with
        | some (l, t) => s.calBegin { item := i, unit := u, zone := some l, since := some t }
        | none => s
      else s.calBegin { item := i, unit := u, phase := if i = 2 then .fit else .run, gap := decide (i = 0), since := some s.devtime }

/-- ADC_FIT_DONE: the collected phases of channel `c` cover the circle (R354). -/
def State.adcFitDone (s : State) (c : Nat) : State :=
  match s.calRun 2 c with
  | some r =>
    if r.phase == .fit && s.speedValid c && (match r.since with | some t => decide (t + 819200 ≤ s.devtime) | none => false) then
      s.modHsk fun h => { h with runs := h.runs.map fun x => if x = r then { x with phase := .trimWait } else x }
    else s
  | none => s

/-- The smallest k for which the boundary k lines after the line that lies `i` lines ahead comes at least 12.1 µs after it (R357); 1 without a prediction. -/
def State.forcedLines (s : State) (b i : Nat) : Nat → Nat → Nat
  | 0, k => k
  | n + 1, k =>
    match s.predict b i, s.predict b (i + k) with
    | some t0, some t1 => if t0 + 64 * 4840 ≤ t1 then k else s.forcedLines b i n (k + 1)
    | _, _ => k

/-- The lines from `l` on, `k` of them, that a forced FIRE_DLY run of bar `b` drops (R357). -/
def State.calForcedAt (s : State) (b l k : Nat) : State :=
  (s.modClk b fun c => { c with forced := some (l, k) }).modHsk fun h =>
    { h with runs := h.runs.map fun r => if r.item == 0 && r.unit == b && r.forced && r.zone.isNone then { r with zone := some l } else r }

/-- The first line of bar `b`, counted from the next one, whose latch point has not been reached. -/
def State.unlatched (s : State) (b : Nat) : Nat := if (s.clk b).latched.isSome then 1 else 0

/-- FORCE of unit `u` of item `i` (R357, Table 15.2). In a pair the lines are those that the active resolves, as for a clasp commit (R117). -/
def State.calForceUnit (s : State) (i u : Nat) : State :=
  match s.calRun i u with
  | some r => if r.phase = .fit then s.modHsk fun h => { h with runs := h.runs.map fun x => if x = r then { x with phase := .trim, since := some s.devtime } else x }
    else if r.phase = .trimWait then s.modHsk fun h => { h with runs := h.runs.map fun x => if x = r then { x with phase := .trim, since := some s.devtime } else x }
    else s
  | none =>
    if !s.calCircuit i u then s.calPend i u 2
    else if i = 0 ∧ s.inJob u then
      let s := s.calBegin { item := 0, unit := u, forced := true }
      if s.role = .solo then
        let n := s.unlatched u
        s.calForcedAt u (lineAdd (s.nextLine u) n) (s.forcedLines u n 16 1)
      else if s.role = .active then
        let n := s.lineAfter u 1200 64 0
        let k := s.forcedLines u n 16 1
        let l := lineAdd (s.nextLine u) n
        (s.calForcedAt u l k).sendPair (.resolve (.forcedCal u l k))
      else s
    else s.calBegin { item := i, unit := u, phase := if i = 2 then .fit else .run, gap := decide (i = 0), since := some s.devtime }

/-- A FORCE that a unit in role STANDBY or DETACHED refuses (R357): it names a FIRE_DLY unit whose bar belongs to a job. -/
def State.calForceJob (s : State) (i units : Nat) : Bool := decide (i = 0) && (bitsOf units 8).any fun b => s.inJob b

/-- ITEM_CMD of item `i` (R353, R357, R363): CANCEL withdraws pending units; FORCE starts units; RUN makes units pending. -/
def State.calCmd (s : State) (i units : Nat) (run force cancel : Bool) : State :=
  let l := bitsOf units (calUnits i)
  let s := if cancel then foldS (l.filter fun u => s.calPending i u) (fun u s => s.calUnpend i u) s else s
  let s := if force then foldS l (fun u s => s.calForceUnit i u) s else s
  if run then foldS l (fun u s => s.calPend i u 2) s else s

/-- Boundary `l` of bar `b` at t_B (in ticks): a forced run that was to start there starts (R357). -/
def State.calForcedStart (s : State) (b l t : Nat) : State :=
  s.modHsk fun h =>
    { h with runs := h.runs.map fun r => if r.item == 0 && r.unit == b && r.forced && r.since.isNone && r.zone == some l then { r with since := some t } else r }

/-! ### Results (R359 to R362) -/

/-- The result registers of a unit, in the order in which a run gives them. -/
def State.calRegs (s : State) (i u : Nat) : List Nat :=
  if i = 0 then (List.range 9).map fun j => R.CAL_TAPCAL (9 * u + j)
  else if i = 1 then (List.range 16).map R.CAL_SENS_OFF
  else if i = 2 then [R.CAL_ADC_OFF u, R.CAL_ADC_GAIN u]
  else if i = 3 then (if u = 8 then (List.range 4).map fun j => R.CAL_EQ (72 + j) else (List.range 9).map fun j => R.CAL_EQ (9 * u + j))
  else (bitsOf (s.get F.MEM_CH_MAP_USED) 16).map R.MCH_WDQ

/-- The unit whose result register lies at offset `a`. -/
def calUnitOf (a : Nat) : Option (Nat × Nat) :=
  if 0x32400 ≤ a ∧ a < 0x32520 then some (0, (a - 0x32400) / 4 / 9)
  else if 0x32540 ≤ a ∧ a < 0x32580 then some (1, 0)
  else if 0x32580 ≤ a ∧ a < 0x325A0 then some (2, (a - 0x32580) / 8)
  else if 0x32600 ≤ a ∧ a < 0x32730 then some (3, min 8 ((a - 0x32600) / 4 / 9))
  else if 0x2E100 ≤ a ∧ a < 0x2E500 ∧ a % 0x40 = 8 then some (4, 0)
  else none

/-- A value is within the range of its result register (Table 15.3, R335). -/
def State.calInRange (s : State) (a : Nat) (w : Word) : Bool :=
  match calUnitOf a with
  | some (0, _) => decide (640 ≤ getBits 11 0 w) && decide (getBits 11 0 w ≤ 1535)
  | some (1, _) => decide (-512 ≤ signedOf 16 (getBits 15 0 w)) && decide (signedOf 16 (getBits 15 0 w) ≤ 511)
  | some (2, _) => decide (a % 8 = 0) || (decide (0x4000 ≤ getBits 15 0 w) && decide (0x4000 ≤ getBits 31 16 w))
  | some (4, _) =>
    let t := getBits 23 16 (s.reg a)
    decide (getBits 7 0 w ≤ t + 16) && decide (t ≤ getBits 7 0 w + 16)
  | _ => true

/-- The bits of a result register that a result sets. -/
def calWord (s : State) (a : Nat) (w : Word) : Word :=
  match calUnitOf a with
  | some (0, _) => putBits 11 0 (s.reg a) (getBits 11 0 w)
  | some (1, _) => putBits 15 0 (s.reg a) (getBits 15 0 w)
  | some (2, _) => if a % 8 = 0 then putBits 13 0 (putBits 29 16 (s.reg a) (getBits 29 16 w)) (getBits 13 0 w) else w
  | some (3, _) => putBits 23 0 (s.reg a) (getBits 23 0 w)
  | some (4, _) => putBits 7 0 (s.reg a) (getBits 7 0 w)
  | _ => w

/-- HELD shows while R360 holds a result of the item. -/
def State.calHeldFlag (s : State) (i : Nat) : State :=
  s.put (F.CAL_ITEM_STAT_HELD i) (b2n (s.hsk.held.any fun h => h.item == i && h.line.isNone))

/-- Load results into their registers, with the line at whose boundary they come into force, if they wait for one (R359, R360): FIRE_DLY values stay in force until
then, and the ADC's values move towards the new ones. -/
def State.calApply (s : State) (i u : Nat) (ws : List (Nat × Word)) (line : Option Nat) : State :=
  let old := ws.map fun e => (e.1, s.reg e.1)
  let now := s.adcNow u
  let boundary := s.on F.CAL_CFG_APPLY
  let s' := foldS ws (fun e s => s.setReg e.1 (calWord s e.1 e.2)) s
  if i = 0 then
    if s.clockOn u then
      let h : CalHeld := { item := 0, unit := u, old := old, line := if boundary && s.inJob u then none else some (line.getD (s.nextLine u)) }
      (s'.modHsk fun k => { k with held := k.held.filter (fun x => !(x.item == 0 && x.unit == u)) ++ [h] }).calHeldFlag 0
    else s'
  else if i = 2 then
    let s' := s'.modChan u fun c => { c with adc := some now }
    if boundary && u == s.webCh && s.anyJob && !bit (s.get (F.POS_STAT_SPEEDST u)) 1 then
      let h : CalHeld := { item := 2, unit := u }
      (s'.modHsk fun k => { k with held := k.held.filter (fun x => !(x.item == 2 && x.unit == u)) ++ [h] }).calHeldFlag 2
    else s'
  else s'

/-- An item's run is complete when none of its units is pending or running (R353): RUN_CNT, LAST_TIME, LAST_TEMP and CAL_DONE. -/
def State.calItemDone (s : State) (i : Nat) : State :=
  if s.get (F.CAL_ITEM_STAT_PEND i) = 0 ∧ s.get (F.CAL_RUNNING i) = 0 then
    let units := nth s.hsk.ran i
    let s := s.wrapAdd (F.CAL_RUN_CNT i) 1
    let s := (s.put64 (R.CAL_LAST_TIME_LO i) s.devtime).put (F.CAL_LAST_TEMP i) (unsignedOf 16 (s.refTemp i))
    (s.modHsk fun h => { h with ran := updNth h.ran i fun _ => 0 }).raise { page := P_CAL, bit := 4, detail := leBytes 1 i ++ leBytes 2 units }
  else s

/-- The unit is no longer running; it becomes pending again if a trigger came during its run (Table 15.2). -/
def State.calEnd (s : State) (r : CalRun) : State :=
  let again := s.hsk.again.find? fun x => x.1 == r.item && x.2.1 == r.unit
  let s := (s.setBit (R.CAL_RUNNING r.item) r.unit false).modHsk fun h =>
    { h with runs := h.runs.filter (fun x => x != r), again := h.again.filter fun x => !(x.1 == r.item && x.2.1 == r.unit) }
  match again with
  | some x => s.calPend x.1 x.2.1 x.2.2
  | none => s

/-- A run is abandoned, and its unit is pending again with the trigger it had (R358, Table 15.2). -/
def State.calAbandon (s : State) (r : CalRun) : State :=
  let trig := s.get (F.CAL_ITEM_STAT_TRIG r.item)
  let s := (s.setBit (R.CAL_RUNNING r.item) r.unit false).modHsk fun h =>
    { h with runs := h.runs.filter (fun x => x != r), again := h.again.filter fun x => !(x.1 == r.item && x.2.1 == r.unit) }
  s.calPend r.item r.unit trig

/-- A START that includes `bars` is consumed: runs in their job gaps are abandoned, and the TRIM phase of the web channel (R358). -/
def State.calJobStart (s : State) (bars : List Nat) : State :=
  foldS (s.hsk.runs.filter fun r => (r.item == 0 && r.gap && bars.contains r.unit) || (r.item == 2 && r.phase == .trim && r.gap && r.unit == s.webCh))
    (fun r s => s.calAbandon r) s

/-- The island of a circuit is reset: its runs are abandoned, and what was held is gone (Table 15.2, R361). -/
def State.calIslandReset (s : State) (island : Nat) : State :=
  if !s.up 1 then s else
  let mine (i u : Nat) : Bool :=
    (island == 4 && (i == 0 || i == 2)) || (island == 2 && i == 4) || (island == 5 && i == 3 && decide (u < 8)) || (island == 6 && i == 3 && u == 8)
  let s := foldS (s.hsk.runs.filter fun r => mine r.item r.unit) (fun r s => s.calAbandon r) s
  let s := s.modHsk fun h => { h with held := h.held.filter fun x => !mine x.item x.unit }
  let s := (s.calHeldFlag 0).calHeldFlag 2
  s.clearRegs fun a => match calUnitOf a with | some (i, u) => mine i u && decide (0x32000 ≤ a) | none => false

/-- A channel has lost its tracking window (R331): TRACK_LOST is set, and raised once. -/
def State.trackLost (s : State) (c : Nat) : State :=
  if s.on (F.MCH_TRAIN_TRACK_LOST c) then s
  else (s.put (F.MCH_TRAIN_TRACK_LOST c) 1).raise { page := P_MEM, bit := 6, detail := leBytes 1 c }

/-- The results of a tracking run (R331): a channel whose count was read shows it, and takes its new CUR unless that lies more than 16 steps from TRAINED; a channel that
lost the window keeps its last good CUR. -/
def State.trackResults (s : State) (ok : Bool) (e : List (Nat × Word)) : State :=
  if ok then
    foldS e (fun x s =>
      let s := s.put ⟨x.1 - 4, 31, 16⟩ (getBits 31 16 x.2)
      if s.calInRange x.1 x.2 then s.setReg x.1 (calWord s x.1 x.2) else s.trackLost ((x.1 - 0x2E108) / 0x40)) s
  else foldS (bitsOf (s.get F.MEM_CH_MAP_USED) 16) (fun c s => s.trackLost c) s

/-- A run ends (R359, R362): `ok` says that the measurement itself succeeded, and `ws` are the result registers' values in the order of `calRegs` (for DRAM with the
oscillator count in bits 31 to 16). Results that no circuit gives, and a run that has not lasted its time, leave everything as it is. -/
def State.calUnitComplete (s : State) (i u : Nat) (ok : Bool) (ws : List Word) : State :=
  match s.calRun i u with
  | none => s
  | some r =>
    let due := match r.since with | some t => decide (t + calTicks i ≤ s.devtime) | none => !s.inJob u
    if !(s.up 1 && due && (r.phase == .run || r.phase == .trim)) then s
    else
      let e := (s.calRegs i u).zip ws
      let range := e.all fun x => s.calInRange x.1 x.2
      if i ≠ 0 ∧ i ≠ 4 ∧ !range then s else
      let good := ok && range && !(decide (i = 1) && s.hsk.broken.any fun x => decide (x ≠ 0))
      let s := s.modHsk fun h => { h with ran := updNth h.ran i fun m => m ||| 2 ^ u }
      let s := if decide (i = 4) then
          s.trackResults ok e
        else s
      let s :=
        if good then
          (s.setBit (R.CAL_ITEM_STAT i) (23 + u) false).calApply i u e (r.zone.map fun l => if r.forced then s.nextLine u else lineAdd l 2)
        else
          let x := s.freshBytes 1
          (x.2.setBit (R.CAL_ITEM_STAT i) (23 + u) true).raise { page := P_CAL, bit := 6, detail := leBytes 1 i ++ leBytes 2 (2 ^ u) ++ x.1 }
      (s.calEnd r).calItemDone i

/-- CAL_OVERDUE: a unit has been pending for longer than PEND_MAX (R355). -/
def State.calOverdue (s : State) (i u : Nat) : State :=
  match s.hsk.pendSince.find? fun x => x.1 == i && x.2.1 == u with
  | some x =>
    if s.up 1 && decide (x.2.2 + s.get F.CAL_PEND_MAX * 1000 * ms < s.devtime) && !s.hsk.overdue.contains (i, u) then
      ((s.modHsk fun h => { h with overdue := h.overdue ++ [(i, u)] }).calOverdueFlag i).raise
        { page := P_CAL, bit := 5, detail := leBytes 1 i ++ leBytes 2 (2 ^ u) }
    else s
  | none => s

/-- A master writes a result register (R361); the answer is the error code of a refusal. -/
def State.calWrite (s : State) (a : Nat) (w : Word) : State × Option Nat :=
  match calUnitOf a with
  | none => (s, none)
  | some (i, u) =>
    if (s.calRun i u).isSome then (s, some 0x0D)
    else if !s.calInRange a w then (s, some 0x02)
    else (s.calApply i u [(a, w)] none, none)

/-- Boundary `l` of bar `b` (R359, R360): FIRE_DLY results come into force, or are held while `boundary` (APPLY as latched) holds and the bar belongs to a job. -/
def State.calBoundary (s : State) (boundary : Bool) (b l : Nat) : State :=
  let keep := boundary && s.inJob b
  let due (h : CalHeld) : Bool := h.item == 0 && h.unit == b && (match h.line with | some x => lineUpTo x l | none => true)
  if s.hsk.held.any due then
    (s.modHsk fun k =>
      { k with held := k.held.filterMap fun h => if due h then (if keep then some { h with line := none } else none) else some h }).calHeldFlag 0
  else s

end Sys2Proof.Machine
end

