-- ==== Sys2Proof/Machine/Jobs.lean ====
section
/-!
DEFINITION. Sys2Proof/Machine/Jobs.lean: the markers of the JOB rings (R143 to R145, R451), the first line and the end index of a job on each bar (R145, R200, R201,
R245), and the device states of jobs (R28, R30, R31).
-/
namespace Sys2Proof.Machine

open Sys2Proof

/-! ### Markers (Table 5.10) -/

def jmId (d : Desc) : Nat := leAt d.bytes 0 2
def jmKind (d : Desc) : Nat := leAt d.bytes 2 1
def jmBars (d : Desc) : Nat := leAt d.bytes 3 1
def jmPosEn (d : Desc) : Bool := bit (leAt d.bytes 4 1) 0
def jmPos (d : Desc) : Nat := leAt d.bytes 8 8

def jrStarted : Nat := 1
def jrEnded : Nat := 2
def jrStopped : Nat := 3
def jrWithdrawn : Nat := 4
def jrInvalid : Nat := 15

/-- Bytes 24 to 31 of a marker (Table 5.10). -/
def jobResult (code line : Nat) : List Byte := leBytes 1 code ++ [0, 0, 0] ++ leBytes 4 line

/-- The marker at the head of JOB ring 56 + `k`: the oldest one that is not consumed (R143). -/
def State.jobHead (s : State) (k : Nat) : Option Desc := s.nextDesc (56 + k)

/-- A marker completes. -/
def State.jobDone (s : State) (k i code line : Nat) : State := s.descDone (56 + k) i (jobResult code line)

/-- A marker completes INVALID and stops its ring with DESC (R143, R144). -/
def State.jobInvalid (s : State) (k : Nat) (d : Desc) : State := ((s.takeDesc (56 + k) d.idx).jobDone k d.idx jrInvalid 0).ringStop (56 + k) 3

/-- A marker has a reserved KIND or no bars (R144). -/
def jmBad (d : Desc) : Bool := !(decide (1 ≤ jmKind d) && decide (jmKind d ≤ 3)) || decide (jmBars d = 0)

/-! ### Jobs -/

/-- The job of stream `k`. -/
def State.job (s : State) (k : Nat) : Option Job := nth s.pix.jobs k

/-- Change the job of stream `k`. -/
def State.modJob (s : State) (k : Nat) (f : Job → Job) : State := s.modPix fun p => { p with jobs := updNth p.jobs k fun j => j.map f }

/-- The bars on which the job of stream `k` has not ended. -/
def State.streamBars (s : State) (k : Nat) : List Nat :=
  (List.range 8).filter fun b => match s.run b with | some r => decide (r.stream = k) | none => false

/-- Jobs armed or running. -/
def State.jobs (s : State) : List Job := s.pix.jobs.filterMap id

/-- One step of DEVSTATE with the jobs (Table 1.9, R30); a unit whose partner gave up control with none to take it clears its enable bits on reaching READY (R385). -/
def State.devJobStep (s : State) : State :=
  match s.dev with
  | .ready => if s.jobs.isEmpty then s else s.enterDev .armed
  | .armed => if s.jobs.isEmpty then s.enterDev .ready else if s.jobs.any fun j => j.started then s.enterDev .printing else s
  | .printing => if s.jobs.isEmpty then s.enterDev .stopping else s
  | .stopping =>
    if s.jobs.isEmpty && s.pix.draining.isEmpty then
      let s := if s.aux.clearOuts then ((s.setReg R.DEV_OUTGRP_EN 0).setReg R.DEV_GPIO_OE 0).modAux fun a => { a with clearOuts := false } else s
      s.enterDev .ready
    else s
  | _ => s

/-- DEVSTATE follows the jobs (R28, R30). -/
def State.devJobs (s : State) : State := s.devJobStep.devJobStep

/-! ### The first line and the end index (R145, R200, R201, R245) -/

/-- On a regular grid, how many lines after the line at compare position `c` the first line at or after `target` comes; negative for a line that has passed. -/
def gridTo (target sp c : Nat) : Int :=
  if target ≤ c then -(((c - target) / sp : Nat) : Int) else ((target - c + (sp - 1)) / sp : Nat)

/-- The same with the queued re-phase targets applied (R238, R245). Positions are in 64.32 form. -/
def linesTo (target sp : Nat) : Nat → List Nat → Int
  | c, [] => gridTo target sp c
  | c, v :: q =>
    let k := (v - sp - c + (sp - 1)) / sp
    if v < c then linesTo target sp c q
    else if target + sp ≤ c + k * sp ∨ target ≤ c then gridTo target sp c
    else if target ≤ v then (k : Int)
    else (k : Int) + 1 + linesTo target sp (v + sp) q

/-- The number of the first line of bar `b` at or after a position (R245). -/
def State.namedLine (s : State) (b target : Nat) : Nat :=
  (((s.nextLine b : Int) + linesTo target (s.spacing b (s.nextLine b)) (s.cmp b) ((s.clk b).phq.map Prod.fst)) % 2 ^ 32).toNat

/-- The first of bar `b`'s next lines whose predicted boundary lies at or after instant `t`, counted from the next one; `k` bounds the search. -/
def State.linesFrom (s : State) (b t : Nat) : Nat → Nat → Nat
  | 0, i => i
  | k + 1, i => match s.predict b i with
    | none => i
    | some x => if 64 * t ≤ x then i else s.linesFrom b t k (i + 1)

/-- COMPARE_BEHIND for bar `b` with `k` skipped lines, which SKIP_CNT counts (R145, R243). -/
def State.compareBehind (s : State) (b k cause : Nat) : State :=
  (s.satAdd (F.LCK_SKIP_CNT b) k).raise { page := P_LCK, bit := 4, bar := some b, detail := leBytes 4 k ++ leBytes 1 cause }

/-- Bar `b`'s first line is `j` (R145): its job print index follows from the line that POS names, and lines before it are skipped. -/
def State.setFirst (s : State) (b j : Nat) : State :=
  match s.run b with
  | none => s
  | some r =>
    let named := match r.target with | some tg => s.namedLine b tg | none => j
    let n := lineGap j named
    let s := s.modRun b fun r => { r with first := some j, jAt := n }
    if n = 0 then s else s.compareBehind b n 2

/-- Bar `b` can predict its boundaries. -/
def State.predicts (s : State) (b : Nat) : Bool := (s.predict b 0).isSome

/-- Resolve the first line J of bar `b` as soon as the bar has a prediction (R145, R245); in a pair the active does so and tells its partner. -/
def State.resolveFirst (s : State) (b : Nat) : State :=
  match s.run b with
  | none => s
  | some r =>
    if r.first.isSome || !s.predicts b || s.role == .standby then s else
    let base := lineAdd (s.nextLine b) (s.linesFrom b (r.consumed + 16 * us) 64 0 + 2)
    let named := match r.target with | some tg => s.namedLine b tg | none => r.next0
    let j := if lineBefore named base then base else named
    let s := s.setFirst b j
    if s.role = .active then s.sendPair (.resolve (.firstLine r.stream b j)) else s

/-- Resolve the end index E of an END with a position (R201, R245). -/
def State.resolveEnd (s : State) (b : Nat) : State :=
  match s.run b with
  | none => s
  | some r =>
    match r.first, r.endTarget with
    | some j, some tg =>
      if s.predicts b then
        let e := (r.jAt : Int) + sdiff 32 (s.namedLine b tg) j
        s.modRun b fun r => { r with endAt := some e.toNat, endTarget := none }
      else s
    | _, _ => s

/-! ### The end of a job (R30, R31, R144, R451) -/

/-- Every marker that waits for the end of the job of stream `k` completes; `code` overrides the results (a withdrawal), and the job is gone. -/
def State.jobFinish (s : State) (k : Nat) (code : Option Nat) : State :=
  match s.job k with
  | none => s
  | some j =>
    let s := s.modPix fun p => { p with jobs := updNth p.jobs k fun _ => none }
    let line := if j.forced then j.refFired else j.refLast
    let s := if j.forced then s.modHost fun h => { h with r451 := updNth h.r451 k fun _ => some (j.id, line) } else s
    let s := match j.start with | some i => s.jobDone k i (code.getD jrStopped) 0 | none => s
    let s := match j.endIdx with
      | some i => s.jobDone k i (code.getD (if j.hadStop ∨ j.forced then jrStopped else jrEnded)) line
      | none => s
    let s := match j.stopIdx with | some i => s.jobDone k i (code.getD jrStopped) line | none => s
    s.devJobs

/-- The screening engine of bar `b` gives its carats back at the end of the job on the bar (Table 14.1). -/
def State.screenRelease (s : State) (b : Nat) : State :=
  if s.up 1 then s.caratWithdraw fun q => q.cons == 0 && q.unit == b else s

/-- The job of bar `b` ends on that bar: placement stops (R166, R201), held writes land (R219), the segment FIFOs empty, and CUT is due (R280). `drain` says whether the
bar still has to reach a boundary (R28). -/
def State.endBar (s : State) (b : Nat) (drain : Bool) : State :=
  match s.run b with
  | none => s
  | some r =>
    let disc := match r.lastFired, r.first with | some l, _ => some (lineAdd l 1) | none, some j => some j | none, none => none
    let s := s.modJob r.stream fun j => if j.ref = b then { j with refLast := r.lastLine.getD 0, refFired := r.lastFired.getD 0 } else j
    let s := ((s.imgJobEnd b).nzcJobEnd b).screenRelease b
    let s := s.modScn b fun k => { k with job := none, fifo := [] }
    let s := s.modFbar b fun f => { f with sent := none, cutDue := disc, mlpRise := none }
    let s := s.modPix fun p => { p with bars := updNth p.bars b fun _ => none, draining := if drain then p.draining ++ [b] else p.draining }
    if (s.streamBars r.stream).isEmpty then s.jobFinish r.stream none else s

/-- The job of stream `k` ends on all its bars at once. -/
def State.endJob (s : State) (k : Nat) (code : Option Nat) : State :=
  let s := foldS (s.streamBars k) (fun b s =>
    let s := ((s.imgJobEnd b).nzcJobEnd b).screenRelease b
    let s := s.modScn b fun x => { x with job := none, fifo := [] }
    let s := s.modFbar b fun f => { f with sent := none, mlpRise := none }
    s.modPix fun p => { p with bars := updNth p.bars b fun _ => none }) s
  s.jobFinish k code

/-- The bars of the job of stream `k` stop at their next boundaries (R31), or, where the active gives a line, before that line (R375); a bar that has no boundaries
stops at once. A job that has not reached its first line ends at once (R144). -/
def State.stopJob (s : State) (k : Nat) : State :=
  match s.job k with
  | none => s
  | some j =>
    if !j.started then s.endJob k none
    else foldS (s.streamBars k) (fun b s =>
      if s.hasLines b then s.modRun b fun r => { r with stopAt := some (match r.stopAt with | some x => x | none => s.nextLine b) }
      else s.endBar b false) s

/-- A device-wide cause stops every job (R30, R451). -/
def State.stopAll (s : State) : State :=
  let s := foldS (List.range 4) (fun k s => (s.modJob k fun j => { j with forced := true }).stopJob k) s
  let s := s.devJobs
  if s.dev = .printing then s.enterDev .stopping else s

/-- The STOP state of the unit that holds control stops bar `b` before line `l` (R347, R375): a job that has not reached its first line ends at once, and the device is STOPPING once
every job is stopped. -/
def State.stopBarAt (s : State) (b l : Nat) : State :=
  match s.run b with
  | none => s
  | some r =>
    let s := s.modJob r.stream fun j => { j with forced := true }
    let s := match s.job r.stream with
      | some j =>
        if !j.started then s.endJob r.stream none
        else if s.hasLines b then s.modRun b fun q => { q with stopAt := some (q.stopAt.getD l) }
        else s.endBar b false
      | none => s
    let s := s.devJobs
    if s.dev == .printing && s.jobs.all fun j => j.forced then s.enterDev .stopping else s

/-- A reset that clears PIX or FIRE while HOST is kept ends every job (R451). -/
def State.jobsReset (s : State) : State :=
  foldS (List.range 4) (fun k s =>
    match s.job k with
    | none => s
    | some j =>
      let fired := match s.run j.ref with | some r => r.lastFired.getD 0 | none => j.refFired
      (s.modJob k fun j => { j with forced := true, refFired := fired }).endJob k none) s

/-- JOB ring 56 + `k` is disabled (R144): a job that has not reached its first line is withdrawn, and every marker fetched and not consumed completes WITHDRAWN. -/
def State.jobRingOff (s : State) (k : Nat) : State :=
  let s := match s.job k with
    | some j => if j.started then s else s.endJob k (some jrWithdrawn)
    | none => s
  foldS ((s.rt (56 + k)).descs.filter fun d => !d.taken) (fun d s => s.jobDone k d.idx jrWithdrawn 0) s

/-! ### Consumption (R143 to R145) -/

/-- The JOB_ID of a START is ahead of that of the START consumed before it (R143). -/
def State.startAhead (s : State) (k : Nat) (d : Desc) : Bool :=
  match nth s.host.prevStart k with
  | some x => decide (0 < sdiff 16 (jmId d) x)
  | none => true

/-- The conditions of R145, and that its stream has no job and no other job holds one of its bars (R30, R143). -/
def State.startReady (s : State) (k : Nat) (d : Desc) : Bool :=
  s.up 3 && s.up 4 && s.ringRunning (56 + k) && ((bitsOf (jmBars d) 8).all fun b => s.enabled (P_FIRE b) && !s.inJob b)
    && (s.dev == .ready || s.dev == .armed || s.dev == .printing) && !s.inStop && (s.job k).isNone

/-- A START is consumed (R144, R145): the job is armed on its bars, MLP is fixed (R252), the start pass is due by boundary J − 2 (R217), the screening carats are
requested (R189), calibration runs in the bars' job gaps are abandoned (R358), and the first lines are resolved where the bars have predictions. -/
def State.startConsume (s : State) (k : Nat) (d : Desc) : State :=
  let s := s.takeDesc (56 + k) d.idx
  let s := s.modHost fun h => { h with prevStart := updNth h.prevStart k fun _ => some (jmId d) }
  let bars := bitsOf (jmBars d) 8
  let j : Job := { id := jmId d, bars := jmBars d, ref := bars.headD 0, start := some d.idx }
  let s := (s.modPix fun p => { p with jobs := updNth p.jobs k fun _ => some j }).calJobStart bars
  let s := foldS bars (fun b s =>
    let r : BarRun :=
      { stream := k, consumed := s.devtime, next0 := s.nextLine b, target := if jmPosEn d then some (jmPos d * 2 ^ 32 + s.barOffset b) else none }
    let s := s.modPix fun p => { p with bars := updNth p.bars b fun _ => some r, draining := p.draining.erase b }
    let s := s.fireJobStart b
    let s := s.modNz b fun z => { z with pass := some (s.devtime + 16 * us) }
    (s.caratRequest 0 b 0 false).resolveFirst b) s
  s.devJobs

/-- The START at the head of JOB ring 56 + `k` is consumed if its conditions hold; one that can never be is INVALID (R143, R144). The answer says whether it was
found ready, for a pair whose active stamps it (R145). -/
def State.jobStart (s : State) (k : Nat) (consume : Bool) : State × Bool :=
  match s.jobHead k with
  | none => (s, false)
  | some d =>
    if jmBad d then (s.jobInvalid k d, false)
    else if jmKind d ≠ 1 then (s, false)
    else if !s.startAhead k d then (s.jobInvalid k d, false)
    else if s.startReady k d then (if consume then s.startConsume k d else s, true)
    else (s, false)

/-- An END or STOP names the job that last ended without one on its stream (R451). -/
def State.ended451 (s : State) (k : Nat) (d : Desc) : Option Nat :=
  if (match s.job k with | some j => decide (j.id = jmId d) | none => false) then none
  else match nth s.host.r451 k with
    | some (i, line) => if i = jmId d then some line else none
    | none => none

/-- An END or STOP finds its job (R143). -/
def State.markerJob (s : State) (k : Nat) (d : Desc) : Bool :=
  match s.job k with
  | some j => decide (j.id = jmId d) && !j.hadStop && !(decide (jmKind d = 2) && j.hadEnd)
  | none => false

/-- E of a bar whose END carries no position: the index of the first line whose screening has not started (R201). -/
def State.endIndexNow (s : State) (b : Nat) (r : BarRun) : Nat :=
  match r.first with
  | some j => (max (r.jAt : Int) ((r.jAt : Int) + sdiff 32 (lineAdd (s.nextLine b) 2) j)).toNat
  | none => 0

/-- A bar that places no boundaries and has passed the job's last line ends the job. -/
def State.endPassed (s : State) (b : Nat) : State :=
  match s.run b with
  | none => s
  | some r =>
    match r.index (s.get (F.LCK_LINE b)), r.lastIndex with
    | some i, some e => if e ≤ i then s.endBar b false else s
    | _, _ => s

/-- The END at the head of JOB ring 56 + `k` (R144, R201). -/
def State.jobEnd (s : State) (k : Nat) : State :=
  match s.jobHead k with
  | none => s
  | some d =>
    if jmBad d then s.jobInvalid k d
    else if jmKind d ≠ 2 then s
    else
      match s.ended451 k d with
      | some line => (s.takeDesc (56 + k) d.idx).jobDone k d.idx jrStopped line
      | none =>
        if !s.markerJob k d then s.jobInvalid k d
        else
          let s := (s.takeDesc (56 + k) d.idx).modJob k fun j => { j with endIdx := some d.idx, hadEnd := true }
          foldS (s.streamBars k) (fun b s =>
            let s := s.modRun b fun r =>
              if jmPosEn d then { r with endTarget := some (jmPos d * 2 ^ 32 + s.barOffset b) } else { r with endAt := some (s.endIndexNow b r) }
            let s := s.resolveEnd b
            if s.hasLines b then s else s.endPassed b) s

/-- The STOP at the head of JOB ring 56 + `k` (R144, R31). -/
def State.jobStop (s : State) (k : Nat) : State :=
  match s.jobHead k with
  | none => s
  | some d =>
    if jmBad d then s.jobInvalid k d
    else if jmKind d ≠ 3 then s
    else
      match s.ended451 k d with
      | some line => (s.takeDesc (56 + k) d.idx).jobDone k d.idx jrStopped line
      | none =>
        if !s.markerJob k d then s.jobInvalid k d
        else ((s.takeDesc (56 + k) d.idx).modJob k fun j => { j with stopIdx := some d.idx, hadStop := true }).stopJob k

/-! ### Boundaries of a job (R30, R31, R144, R201) -/

/-- Before line `l` of bar `b` fires: a bar that was draining has reached a boundary; first lines and ends are resolved; the job reaches its first line (R144). -/
def State.jobLineBegin (s : State) (b l : Nat) : State :=
  let s := if s.pix.draining.contains b then (s.modPix fun p => { p with draining := p.draining.erase b }).devJobs else s
  let s := (s.resolveFirst b).resolveEnd b
  match s.run b with
  | none => s
  | some r =>
    let s := if r.covers l then s.modRun b fun r => { r with lastLine := some l } else s
    match r.first with
    | some j =>
      if lineUpTo j l && (match r.stopAt with | some x => lineBefore l x | none => true) then
        let s := (s.modJob r.stream fun q => { q with started := true }).devJobs
        match s.job r.stream with
        | some q =>
          if q.ref = b then
            match q.start with
            | some i => (s.modJob r.stream fun q => { q with start := none }).jobDone r.stream i jrStarted j
            | none => s
          else s
        | none => s
      else s
    | none => s

/-- After line `l` of bar `b`: a fired line is noted, and the job ends on the bar after its last line, or at the boundary at which it stops (R31, R144, R201). -/
def State.jobLineEnd (s : State) (b l : Nat) (fired : Bool) : State :=
  let s := if fired then s.modRun b fun r => { r with lastFired := some l } else s
  match s.run b with
  | none => s
  | some r =>
    if (match r.stopAt with | some x => lineUpTo x l | none => false) then s.endBar b false
    else
      match r.index l, r.lastIndex with
      | some i, some e => if e ≤ i then s.endBar b true else s
      | _, _ => s

/-- CUT goes out once the job's last FIRE edges have been given (R280). -/
def State.cutNow (s : State) (b : Nat) : State :=
  match (s.fbar b).cutDue with
  | some x => if (s.fbar b).pulses.all fun p => p.active then (s.modFbar b fun f => { f with cutDue := none }).zlCut b x else s
  | none => s

end Sys2Proof.Machine
end

