-- ==== Sys2Proof/Machine/ZaroLink.lean ====
section
/-!
DEFINITION. Sys2Proof/Machine/ZaroLink.lean: the ZaroLink lanes over their events (R282 to R298): acknowledgements and the replay window, training and retraining, sparing
and segment loss, telemetry, and the mailbox.
-/
namespace Sys2Proof.Machine

open Sys2Proof

/-! ### The mailbox (R298) -/

def mbGood : Nat := 0
def mbTimeout : Nat := 1
def mbNotActive : Nat := 2
def mbRefused : Nat := 3

/-- The mailbox command of bar `b` on lane `nn` is complete: CMD_STAT is loaded and CMD_DONE raised. -/
def State.mailboxDone (s : State) (nn seq result : Nat) : State :=
  let b := nn / 9
  let s := ((s.put (F.ZLB_CMD_CTRL_GO b) 0).put (F.ZLB_CMD_STAT_DONE b) 1).put (F.ZLB_CMD_STAT_RESULT b) result
  s.laneEvent nn 11 none (leBytes 2 seq ++ leBytes 1 result)

/-- The payload that CMD_DATA holds. -/
def State.mailboxData (s : State) (b : Nat) : List Byte :=
  (((List.range 16).map fun k => leBytes 4 (s.get (F.ZLB_CMD_DATA b k))).flatten).take (s.get (F.ZLB_CMD_CTRL_LEN b))

/-- GO = 1 was written to CMD_CTRL of bar `b`, whose other fields are in place. -/
def State.mailboxGo (s : State) (b : Nat) : State :=
  let nn := 9 * b + s.get (F.ZLB_CMD_CTRL_LANE b)
  let q := (s.lane nn).seq
  if s.laneState nn = zActive then
    let s := ((s.put (F.ZLB_CMD_CTRL_GO b) 1).put (F.ZLB_CMD_STAT_DONE b) 0).put (F.ZLB_CMD_STAT_SEQ b) q
    s.queueControl nn (s.get (F.ZLB_CMD_CTRL_OPC b)) (s.mailboxData b) true
  else s.mailboxDone nn (s.get (F.ZLB_CMD_STAT_SEQ b)) mbNotActive

/-! ### Sparing and segment loss (R295, R296) -/

/-- The spare serves segment `g` of bar `b`. -/
def State.serves (s : State) (b g : Nat) : Bool := s.on (F.ZLB_SPARE_STAT_SERVING b) && decide (s.get (F.ZLB_SPARE_STAT_SEG b) = g)

/-- The spare of bar `b` can take over segment `g`: cabled to it, ACTIVE and not serving. -/
def State.spareReady (s : State) (b g : Nat) : Bool :=
  s.on (F.ZLB_SPARE_CFG_CABLED b) && decide (s.get (F.ZLB_SPARE_CFG_SEG b) = g) && decide (s.laneState (9 * b + 8) = zActive) && !s.on (F.ZLB_SPARE_STAT_SERVING b)

/-- The spare takes over its segment. -/
def State.spareTake (s : State) (b : Nat) : State :=
  let g := s.get (F.ZLB_SPARE_CFG_SEG b)
  let s := ((s.put (F.ZLB_SPARE_STAT_SERVING b) 1).put (F.ZLB_SPARE_STAT_SEG b) g).satAdd (F.ZLB_SPARE_STAT_TAKEOVERS b) 1
  let s := s.modZl fun z => { z with spareAt := updNth z.spareAt b (fun _ => s.devtime), lostSegs := z.lostSegs.filter fun x => x ≠ (b, g) }
  s.laneEvent (9 * b + 8) 7 none (leBytes 1 g)

/-- SPARE_CMD.TAKE (R295); where the conditions do not hold, nothing happens. -/
def State.spareTakeCmd (s : State) (b : Nat) : State :=
  if s.spareReady b (s.get (F.ZLB_SPARE_CFG_SEG b)) then s.spareTake b else s

/-- SPARE_CMD.RELEASE returns the segment to its working lane (R295). -/
def State.spareRelease (s : State) (b : Nat) : State :=
  if s.on (F.ZLB_SPARE_STAT_SERVING b) then
    let g := s.get (F.ZLB_SPARE_STAT_SEG b)
    (s.put (F.ZLB_SPARE_STAT_SERVING b) 0).modZl fun z =>
      { z with spareAt := updNth z.spareAt b (fun _ => s.devtime), lostSegs := z.lostSegs.filter fun x => x ≠ (b, g) }
  else s

/-- Segment `g` of bar `b` is lost (R296). -/
def State.segLost (s : State) (b g : Nat) : State :=
  if s.zl.lostSegs.contains (b, g) then s else
  let s := (s.modZl fun z => { z with lostSegs := z.lostSegs ++ [(b, g)] }).laneEvent (9 * b + g) 9 none (leBytes 1 g)
  if s.on F.ZLK_CFG_STOP_ON_SEGMENT_LOSS then
    match s.run b with
    | some r => (s.modJob r.stream fun j => { j with hadStop := true }).stopJob r.stream
    | none => s
  else s

/-! ### Training (R292 to R294) -/

/-- Lane `nn` is down (R294): its cause, LANE_DOWN, and what sparing makes of it (R295, R296). -/
def State.laneDown (s : State) (nn cause : Nat) : State :=
  let b := nn / 9; let g := nn % 9
  let waiting := (s.lane nn).ctl.filter fun c => c.mailbox
  let s := s.modLane nn fun l => { l with disabling := false, retrain := false, frames := [], ctl := [], busy := none }
  let s := ((s.setLaneState nn zDown).put (F.ZLB_LANE_STAT_CAUSE b g) cause).put (F.ZLB_LANE_STAT_HIB_LOCK b g) 0
  let s := s.laneEvent nn 6 none (leBytes 1 cause)
  let s := foldS waiting (fun c s => s.mailboxDone nn c.seq mbNotActive) s
  if g = 8 then (if s.on (F.ZLB_SPARE_STAT_SERVING b) then s.segLost b (s.get (F.ZLB_SPARE_STAT_SEG b)) else s)
  else if s.serves b g then s
  else if s.spareReady b g then s.spareTake b
  else s.segLost b g

/-- The lane tries the next of its presets, from LOCK (Table 11.9); none is left: false. -/
def State.tryPreset (s : State) (nn : Nat) : State × Bool :=
  match (s.lane nn).presets with
  | [] => (s, false)
  | p :: ps =>
    let s := s.modLane nn fun l =>
      { l with presets := ps, frames := [], busy := none, deadline := s.devtime + 100 * us, pings := 0, maxRtt := 0,
               ctl := (l.ctl.filter fun c => c.opc ≠ 5).map fun c => { c with sentAt := none } }
    let s := (s.setLaneState nn zLock).put (F.ZLB_LANE_STAT_PRESET (nn / 9) (nn % 9)) p
    (s.emit (.zl nn (.trn 1 p (s.lane nn).check (s.get F.PAR_CFG_UNIT_ID))), true)

/-- Full training (R292). -/
def State.trainFull (s : State) (nn : Nat) : State :=
  let b := nn / 9; let g := nn % 9
  let ok := (s.lane nn).okPreset
  let list := if s.on (F.ZLB_TX_PRESET_FORCE b g) then [s.get (F.ZLB_TX_PRESET_VALUE b g)] else ok :: (List.range 8).erase ok
  let s := if (s.lane nn).trained then s.satAdd (F.ZLB_RETRAIN_CNT_FULL b g) 1 else s
  ((s.modLane nn fun l =>
    { l with presets := list, trained := true, check := s.get F.ZLK_CFG_CHECK_LOG2, rttMax := s.get F.ZLK_RTT_MAX }).tryPreset nn).1

/-- A training has failed (R292 to R294): a retraining goes on with full training while it may, else the lane is declared down. -/
def State.trainFailed (s : State) (nn cause : Nat) : State :=
  let l := s.lane nn
  if l.retrain && decide (0 < l.fullLeft) then (s.modLane nn fun l => { l with fullLeft := l.fullLeft - 1 }).trainFull nn
  else s.laneDown nn cause

/-- A preset has failed: the next one from LOCK, or the training has failed. -/
def State.presetFailed (s : State) (nn : Nat) : State :=
  let x := s.tryPreset nn
  if x.2 then x.1 else s.trainFailed nn 1

/-- LDOWN, eight times in a row (R285). -/
def State.ldown (s : State) (nn : Nat) : State :=
  let d := s.discardFrom nn
  let c := s.get (F.ZLB_LANE_STAT_CAUSE (nn / 9) (nn % 9))
  foldS (List.range 8) (fun _ s => s.emit (.zl nn (.ldown d c))) s

/-- An ACTIVE lane retrains (R293): triggers 0 HEADER, 1 ERR_LINES, 2 block lock lost, 3 silence. -/
def State.retrain (s : State) (nn trigger : Nat) : State :=
  let b := nn / 9; let g := nn % 9
  if s.laneState nn ≠ zActive then s else
  let s := if trigger = 0 then s.put (F.ZLB_LANE_STAT_CAUSE b g) 5 else s
  let s := (s.ldown nn).raise { page := P_ZLB b, bit := 5, detail := leBytes 1 trigger ++ leBytes 1 nn }
  if (s.lane nn).disabling then s.laneDown nn 4 else
  let s := s.satAdd (F.ZLB_RETRAIN_CNT_FAST b g) 1
  let s := s.modLane nn fun l =>
    { l with retrain := true, fullLeft := s.get F.ZLK_CFG_RETRAIN_MAX, presets := [l.okPreset], check := 16, rttMax := s.get F.ZLK_RTT_MAX,
             sent := [], lines := 0, lossy := 0 }
  let s := (s.tryPreset nn).1
  if g < 8 ∧ s.on (F.ZLB_SPARE_CFG_EARLY b) ∧ s.spareReady b g then s.spareTake b else s

/-- LANE_EN of lane `nn` goes from 0 to 1 (R292, R294). -/
def State.laneEnable (s : State) (nn : Nat) : State :=
  let s := if s.laneState nn = zActive then s.ldown nn else s
  (s.modLane nn fun l => { l with disabling := false, retrain := false, sent := [] }).trainFull nn

/-- LANE_EN of lane `nn` goes from 1 to 0 (R294): the frame in progress and its replay window finish first. -/
def State.laneDisable (s : State) (nn : Nat) : State :=
  let st := s.laneState nn
  if st = zOff ∨ st = zDown then s
  else if st = zActive then
    match (s.lane nn).newest with
    | some x => if x.closed then (s.ldown nn).laneDown nn 4 else s.modLane nn fun l => { l with disabling := true }
    | none => (s.ldown nn).laneDown nn 4
  else s.laneDown nn 4

/-- The next PING of a training (Table 11.9). -/
def State.ping (s : State) (nn : Nat) : State := s.queueControl nn 0x05 (leBytes 8 s.devtime) false

/-- A TRS report (R292): `locked` is STATUS LOCKED with character lock on the return lane; `errs` the HIB's count and `rx` the device's own. -/
def State.trsReceived (s : State) (nn step : Nat) (locked : Bool) (errs rx : Nat) : State :=
  let st := s.laneState nn
  if st = zLock ∧ step = 1 ∧ locked then
    let c := (s.lane nn).check
    ((s.setLaneState nn zCheck).modLane nn fun l => { l with deadline := s.devtime + zTick (zBlocks (2 ^ c)) }).emit
      (.zl nn (.trn 2 (s.get (F.ZLB_LANE_STAT_PRESET (nn / 9) (nn % 9))) c (s.get F.PAR_CFG_UNIT_ID)))
  else if st = zCheck ∧ step = 2 then
    if errs = 0 ∧ rx = 0 then ((s.setLaneState nn zMeasure).modLane nn fun l => { l with deadline := s.devtime + 10 * us }).ping nn
    else s.presetFailed nn
  else s

/-- A training step has not completed in its time (R292): without block lock or a passing check the next preset is tried; without all 16 PINGs acknowledged the round trip is
not below its limit; without HIB_STATUS the cause is NO_STATUS. -/
def State.trainTimeout (s : State) (nn : Nat) : State :=
  let st := s.laneState nn
  let l := s.lane nn
  if s.devtime < l.deadline then s
  else if st = zLock ∨ st = zCheck then s.presetFailed nn
  else if st = zMeasure then s.trainFailed nn (if l.pings < 16 then 2 else 3)
  else s

/-- A PING is acknowledged (R286, R292): RTT is the largest time from the end of a PING to its ACK. -/
def State.pingAck (s : State) (nn : Nat) (c : ZCtl) : State :=
  let rtt := match c.sentAt with | some e => (s.devtime - e) * 5 / 2 | none => 0
  let s := s.modLane nn fun l => { l with ctl := l.ctl.erase c, busy := none, pings := l.pings + 1, maxRtt := max l.maxRtt rtt }
  let l := s.lane nn
  if l.pings < 16 then s.ping nn
  else
    let s := s.put (F.ZLB_LANE_STAT_RTT (nn / 9) (nn % 9)) (min 1023 l.maxRtt)
    if l.rttMax ≤ l.maxRtt then s.trainFailed nn 2 else s.modLane nn fun l => { l with deadline := s.devtime + 10 * us }

/-- Training leaves an equaliser code in EQ_k, which the spec does not state: a free value (Table 15.3, log entry 6). -/
def State.trainedEq (s : State) (k : Nat) : State :=
  if s.up 1 then
    let x := s.freshWord
    x.2.setReg (R.CAL_EQ k) (putBits 23 0 0 (getBits 23 0 x.1))
  else s

/-- HIB_STATUS completes the training (Table 11.9): ACTIVE, TELEM_CFG and LANE_UP; the lane's serdes unit becomes pending (R353). -/
def State.laneUp (s : State) (nn : Nat) : State :=
  let b := nn / 9; let g := nn % 9
  let s := s.modLane nn fun l =>
    { l with okPreset := s.get (F.ZLB_LANE_STAT_PRESET b g), retrain := false, frames := [], sent := [], busy := none, lines := 0, lossy := 0 }
  let s := s.modZl fun z => { z with lostSegs := z.lostSegs.filter fun x => !(decide (x.1 = b) && (if g = 8 then s.serves b x.2 else decide (x.2 = g) && !s.serves b g)) }
  ((((s.setLaneState nn zActive).trainedEq nn).calLane b).laneEvent nn 4 none []).telemCfg nn

/-! ### Acknowledgements and the replay window (R282 to R285) -/

/-- Change the frame of line `line` on a lane. -/
def ZLane.modFrame (l : ZLane) (line : Nat) (f : ZFrame → ZFrame) : ZLane := { l with frames := l.frames.map fun x => if x.line = line then f x else x }

/-- The frame on lane `nn` that an ACK's ID names (Table 11.4). -/
def State.frameOf (s : State) (nn id : Nat) : Option ZFrame := (s.lane nn).frames.find? fun x => decide (x.line % 0x10000 = id)

/-- LAST_GOOD follows once the header and every chunk of a line are GOOD. -/
def State.noteGood (s : State) (nn line : Nat) : State :=
  match (s.lane nn).frames.find? fun x => decide (x.line = line) with
  | some x => if x.header = .good ∧ (∀ c ∈ x.chunks, c = .good) then s.put (F.ZLB_LAST_GOOD (nn / 9) (nn % 9)) line else s
  | none => s

/-- A chunk is lost (R284). -/
def State.chunkLost (s : State) (nn line k : Nat) : State :=
  ((s.modLane nn fun l => l.modFrame line fun x => { x with chunks := updNth x.chunks k fun _ => .lost }).satAdd (F.ZLB_LOSS_CNT (nn / 9) (nn % 9)) 1).laneEvent
    nn 8 (some line) (leBytes 1 k)

/-- The replay window of the newest frame of a lane closes (R284): chunks not GOOD are lost; lines with lost chunks are counted in windows of 1,024 lines (R293); a lane whose
LANE_EN was cleared goes down (R294). -/
def State.windowEnd (s : State) (nn : Nat) : State :=
  match (s.lane nn).newest with
  | none => s
  | some x =>
    if x.closed then s else
    let lost := if x.absent then [] else (List.range 8).filter fun k => decide (nth x.chunks k ≠ .good)
    let s := s.modLane nn fun l => l.modFrame x.line fun y => { y with closed := true, windowOpen := false, order := [] }
    let s := foldS lost (fun k s => s.chunkLost nn x.line k) s
    let s := if lost.isEmpty then s else s.modLane nn fun l => { l with lossy := l.lossy + 1 }
    let past := decide (s.get F.ZLK_CFG_ERR_LINES ≤ (s.lane nn).lossy)
    let s := s.modLane nn fun l => if 1024 ≤ l.lines then { l with lines := 0, lossy := 0 } else l
    if (s.lane nn).disabling then (s.ldown nn).laneDown nn 4
    else if past then s.retrain nn 1
    else s

/-- RPL_END is reached (R284). -/
def State.replayEnd (s : State) (nn : Nat) : State :=
  if s.laneState nn ≠ zActive then s else
  match s.rplEnd nn with
  | some e => if e ≤ zAt s.devtime + 6399 then s.windowEnd nn else s
  | none => s

/-- HDR_END is reached without a GOOD header (R285). -/
def State.headerDeadline (s : State) (nn : Nat) : State :=
  if s.laneState nn ≠ zActive then s else
  match (s.lane nn).newest, s.hdrEnd nn with
  | some x, some e =>
    if e ≤ zAt s.devtime + 6399 ∧ x.header ≠ .good ∧ !x.closed then
      (s.modLane nn fun l => l.modFrame x.line fun y => { y with closed := true, windowOpen := false }).retrain nn 0
    else s
  | _, _ => s

/-- An item counts as BAD (R283): a header or chunk becomes pending replay not before `ready`, or is lost where there is no replay window any more; a control frame is sent
again, up to eight times for the mailbox. -/
def State.itemBad (s : State) (nn typ k id ready : Nat) : State :=
  if typ = 3 then
    match (s.lane nn).ctl.find? fun c => decide (c.seq = id) && c.sentAt.isSome with
    | none => s
    | some c =>
      if c.mailbox ∧ 8 ≤ c.sends then (s.modLane nn fun l => { l with ctl := l.ctl.erase c }).mailboxDone nn c.seq mbTimeout
      else (s.modLane nn fun l => { l with ctl := l.ctl.map fun d => if d = c then { d with sentAt := none, readyAt := ready } else d }).zlNext nn
  else
    match s.frameOf nn id with
    | none => s
    | some x =>
      if typ = 2 then
        if x.header = .good ∨ x.closed then s
        else (s.modLane nn fun l => l.modFrame x.line fun y => { y with header := .pending ready }).zlNext nn
      else
        let st := nth x.chunks k
        if st = .good ∨ st = .lost then s
        else if x.closed then s.chunkLost nn x.line k
        else (s.modLane nn fun l => l.modFrame x.line fun y =>
          { y with chunks := updNth y.chunks k (fun _ => .pending ready), order := if y.order.contains k then y.order else y.order ++ [k] }).zlNext nn

/-- An item is GOOD. -/
def State.itemGood (s : State) (nn typ k id : Nat) : State :=
  if typ = 3 then
    match (s.lane nn).ctl.find? fun c => decide (c.seq = id) with
    | none => s
    | some c =>
      let s := s.modLane nn fun l => { l with ctl := l.ctl.erase c, busy := if l.busy.map Prod.fst = some (.control id) then none else l.busy }
      (if c.mailbox then s.mailboxDone nn c.seq mbGood else s).zlNext nn
  else
    match s.frameOf nn id with
    | none => s
    | some x =>
      if typ = 2 then
        (s.modLane nn fun l => { l.modFrame x.line fun y => { y with header := .good } with sent := goodHeader x.line l.sent }).noteGood nn x.line
      else if nth x.chunks k = .lost then s
      else
        (s.modLane nn fun l => l.modFrame x.line fun y =>
          { y with chunks := updNth y.chunks k (fun _ => .good), order := y.order.erase k }).noteGood nn x.line

/-- An ACK of the return lane (Table 11.4): item type 1 chunk, 2 header, 3 control frame. -/
def State.zlAck (s : State) (nn typ k id status : Nat) : State :=
  if s.laneState nn = zMeasure then
    match (s.lane nn).ctl.find? fun c => decide (c.seq = id) && decide (c.opc = 5) && c.sentAt.isSome with
    | some c => if typ = 3 ∧ status = 0 then s.pingAck nn c else if typ = 3 then s.itemBad nn typ k id (s.devtime + 20) else s
    | none => s
  else if s.laneState nn ≠ zActive then s
  else if status = 0 then s.itemGood nn typ k id
  else if status = 1 then s.itemBad nn typ k id (s.devtime + 20)
  else if status = 2 then
    match s.frameOf nn id with
    | some x => if typ = 1 then s.modLane nn fun l => l.modFrame x.line fun y => { y with chunks := updNth y.chunks k fun _ => .unchecked } else s
    | none => s
  else if typ = 3 then
    match (s.lane nn).ctl.find? fun c => decide (c.seq = id) with
    | some c =>
      let s := s.modLane nn fun l => { l with ctl := l.ctl.erase c }
      (if c.mailbox then s.mailboxDone nn c.seq mbRefused else s).zlNext nn
    | none => s
  else s

/-- The instant from which an item without an ACK counts as BAD: the round trip plus 100 ns after its last block (R283). -/
def State.ackDue (s : State) (nn e : Nat) : Nat := e + (2 * s.laneRtt nn + 4) / 5 + 40

/-- No ACK has come for an item (R283). -/
def State.ackTimeout (s : State) (nn typ k id : Nat) : State :=
  let since := if typ = 3 then ((s.lane nn).ctl.find? fun c => decide (c.seq = id)).bind fun c => c.sentAt
    else (s.frameOf nn id).bind fun x => match (if typ = 2 then x.header else nth x.chunks k) with | .waiting e => some e | _ => none
  match since with
  | some e => if (s.laneState nn = zActive ∨ s.laneState nn = zMeasure) ∧ s.ackDue nn e ≤ s.devtime then s.itemBad nn typ k id s.devtime else s
  | none => s

/-- A transmission ends (R278, R284): the payload opens the replay window, and the next transmission begins. -/
def State.txEnd (s : State) (nn : Nat) : State :=
  match (s.lane nn).busy with
  | none => s
  | some (what, e) =>
    if zAt s.devtime + 6399 < e then s else
    let s := s.modLane nn fun l =>
      let l := { l with busy := none }
      match what with
      | .payload => if (l.newest.map fun x => x.absent) = some true then l else l.modNewest fun x => if x.closed then x else { x with windowOpen := true }
      | .header => l.modNewest fun x => if x.absent && !x.closed then { x with windowOpen := true } else x
      | _ => l
    s.zlNext nn

/-- The transmission of a bar's line at a boundary, with the windows of the line before closed where they were not (R21, R284). -/
def State.zlSend (s v : State) (b tB : Nat) (q : Option Sent) (first dropPrev : Bool) : State :=
  let s := foldS (List.range 9) (fun g s =>
    let nn := 9 * b + g
    match (s.lane nn).busy with
    | some (.payload, e) => if 100 * tB - zBlocks 10 < e then s else s.windowEnd nn
    | _ => s.windowEnd nn) s
  match q with
  | some q =>
    let s := s.zlTransmit v b tB q first dropPrev
    foldS (List.range 9) (fun g s => if (s.lane (9 * b + g)).newest.any fun x => decide (x.line = q.line) then s else s.zlIdle (9 * b + g)) s
  | none => foldS (List.range 9) (fun g s => s.zlIdle (9 * b + g)) s

/-! ### Telemetry (R290, R291) -/

/-- The records of a telemetry message (Table 11.8). -/
def telemRecords (t nn typ : Nat) (p : List Byte) : List (List Byte) :=
  let n := max 1 ((p.length + 19) / 20)
  (List.range n).map fun i =>
    leBytes 8 t ++ leBytes 1 nn ++ leBytes 1 typ ++ leBytes 1 p.length ++ leBytes 1 (i + 16 * n) ++ padTo 20 ((p.drop (20 * i)).take 20)

/-- TELEM_FWD selects a message type. -/
def State.telemSelected (s : State) (typ : Nat) : Bool :=
  if 0x80 ≤ typ then s.on F.ZLK_TELEM_FWD_HIB_SPECIFIC else decide (1 ≤ typ) && decide (typ ≤ 5) && bit (s.get F.ZLK_TELEM_FWD_TYPES) (typ - 1)

/-- Forward a message to TELEMETRY ring 32 + bar if TELEM_FWD selects its type (R291). -/
def State.telemForward (s : State) (t nn typ : Nat) (p : List Byte) : State :=
  if s.telemSelected typ then foldS (telemRecords t nn typ p) (fun r s => s.putRecord (32 + nn / 9) r) s else s

/-- A telemetry frame is discarded (R291): `rx` says whether the return lane had an error (RX_ERR_CNT). -/
def State.telemBad (s : State) (nn : Nat) (rx : Bool) : State :=
  let s := if rx then s.satAdd (F.ZLB_RX_ERR_CNT (nn / 9) (nn % 9)) 1 else s
  (s.satAdd F.ZLK_TELEM_BAD 1).raise { page := P_ZLK, bit := 4, detail := leBytes 1 nn }

/-- HEAD_TEMP (Table 11.7): the temperatures and sensor faults of the segment's eight heads. -/
def State.headTempMsg (s : State) (t nn : Nat) (p : List Byte) : State :=
  let base := 64 * (nn / 9) + 8 * s.laneSeg nn
  let s := foldS (List.range 8) (fun h s => s.modZl fun z =>
    { z with heads := updNth z.heads (base + h) fun _ => { time := some t, temp := signedOf 16 (leAt p (2 * h) 2), fault := bit (leAt p 16 1) h } }) s
  s.telemForward t nn 1 p

/-- NCHK (Table 11.7): failed nozzles wait for their marking (R222); a standby takes them from its partner (R224). -/
def State.nchkMsg (s : State) (t nn : Nat) (p : List Byte) : State :=
  let b := nn / 9
  let q := leAt p 0 2
  let failed := ((List.range (leAt p 2 2)).filter fun i => bit (leAt p (4 + i / 8) 1) (i % 8)).map fun i => 12416 * s.laneSeg nn + q + i
  let s := if s.up 3 && !(s.role == .standby) then
      s.modNz b fun z => { z with nchk := z.nchk ++ failed.filter fun x => decide (x < nozzles) && !z.nchk.contains x }
    else s
  s.telemForward t nn 2 p

/-- HIB_STATUS (Table 11.7); `port` is the HIB's number of this lane's port. It completes a training (Table 11.9), carries the MLP declaration (R252), reports a conflict
(R289), and shows whether the port has block lock (R293). -/
def State.hibStatusMsg (s : State) (t nn port : Nat) (p : List Byte) : State :=
  let b := nn / 9; let g := nn % 9
  let lock := bit (leAt p 5 1) port
  let s := if s.laneState nn = zMeasure ∧ (s.lane nn).pings = 16 then s.laneUp nn else s
  let s := s.declareMlp b g (leAt p 3 2)
  let s := if leAt p 6 1 ≠ 0 ∧ !(s.lane nn).conflict then s.laneEvent nn 10 none [] else s
  let s := s.modLane nn fun l => { l with conflict := decide (leAt p 6 1 ≠ 0) }
  let s := s.telemForward t nn 3 p
  if s.laneState nn = zActive then
    let s := s.put (F.ZLB_LANE_STAT_HIB_LOCK b g) (b2n lock)
    if lock then s else s.retrain nn 2
  else s

/-- A HIB_EVENT or HIB-specific message; a reserved type is discarded (R291). -/
def State.hibEventMsg (s : State) (t nn typ : Nat) (p : List Byte) : State :=
  if typ = 5 ∨ (0x80 ≤ typ ∧ typ ≤ 0xFF) then s.telemForward t nn typ p else s.telemBad nn false

/-- TELEM_PER changed: TELEM_CFG goes out on every ACTIVE lane (R297). -/
def State.telemPer (s : State) : State :=
  foldS ((List.range 72).filter fun nn => s.laneState nn == zActive) (fun nn s => s.telemCfg nn) s

end Sys2Proof.Machine
end

