-- ==== Sys2Proof/Machine/LineClock.lean ====
section
/-!
DEFINITION. Sys2Proof/Machine/LineClock.lean: the line clocks (R238 to R244): compare skips, re-phase targets, the latch point and the commit of a line.
-/
namespace Sys2Proof.Machine

open Sys2Proof

/-- The web's travel in `ticks` at the speed estimate, in 64.32 form. -/
def State.travel (s : State) (ticks : Nat) : Nat :=
  let x := s.speedSum s.webCh
  if s.speedValid s.webCh && decide (x.1 ≠ 0) then ticks * x.2 * 2 ^ 32 / x.1 else 0

/-- A re-phase target of trigger `k` is discarded for bar `b` (R238). -/
def State.trigLate (s : State) (k b : Nat) : State :=
  (s.satAdd (F.POS_DROP_CNT k) 1).raise { page := P_POS, bit := 10, bar := some b, detail := leBytes 1 k ++ leBytes 1 b }

/-- The queued re-phase targets at the compare position of bar `b`'s next line (R238): those that the grid has passed are discarded, and the next one takes effect
if its turn has come. -/
def State.rephase (b : Nat) : Nat → State → State
  | 0, s => s
  | n + 1, s =>
    match (s.clk b).phq with
    | [] => s
    | (v, k) :: q =>
      if v < s.cmp b then State.rephase b n ((s.modClk b fun c => { c with phq := q }).trigLate k b)
      else if phaseAt v (s.spacing b (s.nextLine b)) (s.cmp b) then (s.modClk b fun c => { c with phq := q }).putCmp b v
      else s

/-- The next boundary of bar `b` is `k` lines further (R243): the lines in between are skipped and reported, and the line has a latch point of its own. -/
def State.skipLines (s : State) (b k cause : Nat) : State :=
  if k = 0 then s else
  let n := lineAdd (s.nextLine b) k
  let s := (s.setReg (R.LCK_LINE b) (BitVec.ofNat 32 (lineAdd n (2 ^ 32 - 1)))).modClk b fun c => { c with placed := true, latched := none }
  s.compareBehind b k cause

/-- The smallest k ≥ 1 with v + k × sp ≥ q. -/
def skipsTo (v sp q : Nat) : Nat := max 1 ((q - v + (sp - 1)) / sp)

/-- CMP of bar `b` lies behind `q`: the grid moves on by whole spacings (R242, R244). -/
def State.skipTo (s : State) (b q : Nat) : State :=
  let sp := s.spacing b (s.nextLine b)
  if sp = 0 then s else
  let k := skipsTo (s.cmp b) sp q
  State.rephase b 9 ((s.putCmp b (s.cmp b + k * sp)).skipLines b k 1)

/-- Watch bar `b` while it has no prediction, and as it comes to have boundaries again (R242, R244): a compare position that the web has passed is skipped. -/
def State.watchBar (s : State) (b : Nat) : State :=
  if !s.hasLines b then s.modClk b fun c => { c with stale := true }
  else if (s.clk b).commit.isSome then s
  else
    let w := s.webPos s.devtime
    if !s.speedValid s.webCh then
      let s := s.modClk b fun c => { c with stale := false }
      if s.cmp b < w then s.skipTo b w else s
    else if (s.clk b).stale then
      let s := s.modClk b fun c => { c with stale := false }
      let q := w + s.travel us
      if s.cmp b < q then s.skipTo b q else s
    else s

/-- Watch every bar. -/
def State.watchLines (s : State) : State := foldS (List.range 8) (fun b s => s.watchBar b) s

/-! ### Re-phase by trigger (R238) -/

/-- The re-phase target of trigger `k` for bar `b`, from the latched web position `p`. -/
def State.phaseTarget (s : State) (k b p : Nat) : Nat := p + s.get64 (R.POS_DIST_LO k) + s.barOffset b

/-- A target is accepted, `delay` ticks being left to the phase apply time (R238, rule 2). -/
def State.phaseOk (s : State) (b v delay : Nat) : Bool :=
  let sp := s.spacing b (s.nextLine b)
  let i := s.lineAfter b (delay + 1200) 64 0
  let c := ((cmpSeq (i + 1) (s.cmp b) sp ((s.clk b).phq.map Prod.fst)).getLast?).getD (s.cmp b)
  decide (c + sp ≤ v) && ((s.clk b).phq.all fun x => decide (x.1 < v)) && decide ((s.clk b).phq.length < 8)

/-- Queue an accepted target. -/
def State.phaseQueue (s : State) (k b v : Nat) : State :=
  State.rephase b 9 (s.modClk b fun c => { c with phq := c.phq ++ [(v, k)] })

/-- The bars of trigger `k`'s PHASE action. -/
def State.phaseBars (s : State) (k : Nat) : List Nat :=
  if s.get (F.POS_TRIG_CFG_ACTION k) = 1 then bitsOf (s.get (F.POS_TRIG_CFG_PHASE_BARS k)) 8 else []

/-! ### Latch point and commit (R240, R241, R254, R357) -/

/-- The latch point of bar `b`'s next line: its predicted t_B lies 1 µs or less ahead (R241). -/
def State.lineLatch (s : State) (b : Nat) : State :=
  match s.predict b 0 with
  | some x =>
    if (s.clk b).commit.isNone && (s.clk b).latched.isNone && decide (x ≤ 64 * (s.devtime + us)) then
      s.modClk b fun c => { c with latched := some s.devtime }
    else s
  | none => s

/-- A forced calibration drops line `l` (R357). -/
def State.forcedDrop (s : State) (b l : Nat) : Bool :=
  match (s.clk b).forced with
  | some (x, k) => lineUpTo x l && decide (lineGap l x < k)
  | none => false

/-- What is fixed for line `l` at t_B (R251, R253): a line of the job that was transmitted is timed by the firing engine. -/
def State.commitLine (s : State) (b l tB : Nat) : Commit :=
  match (s.fbar b).sent with
  | some q =>
    if s.jobLine b l && decide (q.line = l) then
      let c := s.fireCommit b l tB q
      if s.forcedDrop b l then { c with drop := some 2 } else c
    else { line := l, tB := tB }
  | none => { line := l, tB := tB }

/-- The commit of bar `b`'s next line, 240 ns before t_B (R240, R241): t_B comes from the latest edge at least 240 ns before it, waits for the next edge while the cap
holds the position below CMP, and is held until 900 ns after the latch point. A dropped line is noted for the HIBs (R254). -/
def State.lineCommit (s : State) (b : Nat) : State :=
  match s.predict b 0, s.webEdge with
  | some x, some (te, _) =>
    if (s.clk b).commit.isSome || !s.withinCap (s.cmp b) then s.lineLatch b
    else
      let x := max x (64 * (te + 96))
      let s := s.lineLatch b
      match (s.clk b).latched with
      | none => s
      | some tl =>
        let held := decide (x < 64 * (tl + 360))
        let x := max x (64 * (tl + 360))
        if 64 * (s.devtime + 96) < x then s
        else
          let x := max x (64 * (s.devtime + 96))
          let l := s.nextLine b
          let s := if held then (s.satAdd F.LCK_SLIP_CNT 1).raise { page := P_LCK, bit := 5, bar := some b, line := some l } else s
          let c := s.commitLine b l x
          let s := s.modClk b fun k => { k with commit := some c }
          if c.inJob && c.drop.isSome && s.fires b then s.zlDropped b l else s
  | _, _ => s

/-- Compare values that a clasp wrote for bar `b`'s coming line take effect (R243). -/
def State.cmpLand (s : State) (b : Nat) : State :=
  match (s.clk b).cmpSet.find? fun x => decide (x.1 = s.nextLine b) with
  | some (l, v, k) =>
    let s := (s.modClk b fun c => { c with cmpSet := c.cmpSet.filter fun x => !lineUpTo x.1 l }).putCmp b v
    if k = 0 then s else
    let n := lineAdd l k
    (s.setReg (R.LCK_LINE b) (BitVec.ofNat 32 (lineAdd n (2 ^ 32 - 1)))).modClk b fun c => { c with placed := true }
  | none => s

/-- LINE64 and BOUND_TIME of bar `b` (R429): the boundary of line `l`; a wrapped line number counts and raises LINE_WRAP. -/
def State.line64 (s : State) (b l tB : Nat) : State :=
  if !s.up 3 then s else
  let wraps := decide ((s.clk b).lastB ≠ 0) && decide (l < s.get (F.TMB_LINE64_LO b))
  let s := (s.setReg (R.TMB_LINE64_LO b) (BitVec.ofNat 32 l)).put64 (R.TMB_BOUND_TIME_LO b) (tB / 64)
  if wraps then
    (s.setReg (R.TMB_LINE64_HI b) (s.reg (R.TMB_LINE64_HI b) + 1)).raise { page := P_TMB, bit := 4, bar := some b, line := some l }
  else s

/-- The boundary of bar `b` that was committed as `c` is placed: LINE and CMP advance, and clasp values and re-phase targets for the coming line take effect
(R239, R243, R244, R238). -/
def State.advance (s : State) (b : Nat) (c : Commit) : State :=
  let l := c.line
  let s := s.line64 b l c.tB
  let sp := s.spacing b l
  let s := (s.setReg (R.LCK_LINE b) (BitVec.ofNat 32 l)).put64 (R.LCK_LAST_TIME_LO b) (c.tB / 64)
  let s := (s.putCmp b (s.cmp b + sp)).modClk b fun k => { k with placed := true, latched := none, commit := none, lastB := c.tB }
  State.rephase b 9 (s.cmpLand b)

end Sys2Proof.Machine
end

