-- ==== Sys2Proof/Machine/Clasp.lean ====
section
/-!
DEFINITION. Sys2Proof/Machine/Clasp.lean: the clasp engine (R107 to R119): slots, staging, commit conditions, effective lines, conflicts, the apply, and batch clasps.
-/
namespace Sys2Proof.Machine

open Sys2Proof

/-- States of a slot (Table 4.12). -/
def clFree : Nat := 0
def clOpen : Nat := 1
def clArmed : Nat := 2
def clApplying : Nat := 3
def clDone : Nat := 4
def clAborted : Nat := 5

/-- Abort causes (Table 4.15). -/
def caConflict : Nat := 1
def caInReset : Nat := 2
def caOverflow : Nat := 3
def caNotCapable : Nat := 4
def caLate : Nat := 5
def caSbDenied : Nat := 6
def caHostAbort : Nat := 7
def caFetch : Nat := 8
def caReset : Nat := 9

/-- What slot `k` holds beside its registers. -/
def State.slot (s : State) (k : Nat) : Slot := nth s.pix.slots k

/-- Change what slot `k` holds. -/
def State.modSlot (s : State) (k : Nat) (f : Slot → Slot) : State := s.modPix fun p => { p with slots := updNth p.slots k f }

/-- STATUS.STATE of slot `k`. -/
def State.slotState (s : State) (k : Nat) : Nat := s.get (F.CLS_STATUS_STATE k)

/-- An event of slot `k` (R107): its detail bytes are the slot, the sequence number and, for a batch clasp, the TAG of its descriptor. -/
def State.slotEvent (s : State) (k bit : Nat) : State :=
  s.raise { page := P_CLS, bit := bit, detail := leBytes 1 k ++ leBytes 2 (s.get ⟨R.CLS_SEQ k, 15, 0⟩) ++ (match (s.slot k).tag with | some t => leBytes 2 t | none => []) }

/-- The register at offset `a` may be written by a clasp apply (Table 4.9, +c). -/
def claspCapable (a : Nat) : Bool := match regRow a with | some (r, _, _) => r.clasp | none => false

/-- The bar that owns a register (R112). -/
def regBar (a : Nat) : Option Nat :=
  let p := a / 0x1000
  match pageBar p with
  | some b => some b
  | none =>
    if (p = P_LCK ∨ p = P_NZC) ∧ 0x100 ≤ a % 0x1000 ∧ a % 0x1000 < 0x300 then some ((a % 0x1000 - 0x100) / 0x40)
    else if p = P_CRT ∧ 0x70 ≤ a % 0x1000 ∧ a % 0x1000 < 0x90 then some ((a % 0x1000 - 0x70) / 4)
    else none

/-! ### Ends of a clasp, and batch descriptors (R119) -/

/-- Bytes 24 to 31 of a batch descriptor (Table 4.17). -/
def State.batchResult (s : State) (k st cause : Nat) : List Byte :=
  leBytes 1 (st + 16 * cause) ++ leBytes 1 (s.get (F.CLS_STATUS_LATE k)) ++ leBytes 2 (s.get ⟨R.CLS_SEQ k, 15, 0⟩) ++ leBytes 4 (s.reg (R.CLS_EFF_LINE k)).toNat

/-- The clasp of a batch slot has ended: its descriptor completes and the slot is free (R119, step 4). -/
def State.batchEnd (s : State) (k : Nat) : State :=
  match (s.slot k).desc with
  | some i =>
    let r := s.batchResult k (s.slotState k) (s.get (F.CLS_STATUS_CAUSE k))
    ((s.modSlot k fun _ => {}).put (F.CLS_STATUS_STATE k) clFree).descDone (12 + k) i r
  | none => s

/-- A slot aborts (R109, Table 4.15): nothing of it is applied. -/
def State.claspAbort (s : State) (k cause off other : Nat) : State :=
  let s := (s.put (F.CLS_STATUS_STATE k) clAborted).put (F.CLS_STATUS_CAUSE k) cause
  let s := (s.put (F.CLS_ABORT_INFO_OFFSET k) off).put (F.CLS_ABORT_INFO_OTHER k) other
  ((s.satAdd F.CLS_ABORT_CNT 1).slotEvent k 5).batchEnd k

/-- OPEN (Table 4.13). -/
def State.claspOpen (s : State) (k : Nat) : State :=
  let q := s.get F.CLS_NEXT_SEQ
  let s := (s.modSlot k fun _ => {}).setReg (R.CLS_STATUS k) (BitVec.ofNat 32 clOpen)
  (s.setReg (R.CLS_SEQ k) (BitVec.ofNat 32 q)).put F.CLS_NEXT_SEQ (q + 1)

/-- Stage one entry of slot `k` (R110). The page check of a side-band slot applies to slots 8 to 11. -/
def State.claspStage (s : State) (k a : Nat) (w : Word) : State :=
  let l := (s.slot k).entries
  if !claspCapable a then s.claspAbort k caNotCapable a 0
  else if (l.any fun e => e.1 == a) then s.modSlot k fun q => { q with entries := q.entries.map fun e => if e.1 = a then (a, w) else e }
  else if 256 ≤ l.length then s.claspAbort k caOverflow a 0
  else if 8 ≤ k ∧ k < 12 ∧ !s.on ⟨R.ACCESS (a / 0x1000), 0, 0⟩ then s.claspAbort k caSbDenied a 0
  else (s.modSlot k fun q => { q with entries := q.entries ++ [(a, w)] }).put (F.CLS_STATUS_COUNT k) (l.length + 1)

/-! ### Commit (R111 to R113) -/

/-- COND of slot `k`: 0 IMMEDIATE, 1 LINE, 2 POSITION, 3 JOB. -/
def State.clCond (s : State) (k : Nat) : Nat := s.get (F.CLS_COND_COND k)

/-- The reference bar of slot `k`. -/
def State.clBar (s : State) (k : Nat) : Nat := s.get (F.CLS_COND_BAR k)

/-- STAMP of slot `k`. -/
def State.clStamp (s : State) (k : Nat) : Nat := s.get64 (R.CLS_STAMP_LO k)

/-- The condition of slot `k` is passed at COMMIT (Table 4.14). -/
def State.clPassed (s : State) (k : Nat) : Bool :=
  let b := s.clBar k
  let n := s.nextLine b
  if s.clCond k = 1 ∧ s.on (F.CLS_COND_STAMP_EN k) then
    let x := s.clStamp k % 2 ^ 32
    decide (sdiff 32 x (lineAdd n (2 ^ 32 - 1)) ≤ 0) || (decide (x = n) && (s.clk b).latched.isSome)
  else decide (s.clCond k = 2) && decide (s.clStamp k ≤ s.webCount)

/-- LATE is set and reported (R113). -/
def State.claspLate (s : State) (k : Nat) : State :=
  if s.on (F.CLS_STATUS_LATE k) then s else ((s.put (F.CLS_STATUS_LATE k) 1).satAdd F.CLS_LATE_CNT 1).slotEvent k 6

/-- COMMIT (R111 to R113). -/
def State.claspCommit (s : State) (k : Nat) : State :=
  let b := s.clBar k
  let bars := s.get (F.CLS_COND_BARS k)
  let bars := if bars = 0 then ofBits ((List.range 8).map fun i => s.enabled (P_FIRE i)) else bars
  let late := s.clPassed k
  let target := if s.on (F.CLS_COND_STAMP_EN k) then s.clStamp k % 2 ^ 32 else lineAdd (s.nextLine b) (s.unlatched b)
  let s := (s.put (F.CLS_STATUS_STATE k) clArmed).modSlot k fun q =>
    { q with armedAt := s.devtime, late := late, target := target, jobBefore := (s.run b).map fun r => r.consumed, bars := bars }
  if late then (if s.on (F.CLS_COND_LATE_POLICY k) then s.claspAbort k caLate 0 0 else s.claspLate k) else s

/-- The commit point of an armed slot, if it has been reached (Table 4.14, R113); a standby waits for the lines that the active resolves (R117). -/
def State.claspReached (s : State) (k : Nat) : Option Nat :=
  let q := s.slot k
  let b := s.clBar k
  let latch (x : Nat) : Option Nat := if lineUpTo x (s.nextLine b) then (s.clk b).latched else none
  if s.slotState k ≠ clArmed then none
  else if s.role = .standby ∧ q.lines = none then none
  else if q.late then some q.armedAt
  else match s.clCond k with
    | 0 => some q.armedAt
    | 1 => latch q.target
    | 2 => if s.clStamp k ≤ s.webCount then some s.devtime else none
    | _ =>
      match s.run b with
      | some r => if q.jobBefore = some r.consumed then none else match r.first with | some j => latch j | none => none
      | none => none

/-- Bar `b`'s effective line for a commit point (R112): the first line whose latch point is at or after it; a bar without a predicted boundary takes the values with
the line that it numbers next. -/
def State.effLine (s : State) (b point : Nat) : Nat :=
  if !s.predicts b then s.nextLine b
  else match (s.clk b).latched with
    | some t => if t < point then lineAdd (s.nextLine b) 1 else s.nextLine b
    | none => s.nextLine b

/-- The affected bars of slot `k` (R112). -/
def State.claspBars (s : State) (k : Nat) : List Nat :=
  (List.range 8).filter fun b => bit (s.slot k).bars b || decide (b = s.clBar k) || (s.slot k).entries.any fun e => regBar e.1 == some b

/-- The stamp was reached within 1 µs before the latch point that the reference bar would otherwise use (R113). -/
def State.claspClose (s : State) (k : Nat) : Bool :=
  let b := s.clBar k
  decide (s.clCond k = 2) && !(s.slot k).late &&
    (match s.predict b (lineGap (s.effLine b s.devtime) (s.nextLine b)) with
     | some x => decide (x < 64 * (s.devtime + 2 * us))
     | none => false)

/-- A line that has a latch point still to come on bar `b`: `l`, or the first later one (R117, missed line). -/
def State.lineAhead (s : State) (b l : Nat) : Nat :=
  let n := lineAdd (s.nextLine b) (s.unlatched b)
  if lineBefore l n then n else l

/-! ### The apply (R112, R114, R116, R243) -/

/-- The CMP registers, which the line clock takes apart (R243). -/
def isCmp (a : Nat) : Bool := decide (a / 0x1000 = P_LCK) && decide (0x100 ≤ a % 0x1000) && decide (0x14 ≤ a % 0x40) && decide (a % 0x40 ≤ 0x1C)

/-- The code with which an entry's value is refused at the apply (R7, R96): a reserved encoding, or MAX_HOLD of the DRAM instance, which is read-only (Table 12.6). -/
def State.entryRefused (s : State) (r : RegRow) (a : Nat) (w : Word) : Option Nat :=
  let p := a / 0x1000
  let wide := decide (P_FIRE 0 ≤ p ∧ p ≤ P_FIRE 7) && decide (r.off = 0x040) && decide (s.get (F.FIRE_WDOG (p - P_FIRE 0)) < getBits 12 0 w + 40)
  let hot := decide (P_FIRE 0 ≤ p ∧ p ≤ P_FIRE 7) && decide (r.off = 0x05C) && decide (signedOf 16 (getBits 31 16 w) < signedOf 16 (getBits 15 0 w))
  if !rowInRange r w || wide || hot then some 0x02
  else if p = P_ARB ∧ r.off = 0x204 ∧ a % 0x1000 < 0x300 then some 0x01
  else none

/-- One entry takes effect: the register's RW fields take the value (R114); a reserved encoding is refused, and ERR_CODE names the clasp engine (R96, Table 4.5). -/
def State.claspWrite (s : State) (a : Nat) (w : Word) : State :=
  match regRow a with
  | some (r, _, _) =>
    match s.entryRefused r a w with
    | some code => s.refuse a .claspEngine code
    | none =>
      let m := rowMask r .rw
      s.setReg a ((s.reg a &&& ~~~m) ||| (w &&& m))
  | none => s

/-- The compare position that entries for CMP of bar `b` give. -/
def State.cmpWith (s : State) (b : Nat) (l : List (Nat × Word)) : Nat :=
  let v (a : Nat) : Nat := (((l.find? fun e => e.1 == a).map fun e => e.2).getD (s.reg a)).toNat
  (v (R.LCK_CMP_LO b) + 2 ^ 32 * v (R.LCK_CMP_HI b)) * 2 ^ 32 + v (R.LCK_CMP_FRAC b)

/-- CMP of bar `b` written for line `l` (R243): a value behind Q is skipped over by whole spacings. In a pair the standby takes the number of lines that the active
resolved. -/
def State.cmpApply (s : State) (k b l v : Nat) : State :=
  let q := s.webPos s.devtime + s.travel us
  let sp := s.spacing b l
  let n := if s.role = .standby then ((((s.slot k).skips.find? fun x => x.1 == b).map Prod.snd).getD 0)
    else if v < q ∧ sp ≠ 0 then skipsTo v sp q else 0
  let s := if s.role = .active then s.sendPair (.resolve (.compareSkip b l n)) else s
  if l = s.nextLine b then
    let s := s.putCmp b (v + n * sp)
    State.rephase b 9 (s.skipLines b n 0)
  else
    let s := s.modClk b fun c => { c with cmpSet := c.cmpSet.filter (fun x => decide (x.1 ≠ l)) ++ [(l, v + n * sp, n)] }
    if n = 0 then s else s.compareBehind b n 0

/-- All entries of slot `k` take effect, with the effective line of each affected bar: a bar whose effective line is not its next one keeps the former values until
then (R112). -/
def State.claspWrites (s : State) (k : Nat) (lines : List (Nat × Nat)) : State :=
  let l := (s.slot k).entries
  let plain := l.filter fun e => !isCmp e.1
  let old := plain.map fun e => (e.1, s.reg e.1)
  let later := lines.filter fun x => s.predicts x.1 && decide (x.2 ≠ s.nextLine x.1)
  let s := foldS plain (fun e s => s.claspWrite e.1 e.2) s
  let s := s.modPix fun p => { p with deferred := p.deferred ++ later.map fun x => ({ bar := x.1, line := x.2, old := old } : Deferred) }
  let s := foldS lines (fun x s =>
    if l.any fun e => isCmp e.1 && regBar e.1 == some x.1 then s.cmpApply k x.1 x.2 (s.cmpWith x.1 l) else s) s
  let s := foldS (List.range 8) (fun b s =>
    if (l.any fun e => e.1 == R.FIRE_SEL b) && s.on (F.FIRE_SEL_CMD_SWAP b) then (s.put (F.FIRE_SEL_CMD_SWAP b) 0).modClk b fun c => { c with swap := none } else s) s
  let s := if l.any fun e => e.1 / 0x1000 == P_CRT then s.effUpdate else s
  if l.any fun e => e.1 / 0x1000 == P_LCK then s.watchLines else s

/-- Two slots hold entries for one register; the register. -/
def State.claspClash (s : State) (k j : Nat) : Option Nat :=
  ((s.slot j).entries.find? fun e => (s.slot k).entries.any fun f => f.1 == e.1).map fun e => e.1

/-- A slot at its commit point (R114, R116): target blocks are checked, slots in conflict abort, the effective lines are fixed, and the apply starts. -/
def State.claspStart (s : State) (k point : Nat) : State :=
  let l := (s.slot k).entries
  match l.find? fun e => !s.pageUp (e.1 / 0x1000) with
  | some e => s.claspAbort k caInReset e.1 0
  | none =>
    let close := s.role != .standby && s.claspClose k
    if close && s.on (F.CLS_COND_LATE_POLICY k) then s.claspAbort k caLate 0 0
    else
      let s := if close then s.claspLate k else s
      let s := foldS ((List.range 16).filter fun j => j != k && (s.slotState j == clOpen || s.slotState j == clArmed)) (fun j s =>
        match s.claspClash k j with | some a => s.claspAbort j caConflict a k | none => s) s
      let ref := s.clBar k
      let want : List (Nat × Nat) :=
        match s.role, (s.slot k).lines with
        | .standby, some r => r
        | .active, _ => (s.claspBars k).map fun b => (b, if s.predicts b then s.resolveLine b else s.nextLine b)
        | _, _ => (s.claspBars k).map fun b => (b, if close && b == ref then lineAdd (s.effLine b point) 1 else s.effLine b point)
      let lines := if s.role = .standby then want.map fun x => (x.1, if s.predicts x.1 then s.lineAhead x.1 x.2 else x.2) else want
      let s := if lines = want then s else s.claspLate k
      let s := if s.role = .active then s.sendPair (.resolve (.claspLines k lines)) else s
      let eff := (((lines.find? fun x => x.1 == ref).map Prod.snd).getD (s.effLine ref point))
      let s := (s.put (F.CLS_STATUS_STATE k) clApplying).modSlot k fun q => { q with point := point, applyAt := s.devtime, effLine := eff }
      s.claspWrites k lines

/-- The slot that takes its commit point when slot `k` has reached its own: of slots that conflict and have reached theirs, the one whose COMMIT was accepted first, and
the lowest among equals (R116). -/
def State.claspWinner (s : State) (k : Nat) : Nat :=
  (List.range 16).foldl (fun w j =>
    if (s.claspReached j).isSome && (j == k || (s.claspClash k j).isSome)
        && (decide ((s.slot j).armedAt < (s.slot w).armedAt) || (decide ((s.slot j).armedAt = (s.slot w).armedAt) && decide (j < w))) then j else w) k

/-- CLASP_COMMIT_POINT: slot `k` has reached its commit point. -/
def State.claspPoint (s : State) (k : Nat) : State :=
  if !s.up 3 then s else
  match s.claspReached k with
  | none => s
  | some _ =>
    let w := s.claspWinner k
    match s.claspReached w with
    | some t => s.claspStart w t
    | none => s

/-- The apply of slot `k` is complete (R114): CLASP_TAG of the target pages, APPLY_TIME and EFF_LINE, and DONE. The accesses that it held are the bus's. -/
def State.claspDone (s : State) (k : Nat) : State :=
  let q := s.slot k
  let seq := s.get ⟨R.CLS_SEQ k, 15, 0⟩
  let s := foldS q.entries (fun e s => s.setReg (R.CLASP_TAG (e.1 / 0x1000)) (BitVec.ofNat 32 (0x100000 + 0x10000 * k + seq))) s
  let s := (s.put64 (R.CLS_APPLY_TIME_LO k) q.point).setReg (R.CLS_EFF_LINE k) (BitVec.ofNat 32 q.effLine)
  let s := (s.peak F.CLS_APPLY_MAX_LONGEST (s.devtime - q.applyAt)).satAdd F.CLS_APPLY_MAX_APPLIES 1
  ((s.put (F.CLS_STATUS_STATE k) clDone).slotEvent k 4).batchEnd k

/-- A page that an apply is writing (R103). -/
def State.pageHeld (s : State) (p : Nat) : Bool :=
  (List.range 16).any fun k => s.slotState k == clApplying && (s.slot k).entries.any fun e => e.1 / 0x1000 == p

/-! ### Batch clasps from rings (R118, R119) -/

def bcCount (d : Desc) : Nat := leAt d.bytes 8 2
def bcCond (d : Desc) : Nat := leAt d.bytes 10 1

/-- COND as a batch descriptor gives it (Table 4.17). -/
def bcWord (d : Desc) : Word :=
  let c := bcCond d
  BitVec.ofNat 32 (leAt d.bytes 11 1 * 0x1000000 + c / 4 % 2 * 0x200 + c / 8 % 2 * 0x100 + c / 16 % 8 * 0x10 + c % 4)

/-- A batch descriptor reaches slot 12 + `r`: the slot is opened and the fetch of the entry list starts (R119). -/
def State.batchStart (s : State) (r : Nat) : State :=
  let k := 12 + r
  match s.nextDesc (24 + r) with
  | some d =>
    if !(s.up 3 && s.ringRunning (24 + r)) || (s.slot k).desc.isSome then s else
    let s := ((s.takeDesc (24 + r) d.idx).claspOpen k).modSlot k fun q => { q with desc := some d.idx, fetching := true, tag := some (leAt d.bytes 12 2) }
    let s := (s.setReg (R.CLS_COND k) (bcWord d)).put64 (R.CLS_STAMP_LO k) (leAt d.bytes 16 8)
    if bcCount d = 0 ∨ 256 < bcCount d then s.claspAbort k caOverflow 0 0
    else s.emit (.dmaRead 2 (24 + r) (leAt d.bytes 0 8) (8 * bcCount d))
  | none => s

/-- Stage the entries of a fetched list until one aborts the slot. -/
def State.batchStage : Nat → State → Nat → List Byte → State
  | 0, s, _, _ => s
  | n + 1, s, k, l => if s.slotState k = clOpen then (s.claspStage k (leAt l 0 4) (BitVec.ofNat 32 (leAt l 4 4))).batchStage n k (l.drop 8) else s

/-- The entry list of slot 12 + `r` has been fetched, or could not be (R119): it is staged and committed. -/
def State.batchFetched (s : State) (r : Nat) (data : Option (List Byte)) : State :=
  let k := 12 + r
  if !((s.slot k).fetching && s.slotState k == clOpen) then s
  else
    match data with
    | none => s.claspAbort k caFetch 0 0
    | some l =>
      let n := match (s.rt (24 + r)).descs.find? fun d => some d.idx == (s.slot k).desc with | some d => bcCount d | none => 0
      let s := (s.modSlot k fun q => { q with fetching := false }).batchStage n k l
      if s.slotState k = clOpen then s.claspCommit k else s

/-- Ring 24 + `r` is disabled (R119): a clasp that is OPEN or ARMED aborts. -/
def State.batchOff (s : State) (r : Nat) : State :=
  let k := 12 + r
  if (s.slot k).desc.isSome ∧ (s.slotState k = clOpen ∨ s.slotState k = clArmed) then
    s.claspAbort k (if (s.slot k).fetching then caFetch else caHostAbort) 0 0
  else s

/-- CLS SRST or a reset that clears PIX frees every slot (R109, R119): a batch descriptor in progress completes ABORTED with cause RESET, or DONE if its clasp was applied. -/
def State.claspsFree (s : State) : State :=
  foldS (List.range 16) (fun k s =>
    let applied := decide (s.slotState k = clApplying)
    let eff := (s.slot k).effLine
    let s := match (s.slot k).desc with
      | some i =>
        let s := if applied then s.setReg (R.CLS_EFF_LINE k) (BitVec.ofNat 32 eff) else s
        let r := s.batchResult k (if applied then clDone else clAborted) (if applied then 0 else caReset)
        (s.modSlot k fun _ => {}).descDone (12 + k) i r
      | none => s.modSlot k fun _ => {}
    s.setReg (R.CLS_STATUS k) 0) s

end Sys2Proof.Machine
end

