-- ==== Sys2Proof/Machine/Pair.lean ====
section
/-!
DEFINITION. Sys2Proof/Machine/Pair.lean: the redundant pair (chapter 16): the pair link, stamped actions, decisions of the active, control and the HOLD lines,
and the locket transfer.
-/
namespace Sys2Proof.Machine

open Sys2Proof

/-! ### Frames and the link (R370, R384) -/

/-- A valid pair frame arrives: it is acknowledged, HOLDING and the send time are noted (R381), and the answer says whether it is a new frame and not one sent
again. -/
def State.frameIn (s : State) (h : PairHdr) : State × Bool :=
  if !s.linkUp then (s, false) else
  let new := match s.plk.rxSeq with | none => true | some x => decide (0 < sdiff 16 h.seq x)
  let sent := s.fromPair h.sent
  let s := s.modPlk fun p =>
    { p with lastValid := s.devtime
             lastHolding := if h.holding then some (match p.lastHolding with | some x => max x sent | none => sent) else p.lastHolding
             gapTimes := if h.holding then p.gapTimes.filter fun g => decide (sent < (g.2 : Int)) else p.gapTimes
             rxSeq := if new then some h.seq else p.rxSeq }
  (s.sendPair (.ack h.seq), new)

/-- The causes of a failed locket, in the order of R391. -/
def lkLink : Nat := 0
def lkPeer : Nat := 1
def lkSelf : Nat := 2
def lkEcc : Nat := 3
def lkFetch : Nat := 4
def lkNoConverge : Nat := 5
def lkAbort : Nat := 6

/-- The locket ends: LOCKET_BUSY clears, its carats and DRAM requests are given back, and re-fetches still to be made are dropped. -/
def State.locketOff (s : State) : State :=
  let s := (s.put F.PAR_STAT_LOCKET_BUSY 0).modPlk fun p => { p with locket := none }
  let s := s.modPix fun p => { p with img := { p.img with refetch := [], refetchFail := false } }
  let s := s.modMem fun m => { m with arb := { m.arb with waiting := m.arb.waiting.filter fun q => q.r != 7 } }
  if s.up 1 then s.caratWithdraw fun q => q.cons == 7 else s

/-- A locket fails (R391): the event and the record carry the generation, the bytes moved and the cause, whose encoding the spec does not state (a free byte); the
partner is told, and the receiver stays DETACHED. -/
def State.locketFail (s : State) (cause : Nat) : State :=
  match s.plk.locket with
  | none => s
  | some k =>
    let x := s.freshWord
    let s := x.2
    let c := leBytes 1 x.1.toNat
    let n := s.get64 R.PAR_LOCKET_BYTES_LO
    let s := s.sendPair (.locketAbort k.gen cause)
    let s := s.locketOff
    let s := if k.sender then s else s.put F.PAR_STAT_DETACH_CAUSE causeLocketFail
    let s := s.raise { page := P_PAR, bit := 9, detail := leBytes 2 k.gen ++ leBytes 5 n ++ c }
    s.pairRecord 0x05 0xFF k.gen 0 (leBytes 8 n ++ leBytes 1 k.phase ++ c)

/-- The pair link is lost (R384): the active keeps control and raises PEER_LOST; a standby's grace begins; a locket fails. Frames and digests that wait for the
partner wait no longer (log entry 30). -/
def State.linkLost (s : State) : State :=
  if !s.linkUp then s else
  let s := ((s.put F.PLK_LINK_STAT_UP 0).put F.PLK_LINK_STAT_LANES 0).put F.PAR_STAT_LINK_UP 0
  let s := s.satAdd F.PLK_LOSS_CNT 1
  let s := s.modPlk fun p => { p with
    unacked := [], ownDigs := [], peerDigs := [], aligned := false, slew := 0, rxSeq := none, peerClaim := none,
    actions := p.actions.map fun a => { a with waitAck := none } }
  let s := s.locketFail lkLink
  match s.role with
  | .active => (s.raise { page := P_PAR, bit := 5 }).pairRecord 0x07 0xFF 0 0 []
  | .standby => s.modPlk fun p => { p with graceEnd := some (p.lastValid + s.get F.PAR_TIMING_GRACE * us) }
  | _ => s

/-- GRACE has passed since the last valid block, HOLD_IN has not fallen and the link is still down: a standby becomes DETACHED (R384). -/
def State.graceOver (s : State) : State :=
  match s.plk.graceEnd with
  | some t =>
    if s.role == .standby && !s.linkUp && s.plk.holdFell.isNone && decide (t ≤ s.devtime) then
      let s := (s.modPlk fun p => { p with graceEnd := none }).setRole .detached causePeerLost 0
      (s.raise { page := P_PAR, bit := 5 }).pairRecord 0x07 0xFF 0 0 []
    else s
  | none => s

/-- Training of the link ends with `passed` as the lanes that pass (R370, R396): it is up on two or more of the enabled ones. -/
def State.linkTrained (s : State) (passed : List Nat) (latency : Nat) : State :=
  if !s.up 6 || s.linkUp then s else
  let l := (List.range 4).filter fun j => passed.contains j && bit (s.get F.PLK_LANE_EN) j
  let s := foldS l (fun j s => s.trainedEq (72 + j)) s
  if l.length < 2 then s else
  let s := ((s.put F.PLK_LINK_STAT_UP 1).put F.PLK_LINK_STAT_LANES l.length).put F.PLK_LINK_STAT_LATENCY (min 0xFFFF latency)
  let s := (s.put F.PAR_STAT_LINK_UP 1).modPlk fun p => { p with lastValid := s.devtime, aligned := false, graceEnd := none, rxSeq := none }
  s.calLane 8

/-- The partner acknowledges the frame `seq` (R370, R373). -/
def State.frameAck (s : State) (seq : Nat) : State :=
  s.modPlk fun p => { p with
    unacked := p.unacked.filter fun f => f.seq ≠ seq,
    actions := p.actions.map fun a => if a.waitAck = some seq then { a with waitAck := none } else a }

/-- The frame `seq` has had no acknowledgement (R370): it is sent again up to three times; the fourth failure is link loss. -/
def State.frameAgain (s : State) (seq : Nat) : State :=
  match s.plk.unacked.find? fun f => decide (f.seq = seq) with
  | none => s
  | some f =>
    if 4 ≤ f.sends then s.linkLost
    else
      let s := s.emit (.pair f.seq s.holding s.pairTime f.msg)
      (s.satAdd F.PLK_RETX_CNT 1).modPlk fun p => { p with unacked := p.unacked.map fun g => if g.seq = seq then { g with sends := g.sends + 1 } else g }

/-! ### Stamped actions (R373, R374) -/

/-- Put an action into the queue: in stamp order, equal stamps in order of acceptance. -/
def insertAction (a : QAction) : List QAction → List QAction
  | [] => [a]
  | b :: l => if a.stamp < b.stamp then a :: b :: l else b :: insertAction a l

/-- Queue an action. -/
def State.queueAction (s : State) (a : QAction) : State := s.modPlk fun p => { p with actions := insertAction a p.actions }

/-- The active stamps an action and sends it to its partner (R373); the originating write is complete once the stamp has passed and the frame is acknowledged. -/
def State.stampAction (s : State) (act : PairAct) : State :=
  let t := s.devtime + s.get F.PAR_DELAY
  let seq := s.plk.txSeq
  let up := s.linkUp
  let s := s.sendPair (.action (s.toPair t) act)
  s.queueAction { stamp := t, act := act, waitAck := if up then some seq else none }

/-- A STANDBY or DETACHED unit receives an action: queued, or late if less than 0.5 µs is left to its stamp (R374). -/
def State.actionIn (s : State) (stamp : Int) (act : PairAct) : State :=
  if s.role == .standby || s.role == .detached then
    let t := s.fromPair stamp
    if t < (s.devtime : Int) + 200 then
      ((s.setRole .detached causeActionLate 0).put F.PAR_STAT_DETACH_CAUSE causeActionLate).raise { page := P_PAR, bit := 10, detail := leBytes 8 (unsignedOf 64 stamp) }
    else s.queueAction { stamp := t.toNat, act := act }
  else s

/-! ### Decisions of the active (R375, Table 16.3) -/

/-- A STANDBY or DETACHED unit takes over a decision of the active. -/
def State.resolveIn (s : State) (r : Resolve) : State :=
  if !(s.role == .standby || s.role == .detached) then s else
  let tell (b : Nat) : State := if s.up 3 then s.modNz b fun z => { z with told := z.told ++ [r] } else s
  match r with
  | .claspLines k lines => s.modPix fun p => { p with slots := updNth p.slots k fun x => { x with lines := some lines } }
  | .compareSkip b l k => s.modClk b fun c => { c with skips := c.skips ++ [(l, k)] }
  | .slotSwap b l => s.modClk b fun c => { c with swap := some l }
  | .historyEn b l on => s.modFbar b fun f => { f with histPend := some (l, on) }
  | .headState b l h st => s.modFbar b fun f => { f with heads := updNth f.heads h fun x => { x with next := some (l, st) } }
  | .mlpRaise b l v => s.modFbar b fun f => { f with mlpRise := some (l, v) }
  | .headTemps b _ _ => tell b
  | .nchkMarks b _ _ => tell b
  | .densityLine b _ => tell b
  | .nzcWrites b _ _ => tell b
  | .stopLine b l => s.stopBarAt b l
  | .forcedCal b l k => s.calForcedAt b l k
  | .firstLine _ b j => s.setFirst b j

/-! ### Losing and taking control (R380 to R385) -/

/-- A self-diagnosis without a reset (R380): the ACTIVE unit gives up control, and if its partner is not STANDBY its jobs stop (R385); a STANDBY unit becomes
DETACHED. A locket in progress fails: PEER for the sender, SELF for the receiver (R391). -/
def State.giveUp (s : State) : State :=
  match s.role with
  | .active =>
    let standby := s.linkUp && decide (s.get F.PAR_STAT_PEER_ROLE = 2)
    let s := (s.locketFail lkPeer).setRole .detached causeGaveUp 0
    if standby then s else s.stopAll
  | .standby => s.setRole .detached causeSelf 0
  | .detached => s.locketFail lkSelf
  | .solo => s

/-- Lines of the job since the partner's last block that carried HOLDING = 1: the largest number over the bars (R382). -/
def State.gapNow (s : State) : List Nat :=
  (List.range 8).map fun b => s.plk.gapTimes.countP fun g => g.1 == b

/-- The unit takes control (R381): LAST_GAP starts from the lines that the former active did not fire. -/
def State.takeControl (s : State) : State :=
  let gap := s.gapNow
  let n := gap.foldl max 0
  let s := if s.plk.handover then s.satAdd F.PAR_CHANGES_HANDOVERS 1 else s.satAdd F.PAR_CHANGES_TAKEOVERS 1
  let s := (s.put ⟨R.PAR_LAST_GAP, 15, 0⟩ (min 0xFFFF n)).modPlk fun p => { p with gap := gap, gapTimes := [], handover := false, graceEnd := none }
  s.setRole .active 0 n

/-- A line of the job that this active unit did not fire since it took control (R382). -/
def State.gapLine (s : State) (b : Nat) : State :=
  let s := s.modPlk fun p => { p with gap := updNth p.gap b (· + 1) }
  s.peak ⟨R.PAR_LAST_GAP, 15, 0⟩ (nth s.plk.gap b)

/-- HOLD_IN has stayed below VIL for 1 µs (R367): a locket fails (R391), and the takeover wait of R381 begins. -/
def State.holdFall (s : State) : State :=
  if !s.up 6 then s else
  let s := (s.put F.PAR_STAT_HOLD_IN 0).modPlk fun p =>
    { p with holdFell := some (s.devtime - us), lowSince := some (s.devtime - us), fellLocket := p.locket.isSome }
  s.locketFail lkPeer

/-- HOLD_IN has stayed above VIH for 1 µs (R367). -/
def State.holdRise (s : State) : State :=
  if !s.up 6 then s else
  (s.put F.PAR_STAT_HOLD_IN 1).modPlk fun p => { p with holdFell := none, lowSince := none, fellLocket := false }

/-- 2 µs after HOLD_IN qualified low (R381, R384, R385): a standby takes control, unless its partner still holds it. A DETACHED unit finds that no unit holds
control: its jobs stop, and NO_ELIGIBLE carries the generation and bytes of a locket that was in progress. -/
def State.takeover (s : State) : State :=
  match s.plk.holdFell with
  | none => s
  | some t =>
    if s.devtime < t + 3 * us then s else
    let held := match s.plk.lastHolding with | some x => decide ((t : Int) ≤ x) | none => false
    let lk := s.plk.fellLocket
    let s := s.modPlk fun p => { p with holdFell := none, fellLocket := false }
    match s.role with
    | .standby =>
      if held then
        ((s.setRole .detached causeHoldFault 0).raise { page := P_PAR, bit := 7 }).pairRecord 0x06 0xFF 0 0 []
      else s.takeControl
    | .detached =>
      if held then s else
      let gen := if lk then s.get F.PAR_LOCKET_GEN else 0
      let n := if lk then s.get64 R.PAR_LOCKET_BYTES_LO else 0
      let s := if s.dev.inJob then s.stopAll.modAux fun a => { a with clearOuts := true } else s
      let s := s.raise { page := P_PAR, bit := 12, detail := leBytes 2 gen ++ leBytes 6 n }
      s.pairRecord 0x08 0xFF gen 0 (leBytes 8 n ++ leBytes 1 (if lk then s.get F.PAR_LOCKET_PHASE else 0))
    | _ => s

/-- The stamp of a hand-over (R392): the active becomes STANDBY; the partner awaits the fall of HOLD_IN. -/
def State.handoverAt (s : State) : State :=
  match s.role with
  | .active => ((s.locketFail lkPeer).satAdd F.PAR_CHANGES_HANDOVERS 1).setRole .standby 0 0
  | .standby => s.modPlk fun p => { p with handover := true }
  | _ => s

/-- HANDOVER is accepted by an active whose partner is STANDBY, and stamped (R392). The answer says whether it was. -/
def State.handoverCmd (s : State) : State × Bool :=
  if s.role == .active && s.linkUp && decide (s.get F.PAR_STAT_PEER_ROLE = 2) then (s.stampAction .handover, true) else (s, false)

/-! ### Claims (R368) -/

/-- The claim ends without control: CLAIM_FAIL. -/
def State.claimFail (s : State) : State :=
  ((s.modPlk fun p => { p with claim := .none, collisions := 0 }).put F.PAR_STAT_CLAIMING 0).raise { page := P_PAR, bit := 11 }

/-- The partner's claim beats this unit's: ROLE_PREF decides, then the lower serial number. -/
def State.claimLoses (s : State) (p : Bool × Nat) : Bool :=
  let mine := s.on F.DEV_STRAPS_ROLE_PREF
  if p.1 = mine then decide (p.2 < Config.serial.toNat) else p.1

/-- A claim from step 1 on: HOLD_IN low for 20 µs and no HOLDING = 1 in that time; with the link up the claim is announced; then HOLD_OUT goes high and the
collision check is due 5 µs later. The partner counts as claiming for the 5 µs after its announcement (log entry 110). -/
def State.claimGo (s : State) : State :=
  let low := match s.plk.lowSince with | some t => decide (t + 20 * us ≤ s.devtime) | none => false
  let heard := match s.plk.lastHolding with | some x => decide ((s.devtime : Int) < x + 20 * us) | none => false
  if !low || heard then s.claimFail else
  let s := if s.linkUp then s.sendPair (.claim (s.on F.DEV_STRAPS_ROLE_PREF) Config.serial.toNat) else s
  match s.plk.peerClaim with
  | some p => if s.linkUp && decide (s.devtime < s.plk.peerClaimAt + 5 * us) && s.claimLoses p then s.claimFail else
      (((s.modPlk fun q => { q with claim := .raised (s.devtime + 5 * us) }).put F.PAR_STAT_CLAIMING 1).setRole .active 0 0)
  | none => (((s.modPlk fun q => { q with claim := .raised (s.devtime + 5 * us) }).put F.PAR_STAT_CLAIMING 1).setRole .active 0 0)

/-- CLAIM on a DETACHED unit. -/
def State.claimStart (s : State) : State := (s.modPlk fun p => { p with collisions := 0 }).claimGo

/-- The partner announces a claim (R368, step 2): of two claiming units the loser ends its claim. -/
def State.claimIn (s : State) (pref : Bool) (serial : Nat) : State :=
  let s := s.modPlk fun p => { p with peerClaim := some (pref, serial), peerClaimAt := s.devtime }
  match s.plk.claim with
  | .none => s
  | _ =>
    if s.claimLoses (pref, serial) then
      let s := if s.role == .active then s.setRole .detached 0 0 else s
      s.claimFail
    else s

/-- 5 µs after HOLD_OUT was raised (R368, step 4). -/
def State.claimCheck (s : State) : State :=
  match s.plk.claim with
  | .raised due =>
    if s.devtime < due then s
    else if s.on F.PAR_STAT_HOLD_IN then
      let n := s.plk.collisions + 1
      let s := s.setRole .detached 0 0
      if 3 ≤ n then s.claimFail
      else
        let wait := if s.on F.DEV_STRAPS_ROLE_PREF then 100 * us else ms
        s.modPlk fun p => { p with collisions := n, claim := .backOff (s.devtime + wait) }
    else (s.modPlk fun p => { p with claim := .none, collisions := 0 }).put F.PAR_STAT_CLAIMING 0
  | _ => s

/-- The back-off after a collision is over. -/
def State.claimRetry (s : State) : State :=
  match s.plk.claim with
  | .backOff due => if s.devtime < due then s else s.claimGo
  | _ => s

/-! ### The locket (R386 to R391) -/

/-- Show the locket in PAR LOCKET and STAT. -/
def State.locketShow (s : State) (gen phase : Nat) : State :=
  ((s.put F.PAR_LOCKET_GEN gen).put F.PAR_LOCKET_PHASE phase).put F.PAR_STAT_LOCKET_BUSY 1

/-- Count bytes moved (LOCKET_BYTES). -/
def State.locketMoved (s : State) (n : Nat) : State := s.put64 R.PAR_LOCKET_BYTES_LO (s.get64 R.PAR_LOCKET_BYTES_LO + n)

/-- Begin a transfer as sender or receiver: PHASE 1, no bytes moved; the carats of consumer 7 are requested (Table 14.1). -/
def State.locketBegin (s : State) (gen : Nat) (sender : Bool) : State :=
  let s := (s.locketShow gen 1).put64 R.PAR_LOCKET_BYTES_LO 0
  let s := (s.put F.PAR_LOCKET_BAR 0).modPlk fun p => { p with resyncWait := false, locket := some { gen := gen, sender := sender, started := s.devtime } }
  let s := s.modPix fun p => { p with img := { p.img with refetchFail := false } }
  if s.up 1 then s.caratRequest 7 0 0 false else s

/-- The active accepts a resync if no other locket is running; the generation is one more than the last (R386). -/
def State.resyncIn (s : State) : State :=
  if s.role == .active && s.linkUp && s.plk.locket.isNone then
    let gen := (s.get F.PAR_LOCKET_GEN + 1) % 0x10000
    (s.locketBegin gen true).sendPair (.locketPhase gen 1)
  else s

/-- The pair time is aligned within one tick (R371). -/
def State.alignedNow (s : State) : Bool := s.plk.aligned && decide ((signedOf 32 (s.reg R.PAR_TIME_OFS).toNat).natAbs ≤ 1)

/-- UNIT_ID equals the partner's (R369). -/
def State.unitClash (s : State) : Bool := s.linkUp && decide (s.plk.peerUnit = some (s.get F.PAR_CFG_UNIT_ID))

/-- A DETACHED unit that waits for a resync asks for it once its pair time is aligned and the partner is ACTIVE (R371, R386). -/
def State.resyncTry (s : State) : State :=
  if s.plk.resyncWait && s.role == .detached && s.linkUp && decide (s.get F.PAR_STAT_PEER_ROLE = 1) && s.alignedNow && !s.unitClash && s.plk.locket.isNone then
    (s.modPlk fun p => { p with resyncWait := false }).sendPair .resyncRequest
  else s

/-- Digests of bar `b`'s line `l` are compared: not while the bar's seal runs, until line J + 194 (R389). -/
def State.digestsOn (s : State) (b l : Nat) : Bool :=
  match s.plk.locket with
  | some k => (match nth k.sealAt b with | some j => lineUpTo (lineAdd j 194) l | none => k.sender)
  | none => true

/-- A bar that a locket is building and whose seal has not begun at boundary `l`: it neither screens nor fires (R389). -/
def State.building (s : State) (b l : Nat) : Bool :=
  match s.plk.locket with
  | some k => !k.sender && (match nth k.sealAt b with | some j => lineBefore l j | none => true)
  | none => false

/-- The bar whose seal line is next to be resolved, with the bound that the bar before it sets (R389). -/
def Locket.nextSeal (k : Locket) : Option (Nat × Nat) :=
  ((List.range 8).find? fun b => (nth k.sealAt b).isNone).map fun b => (b, if b = 0 then 0 else ((nth k.sealAt (b - 1)).getD 0) + 128)

/-- Bar `b` may be sealed (R390): no report is folding before J_0, and its placement does not run from STREAM tiles. -/
def State.sealReady (s : State) (b : Nat) : Bool :=
  (decide (b ≠ 0) || (List.range 8).all fun n => match (s.nz n).dens with | some d => !d.folds (s.get (F.LCK_LINE n)) | none => true) &&
  (s.img b).streams.isEmpty && (s.img b).openBand.isNone

/-- The sender of a locket in phase SEAL resolves the next seal line (R389): a multiple of 128, at least 2 µs ahead as for a clasp, and 128 lines or more after the
line of the bar before. A bar without line clock is sealed at its next line (log entry 31). -/
def State.sealNext (s : State) : State :=
  match s.plk.locket with
  | none => s
  | some k =>
    if !k.sender || k.phase ≠ 4 then s else
    match k.nextSeal with
    | none => s
    | some (b, low) =>
      if !s.sealReady b then s else
      let l := if s.hasLines b then s.resolveLine b else s.nextLine b
      let l := if b = 0 ∨ lineUpTo low l then l else low
      let j := lineAdd l ((128 - l % 128) % 128)
      let s := s.modPlk fun p => { p with locket := some { k with sealAt := updNth k.sealAt b fun _ => some j } }
      (s.put F.PAR_LOCKET_BAR b).sendPair (.locketSeal k.gen b j)

/-- At boundary `l` of bar `b` the sender hands over the chunk that it has swept: 10,961 bytes (R389). -/
def State.sealChunk (s : State) (b l : Nat) : State :=
  match s.plk.locket with
  | some k =>
    if !k.sender || k.phase ≠ 4 then s else
    match nth k.sealAt b with
    | some j => if lineUpTo j l && decide (lineGap l j < 128) then (s.sendPair (.locketData k.gen 4 10961)).locketMoved 10961 else s
    | none => s
  | none => s

/-- What must hold for the present phase to end (Table 16.8): every plane stored again and no dirty granule; the seal line of bar 7 passed by 194 lines. -/
def State.phaseOver (s : State) (k : Locket) : Bool :=
  if k.phase = 1 then
    if k.sender then k.dirty.isEmpty else s.pix.img.refetch.isEmpty && !s.pix.img.rings.any fun r => match r.fetch with | some f => f.locket | none => false
  else if k.phase = 4 then
    match nth k.sealAt 7 with
    | some j => !s.hasLines 7 || lineBefore (lineAdd j 193) (s.nextLine 7)
    | none => false
  else true

/-- The locket is complete: the receiver becomes STANDBY, and LOCKET_DONE is raised and recorded on both units. -/
def State.locketComplete (s : State) (k : Locket) : State :=
  let s := (s.locketShow k.gen 5).locketOff
  let s := if k.sender then s else s.setRole .standby 0 0
  let s := s.raise { page := P_PAR, bit := 8, detail := leBytes 2 k.gen }
  s.pairRecord 0x04 0xFF k.gen 0 (leBytes 8 (s.get64 R.PAR_LOCKET_BYTES_LO) ++ leBytes 1 5)

/-- The locket goes on to phase `p`; phase 5 completes it. -/
def State.locketTo (s : State) (k : Locket) (p : Nat) : State :=
  if p = 5 then s.locketComplete k
  else
    let s := (s.locketShow k.gen p).modPlk fun q => { q with locket := some { k with phase := p } }
    s.sealNext

/-- The present phase has ended with `bytes` moved in it (R387); the sender tells the receiver. -/
def State.locketPhaseEnd (s : State) (bytes : Nat) : State :=
  match s.plk.locket with
  | none => s
  | some k =>
    if !s.phaseOver k then s else
    let s := s.locketMoved bytes
    let s := if k.sender then s.sendPair (.locketPhase k.gen (k.phase + 1)) else s
    s.locketTo k (k.phase + 1)

/-- BULK has not ended within LOCKET_MAX × 10 ms (R388, Table 16.10). -/
def State.locketMax (s : State) : State :=
  match s.plk.locket with
  | some k => if k.phase = 1 ∧ k.started + s.get F.PAR_TIMING_LOCKET_MAX * 10 * ms ≤ s.devtime then s.locketFail lkNoConverge else s
  | none => s

/-- The sender has read 64 bytes of DRAM data through the LOCKET port: they are sent, and their granule counts as sent and clean (R388). -/
def State.locketRead (s : State) (a : Nat) : State :=
  match s.plk.locket with
  | some k =>
    if k.sender then
      let g := a / 4096
      let k : Locket := { k with granules := if k.granules.contains g then k.granules else k.granules ++ [g], dirty := k.dirty.erase g }
      ((s.modPlk fun p => { p with locket := some k }).sendPair (.locketData k.gen k.phase 64)).locketMoved 64
    else s
  | none => s

/-- The POSITION content is loaded as it stands at the stamp (Table 16.8). -/
def State.loadPosition (s : State) (q : LocketPos) : State :=
  let s := foldS q.regs (fun e s => s.setReg e.1 e.2) s
  let s := s.modFire fun f => { f with hwm := q.hwm, clks := f.clks.zipIdx.map fun x => match nth (q.clks.map some) x.2 with
    | some y => { x.1 with placed := y.1, lastB := y.2 }
    | none => x.1 }
  let s := s.modPix fun p => { p with jobs := padJobs q.jobs, bars := padBars q.bars }
  let s := foldS (List.range 8) (fun b s => match nth (q.places.map some) b with
    | some (n, j, pr) => s.modImg b fun r => { r with nextLx := n, wrLx := n, jobLx := j, print := pr }
    | none => s) s
  s.devJobs
where
  padJobs (l : List (Option Job)) : List (Option Job) := (l ++ List.replicate 4 none).take 4
  padBars (l : List (Option BarRun)) : List (Option BarRun) := (l ++ List.replicate 8 none).take 8

/-- The hand-over of chunk `c` of bar `b` is installed as the result of this unit's own sweep (R389): the counter records, the tone-correction words and missing
bits, and an empty ACC. -/
def State.installChunk (s : State) (b c : Nat) (recs : List Byte) (ws : List (Nat × Word)) : State :=
  let s := s.setDram (s.recordAddr b (776 * c)) recs
  let s := foldS ws (fun e s => s.setReg e.1 e.2) s
  foldS (List.range 776) (fun i s => s.put (F.ACC b (776 * c + i)) 0) s

/-- LOCKET content arrives (R387): the start of a transfer at an aligned DETACHED unit; otherwise content of the present generation for its receiver. -/
def State.locketIn (s : State) (gen bytes : Nat) (part : LocketPart) : State :=
  match part, s.plk.locket with
  | .start, none => if s.role == .detached && s.alignedNow && !s.unitClash then s.locketBegin gen false else s
  | _, none => s
  | part, some k =>
    if k.sender || k.gen ≠ gen then s else
    let s := s.locketMoved bytes
    match part with
    | .start => s
    | .phase p => if k.phase < p ∧ p ≤ 5 then s.locketTo k p else s
    | .regs ws => foldS ws (fun e s => s.setReg e.1 e.2) s
    | .dram off l => if s.up 2 then s.setDram off l else s
    | .runs b p pin l =>
      let s := s.modPlane b p fun x => { x with runs := x.runs ++ l, pin := x.pin || pin }
      (s.modPix fun x => { x with img := { x.img with refetch := x.img.refetch ++ l.map fun d => (b, d.1, d.2) } }).refetchNext b
    | .position _ q => s.loadPosition q
    | .seal b j =>
      (s.modPlk fun p => { p with locket := some { k with sealAt := updNth k.sealAt b fun _ => some j } }).put F.PAR_LOCKET_BAR b
    | .chunk b c recs ws => s.installChunk b c recs ws

/-- A plane re-fetch of the locket in progress has failed or mismatched (R391). -/
def State.refetchCheck (s : State) : State := if s.pix.img.refetchFail then s.locketFail lkFetch else s

/-! ### Heartbeats and pair time (R369 to R372) -/

/-- The measured offset of this unit's pair time to the active's (R371): the first alignment steps DEVTIME forward or PAIR_OFS back by the whole offset; the rest is
slewed. -/
def State.align (s : State) (o : Int) : State :=
  let s := s.setReg R.PAR_TIME_OFS (BitVec.ofInt 32 o)
  if s.plk.aligned then s.modPlk fun p => { p with slew := o }
  else
    let s := s.modPlk fun p => { p with aligned := true, slew := 0, slewAt := s.devtime }
    if o < -400 then { s with devtime := s.devtime + (-o).toNat }
    else if 400 < o then s.putInt64 R.PAR_PAIR_OFS_LO (s.getInt64 R.PAR_PAIR_OFS_LO - o)
    else s.modPlk fun p => { p with slew := o }

/-- One tick of DEVTIME with the slewing of R371: one tick in 1,024 is skipped while ahead and added while behind. -/
def State.tickSlewed (s : State) : State :=
  if s.plk.slew = 0 ∨ s.devtime < s.plk.slewAt + 1024 then { s with devtime := s.devtime + 1 }
  else if 0 < s.plk.slew then s.modPlk fun p => { p with slew := p.slew - 1, slewAt := s.devtime }
  else (s.modPlk fun p => { p with slew := p.slew + 1, slewAt := s.devtime }).atTime (s.devtime + 2)

/-- A standby's sample of the pass-through delay (R372): its own edge time for the same count, before correction, minus the active's; 64 samples make an average
in 1/16 tick. -/
def State.encDelay (s : State) (t : Int) (count : Int) : State :=
  if s.role != .standby then s else
  match s.fire.webEdges.find? fun e => decide ((e.2 : Int) = count) with
  | none => s
  | some e =>
    let d := (e.1 : Int) + signedOf 16 (s.get F.PAR_ENC_DLY) / 16 - s.fromPair t
    let n := s.plk.encCount + 1
    let sum := s.plk.encSum + d
    if n < 64 then s.modPlk fun p => { p with encSum := sum, encCount := n }
    else (s.modPlk fun p => { p with encSum := 0, encCount := 0 }).put ⟨R.PAR_ENC_DLY, 15, 0⟩ (unsignedOf 16 (sum / 4))

/-- A heartbeat of the partner (R369 to R372, R386). -/
def State.heartbeat (s : State) (h : Heartbeat) : State :=
  let s := ((s.put F.PAR_STAT_PEER_ROLE h.role).put F.PAR_STAT_PEER_STATE h.state).put F.PLK_LINK_STAT_LATENCY (min 0xFFFF h.latency)
  let s := s.modPlk fun p => { p with peerUnit := some h.unitId }
  let s := if s.paired && h.unitId == s.get F.PAR_CFG_UNIT_ID then s.raise { page := P_PAR, bit := 13, detail := leBytes 1 h.unitId } else s
  if (s.role == .standby || s.role == .detached) && h.role == 1 then
    ((s.align h.offset).encDelay h.edgeTime h.edgeCount).resyncTry
  else s

/-- Send a heartbeat (Table 16.2). -/
def State.sendHeartbeat (s : State) : State :=
  let e := s.fire.webEdges.headD (0, 0)
  let k := match s.plk.locket with | some l => l.phase | none => 0
  s.sendPair (.heartbeat (s.get F.DEV_DEVSTATE_ROLE) (s.get F.DEV_DEVSTATE_STATE) (s.role == .standby) s.holding (s.get F.PAR_CFG_UNIT_ID)
    (s.get F.PAR_LOCKET_GEN) k (s.toPair e.1) e.2)

/-! ### Control messages and digests (R370, R379, R420) -/

/-- The partner has found a divergence: this unit counts it too, unless its own comparison has dealt with the key. -/
def State.divergedIn (s : State) (k : DigKey) : State :=
  match s.plk.ownDigs.find? fun w => decide (w.key = k) with
  | some w => s.digestMissing true w
  | none =>
    match s.plk.peerDigs.find? fun w => decide (w.key = k) with
    | some w => s.digestMissing false w
    | none => s

/-- A digest of the partner arrives; a mismatch of a tile that a locket re-fetches fails the locket (R377, R391). -/
def State.digestIn (s : State) (k : DigKey) (d : Nat) : State :=
  if !s.paired then s else
  let n := s.get F.PAR_DIVERGE_CNT
  let s := s.peerDigest k d
  match k, s.plk.locket with
  | .tile _ _ _, some x => if !x.sender && x.phase == 1 && s.get F.PAR_DIVERGE_CNT != n then s.locketFail lkFetch else s
  | _, _ => s

/-- Digests whose partners are overdue (R377, R378). -/
def State.digestExpiry (s : State) : State :=
  let isPast (w : DigWait) : Bool := match w.key with
    | .tile _ _ _ => decide (w.due ≤ s.devtime)
    | .line b _ => lineUpTo w.due (s.get (F.LCK_LINE b))
  match s.plk.ownDigs.find? isPast with
  | some w => s.digestMissing true w
  | none =>
    match s.plk.peerDigs.find? isPast with
    | some w => s.digestMissing false w
    | none => s

/-- A record that the partner routed with PAIR: FLAGS.PARTNER is set and PAIR_ROUTE routes it, never back (R420). -/
def State.recordIn (s : State) (r : Rec) : State :=
  if !s.up 3 then s else
  (s.routeRec 3 (((s.reg R.EVT_PAIR_ROUTE).toNat) % 0x400) { r with flags := r.flags ||| 8 }).deliver

/-- A CONTROL message arrives (Table 16.2). -/
def State.controlIn (s : State) (c : PairControl) : State :=
  match c with
  | .claim pref serial => s.claimIn pref serial
  | .resync => s.resyncIn
  | .handover => s.handoverCmd.1
  | .diverged k => if s.paired then s.divergedIn k else s
  | .locketAbort gen cause => match s.plk.locket with
    | some k => if k.gen = gen then s.locketFail cause else s
    | none => s
  | .record r => s.recordIn r

end Sys2Proof.Machine
end

