-- ==== Sys2Proof/Machine/Boundary.lean ====
section
/-!
DEFINITION. Sys2Proof/Machine/Boundary.lean: what happens at a line boundary (R21, R239), put together from the parts of every chapter, and the statistics of
R427.
-/
namespace Sys2Proof.Machine

open Sys2Proof

/-! ### Statistics (R427) -/

/-- The counts of a bar's open interval: lines, fired, dropped, suppressed and deferred lines, the last line and its boundary time, and the drops of each size and
variant. -/
def State.statsOf (s : State) (b : Nat) : List Nat := nth s.pix.stats b ++ List.replicate (19 - (nth s.pix.stats b).length) 0

/-- Replace them. -/
def State.putStats (s : State) (b : Nat) (l : List Nat) : State := s.modPix fun p => { p with stats := updNth p.stats b fun _ => l }

/-- Statistics of bar `b` are kept: EN is set and its ring runs. -/
def State.statsOn (s : State) (b : Nat) : Bool := s.on F.EVT_STATS_CFG_EN && s.ringRunning (40 + b)

/-- Count line `l` of the job into the interval: what became of it, and its drops if it was fired. -/
def State.statsLine (s : State) (b l tB : Nat) (fate : LineFate) (noFire : Bool) (counts : List (List Nat)) : State :=
  if !s.statsOn b then s else
  let a := s.statsOf b
  let add : List Nat := match fate with
    | .fired d => [1, 1, 0, b2n noFire, b2n d]
    | .dropped => [1, 0, 1, 0, 0]
    | .suppressed => [1, 0, 0, 1, 0]
  let drops := (List.range 12).map fun i => match fate with
    | .fired _ => counts.foldl (fun n c => n + nth c i) 0
    | _ => 0
  s.putStats b ((List.range 5).map (fun i => nth a i + nth add i) ++ [l, tB / 64] ++ (List.range 12).map fun i => nth a (7 + i) + nth drops i)

/-- One STATS record (Table 18.7). -/
def statsRecord (b : Nat) (a : List Nat) (part : Nat) : List Byte :=
  let v (i : Nat) : Nat := if part = 3 then nth a (1 + i) else nth a (7 + 4 * part + i)
  leBytes 8 (nth a 6) ++ leBytes 4 (nth a 5) ++ leBytes 1 b ++ leBytes 1 part ++ leBytes 2 (nth a 0) ++ ((List.range 4).map fun i => leBytes 4 (v i)).flatten

/-- Close the interval of bar `b`: its four records go to ring 40 + b. -/
def State.statsClose (s : State) (b : Nat) : State :=
  let a := s.statsOf b
  let s := s.putStats b []
  if s.statsOn b && decide (nth a 0 ≠ 0) then foldS (List.range 4) (fun i s => s.putRecord (40 + b) (statsRecord b a i)) s else s

/-! ### The boundary (R21, R239) -/

/-- Lines of the job for the gap of a change of control (R382): a unit that does not hold control notes the boundary, one that does counts a line whose header it did not
send with CONTROL = 1. -/
def State.gapNote (s : State) (b : Nat) (control : Bool) : State :=
  match s.role with
  | .standby => s.modPlk fun p => { p with gapTimes := p.gapTimes ++ [(b, s.devtime)] }
  | .active => if control then s else s.gapLine b
  | _ => s

/-- The line of the job at boundary `l` fires, is dropped, or is suppressed (R249, R250, R254, R257), is captured, and is counted. -/
def State.lineFire (s v : State) (b l : Nat) (c : Commit) : State × Option (List (BitVec 4)) :=
  match (s.fbar b).sent with
  | some q =>
    if q.line = l then
      let r := s.fireLine v b l c q
      let quiet := q.noFire || decide ((s.fbar b).cutHeld ≠ 0)
      let dropped := match r.2 with | .fired _ => false | _ => true
      let t := (r.1.captureLine b c q dropped).statsLine b l c.tB r.2 quiet q.counts
      (t.gapNote b q.control, if dropped then none else some q.words)
    else (((s.satAdd (F.FIRE_SUPP_CNT b) 1).statsLine b l c.tB .suppressed false []).gapNote b false, none)
  | none => (((s.satAdd (F.FIRE_SUPP_CNT b) 1).statsLine b l c.tB .suppressed false []).gapNote b false, none)

/-- The line after `l` is sent, unless the bar's firing is disabled and will not fire it (R250, R275): its words leave on the lanes, with FIRST and DROP_PREV as the job and
line `l` give them, and its digest is made (R21, R378). -/
def State.lineSend (s v : State) (b l : Nat) (c : Commit) : State :=
  let n := lineAdd l 1
  let job := s.jobLine b n && s.enabled (P_FIRE b)
  let s := if job then s.sendLine b l else s.modFbar b fun f => { f with sent := none }
  let first := match s.run b with | some r => r.first == some n | none => false
  let s := match (s.fbar b).sent with
    | some q => if s.digestsOn b n then s.lineDigest b n ((List.range 8).map fun g => segBytes (segLine q.words g)).flatten else s
    | none => s
  if s.up 5 then s.zlSend v b c.tB (s.fbar b).sent first (c.inJob && c.drop.isSome) else s

/-- A bar that a locket builds starts at its seal line (R389): the latch that the job's first line made, and no line screened before J + 2. -/
def State.sealStart (s : State) (b l : Nat) : State :=
  match s.plk.locket, s.run b with
  | some k, some r =>
    if !k.sender && decide (nth k.sealAt b = some l) then (s.screenFirst b (r.first.getD l)).putFifo b (noFireLine (lineAdd l 1)) else s
  | _, _ => s

/-- Boundary of bar `b` (R21, R239): the committed line is placed, values of clasps come into force, and firing, screening, transmission, counting, sweeps and visits
follow in the order of R21. -/
def State.lineBoundary (s : State) (b : Nat) : State :=
  match (s.clk b).commit with
  | none => s
  | some c =>
    if 64 * s.devtime < c.tB then s else
    let l := c.line
    let s := (s.advance b c).viewDone b l
    if s.building b l then s.sealNext else
    let s := s.sealStart b l
    let s := match s.run b with | some r => if r.first = some l then s.putStats b [] else s | none => s
    let s := (s.nzcBefore b l).fireValues b l
    let v := s.view b l
    let s := (s.calBoundary (v.on (F.CAL_CFG_APPLY)) b l).calForcedStart b l (c.tB / 64)
    let s := s.jobLineBegin b l
    let x := if s.jobLine b l then s.lineFire v b l c else (s, none)
    let s := if s.up 3 then x.1.screenBoundary v b l else x.1
    let s := s.lineSend v b l c
    let s := (s.nzcAfter b l x.2).sealChunk b l
    let s := if s.inJob b && decide (l % 2 ^ s.get F.EVT_STATS_CFG_LOG2 = 0) then s.statsClose b else s
    let was := s.inJob b
    let s := (s.jobLineEnd b l x.2.isSome).cutNow b
    let s := if was && !s.inJob b then s.statsClose b else s
    s.sealNext

end Sys2Proof.Machine
end

