-- ==== Sys2Proof/Machine/Blocks.lean ====
section
/-!
DEFINITION. Sys2Proof/Machine/Blocks.lean: block enable, drain and block reset (R86, R91), which every page shares.
-/
namespace Sys2Proof.Machine

open Sys2Proof

/-! ### Refusal codes (R96) -/

def eReadOnly : Nat := 0x01
def eReserved : Nat := 0x02
def eWidth : Nat := 0x03
def eSbDenied : Nat := 0x04
def eStandby : Nat := 0x05
def eNotIdle : Nat := 0x06
def eFault : Nat := 0x07
def eInReset : Nat := 0x08
def eBadKey : Nat := 0x09
def eActiveBank : Nat := 0x0A
def eClaspOnly : Nat := 0x0B
def eSlotOwner : Nat := 0x0C
def eSlotState : Nat := 0x0D

/-- LOADING of NZC, STATE.BLOCK bit 8 (R225). -/
def F.NZC_LOADING : Fld := ⟨R.STATE P_NZC, 8, 8⟩

/-- What a block does as it starts running: PAR makes a SOLO unit DETACHED (R365), POS restarts its channels (R247), LCK looks at the compare positions (R244), NZC
starts its load (R225), and IMG reads on (R452). -/
def State.blockStart (s : State) (p : Nat) : State :=
  if p = P_PAR then (if s.role == .solo then s.setRole .detached 0 0 else s)
  else if p = P_POS then s.posEnable
  else if p = P_LCK then s.watchLines
  else if p = P_NZC then s.put F.NZC_LOADING 1
  else if p = P_IMG then s.imgResume
  else s

/-- The block of page `p` runs. -/
def State.blockRun (s : State) (p : Nat) : State :=
  (((s.put (F.C_ENABLE p) 1).put (F.S_IDLE p) 0).put (F.S_DRAINING p) 0).blockStart p

/-- ENABLE written 1 (Table 3.12); the answer is the code of a refusal. -/
def State.blockEnable (s : State) (p : Nat) : State × Option Nat :=
  if s.on (F.S_FAULT p) then (s, some eFault)
  else if s.on (F.S_DRAINING p) then ((s.put (F.C_ENABLE p) 1).put (F.S_REARM p) 1, none)
  else if s.on (F.S_IDLE p) then (s.blockRun p, none)
  else (s, none)

/-- ENABLE written 0 (Table 3.12): a running block drains, and a pending re-arm is withdrawn. PAR makes the unit SOLO, unless it holds control in a job (R365). -/
def State.blockDisable (s : State) (p : Nat) : State × Option Nat :=
  if p = P_PAR ∧ s.role = .active ∧ s.dev.inJob then (s, some eSlotState)
  else if s.on (F.S_DRAINING p) then ((s.put (F.C_ENABLE p) 0).put (F.S_REARM p) 0, none)
  else if s.on (F.S_IDLE p) then (s, none)
  else
    let s := (s.put (F.C_ENABLE p) 0).put (F.S_DRAINING p) 1
    (if p = P_PAR then (s.locketFail lkAbort).setRole .solo 0 0 else if p = P_POS then s.posDisable else s, none)

/-- Draining completes (Table 3.12): the block is IDLE, or runs again if a re-arm is pending. -/
def State.blockDrained (s : State) (p : Nat) : State :=
  if !s.on (F.S_DRAINING p) then s else
  let s := if p = P_NZC then s.nzcDrained.put F.NZC_LOADING 0 else s
  let s := if s.on (F.S_REARM p) then (s.put (F.S_REARM p) 0).blockRun p
    else (s.put (F.S_DRAINING p) 0).put (F.S_IDLE p) 1
  s.raise { page := p, bit := 2 }

/-! ### Descriptors that a ring forgets (R123, R139) -/

/-- The engine of ring `n` goes on with what it holds, but its descriptors match none of the ring any more. -/
def State.ringForget (s : State) (n : Nat) : State :=
  if n < 8 then
    let job (j : TileJob) : TileJob := if j.bar = n then { j with desc := staleIdx j.desc } else j
    let req (q : Req) : Req := match q.work with | .tile j => { q with work := .tile (job j) } | _ => q
    let s := s.modImg n fun r =>
      { r with fetch := r.fetch.map fun f => { f with idx := staleIdx f.idx },
               print := r.print.map fun p => { p with idx := staleIdx p.idx },
               streams := r.streams.map fun x => (staleIdx x.1, x.2) }
    s.modPix fun p =>
      { p with pool := { waiting := p.pool.waiting.map req, holders := p.pool.holders.map req }, img := { p.img with copy := p.img.copy.map job } }
  else if n < 12 then s.modCodec (n - 8) fun c => { c with job := c.job.map fun j => { j with idx := staleIdx j.idx } }
  else if 16 ≤ n ∧ n < 24 then s.modNz (n - 16) fun z => { z with dens := z.dens.map fun d => { d with idx := staleIdx d.idx } }
  else if 24 ≤ n ∧ n < 28 then s.modSlot (n - 12) fun k => { k with desc := k.desc.map staleIdx }
  else if 56 ≤ n ∧ n < 60 then s.modJob (n - 56) fun j =>
    { j with start := j.start.map staleIdx, endIdx := j.endIdx.map staleIdx, stopIdx := j.stopIdx.map staleIdx }
  else if n = 62 then s.modPix fun p => { p with prbs := p.prbs.map fun r => { r with desc := r.desc.map staleIdx } }
  else s

/-- Every ring is disabled, and its descriptors are forgotten (R123): outstanding reads are discarded, armed jobs and codec jobs are withdrawn, and reports that are not staged. -/
def State.ringsDrop (s : State) : State :=
  let s := foldS (List.range 8) (fun b s => match (s.img b).fetch with
    | some f => if f.locket then (if f.fromDram then s else s.endFetch b f true) else s.endFetch b { f with stopping := true } false
    | none => s) s
  let s := foldS (List.range 4) (fun k s =>
    let s := match s.codecLane k with | some q => s.laneEnd q | none => s
    ((s.modCodec k fun c => { c with job := none }).batchOff k).jobRingOff k) s
  let s := foldS (List.range 8) (fun b s => s.modNz b fun z => { z with dens := match z.dens with | some d => (if d.staged then some d else none) | none => none }) s
  foldS (List.range 64) (fun n s => s.ringForget n) s

/-! ### Block reset (R86) -/

/-- Registers that show what the device is and not what the block was told: block reset leaves them (log entry 32). -/
def liveReg (a : Nat) : Bool :=
  a == R.DEV_DEVSTATE || a == R.DEV_OUTGRP_ACT || a == R.DEV_GPIO_IN || a == R.DEV_STRAPS || a == R.RSC_RST_CAUSE || a == R.RSC_ISL_HOLD || a == R.RSC_BOOT_CTRL
    || a / 0x1000 == P_PWR || a / 0x1000 == P_CLK && a != R.CLK_HOST_REF || a / 0x1000 == P_TRM || a == R.SBP_RATE || a == R.SBP_LOG_SEQ || a == R.SBP_EVQ
    || a == R.CHN_ADDR || a == R.CHN_STAT || a == R.PLK_LINK_STAT || a == R.PAR_STAT || a == R.HIF_DEVSTATE_MIRROR || a == R.HIF_LINK_STAT
    || a == R.MEM_STAT || a == R.MEM_CH_MAP || a == R.MEM_INIT_LEFT || (List.range 16).any (fun c => a == R.MCH_TRAIN c)
    || a == R.THM_SITE_EN || a == R.CRT_CORE_STAT || (List.range 3).any (fun i => a == R.ARB_HOLDING i)

/-- The DRAM front-end requesters that belong to the block of page `p` (Table 12.3). -/
def blockPorts (p : Nat) : List Nat :=
  if p = P_IMG then [0, 2] else if p = P_CDC then [5] else if p = P_NZC then [6] else if p = P_PAR then [7] else if p = P_EVT then [8] else if p = P_MEM then [9] else []

/-- The requests of a block that is reset are withdrawn and its grants released (Table 12.2). -/
def State.blockWithdraw (s : State) (p : Nat) : State :=
  let s := if s.up 2 && !(blockPorts p).isEmpty then s.arbWithdraw 0 fun q => (blockPorts p).contains q.r else s
  if p = P_IMG then s.arbWithdraw 2 fun q => match q.work with | .tile _ => true | _ => false
  else if p = P_CDC then s.arbWithdraw 2 fun q => match q.work with | .codec _ => true | _ => false
  else s

/-- The image store is reset: its descriptors complete STOPPED, as after a reset that clears PIX (R169), and every plane is empty. -/
def State.imgReset (s : State) : State :=
  (foldS (List.range 8) (fun b s => s.tileReset b) s).modPix fun x =>
    { x with img := { x.img with planes := x.img.planes.map fun _ => {}, rings := x.img.rings.map fun _ => {}, copy := none, copyStalled := false } }

/-- What the block of page `p` holds beside its registers goes back with them: a clasp slot is freed (R109), every ring is disabled with DMA, planes and
parked contexts are empty, and the position channels, line clocks, firing engines, screening engines, nozzle correction and lanes start afresh. -/
def State.blockClear (s : State) (p : Nat) : State :=
  let s := s.blockWithdraw p
  if p = P_CLS then s.claspsFree
  else if p = P_EVT then s.modPix fun x => { x with lostArmed := true, stats := List.replicate 8 [] }
  else if p = P_DMA then s.ringsDrop.modHost fun h => { h with rings := List.replicate 64 {}, prevStart := List.replicate 4 none, r451 := List.replicate 4 none }
  else if p = P_CDC then foldS (List.range 4) (fun k s => s.modCodec k fun c => { c with slots := List.replicate 16 none }) s
  else if p = P_IMG then s.imgReset
  else if p = P_DBG then s.modPix fun x => { x with prbs := x.prbs.filter fun r => r.desc.isSome }
  else if p = P_POS then s.modFire fun f => { f with chans := List.replicate 4 {}, trigs := List.replicate 4 {}, hwm := 0, webEdges := [] }
  else if p = P_LCK then s.modFire fun f => { f with clks := List.replicate 8 {} }
  else if p = P_NZC then s.modPix fun x => { x with nzc := List.replicate 8 {} }
  else if P_SCN 0 ≤ p ∧ p ≤ P_SCN 7 then s.modScn (p - P_SCN 0) fun _ => {}
  else if P_FIRE 0 ≤ p ∧ p ≤ P_FIRE 7 then s.modFbar (p - P_FIRE 0) fun _ => {}
  else if P_ZLB 0 ≤ p ∧ p ≤ P_ZLB 7 then foldS (List.range 9) (fun g s => s.modLane (9 * (p - P_ZLB 0) + g) fun _ => {}) s
  else if p = P_CAL then s.modHsk fun h => { h with runs := [], again := [], held := [], overdue := [] }
  else if p = P_CHN then s.modAux fun a => { a with arm := none }
  else s

/-- The island whose reset clears a BAR 0 word: the MSI-X table and PBA belong to HOST (R126), the array windows to PIX (R100), and a page's registers to its island. -/
def addrIsland (a : Nat) : Nat :=
  if 0x1000000 ≤ a then 3 else if 0x700 ≤ a ∧ a < 0x1000 then 7 else pageIsland (a / 0x1000)

/-- Holding registers of R8 for registers that a reset clears are empty again. -/
def State.dropHeld (s : State) (p : Nat → Bool) : State :=
  s.modAux fun a => { a with capt := a.capt.filter fun x => !p x.2.1, holdLo := a.holdLo.filter fun x => !p x.2.1 }

/-- SRST written 1 (Table 3.12): an idle block's registers from 0x040 on return to their reset values, EVT_PEND and FAULT are cleared,
and IN_RESET becomes 0 again, which raises RELEASED (R92). -/
def State.blockReset (s : State) (p : Nat) : State × Option Nat :=
  if !s.on (F.S_IDLE p) then (s, some eNotIdle)
  else
    let s := s.blockClear p
    let s := s.clearRegs fun a => a / 0x1000 == p && decide (0x040 ≤ a % 0x1000) && !(p == 0 && decide (0x700 ≤ a)) && !liveReg a
    let s := s.dropHeld fun a => a / 0x1000 == p
    let s := ((s.setReg (R.EVT_PEND p) 0).setReg (R.EVT_RAW p) 0).put (F.S_FAULT p) 0
    let s := if p = P_DEV then s.padsUpdate
      else if p = P_CAL then s.calReleased
      else if p = P_CRT then s.caratCounts.effUpdate
      else if p = P_PAR then (s.put F.PAR_CFG_UNIT_ID (if s.on F.DEV_STRAPS_ROLE_PREF then 1 else 2)).mirror
      else s
    (s.raise { page := p, bit := 3 }, none)

/-- CTRL[31:8] as the blocks' chapters define it: HISTORY_EN of FIRE_n (R262); the other bits are reserved. -/
def State.ctrlBlock (s : State) (p : Nat) (w : Word) : State :=
  if P_FIRE 0 ≤ p ∧ p ≤ P_FIRE 7 then
    let on := bit w.toNat 8
    if s.on ⟨R.CTRL p, 8, 8⟩ = on then s else (s.put ⟨R.CTRL p, 8, 8⟩ (b2n on)).historyChange (p - P_FIRE 0) on
  else s

/-- A CTRL value is written to a page whose island runs (R86, R91): it is accepted or refused as a whole, and its BLOCK bits take effect with it. -/
def State.writeCtrl (s : State) (p : Nat) (w : Word) : State × Option Nat :=
  let x :=
    if bit w.toNat 1 then s.blockReset p
    else if bit w.toNat 0 then s.blockEnable p
    else s.blockDisable p
  match x.2 with
  | some code => (s, some code)
  | none => (x.1.ctrlBlock p w, none)

/-- A CTRL write recorded while the page was held takes effect as a whole; an SRST bit in it is ignored (R77, R91). -/
def State.applyRecorded (s : State) (p : Nat) : State :=
  match s.aux.ctrlRec.find? fun c => decide (c.1 = p) with
  | some c =>
    let s := s.modAux fun a => { a with ctrlRec := a.ctrlRec.filter fun d => d.1 ≠ p }
    (s.writeCtrl p (putBits 1 1 c.2 0)).1
  | none => s

/-- The pages of an island. -/
def islandPages (i : Nat) : List Nat := (List.range 0x34).filter fun p => pageIsland p == i

/-- The pages of an island leave reset: their blocks are IDLE (R92). -/
def State.pagesOut (s : State) (i : Nat) : State := foldS (islandPages i) (fun p s => s.setReg (R.STATE p) 1) s

/-- Recorded CTRL writes of an island take effect, and RELEASED is raised in each of its pages (R77, R92). -/
def State.pagesStart (s : State) (i : Nat) : State :=
  let s := foldS (islandPages i) (fun p s => s.applyRecorded p) s
  foldS (islandPages i) (fun p s => s.raise { page := p, bit := 3 }) s

end Sys2Proof.Machine
end

