-- ==== Sys2Proof/Machine/HostRings.lean ====
section
/-!
DEFINITION. Sys2Proof/Machine/HostRings.lean: the PCIe function as the host drives it: link, resets of HOST, configuration, BAR 2, and the rings' enables, doorbells,
fetches, claims and interrupts (R120 to R147).
-/
namespace Sys2Proof.Machine

open Sys2Proof

/-- The fields of the configuration space that Table 5.2 gives: offset and value (R121). Subsystem ID comes from OTP; 0x1F5B / 0x0001 is its value if that is unprogrammed. -/
def configSpace : List (Nat × Nat) :=
  [(0x00, 0x82101F5B), (0x08, 0x118000B0), (0x20, 0), (0x24, 0), (0x2C, 0x00011F5B), (0x34, 0x40), (0x3C, 0), (0x54, 0x800), (0x58, 0x700)]

/-! ### Enabling and disabling rings (R139, Table 5.9) -/

/-- RING_EN of ring `n` has changed from 0 to 1. -/
def State.ringEnable (s : State) (n : Nat) : State :=
  let s := s.ringForget n
  let s := s.modRt n fun _ => {}
  let s := (((s.setReg (R.DMA_RING_PROD n) 0).setReg (R.DMA_RING_CONS n) 0).setReg (R.DMA_RING_DONE n) 0).setReg (R.DMA_RING_STAT n) 0
  let s := if 56 ≤ n ∧ n < 60 then s.modHost fun h => { h with prevStart := updNth h.prevStart (n - 56) fun _ => none } else s
  let log := s.get (F.DMA_RING_CFG_LOG2_SIZE n)
  if (s.reg (R.DMA_RING_BASE_LO n)).toNat % 32 ≠ 0 ∨ log < 4 ∨ 16 < log then s.ringStop n 4
  else (s.put (F.DMA_RING_STAT_RUNNING n) 1).statusWrite n

/-- RING_EN of ring `n` has been written 0: a record ring discards what it holds; a submission ring completes what it has fetched, each class in its own way (R119, R144,
R166). -/
def State.ringDisable (s : State) (n : Nat) : State :=
  if isSubmission n then
    let s := s.modRt n fun r => { r with disabling := true }
    let s := if n < 8 then s.tileRingOff n
      else if 16 ≤ n ∧ n < 24 then
        match (s.nz (n - 16)).dens with
        | some d => if s.on (F.DMA_RING_STAT_ERROR n) && !d.staged then s.densEnd (n - 16) 3 d 0 else s
        | none => s
      else if 24 ≤ n ∧ n < 28 then s.batchOff (n - 24)
      else if 56 ≤ n ∧ n < 60 then s.jobRingOff (n - 56)
      else s
    s.ringComplete 8 n
  else ((s.modRt n fun r => { r with held := [] }).put (F.DMA_RING_STAT_RUNNING n) 0).statusWrite n

/-! ### Doorbells, fetches and claims (R136 to R138) -/

/-- PROD of submission ring `n` is written (R136): a write outside the window is not applied and stops the ring. -/
def State.doorbell (s : State) (n : Nat) (w : Word) : State :=
  if w = s.reg (R.DMA_RING_PROD n) then s
  else if s.ringSize n < (w - s.reg (R.DMA_RING_PROD n)).toNat ∨ s.ringSize n < (w - s.reg (R.DMA_RING_DONE n)).toNat then s.ringStop n 1
  else (s.setReg (R.DMA_RING_PROD n) w).statusWrite n

/-- A write of CONS of record ring `n` passes PROD (R137). -/
def State.consPast (s : State) (n : Nat) (w : Word) : Bool := decide (s.ringSize n < (s.reg (R.DMA_RING_PROD n) - w).toNat)

/-- CONS of record ring `n` is written (R137, R138): entries are released, the claim index never falls below CONS, and held records that have room now are written. -/
def State.consWrite (s : State) (n : Nat) (w : Word) : State :=
  let p := s.reg (R.DMA_RING_PROD n)
  let c := BitVec.ofNat 32 (s.rt n).claim
  let s := s.setReg (R.DMA_RING_CONS n) w
  let s := if (p - w).toNat < (p - c).toNat then s.modRt n fun r => { r with claim := w.toNat } else s
  ((s.ringFullFlag n).statusWrite n).ringFlush 64 n

/-- A read of POP of ring `n` (R138). -/
def State.popRead (s : State) (n : Nat) : Word × State :=
  let c := (s.rt n).claim
  if isSubmission n || decide (c = (s.reg (R.DMA_RING_PROD n)).toNat) then (0, s)
  else (BitVec.ofNat 32 (0x80000000 + c % s.ringSize n), s.modRt n fun r => { r with claim := (c + 1) % 2 ^ 32 })

/-- The next descriptor of ring `n` has been read from host memory (R136): at most 8 ahead of DONE. -/
def State.descriptorFetched (s : State) (n : Nat) (bytes : List Byte) : State :=
  if isSubmission n && s.ringRunning n && !(s.rt n).disabling && s.dmaOk
      && decide (s.reg (R.DMA_RING_CONS n) ≠ s.reg (R.DMA_RING_PROD n))
      && decide ((s.reg (R.DMA_RING_CONS n) - s.reg (R.DMA_RING_DONE n)).toNat < 8) then
    let i := (s.reg (R.DMA_RING_CONS n)).toNat
    let s := s.emit (.dmaRead 1 n (s.ringEntry n i) 32)
    let s := s.modRt n fun r => { r with descs := r.descs ++ [({ idx := i, bytes := padTo 32 bytes } : Desc)] }
    (s.setReg (R.DMA_RING_CONS n) (s.reg (R.DMA_RING_CONS n) + 1)).statusWrite n
  else s

/-- How AER logs a failed read (R132; UR and CA count as an Unexpected Completion). -/
def aerKind : ReadError → AerError
  | .timeout => .completionTimeout
  | .unsupported => .unexpectedCompletion
  | .completerAbort => .unexpectedCompletion
  | .poisoned => .poisonedTlp

/-- A read that ring `n` issued for class `cls` of Table 5.6 has failed (R132): the ring stops with FETCH; a clasp list aborts its clasp and does not stop the ring. -/
def State.dmaReadError (s : State) (n cls : Nat) (err : ReadError) : State :=
  if !(isSubmission n && s.hostUp) then s else
  let log (s : State) : State := s.modHost fun h => { h with aer := h.aer ++ [(aerKind err, n)] }
  if cls = 2 then (if 24 ≤ n ∧ n < 28 ∧ (s.slot (n - 12)).fetching then (log s).batchFetched (n - 24) none else s)
  else if cls = 1 then (if s.ringRunning n then (log s).ringStop n 2 else s)
  else if n < 8 then
    match (s.img n).fetch with
    | some f =>
      if !f.reading || f.fromDram then s
      else if f.locket then ((log s).endFetch n f true).refetchCheck
      else ((log s).modImg n fun r => { r with fetch := some { f with reading := false, waiting := false } }).ringStop n 2
    | none => s
  else if n < 12 then
    match (s.codec (n - 8)).job with
    | some j => (log s).modCodec (n - 8) fun c => { c with job := some { j with fixed := some csFetch } }
    | none => s
  else if 16 ≤ n ∧ n < 24 then
    match (s.nz (n - 16)).dens with
    | some d => if d.staged then s else (log s).ringStop n 2
    | none => s
  else s

/-- COAL_TIME has passed since ring `n`'s first item that is not yet signalled (R146). -/
def State.coalesce (s : State) (n : Nat) : State :=
  let r := s.rt n
  let t := s.get (F.DMA_RING_CFG_COAL_TIME n)
  if s.on (F.DMA_RING_CFG_IRQ_EN n) && decide (t ≠ 0) && decide (r.unsig ≠ 0) && decide (r.unsigSince + t * us ≤ s.devtime) then
    (s.modRt n fun r => { r with unsig := 0 }).sendMsix (s.get (F.DMA_RING_CFG_VECTOR n))
  else s

/-- DMA may run again, or a ring has room: what waits for ring `n` is written (R124, R137). -/
def State.ringWrite (s : State) (n : Nat) : State := (s.ringComplete 8 n).ringFlush 64 n

/-! ### The link, HOST resets and configuration (R122 to R124) -/

/-- DMA may have become possible: everything that waits for it goes on. -/
def State.dmaStart (s : State) : State :=
  if s.dmaOk then foldS (List.range 8) (fun b s => s.captureFlush b) s.dmaResume else s

/-- PCIE_UP and the mirror of DEVSTATE: the link is in L0 or not (Table 1.7). -/
def State.pcieUp (s : State) (up : Bool) : State := (s.put F.DEV_DEVSTATE_PCIE_UP (b2n up)).mirror

/-- The HOST island's logic leaves reset. -/
def State.hostStart (s : State) : State := ((s.pagesOut 7).mirror).pagesStart 7

/-- A Hot Reset, a Data Link Down or PERST_N (R123): every ring is disabled, outstanding reads are discarded, and configuration, MSI-X, HIF, DMA and MSX are reset. Placement
from the page store goes on (R73). -/
def State.hostReset (s : State) (keepReady : Bool) : State :=
  let s := s.modHost fun h => { h with link := .down }
  let s := s.ringsDrop
  let ready := keepReady && s.host.configReady
  let s := { s with host := { inReset := keepReady, configReady := ready } }
  let s := (s.clearRegs fun a => addrIsland a == 7).dropHeld fun a => addrIsland a == 7
  (s.pcieUp false).refetchCheck

/-- A Hot Reset, or a Data Link Down (R123): HOST stays in reset until the link has been trained again. -/
def State.hotReset (s : State) : State := if s.hostUp && s.host.link != .down then s.hostReset true else s

/-- Link training reaches Data Link Up in L0; afterwards `ready` says that the function is configuration-ready (R122, R123). -/
def State.linkUpHost (s : State) (ready : Bool) (speed width : Nat) : State :=
  if !(s.up 7 && !s.aux.perstLow) then s
  else if ready then (if s.host.link != .down then s.modHost fun h => { h with configReady := true } else s)
  else if s.host.link != .down then s
  else
    let was := s.host.inReset
    let s := s.modHost fun h => { h with inReset := false, link := .l0 }
    let s := if was then s.hostStart else s
    let s := (((s.put F.HIF_LINK_STAT_RECOV 0).put F.HIF_LINK_STAT_DL_ACTIVE 1).put F.HIF_LINK_STAT_WIDTH width).put F.HIF_LINK_STAT_SPEED speed
    (s.pcieUp true).dmaStart

/-- The link enters Recovery, or returns from it to L0 with a speed and a width (R124). -/
def State.linkRecovery (s : State) (back : Bool) (speed width : Nat) : State :=
  if !s.hostUp then s else
  match s.host.link, back with
  | .l0, false => ((s.modHost fun h => { h with link := .recovery }).satAdd F.HIF_LINK_STAT_RECOV 1).pcieUp false
  | .recovery, true =>
    let s := s.modHost fun h => { h with link := .l0 }
    (((s.put F.HIF_LINK_STAT_WIDTH width).put F.HIF_LINK_STAT_SPEED speed).pcieUp true).dmaStart
  | _, _ => s

/-- A configuration write sets Bus Master Enable, Memory Space Enable and the power state (R124, R125). -/
def State.configWrite (s : State) (busMaster memSpace d3hot : Bool) : State :=
  if s.hostUp && s.host.link != .down && s.host.configReady then
    (s.modHost fun h => { h with busMaster := busMaster, memSpace := memSpace, d3hot := d3hot }).dmaStart
  else s

/-- The host reaches the BARs: the link is up and Memory Space Enable is 1 (R125); in D3hot the function takes no memory requests. -/
def State.barOpen (s : State) : Bool := s.hostUp && s.host.link != .down && s.host.memSpace && !s.host.d3hot

/-! ### BAR 2 (R127 to R129) -/

/-- The bytes of a write that fall into one 64-byte granule, with their enables. -/
def granuleBytes (a : Nat) (l : List (Option Byte)) (g : Nat) : List (Option Byte) :=
  (List.range 64).map fun i => if a ≤ 64 * g + i then (l.getD (64 * g + i - a) none) else none

/-- A write through BAR 2 (R127): discarded and counted under WP, or raised at the DRAM front end granule by granule. -/
def State.bar2Write (s : State) (a : Nat) (l : List (Option Byte)) : State :=
  if !s.barOpen || l.isEmpty || decide (0x10000000 < a + l.length) then s
  else if s.on F.HIF_APERTURE_WP then s.satAdd F.HIF_BAR2_DROP 1
  else if !s.up 2 || decide (s.get F.MEM_STAT_USABLE_2M = 0) then s
  else
    let x := s.get F.HIF_APERTURE_BASE_2M * 0x200000 + a
    foldS ((List.range ((x + l.length - 1) / 64 - x / 64 + 1)).map (· + x / 64)) (fun g s =>
      s.arbRaise 0 3 0 false (.access (64 * g) true 0 (granuleBytes x l g))) s

end Sys2Proof.Machine
end

