-- ==== Sys2Proof/Machine/Reset.lean ====
section
/-!
DEFINITION. Sys2Proof/Machine/Reset.lean: supplies, reset sources, the release sequence, trim loading, held islands and RESETHOLD (chapter 03).
-/
namespace Sys2Proof.Machine

open Sys2Proof

/-! ### Clearing islands (R72) -/

/-- Registers of AUX that survive a reset of AUX: RST_CAUSE, REG_FAULT, the trim results, the retained log's number, and what the supplies show (Tables 3.4, 3.6, 3.7,
3.10). -/
def retainedReg (a : Nat) : Bool :=
  a == R.RSC_RST_CAUSE || a == R.PWR_REG_FAULT || a == R.PWR_RAIL_STAT || a == R.TRM_TRIM_STAT || a == R.TRM_TRIM_CRC || a == R.TRM_OTP_CRC || a == R.SBP_LOG_SEQ || a == R.DEV_DEVSTATE
    || a == R.SBP_RATE || a == R.DEV_STRAPS || a == R.SBP_CFG

/-- The consumers of carats that lie in an island (Table 14.1). -/
def caratIsland (c : Nat) : Nat := if c = 2 then 5 else if c = 3 then 2 else if c = 4 ∨ c = 7 then 6 else 3

/-- The island of a requester of the DRAM front end (Table 12.3): host accesses HOST, the locket PLK, the scrubber MEM itself, the others PIX. -/
def portIsland (r : Nat) : Nat := if r = 3 ∨ r = 4 then 7 else if r = 7 then 6 else if r = 9 then 2 else 3

/-- Jobs end, TILE and batch descriptors complete and the engines let go of theirs, as PIX or FIRE is cleared while HOST is kept (R119, R169, R451; log entry 33). -/
def State.pixGone (s : State) (pix : Bool) : State :=
  let s := s.jobsReset
  if pix then
    let s := (foldS (List.range 8) (fun b s => s.tileReset b) s).claspsFree
    s.modHost fun h => { h with rings := h.rings.zipIdx.map fun x =>
      if x.2 < 28 then { x.1 with descs := x.1.descs.map fun d => if d.result.isNone then { d with taken := false } else d } else x.1 }
  else s

/-- The calibration units, carats and requests of an island, its registers, and CTRL writes recorded for it go back to their reset values. -/
def State.unitsClear (s : State) (i : Nat) : State :=
  let s := s.calIslandReset i
  let s := if s.up 1 then s.caratWithdraw fun q => caratIsland q.cons == i else s
  let s := if s.up 2 then s.arbWithdraw 0 fun q => portIsland q.r == i else s
  ((s.clearRegs fun a => addrIsland a == i && !(i == 0 && retainedReg a)).dropHeld fun a => addrIsland a == i).modAux fun a =>
    { a with ctrlRec := a.ctrlRec.filter fun c => pageIsland c.1 != i }

/-- The island is in reset (R70). -/
def State.islandDown (s : State) (i : Nat) : State := s.modAux fun a => { a with phases := updNth a.phases i fun _ => .inReset }

/-- What MEM holds beside its registers goes back to its reset values, with the DRAM (R328). -/
def State.memClear (s : State) : State := ({ s with mem := {}, dram := [] }.put F.DEV_DEVSTATE_MEM_CH_GOOD 0).put F.DEV_DEVSTATE_MEM_REDUCED 0

/-- What an island other than MEM holds beside its registers goes back to its reset values. -/
def State.restClear (s : State) (i : Nat) : State :=
  if i = 1 then { s with hsk := {} }
  else if i = 3 then { s with pix := {} }
  else if i = 4 then
    let s := if s.up 3 then s.modPix fun p => { p with webCopy := s.webCount, draining := [] } else s
    { s with fire := {} }
  else if i = 5 then { s with zl := {} }
  else if i = 6 then (({ s with plk := {} }.put F.DEV_DEVSTATE_ROLE 0).setPad 34 .rest).mirror
  else if i = 7 then { s with host := {} }.put F.DEV_DEVSTATE_PCIE_UP 0
  else s

/-- What an island holds beside its registers goes back to its reset values, and CLK shows it. -/
def State.partClear (s : State) (i : Nat) : State :=
  let s := ((s.put (F.CLK_ISL_STAT_QUAL i) 0).put (F.CLK_ISL_STAT_LOCK i) 0).put (F.CLK_ISL_STAT_RUN i) 0
  if i = 2 then s.memClear else s.restClear i

/-- What an island holds goes back to its reset values, and it is in reset (R72). -/
def State.clearIsland (s : State) (i : Nat) : State := ((s.unitsClear i).islandDown i).partClear i

/-- Clear islands, in the order of their codes from the last to the first; the outputs of FIRE go to rest at once (R47, R72). -/
def State.clearIslands (s : State) (l : List Nat) : State :=
  let s := if (l.contains 3 || l.contains 4) && !l.contains 7 && s.hostUp then s.pixGone (l.contains 3) else s
  let s := foldS ([7, 6, 5, 4, 3, 2, 1].filter fun i => l.contains i) (fun i s => s.clearIsland i) s
  if l.contains 4 then foldS (List.range 12) (fun p s => s.setPad p .rest) s else s

/-! ### Reset records (R75, R79) -/

def srcVauxOn : Nat := 0
def srcVauxBrown : Nat := 1
def srcVinBrown : Nat := 2
def srcRegFault : Nat := 3
def srcResetN : Nat := 4
def srcWatchdog : Nat := 5
def srcSoftware : Nat := 6
def srcDebug : Nat := 7
def srcClock : Nat := 8
def srcLockup : Nat := 9
def srcCritical : Nat := 10
def srcScrub : Nat := 11

/-- RST_CAUSE of a source that acts: with an earlier reset still in its sequence the sources are joined (R75); COUNT saturates (Table 3.7). The RESET record goes to
the retained log; `disc` marks a discontinuity of time (R71). -/
def State.resetCause (s : State) (src : Nat) (disc : Bool) : State :=
  let old := if s.aux.seq = .idle then 0 else s.get F.RSC_RST_CAUSE_SOURCE
  let s := (s.put F.RSC_RST_CAUSE_SOURCE (old ||| 2 ^ src)).satAdd F.RSC_RST_CAUSE_COUNT 1
  s.logRec 0xFF01 3 (if disc then 4 else 0) (leBytes 4 (s.reg R.RSC_RST_CAUSE).toNat)

/-- The temperature condition for leaving RESETHOLD (R78): VIN is valid, CRITICAL has been left, and 16 measurements in a row lie below it. -/
def State.coolAgain (s : State) : Bool := s.aux.vin && s.up 1 && !s.on F.THM_TSTATE_CRIT && decide (16 ≤ nth s.hsk.leave 2)

/-- Start the trim load, from which the release sequence follows (R75, R76, R84). A load that was under way is interrupted. -/
def State.startLoad (s : State) : State :=
  let s := if s.dev = .trimfault then s.put F.TRM_TRIM_STAT_FAIL_CNT 0 else s
  let s := (s.put F.TRM_TRIM_STAT_LOADING 1).modAux fun a => { a with seq := .trim, bootStop := false }
  let s := (s.put F.RSC_BOOT_CTRL_HELD 0).put F.RSC_BOOT_CTRL_NEXT 0
  s.enterDev .trimload

/-- Islands that a sequence has still to release, joined with those that a source clears now (R75). -/
def State.addTodo (s : State) (l : List Nat) : State :=
  s.modAux fun a => { a with todo := [1, 2, 3, 4, 5, 6, 7].filter fun i => a.todo.contains i || l.contains i }

/-- A reset source other than the supplies acts on `islands` (Table 3.6). In RESETHOLD it is only recorded until the temperature condition is met; then the device leaves
RESETHOLD with it (R78). In MEMFAULT and TRIMFAULT it starts afresh (R32). -/
def State.resetBy (s : State) (src : Nat) (islands : List Nat) : State :=
  let s := s.resetCause src false
  if s.dev = .resethold then
    if (src = srcResetN ∨ src = srcSoftware ∨ src = srcDebug) ∧ s.coolAgain then
      let s := s.logRec 0xFF08 0 0 (leBytes 2 (s.get F.THM_TEMP_DEV))
      let s := s.modAux fun a => { a with holdMark := false }
      (((s.clearIslands islands).addTodo ([2, 3, 4, 5, 6, 7] ++ islands))).startLoad
    else s
  else ((s.clearIslands islands).addTodo islands).startLoad

/-- The islands that lose their supply, and the regulators off in reverse order (R64): AUXONLY, or RESETHOLD goes on. -/
def State.railsOff (s : State) (src : Nat) : State :=
  let s := (s.put F.DEV_DEVSTATE_VIN_OK 0).setReg R.PWR_RAIL_STAT 0
  let s := s.resetCause src false
  let s := (s.clearIslands [1, 2, 3, 4, 5, 6, 7]).addTodo [1, 2, 3, 4, 5, 6, 7]
  let s := s.modAux fun a => { a with railsUp := false, seq := .idle, bootStop := false }
  let s := (s.put F.RSC_BOOT_CTRL_HELD 0).put F.TRM_TRIM_STAT_LOADING 0
  if s.dev = .resethold then s else s.enterDev .auxonly

/-! ### The release sequence (R81 to R83, R88) -/

/-- ISL_HOLD holds an island (R88). -/
def State.islHeld (s : State) (i : Nat) : Bool := decide (4 ≤ i) && decide (i ≤ 6) && bit (s.reg R.RSC_ISL_HOLD).toNat i

/-- The island is out of reset (R70), and the sequence has not to release it any more. -/
def State.islandUp (s : State) (i : Nat) : State :=
  s.modAux fun a => { a with phases := updNth a.phases i (fun _ => .released), todo := a.todo.erase i }

/-- What an island starts with: its blocks are IDLE (R92), HSK takes the retained SITE_EN (R345) and pending calibration units (R353), MEM the DRAM carats, FIRE the web count
that PIX kept (R234), PLK its unit identity (R369) and carats, HOST its mirror of DEVSTATE; recorded CTRL writes take effect, and RELEASED is raised in each of its pages. -/
def State.islandStart (s : State) (i : Nat) (refclk : Bool) : State :=
  let s := ((s.put (F.CLK_ISL_STAT_RUN i) 1).put (F.CLK_ISL_STAT_LOCK i) 1).put (F.CLK_ISL_STAT_QUAL i) 1
  let s := if i = 7 ∧ !s.hostUp then s else s.pagesOut i
  let s := if i = 1 then (s.setReg R.THM_SITE_EN s.aux.siteEn).calReleased
    else if i = 2 then (if s.up 1 then foldS (List.range 16) (fun c s => s.caratRequest 3 c 0 false) s else s).calInit 2
    else if i = 4 then (if s.pix.webCopy = 0 then s else s.webResume).calInit 4
    else if i = 6 then
      let s := (s.put F.PAR_CFG_UNIT_ID (if s.on F.DEV_STRAPS_ROLE_PREF then 1 else 2)).mirror
      if s.up 1 then s.caratRequest 4 0 0 false else s
    else if i = 7 then
      let sel := s.get F.CLK_HOST_REF_SEL
      (s.put F.CLK_HOST_REF_USING_REFCLK (b2n (decide (sel = 2) || (decide (sel = 0) && refclk)))).mirror
    else s
  let s := if i = 7 ∧ !s.hostUp then s else s.pagesStart i
  if i = 4 then s.padsUpdate else s

/-- Release an island (R68, R77, R92). -/
def State.releaseIsland (s : State) (i : Nat) (refclk : Bool) : State := (s.islandUp i).islandStart i refclk

/-- The next step of the sequence (R81): the first island still to be released that ISL_HOLD does not hold; RESETHOLD stops after HSK (R78), BOOT_HOLD before the first
island after HSK (R83), and at the end the device is READY if at least 8 channels are in use (R28). `k` bounds the islands passed over. -/
def State.seqNext : Nat → State → State
  | 0, s => s
  | k + 1, s =>
    match s.aux.todo.head? with
    | none =>
      let s := s.modAux fun a => { a with seq := .idle }
      if 8 ≤ s.get F.MEM_STAT_CH_USED ∧ (s.dev = .powerup ∨ s.dev = .memtrain) then s.enterDev .ready else s
    | some i =>
      if s.islHeld i then seqNext k (s.modAux fun a => { a with todo := a.todo.erase i })
      else if 2 ≤ i ∧ s.aux.holdMark then
        let s := s.modAux fun a => { a with seq := .idle }
        if s.dev = .resethold then s
        else (s.enterDev .resethold).logRec 0xFF07 3 0 (leBytes 2 (s.get F.THM_TEMP_DEV) ++ leBytes 1 (s.get F.THM_TEMP_SITE))
      else if 2 ≤ i ∧ s.aux.bootStop then
        ((s.modAux fun a => { a with seq := .bootHold i }).put F.RSC_BOOT_CTRL_HELD 1).put F.RSC_BOOT_CTRL_NEXT i
      else
        let s := if i = 2 then s.enterDev .memtrain else s
        s.modAux fun a => { a with seq := .clock i }

/-- BOOT_CTRL.CONTINUE (R83). -/
def State.bootContinue (s : State) : State :=
  match s.aux.seq with
  | .bootHold _ =>
    let s := (s.put F.RSC_BOOT_CTRL_HELD 0).put F.RSC_BOOT_CTRL_NEXT 0
    (s.modAux fun a => { a with bootStop := false }).seqNext 8
  | _ => s

/-- An island clock is qualified (R68): the sequence releases the island that waits for it, or one whose hold was cleared (R88). `refclk` says what the check of REFCLK
found (R67). -/
def State.clockQualified (s : State) (i : Nat) (refclk : Bool) : State :=
  if s.aux.seq = .clock i then
    let s := s.releaseIsland i refclk
    if i = 2 then s.modAux fun a => { a with seq := .training } else s.seqNext 8
  else if s.phase i = .releaseHeld then s.releaseIsland i refclk
  else s

/-- The trim loader has read the image (R84): `whole` says that it could be read, `crc` is the CRC-32C of the bytes read, and the straps are those sampled at the start of the
load (R57). A valid load goes on to the regulators, or to AUXONLY without VIN; a failed one is retried, and the third failure leads to TRIMFAULT. -/
def State.trimLoaded (s : State) (whole : Bool) (crc : Word) (straps : List (List PadSample)) : State :=
  if s.aux.seq ≠ .trim then s else
  let ok := whole && crc == Config.otpCrc
  let lv := (List.range 4).map fun i => decided (nth straps i)
  let val := (List.range 4).foldl (fun v i => v + 2 ^ i * b2n ((nth lv i).getD (decide (i = 3)))) 0
  let amb := (List.range 4).foldl (fun v i => v + 2 ^ (4 + i) * b2n (nth lv i).isNone) 0
  let s := s.setReg R.DEV_STRAPS (BitVec.ofNat 32 (val + amb))
  let s := if s.aux.rateFromStrap then (s.put F.SBP_RATE_CUR (s.get F.DEV_STRAPS_SB_RATE)).modAux fun a => { a with rateFromStrap := false } else s
  let s := s.satAdd F.TRM_TRIM_STAT_LOADS 1
  let s := (s.setReg R.TRM_TRIM_CRC crc).setReg R.TRM_OTP_CRC (if whole then Config.otpCrc else 0)
  if ok then
    let s := ((s.put F.TRM_TRIM_STAT_FAIL_CNT 0).put F.TRM_TRIM_STAT_LOADING 0).put F.TRM_TRIM_STAT_VALID 1
    let s := s.put F.TRM_TRIM_STAT_IMAGE_REV Config.imageRev.toNat
    let s := s.modAux fun a => { a with bootStop := s.on F.DEV_STRAPS_BOOT_HOLD }
    if s.aux.vin && !s.on F.PWR_REG_FAULT_LATCHED then
      let s := s.enterDev .powerup
      if s.aux.railsUp then s.seqNext 8 else s.modAux fun a => { a with seq := .rails }
    else (s.modAux fun a => { a with seq := .idle }).enterDev .auxonly
  else
    let n := s.get F.TRM_TRIM_STAT_FAIL_CNT + 1
    let s := ((s.put F.TRM_TRIM_STAT_FAIL_CNT n).put F.TRM_TRIM_STAT_VALID 0)
    let s := s.logRec 0xFF03 3 0 (leBytes 4 (s.reg R.TRM_TRIM_CRC).toNat ++ leBytes 4 (s.reg R.TRM_OTP_CRC).toNat)
    if 3 ≤ n then
      let s := ((s.put F.TRM_TRIM_STAT_LOADING 0).modAux fun a => { a with seq := .idle }).enterDev .trimfault
      s.logRec 0xFF04 3 0 (leBytes 4 (s.reg R.TRM_TRIM_STAT).toNat)
    else s

/-- The regulator start has brought all rails into regulation (R65); in RESETHOLD only VAN18 and VCORE, for HSK (R78). -/
def State.railsReady (s : State) : State :=
  if s.aux.seq ≠ .rails then s else
  if s.dev = .resethold then
    ((s.setReg R.PWR_RAIL_STAT 3).modAux fun a => { a with railsUp := true, seq := .clock 1 })
  else
    (((s.setReg R.PWR_RAIL_STAT 0x3F).put F.DEV_DEVSTATE_VIN_OK 1).mirror.modAux fun a => { a with railsUp := true }).seqNext 8

/-- Training of the DRAM has ended (R330): the sequence goes on, or the device enters MEMFAULT. -/
def State.trainingEnd (s : State) (l : List ChannelTrained) : State :=
  if s.aux.seq ≠ .training then s else
  let x := s.trained l
  if x.2 then x.1.seqNext 8 else (x.1.modAux fun a => { a with seq := .idle }).enterDev .memfault

/-! ### Supplies (R62 to R66, R71, R72, R78) -/

/-- AUX is cleared and released again: the registers of its pages and what it holds, but for the retention domain. -/
def State.auxClear (s : State) (log : Bool) : State :=
  let s := s.clearIsland 0
  let s := s.modAux fun a =>
    { vaux := true, vin := a.vin, osc := true, resetN := a.resetN, perstLow := a.perstLow, railsUp := a.railsUp, holdMark := a.holdMark && log,
      siteEn := if log then a.siteEn else 0xFFFF, log := if log then a.log else [], savedTime := if log then a.savedTime else 0,
      phases := updNth a.phases 0 (fun _ => .released), todo := a.todo, ctrlRec := a.ctrlRec, rateFromStrap := true, regLock := a.regLock && log, tap := a.tap }
  foldS ((List.range 0x34).filter fun p => pageIsland p == 0) (fun p s => s.setReg (R.STATE p) 1) s

/-- VAUX rises through its power-on threshold after it fell below 2.00 V, or the retained log fails its check (Table 3.6): everything starts from zero. -/
def State.vauxPowerOn (s : State) : State :=
  let s := s.clearIslands [1, 2, 3, 4, 5, 6, 7]
  let s := { s with devtime := 0 }.clearRegs fun _ => true
  let s := s.auxClear false
  let s := s.modAux fun a => { a with todo := [1, 2, 3, 4, 5, 6, 7], railsUp := false, faultWait := false }
  let s := (s.put F.RSC_RST_CAUSE_SOURCE 1).put F.RSC_RST_CAUSE_COUNT 1
  let s := s.logRec 0xFF01 3 0 (leBytes 4 (s.reg R.RSC_RST_CAUSE).toNat)
  if s.aux.resetN then s else s.startLoad

/-- VAUX falls below its brown-out threshold (R63): every island is cleared, the regulators are off, and nothing runs until VAUX returns. -/
def State.vauxBrownOut (s : State) : State :=
  let s := s.clearIslands [1, 2, 3, 4, 5, 6, 7]
  let s := s.forceRest
  let s := (s.setReg R.PWR_RAIL_STAT 0).put F.DEV_DEVSTATE_VIN_OK 0
  let s := s.clearIsland 0
  s.modAux fun a => { a with vaux := false, railsUp := false, seq := .idle, todo := [1, 2, 3, 4, 5, 6, 7] }

/-- VAUX returns after a brown-out (R71, R72): DEVTIME resumes at the last saved value plus 400,000, the reset record carries the discontinuity mark, and the trim fail count
is 0. -/
def State.vauxReturn (s : State) : State :=
  if s.aux.vaux then s else
  let s := { s with devtime := s.aux.savedTime + 400000 }
  let s := s.auxClear true
  let s := s.put F.TRM_TRIM_STAT_FAIL_CNT 0
  let s := s.modAux fun a => { a with todo := [1, 2, 3, 4, 5, 6, 7], railsUp := false, seq := .idle }
  let s := s.resetCause srcVauxBrown true
  if s.aux.resetN then s else s.startLoad

/-- VIN rises through its valid threshold (R28, R66, R78): in AUXONLY a trim load and the regulators start; in RESETHOLD the regulators of HSK. A latched regulator
fault is left because VIN had fallen. -/
def State.vinValid (s : State) : State :=
  if s.aux.vin then s else
  if !s.aux.vaux then s.modAux fun a => { a with vin := true } else
  let s := (s.put F.PWR_REG_FAULT_LATCHED 0).modAux fun a => { a with vin := true, faultWait := false }
  if s.dev = .auxonly then s.startLoad
  else if s.dev = .resethold then s.modAux fun a => { a with seq := .rails }
  else s

/-- VIN falls below brown-out (R64, Table 3.6). -/
def State.vinBrownOut (s : State) : State :=
  if !s.aux.vin then s else
  let s := s.modAux fun a => { a with vin := false, faultWait := false }
  if !s.aux.vaux then s else
  if s.dev = .trimload ∧ !s.aux.railsUp ∧ s.aux.seq = .trim then (s.resetCause srcVinBrown false).addTodo [1, 2, 3, 4, 5, 6, 7]
  else s.railsOff srcVinBrown

/-- A regulator fault (R66): recorded with the rails and an overvoltage of VIN, and handled as a VIN brown-out; the third in a row latches. -/
def State.regulatorFault (s : State) (rails : List Nat) (high : Bool) : State :=
  if !s.aux.vin then s else
  let w := rails.foldl (fun v k => if k < 6 then v ||| 2 ^ k else v) (s.get F.PWR_REG_FAULT_RAIL)
  let s := (s.put F.PWR_REG_FAULT_RAIL w).put F.PWR_REG_FAULT_OVERVOLT (max (s.get F.PWR_REG_FAULT_OVERVOLT) (b2n high))
  let n := min 3 (s.get F.PWR_REG_FAULT_COUNT + 1)
  let s := (s.put F.PWR_REG_FAULT_COUNT n).put F.PWR_REG_FAULT_LATCHED (b2n (decide (n = 3)))
  let s := s.logRec 0xFF02 3 0 (leBytes 4 (s.reg R.PWR_REG_FAULT).toNat)
  (s.railsOff srcRegFault).modAux fun a => { a with faultWait := decide (n < 3) }

/-- 100 ms after a regulator fault with VIN valid (R66). -/
def State.regulatorRestart (s : State) : State :=
  if s.aux.faultWait && s.aux.vin then
    let s := s.modAux fun a => { a with faultWait := false }
    if s.dev = .auxonly then s.startLoad else if s.dev = .resethold then s.modAux fun a => { a with seq := .rails } else s
  else s

/-- RESET_N is low for at least 1 µs (Table 3.6): every island is cleared; the rails stay on. -/
def State.resetNLow (s : State) : State :=
  if !s.aux.vaux then s.modAux fun a => { a with resetN := true } else
  let s := s.resetCause srcResetN false
  let hold := decide (s.dev = .resethold) && !s.coolAgain
  let s := if hold then s else
    let s := if s.dev = .resethold then (s.logRec 0xFF08 0 0 (leBytes 2 (s.get F.THM_TEMP_DEV))).modAux fun a => { a with holdMark := false } else s
    let s := (s.put F.PWR_REG_FAULT_LATCHED 0).modAux fun a => { a with siteEn := if s.up 1 then s.reg R.THM_SITE_EN else a.siteEn }
    let s := ((s.clearIslands [1, 2, 3, 4, 5, 6, 7]).forceRest).auxClear true
    (s.put F.TRM_TRIM_STAT_FAIL_CNT (if s.dev = .trimfault then 0 else s.get F.TRM_TRIM_STAT_FAIL_CNT)).putDev .trimload
  s.modAux fun a => { a with resetN := true, seq := if hold then a.seq else .idle, todo := if hold then a.todo else [1, 2, 3, 4, 5, 6, 7] }

/-- RESET_N rises: the trim load and the release sequence start. -/
def State.resetNHigh (s : State) : State :=
  if !s.aux.resetN then s else
  let s := s.modAux fun a => { a with resetN := false }
  if !s.aux.vaux || s.dev == .resethold then s else s.startLoad

/-! ### PERST_N and the clocks (R69, R72, R73, R82) -/

/-- PERST_N goes low: only HOST is held (R123), and the assertion is logged (R73). -/
def State.perstAssert (s : State) : State :=
  if s.aux.perstLow then s else
  if !s.aux.vaux then s.modAux fun a => { a with perstLow := true } else
  let s := if s.up 7 then s.hostReset false else s
  (s.modAux fun a => { a with perstLow := true }).logRec 0xFF06 1 0 []

/-- PERST_N rises: the HOST island's logic leaves reset and trains its link (R82). -/
def State.perstDeassert (s : State) : State :=
  if !s.aux.perstLow then s else
  let s := s.modAux fun a => { a with perstLow := false }
  if s.up 7 then s.hostStart else s

/-- Clock failures of islands HSK to HOST, with their frequency errors in 0.01 % (R69, Table 3.6): each leaves a CLOCK_FAIL record, and CLK_ISL names the lowest
code (R75). -/
def State.clockFailure (s : State) (l : List (Nat × Int)) : State :=
  let l := l.filter fun x => decide (1 ≤ x.1) && decide (x.1 ≤ 7)
  match l with
  | [] => s
  | _ =>
    let s := foldS l (fun x s =>
      let s := (s.put (F.CLK_ISL_STAT_FAIL x.1) 1).put (F.CLK_ISL_STAT_FREQ_ERR x.1) (unsignedOf 16 x.2)
      s.logRec 0xFF05 3 0 (leBytes 1 x.1 ++ leBytes 2 (unsignedOf 16 x.2))) s
    let first := l.foldl (fun m x => min m x.1) 7
    let s := if s.aux.seq ≠ .idle ∧ s.get F.RSC_RST_CAUSE_SOURCE &&& 0x300 ≠ 0 then s else s.put F.RSC_RST_CAUSE_CLK_ISL first
    s.resetBy srcClock ([3, 4, 5, 6] ++ l.map Prod.fst)

/-- The AUX oscillator has failed (R69, Table 3.6): every VIN island is held and the side-band is silent. -/
def State.oscFailure (s : State) (err : Int) : State :=
  if !s.aux.osc then s else
  let s := (s.put (F.CLK_ISL_STAT_FAIL 0) 1).put (F.CLK_ISL_STAT_FREQ_ERR 0) (unsignedOf 16 err)
  let s := s.logRec 0xFF05 3 0 (leBytes 1 0 ++ leBytes 2 (unsignedOf 16 err))
  let s := (s.put F.RSC_RST_CAUSE_CLK_ISL 0).resetCause srcClock false
  let s := ((s.clearIslands [1, 2, 3, 4, 5, 6, 7]).addTodo [1, 2, 3, 4, 5, 6, 7]).forceRest
  s.modAux fun a => { a with osc := false, seq := .idle }

/-- The AUX oscillator returns: the device restarts as after RESET_N. -/
def State.oscReturn (s : State) : State :=
  if s.aux.osc then s else
  let s := s.modAux fun a => { a with osc := true }
  if s.dev = .resethold then s.seqNext 8 else s.startLoad

/-- A fabric transaction has been outstanding for 100 µs (R72): the island that did not answer is reset with PIX, FIRE, ZL and PLK, and pending host reads end in Completer
Abort. -/
def State.lockUp (s : State) (i : Nat) (reads : Nat) : State :=
  if i = 0 ∨ 7 < i then s else
  let s := if s.hostUp then foldS (List.range reads) (fun _ s => s.emit .completerAbort) s else s
  let s := if s.aux.seq ≠ .idle ∧ s.get F.RSC_RST_CAUSE_SOURCE &&& 0x300 ≠ 0 then s else s.put F.RSC_RST_CAUSE_CLK_ISL i
  s.resetBy srcLockup [3, 4, 5, 6, i]

/-! ### Software resets, the watchdog's reset, the scrub and CRITICAL (R72, R78, R80, R84, R348) -/

/-- A keyed write of SWRST (R80): the islands of its scope. A side-band reset leaves a latched regulator fault (R66). -/
def State.softReset (s : State) (scope : Nat) (sideband : Bool) : State :=
  if scope = 0 ∨ 3 < scope then s else
  let s := s.put F.RSC_RST_CAUSE_SCOPE scope
  let s := if sideband then s.put F.PWR_REG_FAULT_LATCHED 0 else s
  let islands := if scope = 1 then [3, 4, 5, 6] else if scope = 2 then [2, 3, 4, 5, 6] else [1, 2, 3, 4, 5, 6, 7]
  let s := if scope = 3 ∧ s.up 1 then s.modAux fun a => { a with siteEn := s.reg R.THM_SITE_EN } else s
  s.resetBy srcSoftware islands

/-- The debug reset and the trim scrub have the scope of software ALL (Table 3.6). -/
def State.resetAll (s : State) (src : Nat) : State := s.resetBy src [1, 2, 3, 4, 5, 6, 7]

/-- The CRITICAL state has been entered (R348, Table 3.6): MEM to HOST are held and the device is in RESETHOLD. -/
def State.critical (s : State) : State :=
  let s := s.logRec 0xFF07 3 0 (leBytes 2 (s.get F.THM_TEMP_DEV) ++ leBytes 1 (s.get F.THM_TEMP_SITE))
  let s := s.resetCause srcCritical false
  let s := (s.clearIslands [2, 3, 4, 5, 6, 7]).addTodo [2, 3, 4, 5, 6, 7]
  (s.modAux fun a => { a with seq := .idle, holdMark := true }).enterDev .resethold

/-! ### ISL_HOLD (R88) -/

/-- ISL_HOLD is written: bits that become 1 clear and hold their islands, unless the device is ARMED, PRINTING or STOPPING; bits that become 0 release them once their clocks
are qualified. -/
def State.islHold (s : State) (w : Word) : State × Option Nat :=
  let old := (s.reg R.RSC_ISL_HOLD).toNat
  let new := w.toNat &&& 0x70
  let set := [4, 5, 6].filter fun i => bit new i && !bit old i
  let clr := [4, 5, 6].filter fun i => !bit new i && bit old i
  if !set.isEmpty && s.dev.inJob then (s, some eNotIdle)
  else
    let s := s.setReg R.RSC_ISL_HOLD (BitVec.ofNat 32 new)
    let s := s.clearIslands set
    let s := foldS clr (fun i s =>
      if s.aux.todo.contains i || s.dev == .auxonly || s.dev == .resethold || s.phase i != .inReset then s
      else if s.aux.seq = .idle then s.modAux fun a => { a with phases := updNth a.phases i fun _ => .releaseHeld }
      else s.addTodo [i]) s
    (s, none)

end Sys2Proof.Machine
end

