-- ==== Sys2Proof/Machine/Live.lean ====
section
/-!
DEFINITION. Sys2Proof/Machine/Live.lean: what a register reads as. Most registers read as they are stored; the ones here show what the engines are doing at the moment of
the read (R97, and the register tables of chapters 4 to 19).
-/
namespace Sys2Proof.Machine

open Sys2Proof

/-- REMAIN of WDT_STAT: the time left, in whole units of 100 µs, while the watchdog runs (Table 5.11). -/
def State.wdtRemain (s : State) : Nat :=
  if s.on F.DEV_WDT_CTRL_EN then (s.aux.wdtStart + s.get F.DEV_WDT_PERIOD_PERIOD * 40000 - s.devtime) / 40000 else 0

/-- SLOT_SUMMARY (Table 4.11). -/
def State.slotSummary (s : State) : Nat :=
  (List.range 16).foldl (fun n k =>
    let st := s.slotState k
    n + 4 ^ k * (if st = clFree then 0 else if st = clOpen then 1 else if st = clArmed ∨ st = clApplying then 2 else 3)) 0

/-- Bit p of PEND_PAGES: a page whose EVT_PEND is not 0 (Table 18.10). -/
def State.pendPages (s : State) : Nat :=
  ofBits ((List.range 0x34).map fun p => s.pageUp p && s.reg (R.EVT_PEND p) != 0)

/-- The tile that a pool holder works at belongs to bar `b`. -/
def Req.ofBar (q : Req) (b : Nat) : Bool := match q.work with | .tile j => j.bar == b | _ => false

/-- LANES_n: lanes held by bar `b`, and how many of them are stalled (Table 6.6). -/
def State.barLanes (s : State) (b : Nat) : Nat :=
  let l := s.pix.pool.holders.filter fun q => q.ofBar b
  l.length + 256 * l.countP fun q => q.stallFrom.isSome

/-- PLANE_STAT of plane `p` of bar `b` (Table 6.6). -/
def State.planeStat (s : State) (b p : Nat) : Nat :=
  let x := s.plane b p
  let st := if x.freeing then 3 else if x.loading then 1 else if x.tiles.isEmpty then 0 else 2
  x.tiles.length % 2 ^ 20 + 2 ^ 23 * b2n x.pin + 2 ^ 24 * st + 2 ^ 27 * min 31 (s.planeRefs b p)

/-- The pool lanes that are busy, or stalled (Table 6.9). -/
def State.poolLanes (s : State) (stalled : Bool) : Nat :=
  s.pix.pool.holders.foldl (fun n q => if !stalled || q.stallFrom.isSome then n ||| 2 ^ q.lane else n) 0

/-- The encoder lanes that are busy: lane `k` runs the encode jobs of ring 8 + k (Table 6.9). -/
def State.encBusy (s : State) : Nat :=
  ofBits ((List.range 4).map fun k => match (s.codec k).job with
    | some j => j.op == 1 || j.op == 2 || (match j.resume with | some p => p.op == 2 | none => false)
    | none => false)

/-- Context slots that hold a context: bit 16 × k + slot (Table 6.9). -/
def State.parkedSlots (s : State) : Nat := ofBits (((List.range 4).map fun k => (s.codec k).slots.map Option.isSome).flatten)

/-- STATE.BLOCK of a page (R206, R225, R270). -/
def State.blockBits (s : State) (p : Nat) : Nat :=
  if P_SCN 0 ≤ p ∧ p ≤ P_SCN 7 then 256 * b2n (s.scn (p - P_SCN 0)).job.isSome
  else if P_FIRE 0 ≤ p ∧ p ≤ P_FIRE 7 then
    let b := p - P_FIRE 0
    256 * b2n (s.pulsing b) + 2048 * b2n (s.clk b).swap.isSome + 4096 * b2n (s.fbar b).capture.isSome
  else 0

/-- What the LCK registers of bar `b` show of its clock (Table 9.5). -/
def State.lckStat (s : State) (b : Nat) : Nat :=
  512 * b2n (!s.predicts b) + 256 * b2n (s.clockOn b) + (s.clk b).phq.length

/-- The predicted next boundary of bar `b` in ticks; 0 without a prediction (Table 9.5). -/
def State.nextTime (s : State) (b : Nat) : Nat := match s.predict b 0 with | some t => t / 64 | none => 0

/-- A word of the register file with bits of the moment. -/
def withLive (w : Word) (v : Nat) : Word := w ||| BitVec.ofNat 32 v

/-- The unit is the front: it has no chain address and its CHAIN_IN is high (R407). -/
def State.front (s : State) : Bool := decide (s.get F.CHN_ADDR = 0) && s.on F.CHN_STAT_CHAIN_IN

/-- What the register of a released page reads as, but for the values that the spec leaves open. -/
def State.live (s : State) (a : Nat) : Word :=
  let p := a / 0x1000
  let o := a % 0x1000
  let w := s.reg a
  let n (v : Nat) : Word := BitVec.ofNat 32 v
  if o < 0x040 then (if o = 0x00C then withLive w (s.blockBits p) else w)
  else match p with
    | 0x00 => if a = R.DEV_WDT_STAT then withLive w s.wdtRemain else w
    | 0x05 => if a = R.CLS_SLOT_SUMMARY then n s.slotSummary else w
    | 0x06 =>
      if a = R.EVT_PEND_PAGES_LO then n s.pendPages
      else if a = R.EVT_PEND_PAGES_HI then n (s.pendPages / 2 ^ 32)
      else if a = R.EVT_CLASS_PEND then n s.classPend else w
    | 0x07 => if a = R.TMB_DEVTIME_LO then n s.devtime else if a = R.TMB_DEVTIME_HI then n (s.devtime / 2 ^ 32) else w
    | 0x0C =>
      if a = R.CHN_STAT then withLive (w &&& 1) (2 * b2n (match s.pad 33 with | .driving _ => true | _ => false) + 4 * b2n s.front) else w
    | 0x0F =>
      if a = R.CDC_POOL_BUSY then n (s.poolLanes false) else if a = R.CDC_POOL_STALL then n (s.poolLanes true)
      else if a = R.CDC_ENC_BUSY then n s.encBusy
      else if a = R.CDC_PARKED_LO then n s.parkedSlots else if a = R.CDC_PARKED_HI then n (s.parkedSlots / 2 ^ 32) else w
    | 0x10 =>
      if a = R.IMG_STORE_FREE then n s.storeFree else if a = R.IMG_DIR_FREE then n s.dirFree
      else if 0x400 ≤ o then n (s.planeStat ((o - 0x400) / 0x100) ((o - 0x400) % 0x100 / 4))
      else if 0x100 ≤ o ∧ (o - 0x100) % 0x20 = 0x14 then n (s.barLanes ((o - 0x100) / 0x20)) else w
    | 0x11 => if a = R.SCN_MASK_STAT then withLive w s.masksInUse else w
    | 0x1B =>
      if o < 0x100 then w else
      let b := (o - 0x100) / 0x40
      let r := (o - 0x100) % 0x40
      if r = 0x38 then n (s.lckStat b) else if r = 0x2C then n (s.nextTime b) else if r = 0x30 then n (s.nextTime b / 2 ^ 32) else w
    | 0x33 => if a = R.DBG_LOCK then n (b2n s.aux.regLock) else if a = R.DBG_IDCODE then n (0x18210000 + Config.idcodeLow.toNat) else w
    | _ => w

/-- The bits of a register whose value the spec leaves open: the supply measurements, the pads that nothing drives, and the pair link's load (log entry 6). -/
def State.openBits (s : State) (a : Nat) : Nat :=
  if a = R.PWR_VIN_MV ∨ a = R.PWR_VAUX_MV then 0xFFFF
  else if a = R.PLK_LOAD then 0xFF
  else if a = R.DEV_GPIO_IN then ofBits ((List.range 16).map fun i => match s.pad (16 + i) with | .driving _ => false | _ => true)
  else 0

/-- The bits of GPIO_IN that a driving pad gives. -/
def State.gpioLevels (s : State) : Nat := ofBits ((List.range 16).map fun i => match s.pad (16 + i) with | .driving l => l.headD false | _ => false)

/-- What a register reads as, with a free value for each open bit. -/
def State.peek (s : State) (a : Nat) : Word × State :=
  let w := if a = R.DEV_GPIO_IN then BitVec.ofNat 32 s.gpioLevels else s.live a
  let m := s.openBits a
  if m = 0 then (w, s)
  else
    let x := s.freshWord
    let b := BitVec.ofNat 32 m
    ((w &&& ~~~b) ||| (x.1 &&& b), x.2)

/-! ### Where a BAR 0 word lies (R89, R98, R100, R125, R126) -/

/-- What a BAR 0 word is: reserved, a register page's, of the MSI-X table or PBA, or of an array window with its bar, or set. -/
inductive Place where
  | reserved
  | page (p : Nat)
  | msix
  | tone (b : Nat)
  | missing (b : Nat)
  | model (b : Nat)
  | history (b : Nat)
  | mask (k : Nat)
  deriving DecidableEq, Repr

/-- The place of a BAR 0 word (Tables 4.7 and 5.4, R261, R126). -/
def placeOf (a : Nat) : Place :=
  if a < 0x34000 then (if (0x700 ≤ a ∧ a < 0x710) ∨ (0x800 ≤ a ∧ a < 0x1000) then .msix else .page (a / 0x1000))
  else if 0x1000000 ≤ a ∧ a < 0x1400000 then (if (a - 0x1000000) % 0x80000 < 0x61000 then .tone ((a - 0x1000000) / 0x80000) else .reserved)
  else if 0x1400000 ≤ a ∧ a < 0x1420000 then (if (a - 0x1400000) % 0x4000 < 0x3080 then .missing ((a - 0x1400000) / 0x4000) else .reserved)
  else if 0x1500000 ≤ a ∧ a < 0x1700000 then (if (a - 0x1500000) % 0x40000 < 0x30800 then .model ((a - 0x1500000) / 0x40000) else .reserved)
  else if 0x1700000 ≤ a ∧ a < 0x1710000 then (if (a - 0x1700000) % 0x2000 < 16 then .history ((a - 0x1700000) / 0x2000) else .reserved)
  else if 0x1800000 ≤ a ∧ a < 0x1A00000 then (if (a - 0x1800000) % 0x100000 < 0xC0000 then .mask ((a - 0x1800000) / 0x100000) else .reserved)
  else .reserved

/-- The owner page of a place: the page whose ERR_CODE and ACCESS count for it (Table 4.7, R194). -/
def Place.owner : Place → Option Nat
  | .reserved => none
  | .msix => some P_DEV
  | .page p => some p
  | .tone _ => some P_NZC
  | .missing _ => some P_NZC
  | .model _ => some P_NZC
  | .history b => some (P_FIRE b)
  | .mask _ => some (P_SCN 0)

/-- The place lies in an island that is out of reset; the windows lie in PIX (R100). -/
def State.placeUp (s : State) (x : Place) : Bool :=
  match x with
  | .reserved => true
  | .page p => s.pageUp p
  | .msix => s.hostUp
  | _ => s.up 3

/-! ### Captures (R8, R237, R243, R429) -/

/-- The registers that a read of `a` captures until `a` is read again: the latch of a trigger, the compare position of a bar, and the anchor of a bar. -/
def captureSet (a : Nat) : List Nat :=
  let p := a / 0x1000
  if p = P_POS then
    match (List.range 4).find? fun t => decide (a = R.POS_LAT_CNT t) with
    | some t => [R.POS_LAT_WC_LO t, R.POS_LAT_WC_HI t, R.POS_LAT_FRAC t, R.POS_LAT_TIME_LO t, R.POS_LAT_TIME_HI t]
    | none => []
  else if p = P_LCK then
    match (List.range 8).find? fun b => decide (a = R.LCK_CMP_FRAC b) with | some b => [R.LCK_CMP_LO b, R.LCK_CMP_HI b] | none => []
  else if p = P_TMB then
    match (List.range 8).find? fun b => decide (a = R.TMB_LINE64_LO b) with
    | some b => [R.TMB_LINE64_HI b, R.TMB_BOUND_TIME_LO b, R.TMB_BOUND_TIME_HI b]
    | none => []
  else []

/-- The register whose read captures `a` as one of a set. -/
def captureOf (a : Nat) : Option Nat :=
  let p := a / 0x1000
  let l := if p = P_POS then (List.range 4).map R.POS_LAT_CNT else if p = P_LCK then (List.range 8).map R.LCK_CMP_FRAC
    else if p = P_TMB then (List.range 8).map R.TMB_LINE64_LO else []
  l.find? fun t => (captureSet t).contains a

/-- The master's holding register for `a`, if it holds a value. -/
def State.captured (s : State) (m : Master) (a : Nat) : Option Word := (s.aux.capt.find? fun x => x.1 == m && x.2.1 == a).map fun x => x.2.2

/-- Load a holding register of the master. -/
def State.capture (s : State) (m : Master) (a : Nat) (w : Word) : State :=
  s.modAux fun x => { x with capt := x.capt.filter (fun y => !(y.1 == m && y.2.1 == a)) ++ [(m, a, w)] }

/-- Empty a holding register of the master. -/
def State.uncapture (s : State) (m : Master) (a : Nat) : State :=
  s.modAux fun x => { x with capt := x.capt.filter fun y => !(y.1 == m && y.2.1 == a) }

/-- A read of a register of a released page: captured values first, then the register itself with what its read does (R8, R97). -/
def State.readPage (s : State) (m : Master) (a : Nat) (r : RegRow) : Word × State :=
  if !(captureSet a).isEmpty then
    let s := foldS (captureSet a) (fun x s => s.capture m x (s.live x)) s
    (s.live a, s.capture m a 0)
  else match s.captured m a with
    | some w =>
      match captureOf a with
      | some t => if (s.captured m t).isSome then (w, s) else (w, s.uncapture m a)
      | none => (w, s.uncapture m a)
    | none =>
      let s := if r.pair then s.capture m (a + 4) (s.live (a + 4)) else s
      if a = R.EVT_LOST then (s.live a, s.modPix fun p => { p with lostArmed := true })
      else if a / 0x1000 = P_DMA ∧ 0x800 ≤ a % 0x1000 ∧ a % 0x20 = 0x18 then s.popRead ((a % 0x1000 - 0x800) / 0x20)
      else s.peek a

/-- A master reads the 32-bit word at BAR 0 offset `a` (R77, R97, R98, R100): 0 from a held island, but for RELEASE_HELD, and from reserved offsets. -/
def State.readReg (s : State) (m : Master) (a : Nat) : Word × State :=
  let x := placeOf a
  if !s.placeUp x then
    (match x with
      | .page p => if a % 0x1000 = 0x00C && s.phase (pageIsland p) == .releaseHeld then 0x10 else 0
      | _ => 0, s)
  else match x with
    | .reserved => (0, s)
    | .page _ => match regRow a with
      | some (r, _, _) => s.readPage m a r
      | none => (0, s)
    | _ => (s.reg a, s)

end Sys2Proof.Machine
end

