-- ==== Sys2Proof/Machine/Diag.lean ====
section
/-!
DEFINITION. Sys2Proof/Machine/Diag.lean: the PRBS engine and the DIAG ring (R447, R448).
-/
namespace Sys2Proof.Machine

open Sys2Proof

/-! ### DIAG descriptors (Table 19.11) -/

def dgAddr (d : Desc) : Nat := leAt d.bytes 0 8
def dgLen (d : Desc) : Nat := leAt d.bytes 8 4
def dgOp (d : Desc) : Nat := leAt d.bytes 12 1
def dgTarget (d : Desc) : Nat := leAt d.bytes 13 1
def dgParam (d : Desc) : Nat := leAt d.bytes 14 2

def dgBert : Nat := 1
def dgAdc : Nat := 2
def dgEye : Nat := 3
def dgSensor : Nat := 4

def drDone : Nat := 1
def drRefused : Nat := 2
def drInvalid : Nat := 0xF

/-- The bytes that a descriptor's OP writes. -/
def dgBytes (d : Desc) : Nat :=
  if dgOp d = dgAdc then dgParam d * 1024 else if dgOp d = dgEye then 8192 else if dgOp d = dgSensor then 64 else 0

/-- A reserved OP or TARGET, a reserved PARAM of 0, or a buffer that is too short (R448). -/
def dgInvalid (d : Desc) : Bool :=
  decide (dgOp d < 1) || decide (4 < dgOp d) || decide (dgLen d < dgBytes d)
    || (decide (dgOp d = dgBert ∨ dgOp d = dgEye) && decide (75 < dgTarget d))
    || (decide (dgOp d = dgAdc) && decide (3 < dgTarget d))
    || (decide (dgOp d = dgBert ∨ dgOp d = dgAdc) && decide (dgParam d = 0))

/-- A DIAG descriptor completes: its record goes to ring 63 and bytes 24 to 31 are written back; an INVALID one stops the ring with DESC (R448, Table 5.9). -/
def State.diagEnd (s : State) (d : Desc) (res outLen value : Nat) : State :=
  let s := s.putRecord 63 (leBytes 8 s.devtime ++ leBytes 4 d.idx ++ leBytes 1 (dgOp d) ++ leBytes 1 (dgTarget d) ++ leBytes 1 res ++ leBytes 1 0
    ++ leBytes 8 value ++ leBytes 8 0)
  let s := s.descDone 62 d.idx (leBytes 1 res ++ leBytes 3 0 ++ leBytes 4 outLen)
  if res = drInvalid then s.ringStop 62 3 else s

/-- A fresh 64-bit VALUE, for the operations whose VALUE the spec does not state. -/
def State.freshValue (s : State) : Nat × State :=
  let x := s.freshBytes 8
  (leNat x.1, x.2)

/-! ### The PRBS engine (R447) -/

/-- The lane is in use: a ZaroLink lane that is neither OFF nor DOWN, or a pair-link lane while the link is up. -/
def State.laneInUse (s : State) (lane : Nat) : Bool :=
  if lane < 72 then s.up 5 && s.laneState lane != zOff && s.laneState lane != zDown else s.linkUp

/-- A run starts on a lane. -/
def State.prbsStart (s : State) (lane pattern msec : Nat) (gen : Bool) (desc : Option Nat) : State :=
  let s := ((s.put F.DBG_PRBS_STAT_ABORTED 0).put F.DBG_PRBS_STAT_LOCK 0).put F.DBG_PRBS_STAT_BUSY 1
  let s := s.modPix fun p => { p with prbs := some { lane := lane, due := s.devtime + msec * ms, desc := desc } }
  if gen then s.emit (.prbs lane pattern) else s

/-- The run is over: PRBS_DONE with the lane and the error count, and the end of the LANE_BERT descriptor that it served. -/
def State.prbsOver (s : State) (r : Prbs) (errs res : Nat) : State :=
  let s := (s.put F.DBG_PRBS_STAT_BUSY 0).setReg R.DBG_PRBS_ERR (BitVec.ofNat 32 (min errs 0xFFFFFFFF))
  let s := s.modPix fun p => { p with prbs := none }
  let s := s.raise { page := P_DBG, bit := 4, detail := leBytes 1 r.lane ++ leBytes 4 (min errs 0xFFFFFFFF) }
  match r.desc with
  | some i => match (s.rt 62).descs.find? fun d => decide (d.idx = i) with
    | some d => s.diagEnd d res 0 (if res = drDone then errs else 0)
    | none => s
  | none => s

/-- A run reaches its time, with the errors that the checker has counted and whether it has synchronised. -/
def State.prbsEnd (s : State) (errs : Nat) (locked : Bool) : State :=
  match s.pix.prbs with
  | some r =>
    if !s.up 3 || decide (s.devtime < r.due) then s
    else
      let chk := r.desc.isSome || s.on F.DBG_PRBS_CFG_CHK
      (s.put F.DBG_PRBS_STAT_LOCK (b2n (chk && locked))).prbsOver r (if chk then errs else 0) drDone
  | none => s

/-- Training takes the lane: the engine stops at once; how many errors it had counted is open (R447, log entry 6). -/
def State.prbsAbort (s : State) (lane : Nat) : State :=
  match s.pix.prbs with
  | some r =>
    if r.lane = lane then
      let x := s.freshWord
      (x.2.put F.DBG_PRBS_STAT_ABORTED 1).prbsOver r x.1.toNat drRefused
    else s
  | none => s

/-- PRBS_CFG has been written with GEN or CHK (R447): the answer is the code of a refusal. -/
def State.prbsRefused (s : State) (w : Word) : Bool :=
  (bit w.toNat 12 || bit w.toNat 13) && (s.laneInUse (w.toNat % 128) || (match s.pix.prbs with | some r => r.desc.isSome | none => false))

/-! ### The DIAG operations (R448) -/

/-- What a sensor dump writes: for each of the 16 sites the raw count, then the temperature. -/
def State.sensorDump (s : State) : List Byte :=
  ((List.range 16).map fun k => leBytes 2 (s.get (F.THM_SITE_RAW k)) ++ leBytes 2 (s.get (F.THM_SITE_TEMP k))).flatten

/-- The next DIAG descriptor is executed if it asks for `op`, or completes INVALID; `data` is what an ADC capture or an eye scan has observed. -/
def State.diagRun (s : State) (op : Nat) (data : List Byte) : State :=
  match s.nextDesc 62 with
  | none => s
  | some d =>
    if !(s.up 3 && s.dmaOk) then s
    else if dgInvalid d then (s.takeDesc 62 d.idx).diagEnd d drInvalid 0 0
    else if dgOp d ≠ op then s
    else
      let s := s.takeDesc 62 d.idx
      if op = dgBert then
        if s.pix.prbs.isSome || s.laneInUse (dgTarget d) then s.diagEnd d drRefused 0 0
        else s.prbsStart (dgTarget d) 2 (dgParam d) true (some d.idx)
      else
        let n := dgBytes d
        let s := s.hostWrite (dgAddr d) (padTo n (if op = dgSensor then s.sensorDump else data))
        let x := s.freshValue
        x.2.diagEnd d drDone n x.1

end Sys2Proof.Machine
end

