-- ==== Sys2Proof/Machine/Writes.lean ====
section
/-!
DEFINITION. Sys2Proof/Machine/Writes.lean: what a write of a register is refused for, and what it does beside storing the value: the registers' own rules from chapters 2 to 19.
-/
namespace Sys2Proof.Machine

open Sys2Proof

/-! ### PAR CMD (R368, R386, R391, R392, R395) -/

/-- An OP of PAR CMD; the answer is the code of a refusal. -/
def State.parCmd (s : State) (op : Nat) : State × Option Nat :=
  if !(1 ≤ op && op ≤ 5) then (s, some eReserved)
  else if op = 1 then (if s.role = .detached ∧ !s.unitClash then (s.claimStart, none) else (s, some eSlotState))
  else if op = 2 then
    match s.role with
    | .active => let x := s.handoverCmd; if x.2 then (x.1, none) else (s, some eSlotState)
    | .standby => (s.sendPair .handoverRequest, none)
    | _ => (s, some eSlotState)
  else if op = 3 then
    if s.role = .detached ∧ !s.unitClash then ((s.modPlk fun p => { p with resyncWait := true }).resyncTry, none) else (s, some eSlotState)
  else if op = 4 then (if s.role = .standby then (s.setRole .detached causeCmd 0, none) else (s, some eSlotState))
  else if s.role = .active ∨ s.role = .detached then (s.locketFail lkAbort, none)
  else (s, some eSlotState)

/-! ### Clasp slots (R107 to R110) -/

/-- The master owns slot `k` (R107, Table 4.10); a stamped action acts for the master that issued it. -/
def slotOwner (m : Master) (k : Nat) : Bool :=
  match m with
  | .host => decide (k < 8)
  | .sideband | .debug => decide (8 ≤ k) && decide (k < 12)
  | _ => false

/-- CMD of slot `k` (Table 4.13); the answer is the code of a refusal. -/
def State.claspCmd (s : State) (k op : Nat) : State × Option Nat :=
  let st := s.slotState k
  if op = 1 then (if st = clFree ∨ st = clDone ∨ st = clAborted then (s.claspOpen k, none) else (s, some eSlotState))
  else if op = 2 then (if st = clOpen then (s.claspCommit k, none) else (s, some eSlotState))
  else if op = 3 then (if st = clOpen ∨ st = clArmed then (s.claspAbort k caHostAbort 0 0, none) else (s, some eSlotState))
  else if op = 4 then (if st = clDone ∨ st = clAborted then ((s.modSlot k fun _ => {}).put (F.CLS_STATUS_STATE k) clFree, none) else (s, some eSlotState))
  else (s, some eReserved)

/-! ### Banks and sets in force (R194, R255, R261) -/

/-- The slot bank in force for bar `b`: the one of its last boundary while it places boundaries, else what SEL selects. -/
def State.bankInForce (s : State) (b : Nat) : Nat :=
  if (s.clk b).placed && s.predicts b then s.get (F.FIRE_BANK_NOW b) else s.get (F.FIRE_SEL_SLOT_BANK b)

/-- The history set in force for bar `b`. -/
def State.setInForce (s : State) (b : Nat) : Nat :=
  if (s.clk b).placed && s.predicts b then s.get (F.FIRE_SET_NOW b) else s.get (F.FIRE_SEL_HIST_SET b)

/-! ### Reserved encodings and conditions of single registers -/

/-- A value of the head map's word `k` that is not ascending (R263): START_HI must lie above START_LO unless both are unused, and START_0 is 0. -/
def hmapBad (k : Nat) (w : Word) : Bool :=
  let lo := getBits 15 0 w
  let hi := getBits 31 16 w
  decide (hi < lo) || (decide (hi = lo) && decide (lo < 12416)) || (decide (k = 0) && decide (lo ≠ 0))

/-- The thresholds that a write of THM threshold `i` would leave (R349): each at or below its reset value, and THROTTLE < STOP < CRITICAL. -/
def State.thresholdBad (s : State) (i : Nat) (w : Word) : Bool :=
  let v (j a : Nat) : Int := signedOf 16 (if j = i then w.toNat else (s.reg a).toNat)
  let t := v 0 R.THM_THR_THROTTLE
  let p := v 1 R.THM_THR_STOP
  let c := v 2 R.THM_THR_CRIT
  let top : Int := if i = 0 then 0x5F0 else if i = 1 then 0x690 else 0x730
  !(decide (v i 0 ≤ top) && decide (t < p) && decide (p < c))

/-- A field of `w` differs from the register's. -/
def State.differs (s : State) (f : Fld) (w : Word) : Bool := s.get f != getBits f.hi f.lo w

/-- Ring `n` runs, in the sense of STAT.RUNNING. -/
def State.runs (s : State) (n : Nat) : Bool := s.on (F.DMA_RING_STAT_RUNNING n)

/-- The condition under which a write of register `a` (row `r` at `i`, `j`) with value `w` is refused, with its code. -/
def State.writeBars (s : State) (m : Master) (a i j : Nat) (o : Nat) (w : Word) : Option Nat :=
  let p := a / 0x1000
  let key := getBits 31 16 w
  let no (c : Bool) (code : Nat) : Option Nat := if c then some code else none
  if o < 0x040 then none else
  if p = P_DEV then
    if o = 0x080 then no (s.on F.DEV_WDT_CTRL_EN && key != 0x3C5A) eBadKey
    else if o = 0x084 then no (s.on F.DEV_WDT_CTRL_EN) eSlotState
    else if o = 0x088 then no (key != 0x4B1C) eBadKey
    else none
  else if p = P_RSC then
    if o = 0x044 then no (key != 0xA5C3) eBadKey else if o = 0x050 then no (key != 0x3C5A) eBadKey else none
  else if p = P_CLS then
    if o < 0x100 then none
    else if !slotOwner m i then some eSlotOwner
    else if 0x104 ≤ o ∧ o ≤ 0x114 then no (s.slotState i != clOpen) eSlotState
    else none
  else if p = P_HIF then
    if o = 0x048 then no (decide (s.get F.MEM_STAT_USABLE_2M < getBits 13 0 w + 128)) eReserved else none
  else if p = P_DMA then
    if o = 0x800 ∨ o = 0x804 then no (s.runs i) eSlotState
    else if o = 0x808 then no (s.runs i && s.differs (F.DMA_RING_CFG_LOG2_SIZE i) w) eSlotState
    else if o = 0x810 then no (!isSubmission i && s.consPast i w) eReserved
    else none
  else if p = P_CDC then (if o = 0x100 ∨ o = 0x104 then no (s.runs (8 + i)) eSlotState else none)
  else if p = P_IMG then
    if o = 0x040 ∨ o = 0x044 then no (!s.on (F.S_IDLE P_IMG)) eSlotState
    else if o = 0x100 ∨ o = 0x104 then no (s.runs i) eSlotState else none
  else if P_SCN 0 ≤ p ∧ p ≤ P_SCN 7 then (if o = 0x04C ∨ o = 0x050 then no (s.inJob (p - P_SCN 0)) eSlotState else none)
  else if p = P_NZC then
    if o = 0x048 then no (!s.on (F.S_IDLE P_NZC)) eSlotState
    else if o = 0x054 then no ((bitsOf w.toNat 8).any fun b => s.inJob b) eSlotState else none
  else if p = P_POS then
    if o = 0x040 then no (s.anyJob && (s.differs F.POS_WEB_SEL_ACT_CH w || s.differs F.POS_WEB_SEL_STBY_CH w)) eSlotState
    else if o = 0x100 then no (s.anyJob && s.differs (F.POS_CH_CFG_MODE i) w) eSlotState else none
  else if p = P_LCK then (if o = 0x100 then no (s.inJob i && s.differs (F.LCK_BAR_CFG_PITCH i) w) eSlotState else none)
  else if P_FIRE 0 ≤ p ∧ p ≤ P_FIRE 7 then
    let b := p - P_FIRE 0
    if o = 0x040 then no (decide (s.get (F.FIRE_WDOG b) < getBits 12 0 w + 40)) eReserved
    else if o = 0x044 then no (!s.on (F.S_IDLE p)) eSlotState
    else if o = 0x048 then no (s.inJob b) eSlotState
    else if o = 0x05C then no (decide (signedOf 16 (getBits 31 16 w) < signedOf 16 (getBits 15 0 w))) eReserved
    else if o = 0x100 ∨ o = 0x104 then no (decide (i = s.bankInForce b)) eActiveBank
    else if o = 0x140 ∨ o = 0x144 then no (s.on (F.FIRE_CAP_CTRL_ARM b)) eSlotState
    else if o = 0x200 then (if s.inJob b then some eSlotState else no (hmapBad j w) eReserved)
    else none
  else if P_ZLB 0 ≤ p ∧ p ≤ P_ZLB 7 then
    let b := p - P_ZLB 0
    if o = 0x044 then no (s.on (F.ZLB_SPARE_STAT_SERVING b) && s.differs (F.ZLB_SPARE_CFG_SEG b) w) eSlotState
    else if o = 0x048 then
      no (bit w.toNat 1 && s.on (F.ZLB_SPARE_STAT_SERVING b) && s.laneState (9 * b + s.get (F.ZLB_SPARE_STAT_SEG b)) != zActive) eSlotState
    else if o = 0x050 then
      let opc := getBits 14 8 w
      if !bit w.toNat 31 then none
      else if s.on (F.ZLB_CMD_CTRL_GO b) then some eSlotState
      else no (!(opc == 1 || opc == 2 || opc == 4 || decide (0x40 ≤ opc))) eReserved
    else none
  else if p = P_CRT then (if o = 0x060 then no s.anyJob eSlotState else none)
  else if p = P_THM then
    if o = 0x044 then no (decide (4 < (bitsOf (w.toNat % 2 ^ 16 ^^^ 0xFFFF) 16).length)) eReserved
    else if o = 0x048 then no (s.thresholdBad 0 w) eReserved
    else if o = 0x04C then no (s.thresholdBad 1 w) eReserved
    else if o = 0x050 then no (s.thresholdBad 2 w) eReserved
    else none
  else if p = P_PAR then
    if o = 0x040 then no (s.differs F.PAR_CFG_UNIT_ID w && (List.range 72).any fun nn => s.up 5 && s.laneState nn != zOff) eSlotState
    else if o = 0x04C then no (key != 0xC35A) eBadKey else none
  else if p = P_DBG then (if o = 0x040 then no (s.prbsRefused w) eSlotState else none)
  else none

/-! ### What a write does beside storing its value -/

/-- GPIO_OUT is written (R46): a driving pad follows; one in its rest-follow keeps the register's bit until then and holds the value written; a pad at rest only stores. -/
def State.gpioWrite (s : State) (old w : Word) : State :=
  foldS (List.range 16) (fun i s =>
    match s.pad (16 + i) with
    | .driving _ => s.setPad (16 + i) (.driving [bit w.toNat i])
    | .follow t _ => (s.setPad (16 + i) (.follow t (some (bit w.toNat i)))).setBit R.DEV_GPIO_OUT i (bit old.toNat i)
    | .rest => s) s

/-- WDT_CTRL is written: the watchdog starts at PERIOD when EN becomes 1 (R149). -/
def State.wdtCtrl (s : State) (old : Word) : State :=
  if s.on F.DEV_WDT_CTRL_EN && !bit old.toNat 0 then (s.put F.DEV_WDT_STAT_WARNED 0).modAux fun a => { a with wdtStart := s.devtime } else s

/-- A valid kick (R149). -/
def State.wdtKick (s : State) : State :=
  if s.on F.DEV_WDT_CTRL_EN then (s.put F.DEV_WDT_STAT_WARNED 0).modAux fun a => { a with wdtStart := s.devtime } else s

/-- LOG_FROM (R424): the held records from a sequence number onward are copied to ring 61; one older than the oldest held starts there (R406). -/
def State.logFrom (s : State) (n : Nat) : State :=
  let next := (s.reg R.SBP_LOG_SEQ).toNat
  let have_ := s.aux.log.length
  let want := sdiff 32 next n
  let k := if want ≤ 0 then 0 else min have_ want.toNat
  foldS (s.aux.log.drop (have_ - k)) (fun r s => s.putRecord 61 r.bytes) s

/-- LANE_EN of bar `b` is written (R292, R294, R447). -/
def State.laneEn (s : State) (b : Nat) (old w : Word) : State :=
  foldS (List.range 9) (fun k s =>
    let nn := 9 * b + k
    if bit w.toNat k && !bit old.toNat k then (s.prbsAbort nn).laneEnable nn
    else if !bit w.toNat k && bit old.toNat k then s.laneDisable nn else s) s

/-- CFG of ring `n` is written (R139). -/
def State.ringCfg (s : State) (n : Nat) (old w : Word) : State :=
  if bit w.toNat 5 && !bit old.toNat 5 then s.ringEnable n
  else if !bit w.toNat 5 && bit old.toNat 5 then s.ringDisable n else s

/-- ITEM_CMD of item `i` (R353, R357, R363). -/
def State.itemCmd (s : State) (i : Nat) (w : Word) : State :=
  s.calCmd i (getBits 24 16 w) (bit w.toNat 0) (bit w.toNat 1) (bit w.toNat 2)

/-- The bits of its event registers that a write forces or clears (R93). -/
def State.evtForce (s : State) (p : Nat) (w : Word) : State :=
  foldS (bitsOf (w.toNat &&& eventBits p) 32) (fun b s => s.raise { page := p, bit := b, forced := true }) s

/-- EVT_PEND is written: the bits written 1 clear PEND and RAW; ERR_CODE goes with REFUSED (R93, R96). -/
def State.evtClear (s : State) (p : Nat) (w : Word) : State :=
  let s := (s.setReg (R.EVT_PEND p) (s.reg (R.EVT_PEND p) &&& ~~~w)).setReg (R.EVT_RAW p) (s.reg (R.EVT_RAW p) &&& ~~~w)
  if bit w.toNat 1 then s.setReg (R.ERR_CODE p) 0 else s

/-- What a write of register `a` (row offset `o` at `i`) does beside storing its value; `old` is what the register held before. The answer is the code of a refusal that
only carrying it out can show. -/
def State.writeActs (s : State) (m : Master) (a i o : Nat) (old w : Word) : State × Option Nat :=
  let p := a / 0x1000
  let ok (t : State) : State × Option Nat := (t, none)
  if p = P_DEV then
    if o = 0x060 ∨ o = 0x06C then ok s.padsUpdate
    else if o = 0x070 then ok (s.gpioWrite old w)
    else if o = 0x080 then ok (s.wdtCtrl old)
    else if o = 0x088 then ok s.wdtKick
    else ok s
  else if p = P_RSC then
    if o = 0x044 then ok (s.softReset (getBits 1 0 w) (m != .host))
    else if o = 0x048 then ok (if bit w.toNat 0 then s.bootContinue else s)
    else if o = 0x04C then (s.setReg R.RSC_ISL_HOLD old).islHold w
    else if o = 0x050 then ok (if bit w.toNat 0 then (s.put F.DEV_WDT_CTRL_EN 0).put F.DEV_WDT_STAT_WARNED 0 else s)
    else ok s
  else if p = P_CLS then
    if o = 0x100 then s.claspCmd i (getBits 3 0 w)
    else if o = 0x114 then ok (s.claspStage i ((s.reg (R.CLS_ADDR i)).toNat) w)
    else ok s
  else if p = P_EVT then (if o = 0x060 then ok (s.logFrom w.toNat) else ok s)
  else if p = P_DMA then
    if o = 0x808 then ok (s.ringCfg i old w)
    else if o = 0x80C then ok ((s.setReg a old).doorbell i w)
    else if o = 0x810 then ok ((s.setReg a old).consWrite i w)
    else ok s
  else if p = P_SCN 0 then
    if o = 0x400 then ok (foldS (bitsOf w.toNat 2) (fun k s => s.maskCheck k) s) else ok s
  else if p = P_NZC then
    if o = 0x054 then ok (foldS (bitsOf w.toNat 8) (fun b s => s.nzcPass s b) s) else ok s
  else if p = P_POS then
    if o = 0x040 then ok (if s.webCh = (if s.role == .standby || s.role == .detached then getBits 5 4 old else getBits 1 0 old) then s else s.webSwitch)
    else if o = 0x100 then ok (if s.chMode i = getBits 2 0 old then s else s.chRestart i)
    else if o = 0x138 then ok (if bit w.toNat 7 && bit old.toNat 7 then s.chRestart i else s)
    else ok s
  else if p = P_LCK then (if o = 0x100 ∨ o = 0x10C ∨ o = 0x110 then ok s.watchLines else ok s)
  else if P_FIRE 0 ≤ p ∧ p ≤ P_FIRE 7 then
    let b := p - P_FIRE 0
    if o = 0x058 then ok (if bit w.toNat 0 then s.swapCmd b else s)
    else if o = 0x148 then ok (if bit w.toNat 31 then s.captureArm b else s)
    else ok s
  else if p = P_ZLK then (if o = 0x048 then ok (if s.reg a = old then s else s.telemPer) else ok s)
  else if P_ZLB 0 ≤ p ∧ p ≤ P_ZLB 7 then
    let b := p - P_ZLB 0
    if o = 0x040 then ok (s.laneEn b old w)
    else if o = 0x048 then
      let s := if bit w.toNat 0 then s.spareTakeCmd b else s
      ok (if bit w.toNat 1 then s.spareRelease b else s)
    else if o = 0x050 then ok (if bit w.toNat 31 then s.mailboxGo b else s)
    else ok s
  else if p = P_CRT then (if o = 0x040 ∨ o = 0x044 then ok s.effUpdate else ok s)
  else if p = P_THM then
    if o = 0x044 then ok (s.modAux fun x => { x with siteEn := s.reg R.THM_SITE_EN }) else ok s
  else if p = P_CAL then (if o = 0x104 then ok (s.itemCmd i w) else ok s)
  else if p = P_PAR then (if o = 0x04C then s.parCmd (getBits 3 0 w) else ok s)
  else if p = P_DBG then
    if o = 0x040 then
      ok (if bit w.toNat 12 || bit w.toNat 13 then
        s.prbsStart (getBits 6 0 w) (getBits 9 8 w) (getBits 31 16 w) (bit w.toNat 12) none else s)
    else if o = 0x050 then ok (if bit w.toNat 0 then s.modAux fun x => { x with regLock := true } else s)
    else ok s
  else ok s

end Sys2Proof.Machine
end

