-- ==== Sys2Proof/Machine/Bus.lean ====
section
/-!
DEFINITION. Sys2Proof/Machine/Bus.lean: one write of one register by one master: the checks in their order, the stamping of lockstep actions, and what is held while a clasp
apply runs (R77, R95 to R106, R115, R126, R219, R373).
-/
namespace Sys2Proof.Machine

open Sys2Proof

/-! ### Storing (R7, R8, R96, R101) -/

/-- Bits of a register that a write sets: the RW fields, but for those that a rule makes read-only at this place (Tables 4.4, 5.8, 12.6). -/
def rwBits (r : RegRow) (a i : Nat) : Word :=
  let p := a / 0x1000
  if r.off = 0x028 then BitVec.ofNat 32 (2 * b2n (pageLockstep p) + b2n (!pageSbAlways p))
  else if p = P_DMA ∧ r.off = 0x80C then (if isSubmission i then 0xFFFFFFFF#32 else 0)
  else if p = P_DMA ∧ r.off = 0x810 then (if isSubmission i then 0 else 0xFFFFFFFF#32)
  else if p = P_ARB ∧ r.off = 0x204 ∧ i = 0 then 0
  else if r.off = 0x018 then BitVec.ofNat 32 (eventBits p)
  else rowMask r .rw

/-- Bits of a register that a write leaves alone because they are read-only. -/
def roBits (r : RegRow) (a i : Nat) : Word := rowMask r .ro ||| (rowMask r .rw &&& ~~~(rwBits r a i))

/-- A write whose only changed bits are read-only (Table 4.9): `now` is what the register reads as. -/
def onlyReadOnly (r : RegRow) (a i : Nat) (now w : Word) : Bool :=
  let acts := rowMask r .w1c ||| rowMask r .w1s ||| rowMask r .wo
  (now ^^^ w) &&& roBits r a i != 0 && (now ^^^ w) &&& rwBits r a i == 0 && w &&& acts == 0

/-- The value that a register holds after a write: RW fields take it, W1C bits written 1 are clear. -/
def writtenWord (r : RegRow) (a i : Nat) (old w : Word) : Word :=
  let m := rwBits r a i
  ((old &&& ~~~m) ||| (w &&& m)) &&& ~~~(w &&& rowMask r .w1c)

/-- The value that the master has written to the _LO register `a` and that is held, if any (R8). -/
def State.heldLo (s : State) (m : Master) (a : Nat) : Option Word := (s.aux.holdLo.find? fun x => x.1 == m && x.2.1 == a).map fun x => x.2.2

/-- Hold a write of a _LO register, replacing an earlier one (R8). -/
def State.holdLoWrite (s : State) (m : Master) (a : Nat) (w : Word) : State :=
  s.modAux fun x => { x with holdLo := x.holdLo.filter (fun y => !(y.1 == m && y.2.1 == a)) ++ [(m, a, w)] }

/-- The hold ends. -/
def State.dropLo (s : State) (m : Master) (a : Nat) : State :=
  s.modAux fun x => { x with holdLo := x.holdLo.filter fun y => !(y.1 == m && y.2.1 == a) }

/-- The _LO register whose pair R8 makes with the register `a`, if `a` is the _HI half of one that is held. -/
def loOf (a : Nat) : Option Nat :=
  match regRow (a - 4) with
  | some (r, _, _) => if r.pair && decide (4 ≤ a) then some (a - 4) else none
  | none => none

/-- A write of a register of a released page by a master that may make it: the register's type, its reserved encodings and its own rule decide (R96, R101); the
answer is the code of a refusal. -/
def State.storeReg (s : State) (m : Master) (a : Nat) (w : Word) : State × Option Nat :=
  let p := a / 0x1000
  let o := a % 0x1000
  match regRow a with
  | none => (s, some eReserved)
  | some (r, i, j) =>
    let now := (s.peek a).1
    let s := (s.peek a).2
    if o = 0x008 then s.writeCtrl p w
    else if o = 0x014 then (s.evtClear p w, none)
    else if o = 0x01C then (s.evtForce p w, none)
    else if p = P_CLS ∧ 0x100 ≤ o ∧ !slotOwner m i then (s, some eSlotOwner)
    else if r.claspOnly then (s, some eClaspOnly)
    else if onlyReadOnly r a i now w then (s, some eReadOnly)
    else if !rowInRange r w then (s, some eReserved)
    else match s.writeBars m a i j r.off w with
      | some code => (s, some code)
      | none =>
        if (p = P_CAL ∧ 0x400 ≤ o) ∨ (p = P_MCH ∧ r.off = 0x108) then s.calWrite a w
        else if r.pair && !decide (rwBits r a i = 0) then (s.holdLoWrite m a w, none)
        else
          let old := s.reg a
          let t := match loOf a with
            | some l => match s.heldLo m l with
              | some v => match regRow l with
                | some (q, k, _) => (s.dropLo m l).setReg l (writtenWord q l k (s.reg l) v)
                | none => s
              | none => s
            | none => s
          let x := (t.setReg a (writtenWord r a i old w)).writeActs m a i r.off old w
          match x.2 with
          | some code => (s, some code)
          | none => x

/-- A write of an array window by the host (R100, R194, R210, R219, R261). -/
def State.storeWindow (s : State) (x : Place) (a : Nat) (w : Word) : State × Option Nat :=
  match x with
  | .tone b =>
    let w := w &&& 0xDFFFFFFF#32
    (if s.inJob b then s.nzcHold b a w else s.setReg a w, none)
  | .missing b => (if s.inJob b then s.nzcHold b a w else s.setReg a w, none)
  | .model _ => (s, some eReadOnly)
  | .history b => if a / 8 % 2 = s.setInForce b then (s, some eActiveBank) else (s.setReg a (w &&& 0xFFFFFF00#32), none)
  | .mask k => if bit s.masksInUse k then (s, some eActiveBank) else (s.setReg a w, none)
  | _ => (s, none)

/-! ### Permissions, lockstep and holding (R95, R103 to R106, R115, R141) -/

/-- How a write has ended so far: applied, refused with a code, stamped as a lockstep action, or held by a clasp apply. -/
inductive WriteEnd where
  | done
  | refused (code : Nat)
  | stamped
  | held
  deriving DecidableEq, Repr

/-- A write that R106, R141 or R357 makes a lockstep action in a pair. -/
def State.lockstepWrite (s : State) (x : Place) (a : Nat) (w : Word) : Bool :=
  match x with
  | .page p =>
    let o := a % 0x1000
    if o = 0x028 then pageLockstep p
    else if p = P_DMA ∧ 0x040 ≤ o then
      decide (0x800 ≤ o) && isSubmission ((o - 0x800) / 0x20) && (o % 0x20 == 0 || o % 0x20 == 4 || o % 0x20 == 8 || o % 0x20 == 0xC)
    else if p = P_CAL then
      (match regRow a with
        | some (r, i, _) => r.off == 0x104 && bit w.toNat 1 && s.calForceJob i (getBits 24 16 w)
        | none => false)
    else s.lockstep p
  | .reserved => false
  | .msix => false
  | x => (match x.owner with | some p => s.lockstep p | none => false)

/-- Record a refusal in the page that can record it (R96). -/
def State.refuseAt (s : State) (owner : Option Nat) (a : Nat) (m : Master) (code : Nat) : State :=
  match owner with
  | some p => if s.pageUp p then s.errCode p a m code else s.errCode P_RSC a m code
  | none => s.errCode P_RSC a m code

/-- A master whose writes have the side-band's permissions (R104, R446). -/
def sideband (m : Master) : Bool := m == .sideband || m == .debug

/-- A side-band write that Table 4.10 or R95 denies. -/
def State.sbDenied (s : State) (x : Place) (a : Nat) : Bool :=
  match x with
  | .reserved => false
  | .page p => a % 0x1000 == 0x028 || !s.on ⟨R.ACCESS p, 0, 0⟩
  | _ => true

/-- The host watchdog's registers, which the side-band does not reach (R148, R151). -/
def wdtReg (a : Nat) : Bool := a == R.DEV_WDT_CTRL || a == R.DEV_WDT_PERIOD || a == R.DEV_WDT_KICK

/-- The write reaches the register: `key` is the master that issued it, `shown` the one that ERR_CODE names. -/
def State.land (s : State) (x : Place) (key shown : Master) (a : Nat) (w : Word) : State × WriteEnd :=
  let y := match x with
    | .page _ => if sideband key && wdtReg a then (s, none) else s.storeReg key a w
    | _ => s.storeWindow x a w
  match y.2 with
  | some code => (y.1.refuseAt x.owner a shown code, .refused code)
  | none => (y.1, .done)

/-- A word of the MSI-X table is written; the PBA ignores writes (R126). -/
def State.msixWrite (s : State) (a : Nat) (w : Word) : State :=
  if a < 0x800 then s
  else
    let w := if a % 16 = 0 then w &&& 0xFFFFFFFC#32 else if a % 16 = 12 then w &&& 1 else w
    (s.setReg a w).flushMsix

/-- A master writes the 32-bit word at BAR 0 offset `a`; `stamped` says that the write is a lockstep action at its stamp (R106, R373). -/
def State.busWrite (s : State) (m : Master) (a : Nat) (w : Word) (stamped : Bool) : State × WriteEnd :=
  let x := placeOf a
  let refused (code : Nat) : State × WriteEnd := (s.refuseAt x.owner a m code, .refused code)
  if x = .reserved then refused eReserved
  else if !s.placeUp x then
    (match x with
      | .page p =>
        if a % 0x1000 = 0x008 then (s.modAux fun y => { y with ctrlRec := y.ctrlRec.filter (fun c => c.1 ≠ p) ++ [(p, w)] }, .done)
        else (s.errCode P_RSC a m eInReset, .refused eInReset)
      | _ => (s.errCode P_RSC a m eInReset, .refused eInReset))
  else if !stamped && sideband m && s.sbDenied x a then refused eSbDenied
  else if x = .msix then (s.msixWrite a w, .done)
  else if !stamped && s.paired && s.lockstepWrite x a w then
    (if s.role = .active then (s.stampAction (.writes m [(a, w)]), .stamped) else refused eStandby)
  else if (match x with | .page p => s.pageHeld p | _ => false) then
    (s.modAux fun y => { y with heldAcc := y.heldAcc ++ [.write m a w stamped] }, .held)
  else s.land x m (if stamped && s.role != .active then .pairApply else m) a w

/-- A master reads the word at `a`, unless a clasp apply holds the page (R103). -/
def State.busRead (s : State) (m : Master) (a : Nat) : State :=
  match placeOf a with
  | .page p =>
    if s.pageHeld p then s.modAux fun y => { y with heldAcc := y.heldAcc ++ [.read m a] }
    else
      let x := s.readReg m a
      x.2.emit (.readReply m x.1)
  | _ =>
    let x := s.readReg m a
    x.2.emit (.readReply m x.1)

/-- A write that is not one naturally aligned 32-bit access, or has partial byte enables (R97, R126): refused with WIDTH, unless it is an aligned 64-bit access of the
MSI-X ranges. -/
def State.wideWrite (s : State) (m : Master) (a : Nat) (l : List (Option Byte)) : State × WriteEnd :=
  let word (k : Nat) : Word := BitVec.ofNat 32 (leNat (((l.drop (4 * k)).take 4).map fun b => b.getD 0))
  let full := l.all Option.isSome
  if full && l.length == 4 && a % 4 == 0 then s.busWrite m a (word 0) false
  else if full && l.length == 8 && a % 8 == 0 && placeOf a == .msix && placeOf (a + 4) == .msix then
    let x := s.busWrite m a (word 0) false
    if x.2 = .done then x.1.busWrite m (a + 4) (word 1) false else x
  else
    let x := placeOf (4 * (a / 4))
    let code := if !s.placeUp x then eInReset else if x = .reserved then eReserved else eWidth
    (s.refuseAt x.owner a m code, .refused code)

end Sys2Proof.Machine
end

