-- ==== Sys2Proof/Machine/Sideband.lean ====
section
/-!
DEFINITION. Sys2Proof/Machine/Sideband.lean: the side-band port and the management chain (R398 to R415), and the accesses that wait for a clasp apply or for a stamp.
-/
namespace Sys2Proof.Machine

open Sys2Proof

/-! ### Frames (R400) -/

/-- One byte of CRC-16/CCITT-FALSE: polynomial 0x1021, most significant bit first. -/
def crc16Byte (crc : BitVec 16) (b : Byte) : BitVec 16 :=
  let step (c : BitVec 16) : BitVec 16 := if c.getLsbD 15 then (c <<< 1) ^^^ 0x1021#16 else c <<< 1
  step (step (step (step (step (step (step (step (crc ^^^ (b.setWidth 16 <<< 8)))))))))

/-- CRC-16/CCITT-FALSE of a list of bytes: initial value 0xFFFF, no final XOR. -/
def crc16 (l : List Byte) : BitVec 16 := l.foldl crc16Byte 0xFFFF#16

/-- A reply frame (Table 17.1): DIR = 1 and the unit's address, the command, the payload, and the CRC with its high byte first. -/
def sbFrame (addr cmd : Nat) (payload : List Byte) : List Byte :=
  let body := leBytes 1 (0x80 + addr) ++ leBytes 1 cmd ++ leBytes 2 payload.length ++ payload
  let c := (crc16 body).toNat
  leBytes 1 0xA5 ++ body ++ leBytes 1 (c / 256) ++ leBytes 1 c

/-- Commands of Table 17.3. -/
def sbPing : Nat := 0x01
def sbRead : Nat := 0x02
def sbWrite : Nat := 0x03
def sbLogRead : Nat := 0x04
def sbEvtPoll : Nat := 0x05
def sbAssign : Nat := 0x10
def sbUnassign : Nat := 0x11
def sbSetRate : Nat := 0x12
def sbEpochArm : Nat := 0x13

/-- STATUS of a reply (Table 17.4). -/
def stOk : Nat := 0x00
def stRefused : Nat := 0x01
def stInReset : Nat := 0x02
def stBadCmd : Nat := 0x03
def stBadArg : Nat := 0x04

/-- The side-band works in every state with VAUX, except while AUX is held or its oscillator has failed (R410, Table 3.6). -/
def State.sbAlive (s : State) : Bool := s.up 0 && s.aux.vaux && s.aux.osc && !s.aux.resetN

/-- A request at this address is for this unit: its chain address, or 0x00 while it is the front (Table 17.2). -/
def State.sbMine (s : State) (addr : Nat) : Bool :=
  if addr = 0 then s.front else decide (addr < 0x3F) && decide (s.get F.CHN_ADDR = addr)

/-- Send a reply (R402): the driver is enabled under rest-follow for it (R398). -/
def State.sbReply (s : State) (addr cmd : Nat) (payload : List Byte) : State :=
  let s := (s.emit (.sbReply (sbFrame addr cmd payload))).satAdd F.SBP_TX_FRAMES 1
  s.setPad 32 (.follow s.devtime none)

/-- Count a discarded frame or an ignored broadcast and raise SB_ERR, whose kind byte the spec leaves open (R401, R403, R415). -/
def State.sbError (s : State) (crc : Bool) : State :=
  let s := if crc then s.satAdd F.SBP_RX_ERR_CRC 1 else s.satAdd F.SBP_RX_ERR_OTHER 1
  let x := s.freshBytes 1
  x.2.raise { page := P_SBP, bit := 4, detail := x.1 }

/-- A request for a unit or the front: dropped if it is for another unit, ignored and counted as an error if it is a broadcast, else counted and carried out (R401, R403). -/
def State.sbTo (s : State) (addr : Nat) (f : State → State) : State :=
  if !s.sbAlive then s
  else if addr = 0x3F then s.sbError false
  else if s.sbMine addr then f (s.satAdd F.SBP_RX_FRAMES 1)
  else s

/-- A broadcast: one with a wrong KEY or value is ignored and counted as an error (R403). -/
def State.sbCast (s : State) (good : Bool) (f : State → State) : State :=
  if !s.sbAlive then s
  else if good then f (s.satAdd F.SBP_RX_FRAMES 1)
  else s.sbError false

/-! ### Register access (R404) -/

/-- A clasp apply holds the page of the word at `a`. -/
def State.accHeld (s : State) (a : Nat) : Bool := match placeOf a with | .page p => s.pageHeld p | _ => false

/-- A READ or WRITE of the side-band is still in progress. -/
def State.sbBusy (s : State) : Bool :=
  s.aux.sbWait.isSome || s.aux.heldAcc.any fun x => match x with | .sbRead _ _ _ _ _ => true | .sbWrite _ _ _ _ => true | _ => false

/-- Let an access wait. -/
def State.waitAcc (s : State) (x : BusAcc) : State := s.modAux fun y => { y with heldAcc := y.heldAcc ++ [x] }

/-- The reply of a READ: IN_RESET if a word came from an island held in reset; N = COUNT always. -/
def State.readReply (s : State) (addr : Nat) (got : List Word) (inReset : Bool) : State :=
  s.sbReply addr sbRead (leBytes 1 (if inReset then stInReset else stOk) ++ leBytes 1 0 ++ leBytes 1 got.length ++ (got.map fun w => leBytes 4 w.toNat).flatten)

/-- The words of a READ, one access after the other; it waits where a clasp apply holds the page. -/
def State.sbReadGo : Nat → State → Nat → Nat → List Word → Bool → State
  | 0, s, addr, _, got, r => s.readReply addr got r
  | n + 1, s, addr, off, got, r =>
    if s.accHeld off then s.waitAcc (.sbRead addr off (n + 1) got r)
    else
      let x := s.readReg .sideband off
      x.2.sbReadGo n addr (off + 4) (got ++ [x.1]) (r || !s.placeUp (placeOf off))

/-- The reply of a WRITE: N words applied, and the code of the refusal that ended it, if one did. -/
def State.writeReply (s : State) (addr n : Nat) (code : Option Nat) : State :=
  let st := match code with | none => stOk | some c => if c = eInReset then stInReset else stRefused
  s.sbReply addr sbWrite (leBytes 1 st ++ leBytes 1 (code.getD 0) ++ leBytes 1 n)

/-- The words of a WRITE in order, until the first refusal; it waits where a clasp apply holds the page, and for the stamp of a lockstep action. -/
def State.sbWriteGo : List Word → State → Nat → Nat → Nat → State
  | [], s, addr, _, n => s.writeReply addr n none
  | w :: ws, s, addr, off, n =>
    if s.accHeld off then s.waitAcc (.sbWrite addr off (w :: ws) n)
    else
      let ack := if s.linkUp then some s.plk.txSeq else none
      let x := s.busWrite .sideband off w false
      match x.2 with
      | .done => x.1.sbWriteGo ws addr (off + 4) (n + 1)
      | .refused code => x.1.writeReply addr n (some code)
      | .stamped => x.1.modAux fun y => { y with sbWait := some { addr := addr, off := off + 4, ws := ws, done := n, waitAck := ack, ended := none } }
      | .held => x.1

/-- The stamped word of a WRITE has had its stamp (R373): `code` is that of a refusal. -/
def State.sbStamped (s : State) (code : Option Nat) : State :=
  s.modAux fun y => { y with sbWait := y.sbWait.map fun x => if x.ended.isNone then { x with ended := some code } else x }

/-- The frame `seq` is acknowledged, or no frame is awaited any more because the link is down (R373, R384). -/
def State.sbAcked (s : State) (seq : Option Nat) : State :=
  s.modAux fun y => { y with sbWait := y.sbWait.map fun x => if seq.isNone || x.waitAck == seq then { x with waitAck := none } else x }

/-- The stamped word of a WRITE is still queued. -/
def State.sbQueued (s : State) : Bool := s.plk.actions.any fun a => match a.act with | .writes m _ => sideband m | _ => false

/-- A WRITE that waited for a stamp goes on once the stamp has passed and the frame is acknowledged; one whose action a reset has cleared ends with IN_RESET. -/
def State.sbGoOn (s : State) : State :=
  match s.aux.sbWait with
  | none => s
  | some x =>
    let s' := s.modAux fun y => { y with sbWait := none }
    match x.ended with
    | some code =>
      if x.waitAck.isSome then s
      else (match code with | some c => s'.writeReply x.addr x.done (some c) | none => s'.sbWriteGo x.ws x.addr x.off (x.done + 1))
    | none => if s.sbQueued then s else s'.writeReply x.addr x.done (some eInReset)

/-! ### Accesses that wait (R103, R115) -/

/-- One access that waited is made now, or waits on. -/
def State.runAcc (s : State) (x : BusAcc) : State :=
  match x with
  | .read m a => s.busRead m a
  | .write m a w st =>
    let y := s.busWrite m a w st
    if st && y.2 != .held then (match y.2 with | .refused c => y.1.sbStamped (some c) | _ => y.1.sbStamped none) else y.1
  | .sbRead addr off n got r => if s.sbBusy then s.waitAcc x else s.sbReadGo n addr off got r
  | .sbWrite addr off ws n => if s.sbBusy then s.waitAcc x else State.sbWriteGo ws s addr off n

/-- The accesses that wait are made in their order, as far as nothing holds them any more. -/
def State.settle (s : State) : State :=
  let s := s.sbGoOn
  let l := s.aux.heldAcc
  foldS l (fun x s => s.runAcc x) (s.modAux fun y => { y with heldAcc := [] })

/-! ### Commands (Table 17.3) -/

/-- PING. -/
def State.ping_ (s : State) (addr : Nat) : State :=
  s.sbTo addr fun s => s.sbReply addr sbPing (leBytes 1 stOk ++ leBytes 1 (s.get F.CHN_ADDR) ++ leBytes 8 Config.serial.toNat ++ leBytes 4 (s.reg R.DEV_DEVSTATE).toNat)

/-- OFFSET and the number of words of a READ or WRITE are in range (R404). -/
def sbRange (off n : Nat) : Bool := off % 4 == 0 && decide (1 ≤ n) && decide (n ≤ 255) && decide (off + 4 * n ≤ 0x4000000)

/-- READ. -/
def State.sbReadCmd (s : State) (addr off n : Nat) : State :=
  s.sbTo addr fun s =>
    if !sbRange off n then s.sbReply addr sbRead (leBytes 1 stBadArg)
    else s.runAcc (.sbRead addr off n [] false)

/-- WRITE. -/
def State.sbWriteCmd (s : State) (addr off : Nat) (ws : List Word) : State :=
  s.sbTo addr fun s =>
    if !sbRange off ws.length then s.sbReply addr sbWrite (leBytes 1 stBadArg)
    else s.runAcc (.sbWrite addr off ws 0)

/-- LOG_READ (R406): from SEQ on, or from the oldest record held. FIRST of a reply without records is open (log entry 6). -/
def State.sbLogCmd (s : State) (addr seq max_ : Nat) : State :=
  s.sbTo addr fun s =>
    if max_ = 0 ∨ 31 < max_ then s.sbReply addr sbLogRead (leBytes 1 stBadArg)
    else
      let next := (s.reg R.SBP_LOG_SEQ).toNat
      let have_ := s.aux.log.length
      let want := sdiff 32 next seq
      let k := if want ≤ 0 then 0 else min have_ want.toNat
      let l := (s.aux.log.drop (have_ - k)).take max_
      let x := if l.isEmpty then s.freshWord else (BitVec.ofNat 32 (next + 2 ^ 32 - k), s)
      x.2.sbReply addr sbLogRead (leBytes 1 stOk ++ leBytes 4 x.1.toNat ++ leBytes 1 l.length ++ (l.map Rec.bytes).flatten)

/-- EVT_POLL (R405): entries before ACK are released, then up to MAX of the oldest are returned. -/
def State.sbPollCmd (s : State) (addr ack max_ : Nat) : State :=
  s.sbTo addr fun s =>
    if 31 < max_ then s.sbReply addr sbEvtPoll (leBytes 1 stBadArg)
    else
      let q := s.aux.evq.filter fun r => decide (0 ≤ sdiff 16 r.seq ack)
      let s := if q.length < s.aux.evq.length then (s.modAux fun a => { a with evq := q, evqFull := false }).evqCount else s
      let l := q.take max_
      let first := match q with | r :: _ => r.seq | [] => s.aux.evqSeq
      s.sbReply addr sbEvtPoll (leBytes 1 stOk ++ leBytes 2 first ++ leBytes 1 l.length ++ leBytes 2 (s.get F.SBP_EVQ_LOST) ++ (l.map Rec.bytes).flatten)

/-- ASSIGN (R408): the front takes its address with the reply; CHAIN_OUT follows (R407). -/
def State.sbAssignCmd (s : State) (addr new : Nat) : State :=
  s.sbTo addr fun s =>
    if addr ≠ 0 then s.sbReply addr sbAssign (leBytes 1 stBadCmd)
    else if new = 0 ∨ 62 < new then s.sbReply 0 sbAssign (leBytes 1 stBadArg)
    else
      let s := s.sbReply 0 sbAssign (leBytes 1 stOk ++ leBytes 1 new ++ leBytes 8 Config.serial.toNat)
      let s := (s.put F.CHN_ADDR new).setPad 33 (.follow s.devtime none)
      s.raise { page := P_CHN, bit := 4, detail := leBytes 1 new }

/-- UNASSIGN (R408). -/
def State.sbUnassignCmd (s : State) (key : Nat) : State :=
  s.sbCast (key == 0xC3A5) fun s => ((s.put F.CHN_ADDR 0).setPad 33 .rest).raise { page := P_CHN, bit := 5 }

/-- SET_RATE (R399, R409): the rate changes 2 ms after the frame. -/
def State.sbSetRateCmd (s : State) (key rate : Nat) : State :=
  s.sbCast (key == 0xC3A5 && decide (rate < 4)) fun s => s.modAux fun a => { a with rateNext := some (rate, s.devtime + 2 * ms) }

/-- 2 ms after a SET_RATE frame every unit switches (R409). -/
def State.sbRateSwitch (s : State) : State :=
  match s.aux.rateNext with
  | some (rate, t) => if s.devtime < t then s else (s.put F.SBP_RATE_CUR rate).modAux fun a => { a with rateNext := none }
  | none => s

/-- How a request is unusable (R403): by its command or address, by its payload, or not at all. -/
def sbUnusable (addr cmd : Nat) (l : List Byte) : Option Nat :=
  let cast := decide (addr = 0x3F)
  let unit (good : Bool) : Option Nat := if cast then some stBadCmd else if good then none else some stBadArg
  let all (good : Bool) : Option Nat := if !cast then some stBadCmd else if good then none else some stBadArg
  if cmd = sbPing then unit l.isEmpty
  else if cmd = sbRead then unit (l.length == 5 && sbRange (leAt l 0 4) (byteAt l 4))
  else if cmd = sbWrite then unit (l.length % 4 == 0 && sbRange (leAt l 0 4) (l.length / 4 - 1))
  else if cmd = sbLogRead then unit (l.length == 5 && decide (1 ≤ byteAt l 4) && decide (byteAt l 4 ≤ 31))
  else if cmd = sbEvtPoll then unit (l.length == 3 && decide (byteAt l 2 ≤ 31))
  else if cmd = sbAssign then
    if addr ≠ 0 then some stBadCmd else if l.length = 1 ∧ 1 ≤ byteAt l 0 ∧ byteAt l 0 ≤ 62 then none else some stBadArg
  else if cmd = sbUnassign then all (l.length == 2 && leAt l 0 2 == 0xC3A5)
  else if cmd = sbSetRate then all (l.length == 3 && leAt l 0 2 == 0xC3A5 && decide (byteAt l 2 < 4))
  else if cmd = sbEpochArm then all (l.length == 8)
  else some stBadCmd

/-- An unusable request is answered with BAD_CMD or BAD_ARG, or ignored and counted if it is a broadcast (R403); a usable one is a command of its own and not this event. -/
def State.sbUnusableCmd (s : State) (addr cmd : Nat) (l : List Byte) : State :=
  match sbUnusable addr cmd l with
  | some st => s.sbTo addr fun s => s.sbReply addr cmd (leBytes 1 st)
  | none => s

/-! ### The chain epoch (R412, R413) -/

/-- The pin SYNC_OUT is driven. -/
def State.syncDrives (s : State) : Bool := match s.pad 12 with | .driving _ => true | _ => false

/-- EPOCH_ARM arms an enabled unit and replaces an arm that is pending; it is ignored without VIN. -/
def State.sbEpochCmd (s : State) (epoch : Nat) : State :=
  s.sbCast true fun s =>
    if !s.aux.vin || !s.on F.CHN_SYNC_CFG_EN then s
    else
      let s := s.put64 R.CHN_EPOCH_LO epoch
      if s.on F.CHN_SYNC_CFG_SOURCE then
        if s.devtime + 8000 ≤ epoch then (s.put F.CHN_SYNC_STAT_ARMED 1).modAux fun a => { a with arm := some (epoch, none) }
        else ((s.put F.CHN_SYNC_STAT_ARMED 0).modAux fun a => { a with arm := none }).raise { page := P_CHN, bit := 7 }
      else (s.put F.CHN_SYNC_STAT_ARMED 1).modAux fun a => { a with arm := some (epoch, some (s.devtime + 1000 * ms)) }

/-- An epoch is taken at `t` with the offset `ofs`: SYNC_DONE. -/
def State.epochTaken (s : State) (t : Nat) (ofs : Int) : State :=
  let s := (s.putInt64 R.CHN_CHAIN_OFS_LO ofs).put64 R.CHN_SYNC_EDGE_LO t
  let s := ((s.put F.CHN_SYNC_STAT_ARMED 0).put F.CHN_SYNC_STAT_VALID 1).satAdd F.CHN_SYNC_STAT_COUNT 1
  (s.modAux fun a => { a with arm := none }).raise { page := P_CHN, bit := 6, detail := leBytes 4 (unsignedOf 32 ofs) }

/-- The source's DEVTIME reaches EPOCH (R412). -/
def State.epochPulse (s : State) : State :=
  match s.aux.arm with
  | some (e, none) =>
    let s := s.atTime e
    let s := if s.syncDrives then s.emit (.syncPulse e) else s
    s.epochTaken e 0
  | _ => s

/-- A qualified SYNC_IN edge at `t` (R412, R413): a forwarder repeats it, and an armed unit that is not the source takes it. -/
def State.syncEdge (s : State) (t : Nat) : State :=
  let s := s.atTime t
  let s := if s.syncDrives && s.on F.CHN_SYNC_CFG_FWD && !s.on F.CHN_SYNC_CFG_SOURCE then s.emit (.syncPulse t) else s
  match s.aux.arm with
  | some (e, some due) =>
    if t ≤ due then s.epochTaken t ((e : Int) + (s.get F.CHN_SYNC_DELAY : Int) - (t : Int)) else s
  | _ => s

/-- An arm has seen no edge within 1 s (R413). -/
def State.armExpiry (s : State) : State :=
  match s.aux.arm with
  | some (_, some due) =>
    if s.devtime < due then s
    else ((s.put F.CHN_SYNC_STAT_ARMED 0).modAux fun a => { a with arm := none }).raise { page := P_CHN, bit := 8 }
  | _ => s

/-- CHAIN_IN qualifies at a level (R407). -/
def State.chainIn (s : State) (high : Bool) : State := if s.sbAlive then s.put F.CHN_STAT_CHAIN_IN (b2n high) else s

/-! ### Stamped actions at their stamp (R373) -/

/-- One write of a stamped action. -/
def State.stampedWrite (s : State) (m : Master) (a : Nat) (w : Word) : State := s.runAcc (.write m a w true)

/-- The first queued action is applied at its stamp. -/
def State.actionStamp (s : State) : State :=
  match s.plk.actions with
  | [] => s
  | q :: rest =>
    let s := (s.atTime q.stamp).modPlk fun p => { p with actions := rest }
    let s := match q.act with
      | .writes m ws => foldS ws (fun e (s : State) => s.stampedWrite m e.1 e.2) s
      | .handover => s.handoverAt
      | .start k => (s.jobStart k true).1
      | .phase k b v => s.phaseQueue k b v
    (s.fabricEnd 1).settle

end Sys2Proof.Machine
end

