-- ==== Sys2Proof/Machine/Tap.lean ====
section
/-!
DEFINITION. Sys2Proof/Machine/Tap.lean: the JTAG port's instructions (R51, R446) and the host watchdog (R149, R150).
-/
namespace Sys2Proof.Machine

open Sys2Proof

/-! ### The TAP (Table 19.9) -/

def irExtest : Nat := 0x00
def irIdcode : Nat := 0x01
def irSample : Nat := 0x02
def irExtestPulse : Nat := 0x08
def irExtestTrain : Nat := 0x09
def irDbgReset : Nat := 0x20
def irRegAccess : Nat := 0x21

/-- The instructions while which the boundary register drives the pins (R51). -/
def irDrives (ir : Nat) : Bool := ir == irExtest || ir == irExtestPulse || ir == irExtestTrain

/-- The codes that Table 19.9 lists, but for BYPASS. -/
def irListed (ir : Nat) : Bool := ir == irIdcode || ir == irSample || irDrives ir || ir == irDbgReset || ir == irRegAccess

/-- An instruction is loaded. The TAP is in the AUX island and needs VAUX. -/
def State.tapLoad (s : State) (ir : Nat) : State := s.modAux fun a => { a with tap := { a.tap with ir := ir } }

/-- An EXTEST instruction: the boundary register, shifted to new cells or left as it is, drives the pins (R51). -/
def State.tapDrive (s : State) (ir : Nat) (cells : Option (List Bool)) : State :=
  if !s.aux.vaux then s
  else
    let l := cells.getD s.aux.tap.cells
    ((s.tapLoad ir).modAux fun a => { a with tap := { a.tap with cells := l } }).emit (.boundary ir l)

/-- IDCODE: the 32 bits of the identification register, least significant first (R446). -/
def State.tapIdcode (s : State) : State :=
  if !s.aux.vaux then s
  else (s.tapLoad irIdcode).emit (.tdo ((List.range 32).map fun i => bit (0x18210000 + Config.idcodeLow.toNat) i))

/-- SAMPLE/PRELOAD: the pins are sampled and shifted out; the boundary register takes what is shifted in, or the sample. -/
def State.tapSample (s : State) (pins : List Bool) (load : Option (List Bool)) : State :=
  if !s.aux.vaux then s
  else ((s.tapLoad irSample).modAux fun a => { a with tap := { a.tap with cells := load.getD pins } }).emit (.tdo pins)

/-- BYPASS, or a code that is not listed (R446): one register bit between TDI and TDO. A listed code is an instruction of its own and not this one. -/
def State.tapBypass (s : State) (code : Nat) : State := if !s.aux.vaux || irListed (code % 256) then s else s.tapLoad (code % 256)

/-- DBGRESET: a reset with the scope of software ALL (Table 3.6, R446). -/
def State.tapDbgReset (s : State) : State := if !s.aux.vaux then s else (s.tapLoad irDbgReset).resetAll srcDebug

/-- REGACCESS: a read or a write of a BAR 0 word by the DEBUG requester (R446); under NO_REGACCESS reads return 0 and writes are discarded (R447). -/
def State.tapRegAccess (s : State) (a : Nat) (w : Option Word) : State :=
  if !s.aux.vaux then s
  else
    let s := s.tapLoad irRegAccess
    match w with
    | some v => if s.aux.regLock then s else (((s.busWrite .debug a v false).1).fabricAccess (fabricReq .debug)).settle
    | none => if s.aux.regLock then s.emit (.readReply .debug 0) else ((s.busRead .debug a).fabricAccess (fabricReq .debug)).settle

/-- Test-Logic-Reset: IDCODE is loaded; leaving an EXTEST instruction this way returns every pin to rest (R51). -/
def State.tapReset (s : State) : State :=
  let drove := irDrives s.aux.tap.ir
  let s := s.modAux fun a => { a with tap := { a.tap with ir := irIdcode } }
  if drove then (foldS (List.range 35) (fun p s => s.setPad p .rest) s).put F.PAR_STAT_HOLD_OUT 0 else s

/-! ### The host watchdog (R149) -/

/-- Half the period has passed without a kick. -/
def State.wdtWarn (s : State) : State :=
  if s.on F.DEV_WDT_CTRL_EN && !s.on F.DEV_WDT_STAT_WARNED && decide (s.aux.wdtStart + s.get F.DEV_WDT_PERIOD_PERIOD * 20000 ≤ s.devtime) then
    let s := (s.put F.DEV_WDT_STAT_WARNED 1).raise { page := P_DEV, bit := 6 }
    if s.on F.DEV_WDT_CTRL_WARN_EN then s.sendMsix 64 else s
  else s

/-- The watchdog reaches zero: the host-watchdog reset of Table 3.6. -/
def State.wdtExpired (s : State) : State :=
  if s.on F.DEV_WDT_CTRL_EN && decide (s.aux.wdtStart + s.get F.DEV_WDT_PERIOD_PERIOD * 40000 ≤ s.devtime) then
    let s := ((s.put F.DEV_WDT_STAT_EXPIRED 1).put F.DEV_WDT_CTRL_EN 0).raise { page := P_DEV, bit := 7 }
    (s.resetBy srcWatchdog [3, 4, 5, 6]).settle
  else s

end Sys2Proof.Machine
end

