-- ==== Sys2Proof/Machine/CmdPower.lean ====
section
/-!
DEFINITION. Sys2Proof/Machine/CmdPower.lean: the commands of supplies, clocks, resets and block control (chapters 3 and 4), and how a master's access comes in.
-/
namespace Sys2Proof.Machine

open Sys2Proof

/-! ### Accesses of a master -/

/-- A master reaches BAR 0: the host through its BARs (R125), the side-band while it answers (R410), the JTAG port with VAUX and without NO_REGACCESS (R447). The clasp engine
and the pair-apply requester act only for a clasp and a stamped action (R103, R373). -/
def State.reaches (s : State) (m : Master) : Bool :=
  match m with
  | .host => s.barOpen
  | .sideband => s.sbAlive
  | .debug => s.aux.vaux && !s.aux.regLock
  | .claspEngine | .pairApply => false

/-- The access has been made: it counts in a batch that the master holds of the register fabric (Table 12.4), and accesses that waited go on. -/
def State.accessed (s : State) (m : Master) : State := (s.fabricAccess (fabricReq m)).settle

/-- A master writes the word at BAR 0 offset `a`. -/
def State.cmdWrite (s : State) (m : Master) (a : Nat) (w : Word) : State :=
  if s.reaches m then (s.busWrite m a w false).1.accessed m else s

/-- A master reads the word at BAR 0 offset `a`. -/
def State.cmdRead (s : State) (m : Master) (a : Nat) : State := if s.reaches m then (s.busRead m a).accessed m else s

/-! ### Supplies and regulators (R62 to R66) -/

/-- VAUX_POWER_ON. -/
def execVauxPowerOn (s : State) : Host.Outcome State Fault Refusal := .next s.vauxPowerOn.settle

/-- VAUX_BROWN_OUT. -/
def execVauxBrownOut (s : State) : Host.Outcome State Fault Refusal := .next s.vauxBrownOut.settle

/-- VIN_VALID. -/
def execVinValid (s : State) : Host.Outcome State Fault Refusal := .next s.vinValid.settle

/-- VIN_BROWN_OUT. -/
def execVinBrownOut (s : State) : Host.Outcome State Fault Refusal := .next s.vinBrownOut.settle

/-- REGULATOR_FAULT: the rails at fault by their order (Table 3.3), and whether VIN is over its limit. -/
def execRegulatorFault (rails : List Nat) (high : Bool) (s : State) : Host.Outcome State Fault Refusal := .next (if s.aux.vaux then (s.regulatorFault rails high).settle else s)

/-- REGULATOR_RESTART. -/
def execRegulatorRestart (s : State) : Host.Outcome State Fault Refusal := .next (if s.aux.vaux then s.regulatorRestart.settle else s)

/-- REGULATOR_START_SUCCESS: the rails have stayed in regulation for 1 s, so faults count from 0 again (R66). -/
def execRegulatorStartSuccess (s : State) : Host.Outcome State Fault Refusal :=
  .next (if s.aux.vaux && s.aux.railsUp then s.put F.PWR_REG_FAULT_COUNT 0 else s)

/-- RAILS_IN_REGULATION. -/
def execRailsInRegulation (s : State) : Host.Outcome State Fault Refusal := .next (if s.aux.vaux then s.railsReady.settle else s)

/-- VAUX_RETURN. -/
def execVauxReturn (s : State) : Host.Outcome State Fault Refusal := .next s.vauxReturn.settle

/-! ### Trim, clocks and the release sequence (R67 to R71, R81 to R84) -/

/-- TRIM_LOAD_COMPLETE: whether the image could be read, the CRC-32C of its bytes, and the 16 samples of each strap pin at the start of the load. -/
def execTrimLoadComplete (whole : Bool) (crc : Word) (straps : List (List PadSample)) (s : State) : Host.Outcome State Fault Refusal :=
  .next (if s.aux.vaux then (s.trimLoaded whole crc straps).settle else s)

/-- ISLAND_CLOCK_QUALIFIED: the island, and for HOST what the check of REFCLK found. -/
def execIslandClockQualified (island : Nat) (refclk : Bool) (s : State) : Host.Outcome State Fault Refusal := .next (if s.aux.vaux then (s.clockQualified island refclk).settle else s)

/-- DRAM_TRAINING_COMPLETE: the results of the channels. -/
def execDramTrainingComplete (results : List Machine.ChannelTrained) (s : State) : Host.Outcome State Fault Refusal := .next (if s.aux.vaux then (s.trainingEnd results).settle else s)

/-- CLOCK_FAILURE: the islands that failed with their frequency errors in 0.01 %. -/
def execClockFailure (islands : List (Nat × Int)) (s : State) : Host.Outcome State Fault Refusal := .next (if s.aux.vaux then (s.clockFailure islands).settle else s)

/-- AUX_OSCILLATOR_FAILURE: with the frequency error in 0.01 %. -/
def execAuxOscillatorFailure (err : Int) (s : State) : Host.Outcome State Fault Refusal := .next (if s.aux.vaux then (s.oscFailure err).settle else s)

/-- AUX_OSCILLATOR_RETURN. -/
def execAuxOscillatorReturn (s : State) : Host.Outcome State Fault Refusal := .next (if s.aux.vaux then s.oscReturn.settle else s)

/-- FABRIC_LOCK_UP: the island that did not answer, and the host reads that were pending there. -/
def execFabricLockUp (island : Nat) (reads : Nat) (s : State) : Host.Outcome State Fault Refusal := .next (if s.aux.vaux then (s.lockUp island reads).settle else s)

/-- TRIM_INVALID: the scrub of the trim results finds a parity error (R84). -/
def execTrimInvalid (s : State) : Host.Outcome State Fault Refusal := .next (if s.aux.vaux then (s.resetAll srcScrub).settle else s)

/-- DEVTIME_SAVE at DEVTIME `t`: the whole multiple of 400,000 that the replica has passed is saved, unless a log record has saved a later value (R71). -/
def execDevtimeSave (t : Nat) (s : State) : Host.Outcome State Fault Refusal :=
  .next (if s.aux.vaux then let s := s.atTime t; s.modAux fun a => { a with savedTime := max a.savedTime (s.devtime / 400000 * 400000) } else s)

/-! ### Reset pins and register resets (R72 to R80, R83, R88) -/

/-- RESET_N: low for at least 1 µs. -/
def execResetN (s : State) : Host.Outcome State Fault Refusal := .next s.resetNLow.settle

/-- RESET_N_RELEASE. -/
def execResetNRelease (s : State) : Host.Outcome State Fault Refusal := .next s.resetNHigh.settle

/-- PERST_N_ASSERT. -/
def execPerstNAssert (s : State) : Host.Outcome State Fault Refusal := .next s.perstAssert.settle

/-- PERST_N_DEASSERT. -/
def execPerstNDeassert (s : State) : Host.Outcome State Fault Refusal := .next s.perstDeassert.settle

/-- The word that SWRST takes with its key. -/
def swrstWord (scope : Nat) : Word := 0xA5C30000#32 ||| BitVec.ofNat 32 scope

/-- SWRST_CORE. -/
def execSwrstCore (m : Master) (s : State) : Host.Outcome State Fault Refusal := .next (s.cmdWrite m R.RSC_SWRST (swrstWord 1))

/-- SWRST_CORE_MEM. -/
def execSwrstCoreMem (m : Master) (s : State) : Host.Outcome State Fault Refusal := .next (s.cmdWrite m R.RSC_SWRST (swrstWord 2))

/-- SWRST_ALL. -/
def execSwrstAll (m : Master) (s : State) : Host.Outcome State Fault Refusal := .next (s.cmdWrite m R.RSC_SWRST (swrstWord 3))

/-- BOOT_CONTINUE. -/
def execBootContinue (m : Master) (s : State) : Host.Outcome State Fault Refusal := .next (s.cmdWrite m R.RSC_BOOT_CTRL 1)

/-- ISL_HOLD_SET: the bit of one island is set, the other bits stay. -/
def execIslHoldSet (m : Master) (island : Nat) (s : State) : Host.Outcome State Fault Refusal :=
  .next (s.cmdWrite m R.RSC_ISL_HOLD (s.reg R.RSC_ISL_HOLD ||| BitVec.ofNat 32 (2 ^ island)))

/-- ISL_HOLD_CLEAR: the bit of one island is cleared, the other bits stay. -/
def execIslHoldClear (m : Master) (island : Nat) (s : State) : Host.Outcome State Fault Refusal :=
  .next (s.cmdWrite m R.RSC_ISL_HOLD (s.reg R.RSC_ISL_HOLD &&& ~~~(BitVec.ofNat 32 (2 ^ island))))

/-! ### Block control and event bits (R86, R90 to R94) -/

/-- BLOCK_ENABLE: `block` gives the BLOCK bits, CTRL[31:8]. -/
def execBlockEnable (m : Master) (page block : Nat) (s : State) : Host.Outcome State Fault Refusal :=
  .next (s.cmdWrite m (R.CTRL page) (BitVec.ofNat 32 (256 * block + 1)))

/-- BLOCK_DISABLE. -/
def execBlockDisable (m : Master) (page block : Nat) (s : State) : Host.Outcome State Fault Refusal :=
  .next (s.cmdWrite m (R.CTRL page) (BitVec.ofNat 32 (256 * block)))

/-- BLOCK_SRST. -/
def execBlockSrst (m : Master) (page block : Nat) (s : State) : Host.Outcome State Fault Refusal :=
  .next (s.cmdWrite m (R.CTRL page) (BitVec.ofNat 32 (256 * block + 2)))

/-- DRAIN_COMPLETE: the draining block of a page has nothing left to do. -/
def execDrainComplete (page : Nat) (s : State) : Host.Outcome State Fault Refusal := .next (if s.pageUp page then (s.blockDrained page).settle else s)

/-- EVT_PEND_CLEAR: the bits written 1; those of `same`, of which an occurrence falls into the same cycle, stay (R93). -/
def execEvtPendClear (m : Master) (page : Nat) (w same : Word) (s : State) : Host.Outcome State Fault Refusal :=
  .next (s.cmdWrite m (R.EVT_PEND page) (w &&& ~~~same))

/-- EVT_FORCE. -/
def execEvtForce (m : Master) (page : Nat) (w : Word) (s : State) : Host.Outcome State Fault Refusal := .next (s.cmdWrite m (R.EVT_FORCE page) w)

end Sys2Proof.Machine
end

