-- ==== Sys2Proof/Machine/CmdHost.lean ====
section
/-!
DEFINITION. Sys2Proof/Machine/CmdHost.lean: the commands of register accesses, outputs, clasps, the PCIe link, rings and the watchdog (chapters 2, 4 and 5).
-/
namespace Sys2Proof.Machine

open Sys2Proof

/-! ### Register accesses (R7, R8, R95 to R106) -/

/-- REGISTER_WRITE: the bytes of the access from BAR 0 offset `a` on, with none for a byte that is not enabled. -/
def execRegisterWrite (m : Master) (a : Nat) (bytes : List (Option Byte)) (s : State) : Host.Outcome State Fault Refusal :=
  .next (if s.reaches m then (s.wideWrite m a bytes).1.accessed m else s)

/-- LO_HALF_READ. -/
def execLoHalfRead (m : Master) (a : Nat) (s : State) : Host.Outcome State Fault Refusal := .next (s.cmdRead m a)

/-- LO_HALF_WRITE. -/
def execLoHalfWrite (m : Master) (a : Nat) (w : Word) (s : State) : Host.Outcome State Fault Refusal := .next (s.cmdWrite m a w)

/-- HI_HALF_WRITE. -/
def execHiHalfWrite (m : Master) (a : Nat) (w : Word) (s : State) : Host.Outcome State Fault Refusal := .next (s.cmdWrite m a w)

/-- POP_READ of record ring `n`. -/
def execPopRead (m : Master) (n : Nat) (s : State) : Host.Outcome State Fault Refusal := .next (s.cmdRead m (R.DMA_RING_POP n))

/-- LAT_CNT_READ of trigger `t`. -/
def execLatCntRead (m : Master) (t : Nat) (s : State) : Host.Outcome State Fault Refusal := .next (s.cmdRead m (R.POS_LAT_CNT t))

/-- CMP_FRAC_READ of bar `b`. -/
def execCmpFracRead (m : Master) (b : Nat) (s : State) : Host.Outcome State Fault Refusal := .next (s.cmdRead m (R.LCK_CMP_FRAC b))

/-- LINE64_LO_READ of bar `b`. -/
def execLine64LoRead (m : Master) (b : Nat) (s : State) : Host.Outcome State Fault Refusal := .next (s.cmdRead m (R.TMB_LINE64_LO b))

/-- EVT_LOST_READ. -/
def execEvtLostRead (m : Master) (s : State) : Host.Outcome State Fault Refusal := .next (s.cmdRead m R.EVT_LOST)

/-- ARRAY_WINDOW_WRITE. -/
def execArrayWindowWrite (m : Master) (a : Nat) (w : Word) (s : State) : Host.Outcome State Fault Refusal := .next (s.cmdWrite m a w)

/-- LOG_FROM_WRITE. -/
def execLogFromWrite (m : Master) (w : Word) (s : State) : Host.Outcome State Fault Refusal := .next (s.cmdWrite m R.EVT_LOG_FROM w)

/-! ### Outputs (R41 to R49) -/

/-- The register that holds the enable bit of a pad, and its bit. -/
def enableBit (pad : Nat) : Nat × Nat := if pad < 16 then (R.DEV_OUTGRP_EN, pad) else (R.DEV_GPIO_OE, pad - 16)

/-- OUTPUT_ENABLE of a group (0 to 14) or GPIO pin (16 to 31). -/
def execOutputEnable (m : Master) (pad : Nat) (s : State) : Host.Outcome State Fault Refusal :=
  let e := enableBit pad
  .next (s.cmdWrite m e.1 (s.reg e.1 ||| BitVec.ofNat 32 (2 ^ e.2)))

/-- OUTPUT_DISABLE of a group or GPIO pin. -/
def execOutputDisable (m : Master) (pad : Nat) (s : State) : Host.Outcome State Fault Refusal :=
  let e := enableBit pad
  .next (s.cmdWrite m e.1 (s.reg e.1 &&& ~~~(BitVec.ofNat 32 (2 ^ e.2))))

/-- REST_FOLLOW_DONE: the 16 samples of each signal of a pad in its rest-follow, 400 ns after it began (Table 2.7). -/
def execRestFollowDone (pad : Nat) (samples : List (List PadSample)) (s : State) : Host.Outcome State Fault Refusal :=
  .next (if !s.up 0 then s else match s.pad pad with
    | .follow start held => (s.atTime (start + 160)).followDone pad samples held
    | _ => s)

/-! ### Clasps (R107 to R119) -/

/-- CLASP_OPEN of slot `k`. -/
def execClaspOpen (m : Master) (k : Nat) (s : State) : Host.Outcome State Fault Refusal := .next (s.cmdWrite m (R.CLS_CMD k) 1)

/-- CLASP_DATA of slot `k`. -/
def execClaspData (m : Master) (k : Nat) (w : Word) (s : State) : Host.Outcome State Fault Refusal := .next (s.cmdWrite m (R.CLS_DATA k) w)

/-- CLASP_COMMIT of slot `k`. -/
def execClaspCommit (m : Master) (k : Nat) (s : State) : Host.Outcome State Fault Refusal := .next (s.cmdWrite m (R.CLS_CMD k) 2)

/-- CLASP_ABORT of slot `k`. -/
def execClaspAbort (m : Master) (k : Nat) (s : State) : Host.Outcome State Fault Refusal := .next (s.cmdWrite m (R.CLS_CMD k) 3)

/-- CLASP_FREE of slot `k`. -/
def execClaspFree (m : Master) (k : Nat) (s : State) : Host.Outcome State Fault Refusal := .next (s.cmdWrite m (R.CLS_CMD k) 4)

/-- CLASP_COMMIT_POINT of slot `k`. -/
def execClaspCommitPoint (k : Nat) (s : State) : Host.Outcome State Fault Refusal := .next (if s.up 3 then (s.claspPoint k).settle else s)

/-- CLASP_APPLY_COMPLETE of slot `k`: the accesses that the apply held are made (R103, R115). -/
def execClaspApplyComplete (k : Nat) (s : State) : Host.Outcome State Fault Refusal :=
  .next (if s.up 3 && s.slotState k == clApplying then ((s.claspDone k).fabricEnd (fabricReq .claspEngine)).settle else s)

/-- CLASP_BATCH_DESCRIPTOR of slot 12 + `r`. -/
def execClaspBatchDescriptor (r : Nat) (s : State) : Host.Outcome State Fault Refusal := .next (if s.up 3 then (s.batchStart r).settle else s)

/-- CLASP_LIST_FETCHED of slot 12 + `r`, with the bytes of the list. -/
def execClaspListFetched (r : Nat) (data : List Byte) (s : State) : Host.Outcome State Fault Refusal := .next (if s.up 3 then (s.batchFetched r (some data)).settle else s)

/-! ### The PCIe link (R121 to R132) -/

/-- PCIE_LINK_UP: whether the function is configuration-ready, the speed and the width. -/
def execPcieLinkUp (ready : Bool) (speed width : Nat) (s : State) : Host.Outcome State Fault Refusal := .next (s.linkUpHost ready speed width).settle

/-- HOT_RESET. -/
def execHotReset (s : State) : Host.Outcome State Fault Refusal := .next s.hotReset.settle

/-- DATA_LINK_DOWN. -/
def execDataLinkDown (s : State) : Host.Outcome State Fault Refusal := .next s.hotReset.settle

/-- PCIE_CONFIG_WRITE: Bus Master Enable, Memory Space Enable, and whether the power state is D3hot. -/
def execPcieConfigWrite (busMaster memSpace d3hot : Bool) (s : State) : Host.Outcome State Fault Refusal := .next (if s.hostUp then s.configWrite busMaster memSpace d3hot else s)

/-- PCIE_LINK_RECOVERY: whether the link returns to L0, with its speed and width. -/
def execPcieLinkRecovery (back : Bool) (speed width : Nat) (s : State) : Host.Outcome State Fault Refusal := .next (if s.hostUp then s.linkRecovery back speed width else s)

/-- BAR2_WRITE: the bytes of the access from BAR 2 offset `a` on, with none for a byte that is not enabled. -/
def execBar2Write (a : Nat) (bytes : List (Option Byte)) (s : State) : Host.Outcome State Fault Refusal := .next (if s.barOpen then s.bar2Write a bytes else s)

/-! ### Rings (R133 to R147) -/

/-- SUBMISSION_DOORBELL. -/
def execSubmissionDoorbell (n : Nat) (w : Word) (s : State) : Host.Outcome State Fault Refusal := .next (s.cmdWrite .host (R.DMA_RING_PROD n) w)

/-- RECORD_RING_CONS_WRITE. -/
def execRecordRingConsWrite (n : Nat) (w : Word) (s : State) : Host.Outcome State Fault Refusal := .next (s.cmdWrite .host (R.DMA_RING_CONS n) w)

/-- RING_ENABLE: CFG with RING_EN = 1. -/
def execRingEnable (n : Nat) (cfg : Word) (s : State) : Host.Outcome State Fault Refusal := .next (s.cmdWrite .host (R.DMA_RING_CFG n) (cfg ||| 0x20#32))

/-- RING_DISABLE: CFG with RING_EN = 0. -/
def execRingDisable (n : Nat) (cfg : Word) (s : State) : Host.Outcome State Fault Refusal := .next (s.cmdWrite .host (R.DMA_RING_CFG n) (cfg &&& ~~~0x20#32))

/-- DESCRIPTOR_FETCHED: the 32 bytes read from host memory. -/
def execDescriptorFetched (n : Nat) (bytes : List Byte) (s : State) : Host.Outcome State Fault Refusal := .next (if s.hostUp then s.descriptorFetched n bytes else s)

/-- DMA_READ_ERROR: the ring, the class of the read (Table 5.6), and how it failed. -/
def execDmaReadError (n cls : Nat) (err : Machine.ReadError) (s : State) : Host.Outcome State Fault Refusal := .next (if s.hostUp then (s.dmaReadError n cls err).refetchCheck.settle else s)

/-- COALESCE_TIMEOUT of ring `n` at DEVTIME `t`. -/
def execCoalesceTimeout (t n : Nat) (s : State) : Host.Outcome State Fault Refusal := .next (if s.hostUp then (s.atTime t).coalesce n else s)

/-- HELD_RECORD_FLUSH. -/
def execHeldRecordFlush (n : Nat) (s : State) : Host.Outcome State Fault Refusal := .next (if s.hostUp then s.ringWrite n else s)

/-! ### The host watchdog (R148 to R151) -/

/-- WDT_KICK. -/
def execWdtKick (w : Word) (s : State) : Host.Outcome State Fault Refusal := .next (s.cmdWrite .host R.DEV_WDT_KICK w)

/-- WDT_WARN at DEVTIME `t`. -/
def execWdtWarn (t : Nat) (s : State) : Host.Outcome State Fault Refusal := .next (if s.up 0 then (s.atTime t).wdtWarn else s)

/-- WDT_EXPIRED at DEVTIME `t`. -/
def execWdtExpired (t : Nat) (s : State) : Host.Outcome State Fault Refusal := .next (if s.up 0 then (s.atTime t).wdtExpired else s)

/-- WDT_STOP, by the host or the side-band. -/
def execWdtStop (m : Master) (w : Word) (s : State) : Host.Outcome State Fault Refusal := .next (s.cmdWrite m R.RSC_WDT_STOP w)

end Sys2Proof.Machine
end

