-- ==== Sys2Proof/Machine/CmdImage.lean ====
section
/-!
DEFINITION. Sys2Proof/Machine/CmdImage.lean: the commands of jobs, the image store, the dictionary codec, screening and nozzle correction (chapters 5 to 8).
-/
namespace Sys2Proof.Machine

open Sys2Proof

/-! ### Job markers (R143 to R145) -/

/-- A START of stream `k` is stamped and not yet applied. -/
def State.startQueued (s : State) (k : Nat) : Bool := s.plk.actions.any fun a => a.act == .start k

/-- JOB_START of stream `k`: a SOLO unit consumes it, the ACTIVE stamps its consumption, and another unit waits for the stamp (R145). -/
def execJobStart (k : Nat) (s : State) : Host.Outcome State Fault Refusal :=
  .next (if !s.up 3 then s else match s.role with
    | .solo => (s.jobStart k true).1
    | .active =>
      if s.startQueued k then s
      else
        let x := s.jobStart k false
        if x.2 then x.1.stampAction (.start k) else x.1
    | _ => s)

/-- JOB_END of stream `k`. -/
def execJobEnd (k : Nat) (s : State) : Host.Outcome State Fault Refusal := .next (if s.up 3 then s.jobEnd k else s)

/-- JOB_STOP of stream `k`. -/
def execJobStop (k : Nat) (s : State) : Host.Outcome State Fault Refusal := .next (if s.up 3 then s.jobStop k else s)

/-! ### Tiles (R152 to R175) -/

/-- TILE_LOAD of bar `b`. -/
def execTileLoad (b : Nat) (s : State) : Host.Outcome State Fault Refusal := .next (if s.up 3 then s.tileLoad b else s)

/-- TILE_STREAM of bar `b`. -/
def execTileStream (b : Nat) (s : State) : Host.Outcome State Fault Refusal := .next (if s.up 3 then s.tileStream b else s)

/-- TILE_PRINT of bar `b`. -/
def execTilePrint (b : Nat) (s : State) : Host.Outcome State Fault Refusal := .next (if s.up 3 then s.tilePrint b else s)

/-- TILE_FREE of bar `b`. -/
def execTileFree (b : Nat) (s : State) : Host.Outcome State Fault Refusal := .next (if s.up 3 then s.tileFree b else s)

/-- LOAD_READ_COMPLETE of bar `b`: the bytes of one tile, with its header. -/
def execLoadReadComplete (b : Nat) (data : List Byte) (s : State) : Host.Outcome State Fault Refusal := .next (if s.up 3 then (s.loadRead b data).refetchCheck else s)

/-- PRINT_PASS_END of bar `b`. -/
def execPrintPassEnd (b : Nat) (s : State) : Host.Outcome State Fault Refusal := .next (if s.up 3 then s.passEnd b else s)

/-- PLANE_RELEASE_COMPLETE of plane `p` of bar `b`. -/
def execPlaneReleaseComplete (b p : Nat) (s : State) : Host.Outcome State Fault Refusal := .next (if s.up 3 then s.planeRelease b p else s)

/-- TILE_DECODE_DONE of decoder lane `lane`. -/
def execTileDecodeDone (lane : Nat) (s : State) : Host.Outcome State Fault Refusal := .next (if s.up 3 then s.tileDecoded lane else s)

/-- TILE_COPY_DONE: the copy engine has written the tile of bar `b`. -/
def execTileCopyDone (b : Nat) (s : State) : Host.Outcome State Fault Refusal := .next (if s.up 3 then s.tileCopied b else s)

/-- LANE_STALL_RESUME of decoder lane `lane`, or of the copy engine (32). -/
def execLaneStallResume (lane : Nat) (s : State) : Host.Outcome State Fault Refusal := .next (if s.up 3 then s.stallResume lane else s)

/-! ### The codec (R176 to R187): `host` is what host memory holds of the source, `ctx` of the context slot -/

/-- CODEC_ENCODE_TILE on codec ring `k`. -/
def execCodecEncodeTile (k : Nat) (host ctx : List Byte) (s : State) : Host.Outcome State Fault Refusal := .next (if s.up 3 then s.codecTake k 1 host ctx else s)

/-- CODEC_ENCODE_STREAM on codec ring `k`. -/
def execCodecEncodeStream (k : Nat) (host ctx : List Byte) (s : State) : Host.Outcome State Fault Refusal := .next (if s.up 3 then s.codecTake k 2 host ctx else s)

/-- CODEC_DECODE_TILE on codec ring `k`. -/
def execCodecDecodeTile (k : Nat) (host ctx : List Byte) (s : State) : Host.Outcome State Fault Refusal := .next (if s.up 3 then s.codecTake k 3 host ctx else s)

/-- CODEC_DECODE_STREAM on codec ring `k`. -/
def execCodecDecodeStream (k : Nat) (host ctx : List Byte) (s : State) : Host.Outcome State Fault Refusal := .next (if s.up 3 then s.codecTake k 4 host ctx else s)

/-- CODEC_RESUME on codec ring `k`. -/
def execCodecResume (k : Nat) (host ctx : List Byte) (s : State) : Host.Outcome State Fault Refusal := .next (if s.up 3 then s.codecTake k 5 host ctx else s)

/-- CODEC_DISCARD on codec ring `k`. -/
def execCodecDiscard (k : Nat) (host ctx : List Byte) (s : State) : Host.Outcome State Fault Refusal := .next (if s.up 3 then s.codecTake k 6 host ctx else s)

/-- CODEC_JOB_COMPLETE on codec ring `k`. -/
def execCodecJobComplete (k : Nat) (s : State) : Host.Outcome State Fault Refusal := .next (if s.up 3 then s.codecComplete k else s)

/-! ### Screening (R188 to R213) -/

/-- SCREENING_COMPLETE of bar `b`. -/
def execScreeningComplete (b : Nat) (s : State) : Host.Outcome State Fault Refusal := .next (if s.up 3 then s.screenDone b else s)

/-- MASK_CHECK: the CHK bits. -/
def execMaskCheck (m : Master) (sets : Nat) (s : State) : Host.Outcome State Fault Refusal := .next (s.cmdWrite m R.SCN_MASK_CMD (BitVec.ofNat 32 sets))

/-- MASK_CHECK_DONE of mask set `k`. -/
def execMaskCheckDone (k : Nat) (s : State) : Host.Outcome State Fault Refusal := .next (if s.up 3 then s.maskCheckDone k else s)

/-! ### Nozzle correction (R214 to R231) -/

/-- PASS_CMD: the bars, as bits. -/
def execPassCmd (m : Master) (bars : Nat) (s : State) : Host.Outcome State Fault Refusal := .next (s.cmdWrite m R.NZC_PASS_CMD (BitVec.ofNat 32 bars))

/-- DENSITY_REPORT of bar `b`. -/
def execDensityReport (b : Nat) (s : State) : Host.Outcome State Fault Refusal := .next (if s.up 3 then s.densityReport b else s)

/-- DENSITY_STAGED of bar `b`: the bytes of the report. -/
def execDensityStaged (b : Nat) (data : List Byte) (s : State) : Host.Outcome State Fault Refusal := .next (if s.up 3 then s.densityStaged b data else s)

/-- NZC_LOAD_DONE. -/
def execNzcLoadDone (s : State) : Host.Outcome State Fault Refusal := .next (if s.up 3 && s.on F.NZC_LOADING then s.nzcLoaded else s)

end Sys2Proof.Machine
end

