-- ==== Sys2Proof/Machine/CmdFire.lean ====
section
/-!
DEFINITION. Sys2Proof/Machine/CmdFire.lean: the commands of position, line clocks and firing (chapters 9 and 10). `t` is the DEVTIME of an event.
-/
namespace Sys2Proof.Machine

open Sys2Proof

/-! ### Encoders (R228 to R236) -/

/-- ENCODER_EDGE of channel `n`: the direction of the quadrature step or the level of B, and a rising edge of Z with it. -/
def execEncoderEdge (t n : Nat) (fwd mark : Bool) (s : State) : Host.Outcome State Fault Refusal := .next (if s.up 4 then (s.atTime t).encoderEdge t n fwd mark else s)

/-- SINCOS_SAMPLE of channel `n`: the codes of the ADC, the phase that the device computes from them, and a rising edge of Z since the last sample. -/
def execSincosSample (t n : Nat) (sin cos : Int) (phase : Nat) (mark : Bool) (s : State) : Host.Outcome State Fault Refusal :=
  .next (if s.up 4 then (s.atTime t).sincosSample t n sin cos phase mark else s)

/-- ENCODER_SIGNAL_ERROR of channel `n`, in QUAD or TOOTH mode (R228). -/
def execEncoderSignalError (n : Nat) (s : State) : Host.Outcome State Fault Refusal :=
  .next (if s.up 4 && s.enabled P_POS && (s.chMode n == modeQuad || s.chMode n == modeTooth) then s.satAdd (F.POS_ERR_CNT_SIG_ERR n) 1 else s)

/-- ZERO_TIMEOUT of channel `n`. -/
def execZeroTimeout (t n : Nat) (s : State) : Host.Outcome State Fault Refusal := .next (if s.up 4 then (s.atTime t).zeroTimeout t n else s)

/-- DEAD_RECKONING_LIMIT of channel `n`. -/
def execDeadReckoningLimit (t n : Nat) (s : State) : Host.Outcome State Fault Refusal := .next (if s.up 4 then (s.atTime t).drLimit t n else s)

/-- CH_FAULT_CLEAR of channel `n`: 1 is written to STAT_n.FAULT. -/
def execChFaultClear (m : Master) (n : Nat) (s : State) : Host.Outcome State Fault Refusal := .next (s.cmdWrite m (R.POS_STAT n) 0x80)

/-- CH_CFG_WRITE of channel `n`. -/
def execChCfgWrite (m : Master) (n : Nat) (w : Word) (s : State) : Host.Outcome State Fault Refusal := .next (s.cmdWrite m (R.POS_CH_CFG n) w)

/-! ### Triggers (R237, R238) -/

/-- A latch of trigger `k` completes at `t`, and re-phases the bars of its PHASE action: a SOLO unit queues each accepted target, the ACTIVE stamps it, and a target that is not
accepted is late. Another unit takes the active's values. -/
def State.triggerDone (s : State) (t k : Nat) : State :=
  let x := (s.atTime t).triggerLatch t k
  match x.2 with
  | none => x.1
  | some p =>
    foldS (x.1.phaseBars k) (fun b (s : State) =>
      let v := s.phaseTarget k b p
      match s.role with
      | .solo => if s.phaseOk b v 0 then s.phaseQueue k b v else s.trigLate k b
      | .active => if s.phaseOk b v (s.get F.PAR_DELAY) then s.stampAction (.phase k b v) else s.trigLate k b
      | _ => s) x.1

/-- TRIGGER_EDGE of trigger `k`, rising or falling, at edge time `t`. -/
def execTriggerEdge (t k : Nat) (rising : Bool) (s : State) : Host.Outcome State Fault Refusal := .next (if s.up 4 then (s.atTime t).triggerEdge t k rising else s)

/-- TRIGGER_LATCH_COMPLETE of trigger `k`. -/
def execTriggerLatchComplete (t k : Nat) (s : State) : Host.Outcome State Fault Refusal := .next (if s.up 4 then s.triggerDone t k else s)

/-! ### Line clocks (R239 to R246) -/

/-- LINE_LATCH_POINT of bar `b`. -/
def execLineLatchPoint (t b : Nat) (s : State) : Host.Outcome State Fault Refusal := .next (if s.up 4 then (s.atTime t).lineLatch b else s)

/-- LINE_COMMIT of bar `b`. -/
def execLineCommit (t b : Nat) (s : State) : Host.Outcome State Fault Refusal := .next (if s.up 4 then (s.atTime t).lineCommit b else s)

/-- LINE_BOUNDARY of bar `b`. -/
def execLineBoundary (t b : Nat) (s : State) : Host.Outcome State Fault Refusal := .next (if s.up 4 then (s.atTime t).lineBoundary b else s)

/-! ### Firing (R249 to R271) -/

/-- FIRE_EDGE of output `nn`. -/
def execFireEdge (t nn : Nat) (s : State) : Host.Outcome State Fault Refusal := .next (if s.up 4 then (s.atTime t).fireEdge t nn else s)

/-- FIRE_PULSE_END of output `nn`. -/
def execFirePulseEnd (t nn : Nat) (s : State) : Host.Outcome State Fault Refusal := .next (if s.up 4 then (s.atTime t).pulseEnd t nn else s)

/-- STROBE_WATCHDOG_CUT of output `nn`. -/
def execStrobeWatchdogCut (t nn : Nat) (s : State) : Host.Outcome State Fault Refusal := .next (if s.up 4 then (s.atTime t).strobeCut t nn else s)

/-- STROBE_CUT_RELEASE: the CUT bits of bar `b` that are written 1. -/
def execStrobeCutRelease (m : Master) (b bits : Nat) (s : State) : Host.Outcome State Fault Refusal :=
  .next (s.cmdWrite m (R.FIRE_CUT b) (BitVec.ofNat 32 bits))

/-- SLOT_BANK_SWAP of bar `b`. -/
def execSlotBankSwap (m : Master) (b : Nat) (s : State) : Host.Outcome State Fault Refusal := .next (s.cmdWrite m (R.FIRE_SEL_CMD b) 1)

/-- HEAD_TEMP_MEASUREMENT of bar `b`. -/
def execHeadTempMeasurement (b : Nat) (s : State) : Host.Outcome State Fault Refusal := .next (if s.up 4 then s.headMeasure b else s)

/-- CAPTURE_ARM of bar `b`: the word for CAP_CTRL, with ARM. -/
def execCaptureArm (m : Master) (b : Nat) (w : Word) (s : State) : Host.Outcome State Fault Refusal :=
  .next (s.cmdWrite m (R.FIRE_CAP_CTRL b) (w ||| 0x80000000#32))

end Sys2Proof.Machine
end

