-- ==== Sys2Proof/Machine/CmdZl.lean ====
section
/-!
DEFINITION. Sys2Proof/Machine/CmdZl.lean: the commands of the ZaroLink lanes (chapter 11). `nn` is the lane, `t` the DEVTIME of an event.
-/
namespace Sys2Proof.Machine

open Sys2Proof

/-- An event of lane `nn` at `t`; the ZL island has to run. -/
def State.onLane (s : State) (t nn : Nat) (f : State → State) : State := if s.up 5 && decide (nn < 72) then f (s.atTime t) else s

/-! ### Lanes and training (R292 to R294) -/

/-- LANE_ENABLE of lane `k` of bar `b`. -/
def execLaneEnable (m : Master) (b k : Nat) (s : State) : Host.Outcome State Fault Refusal :=
  .next (s.cmdWrite m (R.ZLB_LANE_EN b) (s.reg (R.ZLB_LANE_EN b) ||| BitVec.ofNat 32 (2 ^ k)))

/-- LANE_DISABLE of lane `k` of bar `b`. -/
def execLaneDisable (m : Master) (b k : Nat) (s : State) : Host.Outcome State Fault Refusal :=
  .next (s.cmdWrite m (R.ZLB_LANE_EN b) (s.reg (R.ZLB_LANE_EN b) &&& ~~~(BitVec.ofNat 32 (2 ^ k))))

/-- TRS_RECEIVED: the step, LOCKED with character lock on the return lane, the HIB's error count and the device's own. -/
def execTrsReceived (t nn step : Nat) (locked : Bool) (errs rx : Nat) (s : State) : Host.Outcome State Fault Refusal :=
  .next (s.onLane t nn fun s => s.trsReceived nn step locked errs rx)

/-- TRAINING_TIMEOUT. -/
def execTrainingTimeout (t nn : Nat) (s : State) : Host.Outcome State Fault Refusal := .next (s.onLane t nn fun s => s.trainTimeout nn)

/-- RETURN_LANE_SILENT for 10 µs (R293). -/
def execReturnLaneSilent (t nn : Nat) (s : State) : Host.Outcome State Fault Refusal := .next (s.onLane t nn fun s => s.retrain nn 3)

/-! ### Frames and their acknowledgement (R278 to R285) -/

/-- ZL_ACK_RECEIVED: item type 1 chunk, 2 header, 3 control frame; the chunk; the line or SEQ; the status. -/
def execZlAckReceived (t nn typ k id status : Nat) (s : State) : Host.Outcome State Fault Refusal :=
  .next (s.onLane t nn fun s => s.zlAck nn typ k id status)

/-- ZL_ACK_TIMEOUT of an item. -/
def execZlAckTimeout (t nn typ k id : Nat) (s : State) : Host.Outcome State Fault Refusal := .next (s.onLane t nn fun s => s.ackTimeout nn typ k id)

/-- ZL_TRANSMISSION_END. -/
def execZlTransmissionEnd (t nn : Nat) (s : State) : Host.Outcome State Fault Refusal := .next (s.onLane t nn fun s => s.txEnd nn)

/-- REPLAY_WINDOW_END. -/
def execReplayWindowEnd (t nn : Nat) (s : State) : Host.Outcome State Fault Refusal := .next (s.onLane t nn fun s => s.replayEnd nn)

/-- HEADER_DEADLINE. -/
def execHeaderDeadline (t nn : Nat) (s : State) : Host.Outcome State Fault Refusal := .next (s.onLane t nn fun s => s.headerDeadline nn)

/-! ### Telemetry (R290, R291) -/

/-- A telemetry frame with payload `p` has arrived; a LEN above 64 discards it. -/
def State.telemetry (s : State) (t nn : Nat) (p : List Byte) (f : State → State) : State :=
  s.onLane t nn fun s => if 64 < p.length then s.telemBad nn false else f s

/-- HEAD_TEMP_MSG. -/
def execHeadTempMsg (t nn : Nat) (p : List Byte) (s : State) : Host.Outcome State Fault Refusal := .next (s.telemetry t nn p fun s => s.headTempMsg t nn p)

/-- NCHK_MSG. -/
def execNchkMsg (t nn : Nat) (p : List Byte) (s : State) : Host.Outcome State Fault Refusal := .next (s.telemetry t nn p fun s => s.nchkMsg t nn p)

/-- HIB_STATUS_MSG, with the HIB's number of this lane's port. -/
def execHibStatusMsg (t nn port : Nat) (p : List Byte) (s : State) : Host.Outcome State Fault Refusal :=
  .next (s.telemetry t nn p fun s => s.hibStatusMsg t nn port p)

/-- RESPONSE_MSG: forwarded to the TELEMETRY ring if TELEM_FWD selects it (R291, R298). -/
def execResponseMsg (t nn : Nat) (p : List Byte) (s : State) : Host.Outcome State Fault Refusal := .next (s.telemetry t nn p fun s => s.telemForward t nn 4 p)

/-- HIB_EVENT_MSG, or a HIB-specific one, by its type. -/
def execHibEventMsg (t nn typ : Nat) (p : List Byte) (s : State) : Host.Outcome State Fault Refusal :=
  .next (s.telemetry t nn p fun s => s.hibEventMsg t nn typ p)

/-- BAD_TELEMETRY_FRAME: whether the return lane had an invalid character. -/
def execBadTelemetryFrame (t nn : Nat) (rx : Bool) (s : State) : Host.Outcome State Fault Refusal := .next (s.onLane t nn fun s => s.telemBad nn rx)

/-- TELEM_PER_WRITE. -/
def execTelemPerWrite (m : Master) (w : Word) (s : State) : Host.Outcome State Fault Refusal := .next (s.cmdWrite m R.ZLK_TELEM_PER w)

/-! ### Sparing and the mailbox (R295, R298) -/

/-- SPARE_TAKE of bar `b`. -/
def execSpareTake (m : Master) (b : Nat) (s : State) : Host.Outcome State Fault Refusal := .next (s.cmdWrite m (R.ZLB_SPARE_CMD b) 1)

/-- SPARE_RELEASE of bar `b`. -/
def execSpareRelease (m : Master) (b : Nat) (s : State) : Host.Outcome State Fault Refusal := .next (s.cmdWrite m (R.ZLB_SPARE_CMD b) 2)

/-- A word for CMD_CTRL with GO: the lane of the bar, the opcode and the length of the payload in CMD_DATA. -/
def mailboxWord (lane opc len : Nat) : Word := 0x80000000#32 ||| BitVec.ofNat 32 (len % 128 * 0x10000 + opc % 128 * 0x100 + lane % 16)

/-- ZL_HIB_WRITE through the mailbox of bar `b`. -/
def execZlHibWrite (m : Master) (b lane len : Nat) (s : State) : Host.Outcome State Fault Refusal :=
  .next (s.cmdWrite m (R.ZLB_CMD_CTRL b) (mailboxWord lane 1 len))

/-- ZL_HIB_READ through the mailbox of bar `b`. -/
def execZlHibRead (m : Master) (b lane len : Nat) (s : State) : Host.Outcome State Fault Refusal :=
  .next (s.cmdWrite m (R.ZLB_CMD_CTRL b) (mailboxWord lane 2 len))

/-- ZL_NCHK through the mailbox of bar `b`. -/
def execZlNchk (m : Master) (b lane len : Nat) (s : State) : Host.Outcome State Fault Refusal :=
  .next (s.cmdWrite m (R.ZLB_CMD_CTRL b) (mailboxWord lane 4 len))

/-- ZL_HIB_SPECIFIC through the mailbox of bar `b`: opcode 0x40 + `op`. -/
def execZlHibSpecific (m : Master) (b lane op len : Nat) (s : State) : Host.Outcome State Fault Refusal :=
  .next (s.cmdWrite m (R.ZLB_CMD_CTRL b) (mailboxWord lane (0x40 + op % 64) len))

end Sys2Proof.Machine
end

