-- ==== Sys2Proof/Machine/CmdMem.lean ====
section
/-!
DEFINITION. Sys2Proof/Machine/CmdMem.lean: the commands of the arbiter and of the in-package DRAM (chapters 12 and 13).
-/
namespace Sys2Proof.Machine

open Sys2Proof

/-! ### Requests (R299, R302; Tables 12.3 to 12.5) -/

/-- The decode job of codec ring `k` wants a pool lane: it runs on one, and has neither been granted nor raised. -/
def State.codecWants (s : State) (k : Nat) : Bool :=
  match (s.codec k).job with
  | some j =>
    let op := match j.resume with | some p => p.op | none => j.op
    j.fixed.isNone && (op == 3 || op == 4) && !((s.arb 2).waiting ++ (s.arb 2).holders).any fun q => q.work == .codec k
  | none => false

/-- Requester `r` of instance `i` raises a request; `panic` counts for the real-time requesters of the DRAM front end, while the image store's own state tells it for the
bars (R173). -/
def State.arbAsk (s : State) (i r need : Nat) (panic : Bool) (w : ReqWork) : State :=
  match w with
  | .access addr write who =>
    if i = 0 ∧ r < 10 then s.arbRaise 0 r need (panic && decide (r < 3)) (.access (addr / 64 * 64) write who []) else s
  | .batch n =>
    if i = 1 ∧ r < 6 ∧ 1 ≤ n ∧ n ≤ (if r = 0 then 256 else if r = 2 ∨ r = 3 then 1 else 16) then s.arbRaise 1 r need false (.batch n) else s
  | .tile =>
    if i = 2 ∧ r < 8 then
      match s.nextTile r with
      | (some j, s') => if j.tile.kind = 1 then s'.arbRaise 2 r need (s'.barPanic r) (.tile j) else s
      | (none, s') => s'
    else s
  | .codec k => if i = 2 ∧ r = 8 ∧ k < 4 ∧ s.codecWants k then s.arbRaise 2 8 need false (.codec k) else s

/-- A request names a byte of the DRAM that does not exist (R315). -/
def State.beyondDram (s : State) (i : Nat) (w : ReqWork) : Bool :=
  match w with
  | .access addr _ _ => decide (i = 0) && decide (s.dramSize ≤ addr)
  | _ => false

/-- ARB_REQUEST at DEVTIME `t`: instance, requester, the instant of need of a self-stamped requester, panic, and the work. -/
def execArbRequest (t i r need : Nat) (panic : Bool) (work : ReqWork) (s : State) : Host.Outcome State Fault Refusal :=
  if !s.up (arbIsland i) then .next s
  else if s.beyondDram i work then .fault .noSuchAddress
  else .next ((s.atTime t).arbAsk i r need panic work)

/-! ### Grants, preemption and the hold limit (R300 to R305, R311, R312) -/

/-- The work is of the bar's or the codec's class. -/
def sameClass (a b : Work) : Bool :=
  match a, b with
  | .tile x, .tile y => x.bar == y.bar
  | .codec _, .codec _ => true
  | _, _ => false

/-- Lanes that the class of `w` may hold (R173). -/
def State.laneLimit (s : State) (w : Work) : Nat :=
  match w with
  | .tile j => s.get (F.IMG_CRING_CFG_LANE_MAX_M1 j.bar) + 1
  | _ => s.get F.CDC_JOB_LANES

/-- The resource has room for a request: no access is in progress on its bank, the fabric is free, or lane `lane` is free and its class within its limit. -/
def State.arbRoom (s : State) (i lane : Nat) (q : Req) : Bool :=
  if i = 0 then (match q.work with | .access a _ _ _ => !s.bankBusy (s.dramBank a) | _ => false)
  else if i = 1 then (s.arb 1).holders.isEmpty
  else decide (lane < 32) && (s.laneHolder lane).isNone && decide ((s.arb 2).holders.countP (fun h => sameClass h.work q.work) < s.laneLimit q.work)

/-- A lane starts its work: it no longer lingers, and carats that it holds change class (R337). -/
def State.laneStart (s : State) (lane : Nat) (w : Work) : State :=
  (s.setLinger lane none).caratClass lane (match w with | .codec _ => 5 | _ => 1)

/-- A grant of instance `i`. -/
def State.grantTo (s : State) (i : Nat) (q : Req) (lane blocked : Nat) : State :=
  let s := s.arbGive i q lane blocked
  if i = 2 then s.laneStart lane q.work else s

/-- The nearest request for which there is room is granted. -/
def State.arbGrant (s : State) (i lane blocked : Nat) : State :=
  match nearest ((s.arb i).waiting.filter fun q => s.arbRoom i lane q) with
  | some q => s.grantTo i q lane blocked
  | none => s

/-- ARB_GRANT at DEVTIME `t`: the instance, the lane at the pool, and the blocking that the instance has measured for the request. -/
def execArbGrant (t i lane blocked : Nat) (s : State) : Host.Outcome State Fault Refusal :=
  .next (if i < 3 ∧ s.up (arbIsland i) then (s.atTime t).arbGrant i lane blocked else s)

/-- The holders that a waiting request may preempt: not a clasp apply, and at the pool not in order to exceed the limit of its class (R303, R311). -/
def State.victims (s : State) (i : Nat) (q : Req) : List Req :=
  (s.arb i).holders.filter fun h => s.mayPreempt i q h
    && (if i = 1 then decide (h.r ≠ 0)
        else sameClass h.work q.work || decide ((s.arb 2).holders.countP (fun x => sameClass x.work q.work) < s.laneLimit q.work))

/-- A holder has kept its grant beyond MAX_HOLD (R304). -/
def State.overHold (s : State) (i : Nat) (h : Req) : Bool :=
  s.on (F.ARB_MAX_HOLD i h.r) && decide (s.get (F.ARB_MAX_HOLD i h.r) < h.heldFor s.devtime)

/-- Panic of a request's bar (R173). -/
def State.workPanic (s : State) (w : Work) : Bool := match w with | .tile j => s.barPanic j.bar | _ => false

/-- At a preemption point the nearest request that may preempt takes the grant of its victim; a victim that has reached its hold limit is cut off instead (Table 12.2). No room is
left where a request has to preempt. -/
def State.arbPreempt (s : State) (i need blocked : Nat) : State :=
  match nearest ((s.arb i).waiting.filter fun q => !(s.victims i q).isEmpty && (i == 1 || decide (32 ≤ (s.arb 2).holders.length))) with
  | some q =>
    match victimOf (s.victims i q) with
    | some h =>
      let t := s.grantTo i q h.lane blocked
      if s.overHold i h then t.arbCut i h need (s.workPanic h.work) else t.arbLose i h
    | none => s
  | none => s

/-- ARB_PREEMPTION at DEVTIME `t`: the instance, the instant of need of a victim that is cut off, and the blocking measured. The DRAM front end preempts nothing (R309). -/
def execArbPreemption (t i need blocked : Nat) (s : State) : Host.Outcome State Fault Refusal :=
  .next (if (i = 1 ∨ i = 2) ∧ s.up (arbIsland i) then (s.atTime t).arbPreempt i need blocked else s)

/-- ARB_HOLD_CUT at DEVTIME `t`: the instance, the requester, its lane at the pool, and the instant of need of the work that is raised again. A lane that is cut off lingers. -/
def execArbHoldCut (t i r lane need : Nat) (s : State) : Host.Outcome State Fault Refusal :=
  .next (
    let s := s.atTime t
    if (i = 1 ∨ i = 2) ∧ s.up (arbIsland i) then
      match (s.arb i).holders.find? fun h => decide (h.r = r) && (i == 1 || decide (h.lane = lane)) && s.overHold i h && !(i == 1 && r == 0) with
      | some h =>
        let s := s.arbCut i h need (s.workPanic h.work)
        if i = 2 then s.setLinger lane (some s.devtime) else s
      | none => s
    else s)

/-- ARB_STARVE at DEVTIME `t` of requester `r`. -/
def execArbStarve (t i r : Nat) (s : State) : Host.Outcome State Fault Refusal :=
  .next (if i < 3 ∧ s.up (arbIsland i) then (s.atTime t).arbStarve i r else s)

/-! ### DRAM (R317 to R335) -/

/-- An access of port `port` has completed: what its consumer does with it, and a pair unit's self-diagnosis of an uncorrectable error (R327, R380, Table 13.4). -/
def State.accessDone (s : State) (port ce ue victim : Nat) : State :=
  match s.dramAccess port ce ue victim with
  | (s, none) => s
  | (s, some (q, bad)) =>
    let s := match q.work with
      | .access a write who _ =>
        if port = 6 then (if bad && !write then s.sweepBad who a else s).sweepAccess who
        else if port = 7 then (if bad then s.locketFail lkEcc else if write then s else s.locketRead a)
        else s
      | _ => s
    if bad then s.giveUp else s

/-- DRAM_ACCESS at DEVTIME `t`: the port, the 64-bit words with a corrected and with an uncorrectable error, and the group that the check cache gives up. -/
def execDramAccess (t port ce ue victim : Nat) (s : State) : Host.Outcome State Fault Refusal :=
  .next (if s.up 2 then (s.atTime t).accessDone port ce ue victim else s)

/-- REFRESH_DUE of a bank, 16 × channel + bank. -/
def execRefreshDue (bank : Nat) (s : State) : Host.Outcome State Fault Refusal := .next (if s.up 2 && decide (bank < 256) then s.refreshDue bank else s)

/-- MR4_POLL of a channel: the value read, and whether it asks for the doubled refresh rate. -/
def execMr4Poll (ch rate : Nat) (doubled : Bool) (s : State) : Host.Outcome State Fault Refusal :=
  .next (if s.up 2 && decide (ch < 16) then s.mr4 ch rate doubled else s)

/-- RD_WINDOW_START. -/
def execRdWindowStart (s : State) : Host.Outcome State Fault Refusal := .next (if s.up 2 then s.rdWindow else s)

/-- DRAM_INIT_DONE. -/
def execDramInitDone (s : State) : Host.Outcome State Fault Refusal := .next (if s.up 2 then s.initDone else s)

/-- WDQ_WRITE of channel `ch`. -/
def execWdqWrite (m : Master) (ch : Nat) (w : Word) (s : State) : Host.Outcome State Fault Refusal := .next (s.cmdWrite m (R.MCH_WDQ ch) w)

end Sys2Proof.Machine
end

