-- ==== Sys2Proof/Machine/CmdHsk.lean ====
section
/-!
DEFINITION. Sys2Proof/Machine/CmdHsk.lean: the commands of the carat arbiter, the thermal block and self-calibration (chapters 14 and 15).
-/
namespace Sys2Proof.Machine

open Sys2Proof

/-! ### Carats (R336 to R341) -/

/-- Unit `u` of consumer `c` needs its carats (Table 14.1). -/
def State.caratNeed (s : State) (c u : Nat) : Bool :=
  match c with
  | 0 => s.up 3 && decide (u < 8) && s.inJob u
  | 1 => s.up 3 && (match s.laneHolder u with | some q => (match q.work with | .tile _ => true | _ => false) | none => false)
  | 2 => s.up 5 && decide (u < 8) && (List.range 9).any fun k => s.laneState (9 * u + k) != zOff && s.laneState (9 * u + k) != zDown
  | 3 => s.up 2 && decide (u < 16) && (bit (s.get F.MEM_CH_MAP_USED) u || s.dev == .memtrain)
  | 4 => s.up 6 && decide (u = 0)
  | 5 => s.up 3 && (match s.laneHolder u with | some q => (match q.work with | .codec _ => true | _ => false) | none => false)
  | 6 => s.up 3 && decide (u < 4) && (match (s.codec u).job with
    | some j =>
      let op := match j.resume with | some p => p.op | none => j.op
      j.fixed.isNone && (op == 1 || op == 2)
    | none => false)
  | 7 => s.up 6 && decide (u = 0) && s.plk.locket.isSome
  | _ => false

/-- Deadline of the pool request and panic of the tile that lane `u` serves, for DEC_BAR (R338). -/
def State.lanePool (s : State) (u : Nat) : Nat × Bool :=
  match s.laneHolder u with
  | some q => (q.deadline, s.workPanic q.work)
  | none => (0, false)

/-- CARAT_REQUEST of unit `u` of consumer `c` at DEVTIME `t`, if it needs its carats. -/
def execCaratRequest (t c u : Nat) (s : State) : Host.Outcome State Fault Refusal :=
  .next (
    let s := s.atTime t
    if s.up 1 && s.caratNeed c u then
      let x := if c = 1 then s.lanePool u else (0, false)
      s.caratRequest c u x.1 x.2
    else s)

/-- CARAT_GRANT at DEVTIME `t`: the request with the nearest deadline is granted, if it fits. -/
def execCaratGrant (t : Nat) (s : State) : Host.Outcome State Fault Refusal := .next (if s.up 1 then (s.atTime t).caratGrant.1 else s)

/-- CARAT_RELEASE of unit `u` of consumer `c`, which no longer needs its carats; a decoder lane lingers first (Table 14.1). -/
def execCaratRelease (c u : Nat) (s : State) : Host.Outcome State Fault Refusal :=
  .next (if s.up 1 && !s.caratNeed c u && !((c == 1 || c == 5) && (s.lingering u || (s.laneHolder u).isSome)) then s.caratRelease c u else s)

/-- LINGER_EXPIRY of decoder lane `lane` at DEVTIME `t`. -/
def execLingerExpiry (t lane : Nat) (s : State) : Host.Outcome State Fault Refusal := .next (if s.up 1 then (s.atTime t).lingerExpiry lane else s)

/-- CARAT_STARVE of consumer `c` at DEVTIME `t`. -/
def execCaratStarve (t c : Nat) (s : State) : Host.Outcome State Fault Refusal := .next (if s.up 1 then (s.atTime t).caratStarve c else s)

/-- CARAT_RATE_WINDOW: the window has moved on to DEVTIME `t`, and requests are granted in their order as far as they fit. -/
def execCaratRateWindow (t : Nat) (s : State) : Host.Outcome State Fault Refusal := .next (if s.up 1 then (s.atTime t).caratGrants 64 else s)

/-! ### Temperature (R343 to R349) -/

/-- The STOP state is entered (R347): the unit that holds control stops every job, in a pair at lines that it resolves, and its outputs go to rest on reaching READY; a STANDBY unit
becomes DETACHED, and a locket that is building one fails (R391). -/
def State.stopEntered (s : State) : State :=
  let clear (s : State) : State := if s.dev = .ready then ((s.setReg R.DEV_OUTGRP_EN 0).setReg R.DEV_GPIO_OE 0).padsUpdate else s
  match s.role with
  | .standby => s.setRole .detached causeTempStop 0
  | .detached => s.locketFail lkSelf
  | .solo => if s.dev.inJob then (s.modAux fun a => { a with clearOuts := true }).stopAll else clear s
  | .active =>
    if s.dev.inJob then
      let s := s.modAux fun a => { a with clearOuts := true }
      let bars := (List.range 8).filter fun b => s.inJob b
      let s := foldS bars (fun b (s : State) =>
        let l := if s.hasLines b then s.resolveLine b else s.nextLine b
        (s.sendPair (.resolve (.stopLine b l))).stopBarAt b l) s
      s.devJobs
    else clear s

/-- A round of measurements with its consequences (R343, R347, R348; R355 for calibration). -/
def State.thermal (s : State) (sites : List SiteSample) : State :=
  let x := s.thermalRound sites
  let s := match x.2.stop with
    | some true => x.1.stopEntered
    | some false => x.1.padsUpdate
    | none => x.1
  let s := s.calTemp
  if x.2.crit = some true then s.critical.settle else s

/-- THERMAL_ROUND: what the 16 sites give. -/
def execThermalRound (sites : List SiteSample) (s : State) : Host.Outcome State Fault Refusal := .next (if s.up 1 then s.thermal sites else s)

/-! ### Self-calibration (R352 to R363): item `i` and unit `u` of Table 15.1 -/

/-- CAL_RUN_CMD. -/
def execCalRunCmd (m : Master) (i units : Nat) (s : State) : Host.Outcome State Fault Refusal :=
  .next (s.cmdWrite m (R.CAL_ITEM_CMD i) (BitVec.ofNat 32 (units * 0x10000 + 1)))

/-- CAL_FORCE. -/
def execCalForce (m : Master) (i units : Nat) (s : State) : Host.Outcome State Fault Refusal :=
  .next (s.cmdWrite m (R.CAL_ITEM_CMD i) (BitVec.ofNat 32 (units * 0x10000 + 2)))

/-- CAL_CANCEL. -/
def execCalCancel (m : Master) (i units : Nat) (s : State) : Host.Outcome State Fault Refusal :=
  .next (s.cmdWrite m (R.CAL_ITEM_CMD i) (BitVec.ofNat 32 (units * 0x10000 + 4)))

/-- CAL_UNIT_START at DEVTIME `t`. -/
def execCalUnitStart (t i u : Nat) (s : State) : Host.Outcome State Fault Refusal := .next (if s.up 1 then (s.atTime t).calUnitStart i u else s)

/-- ADC_FIT_DONE of channel `c` at DEVTIME `t`. -/
def execAdcFitDone (t c : Nat) (s : State) : Host.Outcome State Fault Refusal := .next (if s.up 1 then (s.atTime t).adcFitDone c else s)

/-- CAL_UNIT_COMPLETE at DEVTIME `t`: whether the measurement succeeded, and the values of the result registers. -/
def execCalUnitComplete (t i u : Nat) (ok : Bool) (values : List Word) (s : State) : Host.Outcome State Fault Refusal :=
  .next (if s.up 1 then (s.atTime t).calUnitComplete i u ok values else s)

/-- CAL_OVERDUE at DEVTIME `t`. -/
def execCalOverdue (t i u : Nat) (s : State) : Host.Outcome State Fault Refusal := .next (if s.up 1 then (s.atTime t).calOverdue i u else s)

/-- CAL_RESULT_WRITE of the result register at BAR 0 offset `a`. -/
def execCalResultWrite (m : Master) (a : Nat) (w : Word) (s : State) : Host.Outcome State Fault Refusal := .next (s.cmdWrite m a w)

end Sys2Proof.Machine
end

