-- ==== Sys2Proof/Machine/CmdPair.lean ====
section
/-!
DEFINITION. Sys2Proof/Machine/CmdPair.lean: the commands of the redundant pair (chapter 16). `t` is the DEVTIME of an event, `h` the start block of a received frame.
-/
namespace Sys2Proof.Machine

open Sys2Proof

/-! ### PAR CMD (R368, R386, R391, R392, R395) -/

/-- The word that PAR CMD takes with its key. -/
def parWord (op : Nat) : Word := 0xC35A0000#32 ||| BitVec.ofNat 32 op

/-- PAR_CLAIM by a master, or by the unit itself: with AUTO_CLAIM and ROLE_PREF set (R368). -/
def execParClaim (t : Nat) (m : Option Master) (s : State) : Host.Outcome State Fault Refusal :=
  .next (
    match m with
    | some m => if s.reaches m then (s.atTime t).cmdWrite m R.PAR_CMD (parWord 1) else s
    | none =>
      if !s.up 6 then s else
      let s := s.atTime t
      if s.role == .detached && s.on F.PAR_CFG_AUTO_CLAIM && s.on F.DEV_STRAPS_ROLE_PREF && !s.unitClash then s.claimStart else s)

/-- PAR_HANDOVER. -/
def execParHandover (m : Master) (s : State) : Host.Outcome State Fault Refusal := .next (s.cmdWrite m R.PAR_CMD (parWord 2))

/-- PAR_RESYNC by a master, or by the unit itself: with AUTO_RESYNC set and the link up with an ACTIVE partner (R386). -/
def execParResync (m : Option Master) (s : State) : Host.Outcome State Fault Refusal :=
  .next (match m with
    | some m => s.cmdWrite m R.PAR_CMD (parWord 3)
    | none =>
      if s.up 6 && s.role == .detached && s.on F.PAR_CFG_AUTO_RESYNC && s.linkUp && decide (s.get F.PAR_STAT_PEER_ROLE = 1) then
        (s.modPlk fun p => { p with resyncWait := true }).resyncTry
      else s)

/-- PAR_DETACH. -/
def execParDetach (m : Master) (s : State) : Host.Outcome State Fault Refusal := .next (s.cmdWrite m R.PAR_CMD (parWord 4))

/-- PAR_ABORT_LOCKET. -/
def execParAbortLocket (m : Master) (s : State) : Host.Outcome State Fault Refusal := .next (s.cmdWrite m R.PAR_CMD (parWord 5))

/-! ### Claims, HOLD and takeover (R367, R368, R381) -/

/-- An event of the PLK island at `t`. -/
def State.onPlk (s : State) (t : Nat) (f : State → State) : State := if s.up 6 then f (s.atTime t) else s

/-- CLAIM_COLLISION_CHECK. -/
def execClaimCollisionCheck (t : Nat) (s : State) : Host.Outcome State Fault Refusal := .next (s.onPlk t fun s => s.claimCheck)

/-- CLAIM_RETRY. -/
def execClaimRetry (t : Nat) (s : State) : Host.Outcome State Fault Refusal := .next (s.onPlk t fun s => s.claimRetry)

/-- HOLD_IN_FALL: HOLD_IN has stayed below VIL until `t`. -/
def execHoldInFall (t : Nat) (s : State) : Host.Outcome State Fault Refusal := .next (s.onPlk t fun s => s.holdFall)

/-- HOLD_IN_RISE: HOLD_IN has stayed above VIH until `t`. -/
def execHoldInRise (t : Nat) (s : State) : Host.Outcome State Fault Refusal := .next (s.onPlk t fun s => s.holdRise)

/-- TAKEOVER_DECISION. -/
def execTakeoverDecision (t : Nat) (s : State) : Host.Outcome State Fault Refusal := .next (s.onPlk t fun s => s.takeover)

/-! ### The pair link (R370, R384) -/

/-- A new frame arrives and its message is taken; one sent again is only acknowledged. -/
def State.fromPartner (s : State) (t : Nat) (h : Machine.PairHdr) (f : State → State) : State :=
  s.onPlk t fun s => let x := s.frameIn h; if x.2 then f x.1 else x.1

/-- The link may have gone down: a side-band WRITE waits for no acknowledgement any more (R373). -/
def State.linkChecked (s : State) : State := if s.linkUp then s else (s.sbAcked none).settle

/-- HEARTBEAT_RECEIVED. -/
def execHeartbeatReceived (t : Nat) (h : Machine.PairHdr) (b : Machine.Heartbeat) (s : State) : Host.Outcome State Fault Refusal :=
  .next (s.fromPartner t h fun s => s.heartbeat b)

/-- HEARTBEAT_SEND. -/
def execHeartbeatSend (t : Nat) (s : State) : Host.Outcome State Fault Refusal := .next (s.onPlk t fun s => s.sendHeartbeat)

/-- ACTION_RECEIVED: the stamp in pair time, and the action. -/
def execActionReceived (t : Nat) (h : Machine.PairHdr) (stamp : Int) (act : Machine.PairAct) (s : State) : Host.Outcome State Fault Refusal :=
  .next (s.fromPartner t h fun s => s.actionIn stamp act)

/-- ACTION_STAMP: the first queued action is applied at its stamp. -/
def execActionStamp (s : State) : Host.Outcome State Fault Refusal := .next (if s.up 6 then s.actionStamp else s)

/-- RESOLVE_RECEIVED. -/
def execResolveReceived (t : Nat) (h : Machine.PairHdr) (r : Machine.Resolve) (s : State) : Host.Outcome State Fault Refusal :=
  .next (s.fromPartner t h fun s => s.resolveIn r)

/-- TELEM_RECEIVED. -/
def execTelemReceived (t : Nat) (h : Machine.PairHdr) (r : Machine.Resolve) (s : State) : Host.Outcome State Fault Refusal :=
  .next (s.fromPartner t h fun s => s.resolveIn r)

/-- DIGEST_RECEIVED. -/
def execDigestReceived (t : Nat) (h : Machine.PairHdr) (key : Machine.DigKey) (digest : Nat) (s : State) : Host.Outcome State Fault Refusal :=
  .next (s.fromPartner t h fun s => s.digestIn key digest)

/-- DIGEST_WAIT_EXPIRY. -/
def execDigestWaitExpiry (t : Nat) (s : State) : Host.Outcome State Fault Refusal := .next (s.onPlk t fun s => s.digestExpiry)

/-- CONTROL_RECEIVED. -/
def execControlReceived (t : Nat) (h : Machine.PairHdr) (c : Machine.PairControl) (s : State) : Host.Outcome State Fault Refusal :=
  .next (s.fromPartner t h fun s => s.controlIn c)

/-- PAIR_FRAME_ACK. -/
def execPairFrameAck (t seq : Nat) (s : State) : Host.Outcome State Fault Refusal :=
  .next (s.onPlk t fun s =>
    if s.linkUp then (((s.modPlk fun p => { p with lastValid := s.devtime }).frameAck seq).sbAcked (some seq)).settle else s)

/-- PAIR_FRAME_RETRANSMIT. -/
def execPairFrameRetransmit (t seq : Nat) (s : State) : Host.Outcome State Fault Refusal := .next (s.onPlk t fun s => (s.frameAgain seq).linkChecked)

/-- PAIR_FRAME_CRC_ERROR: the frame is discarded without acknowledgement (R370, R396). -/
def execPairFrameCrcError (s : State) : Host.Outcome State Fault Refusal := .next (if s.linkUp then s.satAdd F.PLK_CRC_CNT 1 else s)

/-- PAIR_LINK_LOST: the last valid block came LINK_TO before `t` (R384). -/
def execPairLinkLost (t : Nat) (s : State) : Host.Outcome State Fault Refusal :=
  .next (s.onPlk t fun s =>
    let to_ := s.get F.PAR_TIMING_LINK_TO * us
    if s.devtime < s.plk.lastValid + to_ then s
    else (s.modPlk fun p => { p with lastValid := s.devtime - to_ }).linkLost.linkChecked)

/-- GRACE_EXPIRY. -/
def execGraceExpiry (t : Nat) (s : State) : Host.Outcome State Fault Refusal := .next (s.onPlk t fun s => s.graceOver)

/-- PAIR_LINK_TRAINING: the lanes that pass, and the one-way latency in ns. Training stops a PRBS run on an enabled lane (R447). -/
def execPairLinkTraining (t : Nat) (passed : List Nat) (latency : Nat) (s : State) : Host.Outcome State Fault Refusal :=
  .next (s.onPlk t fun s =>
    if s.linkUp then s
    else (foldS (bitsOf (s.get F.PLK_LANE_EN) 4) (fun j s => s.prbsAbort (72 + j)) s).linkTrained passed latency)

/-! ### Lockets (R386 to R391) -/

/-- LOCKET_RECEIVED: the generation, the bytes moved, and the content. -/
def execLocketReceived (t : Nat) (h : Machine.PairHdr) (gen bytes : Nat) (part : Machine.LocketPart) (s : State) : Host.Outcome State Fault Refusal :=
  .next (s.fromPartner t h fun s => s.locketIn gen bytes part)

/-- LOCKET_PHASE_COMPLETE, with the bytes that the phase has moved. -/
def execLocketPhaseComplete (bytes : Nat) (s : State) : Host.Outcome State Fault Refusal := .next (if s.up 6 then s.locketPhaseEnd bytes else s)

/-- LOCKET_MAX_EXPIRY. -/
def execLocketMaxExpiry (t : Nat) (s : State) : Host.Outcome State Fault Refusal := .next (s.onPlk t fun s => s.locketMax)

end Sys2Proof.Machine
end

