-- ==== Sys2Proof/Machine/CmdAux.lean ====
section
/-!
DEFINITION. Sys2Proof/Machine/CmdAux.lean: the commands of the side-band and the chain (chapter 17), and of the JTAG port and the diagnostics (chapter 19).
-/
namespace Sys2Proof.Machine

open Sys2Proof

/-! ### The side-band (R398 to R409): requests by the address they carry -/

/-- SB_PING. -/
def execSbPing (addr : Nat) (s : State) : Host.Outcome State Fault Refusal := .next (s.ping_ addr)

/-- SB_READ of `n` words from `off` on. -/
def execSbRead (addr off n : Nat) (s : State) : Host.Outcome State Fault Refusal := .next (s.sbReadCmd addr off n)

/-- SB_WRITE of words from `off` on. -/
def execSbWrite (addr off : Nat) (ws : List Word) (s : State) : Host.Outcome State Fault Refusal := .next (s.sbWriteCmd addr off ws)

/-- SB_LOG_READ of at most `max` records from `seq` on. -/
def execSbLogRead (addr seq max : Nat) (s : State) : Host.Outcome State Fault Refusal := .next (s.sbLogCmd addr seq max)

/-- SB_EVT_POLL: entries before `ack` are released and at most `max` returned. -/
def execSbEvtPoll (addr ack max : Nat) (s : State) : Host.Outcome State Fault Refusal := .next (s.sbPollCmd addr ack max)

/-- SB_ASSIGN of the chain address `new`. -/
def execSbAssign (addr new : Nat) (s : State) : Host.Outcome State Fault Refusal := .next (s.sbAssignCmd addr new)

/-- SB_UNASSIGN. -/
def execSbUnassign (key : Nat) (s : State) : Host.Outcome State Fault Refusal := .next (s.sbUnassignCmd key)

/-- SB_SET_RATE, received at DEVTIME `t`. -/
def execSbSetRate (t key rate : Nat) (s : State) : Host.Outcome State Fault Refusal := .next (if s.sbAlive then (s.atTime t).sbSetRateCmd key rate else s)

/-- SB_RATE_SWITCH at DEVTIME `t`. -/
def execSbRateSwitch (t : Nat) (s : State) : Host.Outcome State Fault Refusal := .next (if s.sbAlive then (s.atTime t).sbRateSwitch else s)

/-- SB_INVALID_FRAME: whether its CRC does not match (R401). -/
def execSbInvalidFrame (crc : Bool) (s : State) : Host.Outcome State Fault Refusal := .next (if s.sbAlive then s.sbError crc else s)

/-- SB_UNUSABLE_REQUEST: the address, the command and the payload (R403). -/
def execSbUnusableRequest (addr cmd : Nat) (payload : List Byte) (s : State) : Host.Outcome State Fault Refusal := .next (s.sbUnusableCmd addr cmd payload)

/-! ### The chain (R407, R411 to R413) -/

/-- SB_EPOCH_ARM, received at DEVTIME `t`. -/
def execSbEpochArm (t epoch : Nat) (s : State) : Host.Outcome State Fault Refusal := .next (if s.sbAlive then (s.atTime t).sbEpochCmd epoch else s)

/-- EPOCH_PULSE. -/
def execEpochPulse (s : State) : Host.Outcome State Fault Refusal := .next (if s.sbAlive then s.epochPulse else s)

/-- SYNC_IN_EDGE at DEVTIME `t`. -/
def execSyncInEdge (t : Nat) (s : State) : Host.Outcome State Fault Refusal := .next (if s.sbAlive then s.syncEdge t else s)

/-- SYNC_ARM_EXPIRY at DEVTIME `t`. -/
def execSyncArmExpiry (t : Nat) (s : State) : Host.Outcome State Fault Refusal := .next (if s.sbAlive then (s.atTime t).armExpiry else s)

/-- CHAIN_IN_CHANGE: CHAIN_IN qualifies at a level. -/
def execChainInChange (high : Bool) (s : State) : Host.Outcome State Fault Refusal := .next (s.chainIn high)

/-! ### The TAP (R51, R446) -/

/-- TAP_EXTEST, with new cells of the boundary register, if they are shifted in. -/
def execTapExtest (cells : Option (List Bool)) (s : State) : Host.Outcome State Fault Refusal := .next (s.tapDrive irExtest cells)

/-- TAP_IDCODE. -/
def execTapIdcode (s : State) : Host.Outcome State Fault Refusal := .next s.tapIdcode

/-- TAP_SAMPLE_PRELOAD: the levels of the pins, and the cells shifted in, if any. -/
def execTapSamplePreload (pins : List Bool) (load : Option (List Bool)) (s : State) : Host.Outcome State Fault Refusal := .next (s.tapSample pins load)

/-- TAP_EXTEST_PULSE. -/
def execTapExtestPulse (cells : Option (List Bool)) (s : State) : Host.Outcome State Fault Refusal := .next (s.tapDrive irExtestPulse cells)

/-- TAP_EXTEST_TRAIN. -/
def execTapExtestTrain (cells : Option (List Bool)) (s : State) : Host.Outcome State Fault Refusal := .next (s.tapDrive irExtestTrain cells)

/-- TAP_DBGRESET. -/
def execTapDbgreset (s : State) : Host.Outcome State Fault Refusal := .next s.tapDbgReset.settle

/-- TAP_REGACCESS: a read, or a write of a word, at BAR 0 offset `a`. -/
def execTapRegaccess (a : Nat) (w : Option Word) (s : State) : Host.Outcome State Fault Refusal := .next (s.tapRegAccess a w)

/-- TAP_BYPASS, by its code. -/
def execTapBypass (code : Nat) (s : State) : Host.Outcome State Fault Refusal := .next (s.tapBypass code)

/-- TAP_TEST_LOGIC_RESET. -/
def execTapTestLogicReset (s : State) : Host.Outcome State Fault Refusal := .next (if s.aux.vaux then s.tapReset else s)

/-- REGACCESS_LOCK: 1 is written to LOCK.NO_REGACCESS (R447). -/
def execRegaccessLock (m : Master) (s : State) : Host.Outcome State Fault Refusal := .next (s.cmdWrite m R.DBG_LOCK 1)

/-! ### PRBS and diagnostics (R447, R448) -/

/-- PRBS_START: the word for PRBS_CFG. -/
def execPrbsStart (m : Master) (w : Word) (s : State) : Host.Outcome State Fault Refusal := .next (s.cmdWrite m R.DBG_PRBS_CFG w)

/-- PRBS_RUN_END at DEVTIME `t`: the errors counted, and whether the checker has synchronised. -/
def execPrbsRunEnd (t errs : Nat) (locked : Bool) (s : State) : Host.Outcome State Fault Refusal := .next (if s.up 3 then (s.atTime t).prbsEnd errs locked else s)

/-- DIAG_LANE_BERT. -/
def execDiagLaneBert (s : State) : Host.Outcome State Fault Refusal := .next (if s.up 3 then s.diagRun dgBert [] else s)

/-- DIAG_ADC_CAPTURE: the bytes of the sample pairs. -/
def execDiagAdcCapture (data : List Byte) (s : State) : Host.Outcome State Fault Refusal := .next (if s.up 3 then s.diagRun dgAdc data else s)

/-- DIAG_EYE_SCAN: the bytes of the error grid. -/
def execDiagEyeScan (data : List Byte) (s : State) : Host.Outcome State Fault Refusal := .next (if s.up 3 then s.diagRun dgEye data else s)

/-- DIAG_SENSOR_DUMP. -/
def execDiagSensorDump (s : State) : Host.Outcome State Fault Refusal := .next (if s.up 3 then s.diagRun dgSensor [] else s)

end Sys2Proof.Machine
end

