-- ==== Sys2Proof/Machine/Dispatch.lean ====
section
/-!
DEFINITION. Sys2Proof/Machine/Dispatch.lean: the meaning of every command, one arm per constructor of Instr.
-/
namespace Sys2Proof.Machine

open Sys2Proof

def exec (i : Instr) (s : State) : Host.Outcome State Fault Refusal :=
  match i with
  | .vauxPowerOn => Sys2Proof.Machine.execVauxPowerOn s
  | .vauxBrownOut => Sys2Proof.Machine.execVauxBrownOut s
  | .vinValid => Sys2Proof.Machine.execVinValid s
  | .vinBrownOut => Sys2Proof.Machine.execVinBrownOut s
  | .regulatorFault rails high => Sys2Proof.Machine.execRegulatorFault rails high s
  | .regulatorRestart => Sys2Proof.Machine.execRegulatorRestart s
  | .regulatorStartSuccess => Sys2Proof.Machine.execRegulatorStartSuccess s
  | .trimLoadComplete whole crc straps => Sys2Proof.Machine.execTrimLoadComplete whole crc straps s
  | .railsInRegulation => Sys2Proof.Machine.execRailsInRegulation s
  | .islandClockQualified island refclk => Sys2Proof.Machine.execIslandClockQualified island refclk s
  | .dramTrainingComplete results => Sys2Proof.Machine.execDramTrainingComplete results s
  | .resetN => Sys2Proof.Machine.execResetN s
  | .perstNAssert => Sys2Proof.Machine.execPerstNAssert s
  | .perstNDeassert => Sys2Proof.Machine.execPerstNDeassert s
  | .clockFailure islands => Sys2Proof.Machine.execClockFailure islands s
  | .auxOscillatorFailure err => Sys2Proof.Machine.execAuxOscillatorFailure err s
  | .fabricLockUp island reads => Sys2Proof.Machine.execFabricLockUp island reads s
  | .trimInvalid => Sys2Proof.Machine.execTrimInvalid s
  | .devtimeSave t => Sys2Proof.Machine.execDevtimeSave t s
  | .swrstCore m => Sys2Proof.Machine.execSwrstCore m s
  | .swrstCoreMem m => Sys2Proof.Machine.execSwrstCoreMem m s
  | .swrstAll m => Sys2Proof.Machine.execSwrstAll m s
  | .bootContinue m => Sys2Proof.Machine.execBootContinue m s
  | .islHoldSet m island => Sys2Proof.Machine.execIslHoldSet m island s
  | .islHoldClear m island => Sys2Proof.Machine.execIslHoldClear m island s
  | .blockEnable m page block => Sys2Proof.Machine.execBlockEnable m page block s
  | .blockDisable m page block => Sys2Proof.Machine.execBlockDisable m page block s
  | .blockSrst m page block => Sys2Proof.Machine.execBlockSrst m page block s
  | .drainComplete page => Sys2Proof.Machine.execDrainComplete page s
  | .evtPendClear m page w same => Sys2Proof.Machine.execEvtPendClear m page w same s
  | .evtForce m page w => Sys2Proof.Machine.execEvtForce m page w s
  | .registerWrite m a bytes => Sys2Proof.Machine.execRegisterWrite m a bytes s
  | .loHalfRead m a => Sys2Proof.Machine.execLoHalfRead m a s
  | .loHalfWrite m a w => Sys2Proof.Machine.execLoHalfWrite m a w s
  | .hiHalfWrite m a w => Sys2Proof.Machine.execHiHalfWrite m a w s
  | .popRead m n => Sys2Proof.Machine.execPopRead m n s
  | .latCntRead m t => Sys2Proof.Machine.execLatCntRead m t s
  | .cmpFracRead m b => Sys2Proof.Machine.execCmpFracRead m b s
  | .line64LoRead m b => Sys2Proof.Machine.execLine64LoRead m b s
  | .evtLostRead m => Sys2Proof.Machine.execEvtLostRead m s
  | .arrayWindowWrite m a w => Sys2Proof.Machine.execArrayWindowWrite m a w s
  | .outputEnable m pad => Sys2Proof.Machine.execOutputEnable m pad s
  | .outputDisable m pad => Sys2Proof.Machine.execOutputDisable m pad s
  | .restFollowDone pad samples => Sys2Proof.Machine.execRestFollowDone pad samples s
  | .claspOpen m k => Sys2Proof.Machine.execClaspOpen m k s
  | .claspData m k w => Sys2Proof.Machine.execClaspData m k w s
  | .claspCommit m k => Sys2Proof.Machine.execClaspCommit m k s
  | .claspAbort m k => Sys2Proof.Machine.execClaspAbort m k s
  | .claspFree m k => Sys2Proof.Machine.execClaspFree m k s
  | .claspCommitPoint k => Sys2Proof.Machine.execClaspCommitPoint k s
  | .claspApplyComplete k => Sys2Proof.Machine.execClaspApplyComplete k s
  | .claspBatchDescriptor r => Sys2Proof.Machine.execClaspBatchDescriptor r s
  | .claspListFetched r data => Sys2Proof.Machine.execClaspListFetched r data s
  | .pcieLinkUp ready speed width => Sys2Proof.Machine.execPcieLinkUp ready speed width s
  | .hotReset => Sys2Proof.Machine.execHotReset s
  | .dataLinkDown => Sys2Proof.Machine.execDataLinkDown s
  | .submissionDoorbell n w => Sys2Proof.Machine.execSubmissionDoorbell n w s
  | .recordRingConsWrite n w => Sys2Proof.Machine.execRecordRingConsWrite n w s
  | .ringEnable n cfg => Sys2Proof.Machine.execRingEnable n cfg s
  | .ringDisable n cfg => Sys2Proof.Machine.execRingDisable n cfg s
  | .descriptorFetched n bytes => Sys2Proof.Machine.execDescriptorFetched n bytes s
  | .dmaReadError n cls err => Sys2Proof.Machine.execDmaReadError n cls err s
  | .coalesceTimeout t n => Sys2Proof.Machine.execCoalesceTimeout t n s
  | .heldRecordFlush n => Sys2Proof.Machine.execHeldRecordFlush n s
  | .wdtKick w => Sys2Proof.Machine.execWdtKick w s
  | .wdtWarn t => Sys2Proof.Machine.execWdtWarn t s
  | .wdtExpired t => Sys2Proof.Machine.execWdtExpired t s
  | .wdtStop m w => Sys2Proof.Machine.execWdtStop m w s
  | .jobStart k => Sys2Proof.Machine.execJobStart k s
  | .jobEnd k => Sys2Proof.Machine.execJobEnd k s
  | .jobStop k => Sys2Proof.Machine.execJobStop k s
  | .tileLoad b => Sys2Proof.Machine.execTileLoad b s
  | .tileStream b => Sys2Proof.Machine.execTileStream b s
  | .tilePrint b => Sys2Proof.Machine.execTilePrint b s
  | .tileFree b => Sys2Proof.Machine.execTileFree b s
  | .loadReadComplete b data => Sys2Proof.Machine.execLoadReadComplete b data s
  | .printPassEnd b => Sys2Proof.Machine.execPrintPassEnd b s
  | .planeReleaseComplete b p => Sys2Proof.Machine.execPlaneReleaseComplete b p s
  | .tileDecodeDone lane => Sys2Proof.Machine.execTileDecodeDone lane s
  | .tileCopyDone b => Sys2Proof.Machine.execTileCopyDone b s
  | .laneStallResume lane => Sys2Proof.Machine.execLaneStallResume lane s
  | .codecEncodeTile k host ctx => Sys2Proof.Machine.execCodecEncodeTile k host ctx s
  | .codecEncodeStream k host ctx => Sys2Proof.Machine.execCodecEncodeStream k host ctx s
  | .codecDecodeTile k host ctx => Sys2Proof.Machine.execCodecDecodeTile k host ctx s
  | .codecDecodeStream k host ctx => Sys2Proof.Machine.execCodecDecodeStream k host ctx s
  | .codecResume k host ctx => Sys2Proof.Machine.execCodecResume k host ctx s
  | .codecDiscard k host ctx => Sys2Proof.Machine.execCodecDiscard k host ctx s
  | .codecJobComplete k => Sys2Proof.Machine.execCodecJobComplete k s
  | .screeningComplete b => Sys2Proof.Machine.execScreeningComplete b s
  | .maskCheck m sets => Sys2Proof.Machine.execMaskCheck m sets s
  | .maskCheckDone k => Sys2Proof.Machine.execMaskCheckDone k s
  | .passCmd m bars => Sys2Proof.Machine.execPassCmd m bars s
  | .densityReport b => Sys2Proof.Machine.execDensityReport b s
  | .densityStaged b data => Sys2Proof.Machine.execDensityStaged b data s
  | .nzcLoadDone => Sys2Proof.Machine.execNzcLoadDone s
  | .encoderEdge t n fwd mark => Sys2Proof.Machine.execEncoderEdge t n fwd mark s
  | .sincosSample t n sin cos phase mark => Sys2Proof.Machine.execSincosSample t n sin cos phase mark s
  | .zeroTimeout t n => Sys2Proof.Machine.execZeroTimeout t n s
  | .deadReckoningLimit t n => Sys2Proof.Machine.execDeadReckoningLimit t n s
  | .chFaultClear m n => Sys2Proof.Machine.execChFaultClear m n s
  | .chCfgWrite m n w => Sys2Proof.Machine.execChCfgWrite m n w s
  | .triggerEdge t k rising => Sys2Proof.Machine.execTriggerEdge t k rising s
  | .triggerLatchComplete t k => Sys2Proof.Machine.execTriggerLatchComplete t k s
  | .lineLatchPoint t b => Sys2Proof.Machine.execLineLatchPoint t b s
  | .lineCommit t b => Sys2Proof.Machine.execLineCommit t b s
  | .lineBoundary t b => Sys2Proof.Machine.execLineBoundary t b s
  | .strobeWatchdogCut t nn => Sys2Proof.Machine.execStrobeWatchdogCut t nn s
  | .strobeCutRelease m b bits => Sys2Proof.Machine.execStrobeCutRelease m b bits s
  | .slotBankSwap m b => Sys2Proof.Machine.execSlotBankSwap m b s
  | .headTempMeasurement b => Sys2Proof.Machine.execHeadTempMeasurement b s
  | .captureArm m b w => Sys2Proof.Machine.execCaptureArm m b w s
  | .laneEnable m b k => Sys2Proof.Machine.execLaneEnable m b k s
  | .laneDisable m b k => Sys2Proof.Machine.execLaneDisable m b k s
  | .trsReceived t nn step locked errs rx => Sys2Proof.Machine.execTrsReceived t nn step locked errs rx s
  | .trainingTimeout t nn => Sys2Proof.Machine.execTrainingTimeout t nn s
  | .zlAckReceived t nn typ k id status => Sys2Proof.Machine.execZlAckReceived t nn typ k id status s
  | .zlAckTimeout t nn typ k id => Sys2Proof.Machine.execZlAckTimeout t nn typ k id s
  | .replayWindowEnd t nn => Sys2Proof.Machine.execReplayWindowEnd t nn s
  | .headerDeadline t nn => Sys2Proof.Machine.execHeaderDeadline t nn s
  | .returnLaneSilent t nn => Sys2Proof.Machine.execReturnLaneSilent t nn s
  | .headTempMsg t nn p => Sys2Proof.Machine.execHeadTempMsg t nn p s
  | .nchkMsg t nn p => Sys2Proof.Machine.execNchkMsg t nn p s
  | .hibStatusMsg t nn port p => Sys2Proof.Machine.execHibStatusMsg t nn port p s
  | .responseMsg t nn p => Sys2Proof.Machine.execResponseMsg t nn p s
  | .hibEventMsg t nn typ p => Sys2Proof.Machine.execHibEventMsg t nn typ p s
  | .spareTake m b => Sys2Proof.Machine.execSpareTake m b s
  | .spareRelease m b => Sys2Proof.Machine.execSpareRelease m b s
  | .zlHibWrite m b lane len => Sys2Proof.Machine.execZlHibWrite m b lane len s
  | .zlHibRead m b lane len => Sys2Proof.Machine.execZlHibRead m b lane len s
  | .zlNchk m b lane len => Sys2Proof.Machine.execZlNchk m b lane len s
  | .zlHibSpecific m b lane op len => Sys2Proof.Machine.execZlHibSpecific m b lane op len s
  | .telemPerWrite m w => Sys2Proof.Machine.execTelemPerWrite m w s
  | .arbRequest t inst r need panic work => Sys2Proof.Machine.execArbRequest t inst r need panic work s
  | .arbGrant t inst lane blocked => Sys2Proof.Machine.execArbGrant t inst lane blocked s
  | .arbPreemption t inst need blocked => Sys2Proof.Machine.execArbPreemption t inst need blocked s
  | .arbHoldCut t inst r lane need => Sys2Proof.Machine.execArbHoldCut t inst r lane need s
  | .arbStarve t inst r => Sys2Proof.Machine.execArbStarve t inst r s
  | .dramAccess t port ce ue victim => Sys2Proof.Machine.execDramAccess t port ce ue victim s
  | .refreshDue bank => Sys2Proof.Machine.execRefreshDue bank s
  | .mr4Poll ch rate doubled => Sys2Proof.Machine.execMr4Poll ch rate doubled s
  | .rdWindowStart => Sys2Proof.Machine.execRdWindowStart s
  | .dramInitDone => Sys2Proof.Machine.execDramInitDone s
  | .wdqWrite m ch w => Sys2Proof.Machine.execWdqWrite m ch w s
  | .caratRequest t c u => Sys2Proof.Machine.execCaratRequest t c u s
  | .caratGrant t => Sys2Proof.Machine.execCaratGrant t s
  | .caratRelease c u => Sys2Proof.Machine.execCaratRelease c u s
  | .lingerExpiry t lane => Sys2Proof.Machine.execLingerExpiry t lane s
  | .caratStarve t c => Sys2Proof.Machine.execCaratStarve t c s
  | .caratRateWindow t => Sys2Proof.Machine.execCaratRateWindow t s
  | .thermalRound sites => Sys2Proof.Machine.execThermalRound sites s
  | .calRunCmd m inst units => Sys2Proof.Machine.execCalRunCmd m inst units s
  | .calForce m inst units => Sys2Proof.Machine.execCalForce m inst units s
  | .calCancel m inst units => Sys2Proof.Machine.execCalCancel m inst units s
  | .calUnitStart t inst u => Sys2Proof.Machine.execCalUnitStart t inst u s
  | .adcFitDone t c => Sys2Proof.Machine.execAdcFitDone t c s
  | .calUnitComplete t inst u ok values => Sys2Proof.Machine.execCalUnitComplete t inst u ok values s
  | .calOverdue t inst u => Sys2Proof.Machine.execCalOverdue t inst u s
  | .calResultWrite m a w => Sys2Proof.Machine.execCalResultWrite m a w s
  | .parClaim t m => Sys2Proof.Machine.execParClaim t m s
  | .claimCollisionCheck t => Sys2Proof.Machine.execClaimCollisionCheck t s
  | .claimRetry t => Sys2Proof.Machine.execClaimRetry t s
  | .parHandover m => Sys2Proof.Machine.execParHandover m s
  | .parResync m => Sys2Proof.Machine.execParResync m s
  | .parDetach m => Sys2Proof.Machine.execParDetach m s
  | .parAbortLocket m => Sys2Proof.Machine.execParAbortLocket m s
  | .holdInFall t => Sys2Proof.Machine.execHoldInFall t s
  | .takeoverDecision t => Sys2Proof.Machine.execTakeoverDecision t s
  | .heartbeatReceived t h b => Sys2Proof.Machine.execHeartbeatReceived t h b s
  | .heartbeatSend t => Sys2Proof.Machine.execHeartbeatSend t s
  | .actionReceived t h stamp act => Sys2Proof.Machine.execActionReceived t h stamp act s
  | .actionStamp => Sys2Proof.Machine.execActionStamp s
  | .resolveReceived t h r => Sys2Proof.Machine.execResolveReceived t h r s
  | .telemReceived t h r => Sys2Proof.Machine.execTelemReceived t h r s
  | .digestReceived t h key digest => Sys2Proof.Machine.execDigestReceived t h key digest s
  | .digestWaitExpiry t => Sys2Proof.Machine.execDigestWaitExpiry t s
  | .locketReceived t h gen bytes part => Sys2Proof.Machine.execLocketReceived t h gen bytes part s
  | .locketPhaseComplete bytes => Sys2Proof.Machine.execLocketPhaseComplete bytes s
  | .locketMaxExpiry t => Sys2Proof.Machine.execLocketMaxExpiry t s
  | .controlReceived t h c => Sys2Proof.Machine.execControlReceived t h c s
  | .pairFrameAck t seq => Sys2Proof.Machine.execPairFrameAck t seq s
  | .pairFrameRetransmit t seq => Sys2Proof.Machine.execPairFrameRetransmit t seq s
  | .pairLinkLost t => Sys2Proof.Machine.execPairLinkLost t s
  | .graceExpiry t => Sys2Proof.Machine.execGraceExpiry t s
  | .pairLinkTraining t passed latency => Sys2Proof.Machine.execPairLinkTraining t passed latency s
  | .sbPing addr => Sys2Proof.Machine.execSbPing addr s
  | .sbRead addr off n => Sys2Proof.Machine.execSbRead addr off n s
  | .sbWrite addr off ws => Sys2Proof.Machine.execSbWrite addr off ws s
  | .sbLogRead addr seq max => Sys2Proof.Machine.execSbLogRead addr seq max s
  | .sbEvtPoll addr ack max => Sys2Proof.Machine.execSbEvtPoll addr ack max s
  | .sbAssign addr new => Sys2Proof.Machine.execSbAssign addr new s
  | .sbUnassign key => Sys2Proof.Machine.execSbUnassign key s
  | .sbSetRate t key rate => Sys2Proof.Machine.execSbSetRate t key rate s
  | .sbRateSwitch t => Sys2Proof.Machine.execSbRateSwitch t s
  | .sbEpochArm t epoch => Sys2Proof.Machine.execSbEpochArm t epoch s
  | .epochPulse => Sys2Proof.Machine.execEpochPulse s
  | .syncInEdge t => Sys2Proof.Machine.execSyncInEdge t s
  | .syncArmExpiry t => Sys2Proof.Machine.execSyncArmExpiry t s
  | .chainInChange high => Sys2Proof.Machine.execChainInChange high s
  | .logFromWrite m w => Sys2Proof.Machine.execLogFromWrite m w s
  | .tapExtest cells => Sys2Proof.Machine.execTapExtest cells s
  | .tapIdcode => Sys2Proof.Machine.execTapIdcode s
  | .tapSamplePreload pins load => Sys2Proof.Machine.execTapSamplePreload pins load s
  | .tapExtestPulse cells => Sys2Proof.Machine.execTapExtestPulse cells s
  | .tapExtestTrain cells => Sys2Proof.Machine.execTapExtestTrain cells s
  | .tapDbgreset => Sys2Proof.Machine.execTapDbgreset s
  | .tapRegaccess a w => Sys2Proof.Machine.execTapRegaccess a w s
  | .tapBypass code => Sys2Proof.Machine.execTapBypass code s
  | .prbsStart m w => Sys2Proof.Machine.execPrbsStart m w s
  | .prbsRunEnd t errs locked => Sys2Proof.Machine.execPrbsRunEnd t errs locked s
  | .regaccessLock m => Sys2Proof.Machine.execRegaccessLock m s
  | .diagLaneBert => Sys2Proof.Machine.execDiagLaneBert s
  | .diagAdcCapture data => Sys2Proof.Machine.execDiagAdcCapture data s
  | .diagEyeScan data => Sys2Proof.Machine.execDiagEyeScan data s
  | .diagSensorDump => Sys2Proof.Machine.execDiagSensorDump s
  | .vauxReturn => Sys2Proof.Machine.execVauxReturn s
  | .resetNRelease => Sys2Proof.Machine.execResetNRelease s
  | .auxOscillatorReturn => Sys2Proof.Machine.execAuxOscillatorReturn s
  | .pcieConfigWrite busMaster memSpace d3hot => Sys2Proof.Machine.execPcieConfigWrite busMaster memSpace d3hot s
  | .pcieLinkRecovery back speed width => Sys2Proof.Machine.execPcieLinkRecovery back speed width s
  | .bar2Write a bytes => Sys2Proof.Machine.execBar2Write a bytes s
  | .fireEdge t nn => Sys2Proof.Machine.execFireEdge t nn s
  | .firePulseEnd t nn => Sys2Proof.Machine.execFirePulseEnd t nn s
  | .zlTransmissionEnd t nn => Sys2Proof.Machine.execZlTransmissionEnd t nn s
  | .holdInRise t => Sys2Proof.Machine.execHoldInRise t s
  | .badTelemetryFrame t nn rx => Sys2Proof.Machine.execBadTelemetryFrame t nn rx s
  | .pairFrameCrcError => Sys2Proof.Machine.execPairFrameCrcError s
  | .encoderSignalError n => Sys2Proof.Machine.execEncoderSignalError n s
  | .sbInvalidFrame crc => Sys2Proof.Machine.execSbInvalidFrame crc s
  | .sbUnusableRequest addr cmd payload => Sys2Proof.Machine.execSbUnusableRequest addr cmd payload s
  | .tapTestLogicReset => Sys2Proof.Machine.execTapTestLogicReset s

end Sys2Proof.Machine
end

