-- ==== Sys2Proof/Machine/Step.lean ====
section
/-!
DEFINITION. Sys2Proof/Machine/Step.lean: one step takes the command at the front of the queue; on an empty queue the timebase advances by one tick.
-/
namespace Sys2Proof.Machine

open Sys2Proof

/-- The block with nothing to do: DEVTIME counts one tick of 2.5 ns while VAUX is present (R1, R71), with the slewing of R371 (log entry 2). -/
def State.idle (s : State) : State := if s.aux.vaux then s.tickSlewed else s

/-- One step: the command at the front of the queue, with the queue's rest; an idle tick without one. -/
def step (s : State) : Host.Outcome State Fault Refusal :=
  match s.pending with
  | [] => .next s.idle
  | c :: rest => exec c { s with pending := rest }

/-- The state with the command that a word spells at the front of the queue; no word spells one (log entry 1). -/
def State.withFetchWord (s : State) (nbits w : Nat) : State :=
  match decodeTableWord nbits w with
  | some c => { s with pending := c :: s.pending }
  | none => s

end Sys2Proof.Machine
end

