-- ==== Sys2Proof/Safety.lean ====
section
/-!
DEFINITION. Sys2Proof/Safety.lean: the terms in which statements about runs are made: the canonical form of memory, a device without supply, and the accesses that nothing
holds up.
-/
namespace Sys2Proof.Machine

open Sys2Proof

/-- The canonical form of a memory with default `d`: keys strictly rising, and no entry equal to what its key reads as without it. -/
abbrev Memory.wf {α : Type} [DecidableEq α] (d : Nat → α) (l : List (Nat × α)) : Prop :=
  (l.map Prod.fst).Pairwise (· < ·) ∧ ∀ e ∈ l, e.2 ≠ d e.1

/-- The register file and the DRAM are in canonical form. -/
abbrev State.memOk (s : State) : Prop := Memory.wf resetVal s.regs ∧ Memory.wf (fun _ => (0 : Byte)) s.dram

/-- The registers that reporting writes (R92 to R96, R137 to R147, R405, R419): the PBA, EVT_RAW, EVT_PEND and ERR_CODE of each page, EVQ and LOG_SEQ of SBP, SEQ and LOST of EVT, and the
record rings of DMA. -/
def toldReg (a : Nat) : Bool :=
  decide ((0x700 ≤ a ∧ a < 0x710) ∨ a % 0x1000 = 0x010 ∨ a % 0x1000 = 0x014 ∨ a % 0x1000 = 0x02C ∨ a = R.SBP_EVQ ∨ a = R.SBP_LOG_SEQ ∨ a = R.EVT_SEQ ∨ a = R.EVT_LOST
    ∨ (0x9800 ≤ a ∧ a < 0xA000 ∧ isSubmission ((a - 0x9800) / 0x20) = false))

/-- EVT_RAW of page `p` shows that event `b` has occurred (R93). -/
def State.shows (s : State) (p b : Nat) : Bool := bit (s.reg (R.EVT_RAW p)).toNat b

/-- No access waits: none that an apply holds (R103), and no side-band WRITE for the stamp of its word (R373). -/
def State.quiet (s : State) : Prop := s.aux.heldAcc = [] ∧ s.aux.sbWait = none

/-! Every unit that the spec gives the machine has its place in the lists that hold them: the islands and pads (R70, Table 2.5), the banks of DRAM, the planes, tile rings, decoder
lanes and codec rings, the bars, streams and clasp slots, the encoder channels and triggers, the ZaroLink lanes and heads, and the rings of the host interface. -/

def Aux.sized (a : Aux) : Prop := a.phases.length = 8 ∧ a.pads.length = 35

def Mem.sized (m : Mem) : Prop := m.postponed.length = 256

def Img.sized (g : Img) : Prop := g.planes.length = 512 ∧ g.rings.length = 8 ∧ g.lanes.length = 32 ∧ g.codec.length = 4

def Pix.sized (p : Pix) : Prop := p.img.sized ∧ p.scn.length = 8 ∧ p.nzc.length = 8 ∧ p.jobs.length = 4 ∧ p.bars.length = 8 ∧ p.slots.length = 16

def Fire.sized (f : Fire) : Prop := f.chans.length = 4 ∧ f.trigs.length = 4 ∧ f.clks.length = 8 ∧ f.bars.length = 8

def Zl.sized (z : Zl) : Prop := z.lanes.length = 72 ∧ z.heads.length = 512

def HostIf.sized (h : HostIf) : Prop := h.rings.length = 64

/-- All of them. -/
def State.sized (s : State) : Prop := s.aux.sized ∧ s.mem.sized ∧ s.pix.sized ∧ s.fire.sized ∧ s.zl.sized ∧ s.host.sized

/-- A write of `w` by master `m` goes straight to the register at `a`: the master reaches BAR 0, the word is a register of a page whose island runs, which the side-band may
write, no lockstep rule of a pair takes the write (R106), no apply holds the page (R103), and nothing is waiting. -/
structure State.Direct (s : State) (m : Master) (a : Nat) (w : Word) : Prop where
  reaches : s.reaches m = true
  quiet : s.quiet
  fabric : s.pix.fabric.holders = []
  page : placeOf a = .page (a / 0x1000)
  up : s.pageUp (a / 0x1000) = true
  alone : s.paired = false ∨ s.lockstepWrite (.page (a / 0x1000)) a w = false
  held : s.pageHeld (a / 0x1000) = false
  allowed : sideband m = true → s.sbDenied (.page (a / 0x1000)) a = false ∧ wdtReg a = false

/-- A read by master `m` goes straight to the register at `a`. -/
structure State.DirectRead (s : State) (m : Master) (a : Nat) : Prop where
  reaches : s.reaches m = true
  quiet : s.quiet
  fabric : s.pix.fabric.holders = []
  page : placeOf a = .page (a / 0x1000)
  up : s.pageUp (a / 0x1000) = true
  held : s.pageHeld (a / 0x1000) = false

end Sys2Proof.Machine
end

