-- ==== Sys2Proof/Certificates/Slice0/Obligations.lean ====
section
/-!
DEFINITION. Sys2Proof/Certificates/Slice0/Obligations.lean: the statements for the provers.
-/
open Sys2Proof Sys2Proof.Machine

/-! ### Supplies, clocks and resets (chapter 3) -/

/-- VAUX comes and goes (R63, R71, R72): a power-on starts from nothing, a brown-out holds every island, and after a brown-out DEVTIME resumes at the saved value plus 400,000
ticks. VIN comes and goes, and regulators fail and restart (R28, R64, R66): while VIN or the rails are out every VIN island is in reset. -/
def Obligations.Supplies : Prop :=
  (∀ s : State, s.aux.phases.length = 8 → ∃ t, exec .vauxPowerOn s = .next t ∧ t.devtime = 0 ∧ t.dram = [] ∧ t.aux.vaux = true ∧ t.up 0 = true
    ∧ (∀ i, 1 ≤ i → i ≤ 7 → t.phase i = .inReset) ∧ t.aux.todo = [1, 2, 3, 4, 5, 6, 7] ∧ t.quiet ∧ (∃ r, t.aux.log = [r] ∧ r.code = 0xFF01)
    ∧ (s.aux.resetN = false → t.aux.seq = .trim ∧ t.dev = .trimload))
  ∧ (∀ s : State, s.quiet → ∃ t, exec .vauxBrownOut s = .next t ∧ t.devtime = s.devtime ∧ t.dram = [] ∧ t.aux.vaux = false ∧ t.aux.railsUp = false
    ∧ (∀ i, i ≤ 7 → t.phase i = .inReset) ∧ t.aux.seq = .idle)
  ∧ (∀ s : State, s.aux.vaux = false → s.aux.phases.length = 8 → ∃ t, exec .vauxReturn s = .next t ∧ t.devtime = s.aux.savedTime + 400000
    ∧ t.aux.vaux = true ∧ t.up 0 = true ∧ (∀ i, 1 ≤ i → i ≤ 7 → t.phase i = s.phase i) ∧ t.aux.todo = [1, 2, 3, 4, 5, 6, 7]
    ∧ (∃ r, t.aux.log.getLast? = some r ∧ r.code = 0xFF01) ∧ (s.aux.resetN = false → t.aux.seq = .trim ∧ t.dev = .trimload))
  ∧ (∀ s : State, s.aux.vaux = true → s.aux.vin = false → s.dev = .auxonly → s.quiet → ∃ t, exec .vinValid s = .next t ∧ t.aux.vin = true ∧ t.aux.seq = .trim ∧ t.dev = .trimload
    ∧ t.aux.todo = s.aux.todo ∧ (∀ i, t.phase i = s.phase i) ∧ t.on F.PWR_REG_FAULT_LATCHED = false)
  ∧ (∀ s : State, s.aux.vaux = true → s.aux.vin = true → s.aux.railsUp = true → s.quiet → ∃ t, exec .vinBrownOut s = .next t ∧ t.aux.vin = false ∧ t.aux.railsUp = false
    ∧ t.aux.seq = .idle ∧ t.aux.todo = [1, 2, 3, 4, 5, 6, 7] ∧ (∀ i, 1 ≤ i → i ≤ 7 → t.phase i = .inReset) ∧ t.phase 0 = s.phase 0 ∧ t.dram = [] ∧ t.devtime = s.devtime)
  ∧ (∀ (rails : List Nat) (high : Bool) (s : State), s.aux.vaux = true → s.aux.vin = true → s.quiet → ∃ t, exec (.regulatorFault rails high) s = .next t ∧ t.aux.vin = true
    ∧ t.aux.railsUp = false ∧ t.aux.seq = .idle ∧ (∀ i, 1 ≤ i → i ≤ 7 → t.phase i = .inReset) ∧ t.phase 0 = s.phase 0 ∧ t.dram = []
    ∧ (t.aux.faultWait = true ↔ s.get F.PWR_REG_FAULT_COUNT < 2) ∧ ∃ r ∈ t.aux.log, r.code = 0xFF02)
  ∧ (∀ s : State, s.aux.vaux = true → s.aux.vin = true → s.aux.faultWait = true → s.dev = .auxonly → s.quiet → ∃ t, exec .regulatorRestart s = .next t ∧ t.aux.faultWait = false
    ∧ t.aux.seq = .trim ∧ t.dev = .trimload ∧ (∀ i, t.phase i = s.phase i))
  ∧ (∀ s : State, s.aux.vaux = true → s.aux.railsUp = true → ∃ t, exec .regulatorStartSuccess s = .next t ∧ t.get F.PWR_REG_FAULT_COUNT = 0 ∧ t.aux = s.aux
    ∧ ∀ a, a ≠ R.PWR_REG_FAULT → t.reg a = s.reg a)

/-- The release sequence (R65, R68, R81, R83, R84, R330): a valid trim image starts the regulators and a failed one is counted, the rails lead to the first island's clock, a
qualified clock releases its island, MEM's clock leads to training, and too few channels end in MEMFAULT. -/
def Obligations.ReleaseSequence : Prop :=
  (∀ (straps : List (List PadSample)) (s : State), s.aux.vaux = true → s.aux.seq = .trim → s.aux.vin = true → s.aux.railsUp = false → s.on F.PWR_REG_FAULT_LATCHED = false → s.quiet →
    ∃ t, exec (.trimLoadComplete true Config.otpCrc straps) s = .next t ∧ t.dev = .powerup ∧ t.aux.seq = .rails ∧ t.aux.todo = s.aux.todo ∧ t.on F.TRM_TRIM_STAT_VALID = true
      ∧ t.get F.TRM_TRIM_STAT_FAIL_CNT = 0 ∧ ∀ i, t.phase i = s.phase i)
  ∧ (∀ (whole : Bool) (crc : Word) (straps : List (List PadSample)) (s : State), s.aux.vaux = true → s.aux.seq = .trim → (whole = false ∨ crc ≠ Config.otpCrc) →
    s.get F.TRM_TRIM_STAT_FAIL_CNT = 2 → s.quiet → ∃ t, exec (.trimLoadComplete whole crc straps) s = .next t ∧ t.dev = .trimfault ∧ t.aux.seq = .idle
      ∧ ∃ r, t.aux.log.getLast? = some r ∧ r.code = 0xFF04)
  ∧ (∀ (i : Nat) (s : State), s.aux.vaux = true → s.aux.seq = .rails → s.dev ≠ .resethold → s.aux.todo.head? = some i → i < 2 → s.quiet →
    ∃ t, exec .railsInRegulation s = .next t ∧ t.aux.railsUp = true ∧ t.reg R.PWR_RAIL_STAT = 0x3F#32 ∧ t.aux.seq = .clock i)
  ∧ (∀ (i : Nat) (ref : Bool) (s : State), s.aux.vaux = true → i < s.aux.phases.length → (s.aux.seq = .clock i ∨ s.phase i = .releaseHeld) → s.quiet →
    ∃ t, exec (.islandClockQualified i ref) s = .next t ∧ t.up i = true ∧ (∀ j, j ≠ i → t.phase j = s.phase j) ∧ (s.aux.seq = .clock 2 → i = 2 → t.aux.seq = .training))
  ∧ (∀ (l : List ChannelTrained) (s : State), s.aux.vaux = true → s.aux.seq = .training → ((l.take 16).countP fun x => decide (x.result = 1)) < 8 → s.quiet →
    ∃ t, exec (.dramTrainingComplete l) s = .next t ∧ t.dev = .memfault ∧ t.aux.seq = .idle ∧ ∀ i, t.phase i = s.phase i)
  ∧ (∀ (m : Master) (i j : Nat) (s : State), s.Direct m R.RSC_BOOT_CTRL 1 → s.aux.seq = .bootHold j → s.aux.todo.head? = some i → s.islHeld i = false → s.aux.holdMark = false →
    ∃ t, exec (.bootContinue m) s = .next t ∧ t.aux.seq = .clock i ∧ t.aux.bootStop = false ∧ ∀ k, t.phase k = s.phase k)

/-- The reset pins (R72, R73, R82): RESET_N low clears every island but leaves AUX released, and its rise starts the trim load; PERST_N moves HOST alone and is logged. -/
def Obligations.ResetPins : Prop :=
  (∀ s : State, s.aux.vaux = true → s.dev ≠ .resethold → s.aux.phases.length = 8 → ∃ t, exec .resetN s = .next t ∧ t.aux.resetN = true ∧ t.aux.seq = .idle
    ∧ t.aux.todo = [1, 2, 3, 4, 5, 6, 7] ∧ (∀ i, 1 ≤ i → i ≤ 7 → t.phase i = .inReset) ∧ t.up 0 = true ∧ t.dev = .trimload ∧ t.dram = [] ∧ t.devtime = s.devtime)
  ∧ (∀ s : State, s.aux.vaux = true → s.aux.resetN = true → s.dev ≠ .resethold → s.quiet → ∃ t, exec .resetNRelease s = .next t ∧ t.aux.resetN = false ∧ t.aux.seq = .trim
    ∧ t.dev = .trimload ∧ t.aux.todo = s.aux.todo ∧ ∀ i, t.phase i = s.phase i)
  ∧ (∀ s : State, s.aux.vaux = true → s.aux.perstLow = false → s.quiet → ∃ t, exec .perstNAssert s = .next t ∧ t.aux.perstLow = true ∧ t.hostUp = false
    ∧ (∀ i, t.phase i = s.phase i) ∧ t.dram = s.dram ∧ t.aux.seq = s.aux.seq ∧ ∃ r, t.aux.log.getLast? = some r ∧ r.code = 0xFF06)
  ∧ (∀ s : State, s.aux.perstLow = true → s.quiet → ∃ t, exec .perstNDeassert s = .next t ∧ t.aux.perstLow = false ∧ (∀ i, t.phase i = s.phase i) ∧ t.dram = s.dram
    ∧ t.aux.seq = s.aux.seq)

/-- What a reset of the islands of `l` leaves, outside RESETHOLD (R72, R75, Table 3.6): these islands are in reset and the others stay, the trim load runs, and the reset is
logged. -/
def Restart (s t : State) (l : List Nat) : Prop :=
  (∀ i, 1 ≤ i → i ≤ 7 → i ∈ l → t.phase i = .inReset) ∧ (∀ i, i ∉ l → t.phase i = s.phase i) ∧ t.aux.seq = .trim ∧ t.dev = .trimload ∧ t.devtime = s.devtime
    ∧ t.aux.todo = ([1, 2, 3, 4, 5, 6, 7].filter fun i => s.aux.todo.contains i || l.contains i) ∧ (2 ∈ l → t.dram = []) ∧ ∃ r, t.aux.log.getLast? = some r ∧ r.code = 0xFF01

/-- Clock, fabric and scrub failures, and the debug reset (R69, R72, R84, R446; Table 3.6), outside RESETHOLD. Software resets (R72, R80, Table 3.6): a keyed write of SWRST
resets the islands of its scope. -/
def Obligations.Resets : Prop :=
  (∀ (i : Nat) (e : Int) (s : State), s.aux.vaux = true → 1 ≤ i → i ≤ 7 → s.dev ≠ .resethold → s.quiet → ∃ t, exec (.clockFailure [(i, e)]) s = .next t ∧ Restart s t [3, 4, 5, 6, i])
  ∧ (∀ (i n : Nat) (s : State), s.aux.vaux = true → 1 ≤ i → i ≤ 7 → s.dev ≠ .resethold → s.quiet → ∃ t, exec (.fabricLockUp i n) s = .next t ∧ Restart s t [3, 4, 5, 6, i])
  ∧ (∀ s : State, s.aux.vaux = true → s.dev ≠ .resethold → s.quiet → ∃ t, exec .trimInvalid s = .next t ∧ Restart s t [1, 2, 3, 4, 5, 6, 7])
  ∧ (∀ (e : Int) (s : State), s.aux.vaux = true → s.aux.osc = true → s.quiet → ∃ t, exec (.auxOscillatorFailure e) s = .next t ∧ t.aux.osc = false ∧ t.aux.seq = .idle
    ∧ (∀ i, 1 ≤ i → i ≤ 7 → t.phase i = .inReset) ∧ t.phase 0 = s.phase 0 ∧ t.sbAlive = false ∧ t.dram = [])
  ∧ (∀ s : State, s.aux.vaux = true → s.aux.osc = false → s.dev ≠ .resethold → s.quiet → ∃ t, exec .auxOscillatorReturn s = .next t ∧ t.aux.osc = true ∧ t.aux.seq = .trim
    ∧ t.dev = .trimload ∧ ∀ i, t.phase i = s.phase i)
  ∧ (∀ (t0 : Nat) (s : State), s.aux.vaux = true → ∃ t, exec (.devtimeSave t0) s = .next t ∧ t.devtime = max s.devtime t0
    ∧ t.aux.savedTime = max s.aux.savedTime (t.devtime / 400000 * 400000) ∧ t.regs = s.regs)
  ∧ (∀ (m : Master) (s : State), s.dev ≠ .resethold →
    (s.Direct m R.RSC_SWRST 0xA5C30001 → ∃ t, exec (.swrstCore m) s = .next t ∧ Restart s t [3, 4, 5, 6])
    ∧ (s.Direct m R.RSC_SWRST 0xA5C30002 → ∃ t, exec (.swrstCoreMem m) s = .next t ∧ Restart s t [2, 3, 4, 5, 6])
    ∧ (s.Direct m R.RSC_SWRST 0xA5C30003 → ∃ t, exec (.swrstAll m) s = .next t ∧ Restart s t [1, 2, 3, 4, 5, 6, 7]))

/-! ### Blocks, islands and event bits (chapters 3 and 4) -/

/-- Between `s` and `t` no other register differs than those of `l` and those that reporting writes. -/
def OnlyRegs (s t : State) (l : List Nat) : Prop := ∀ a, a ∉ l → toldReg a = false → t.reg a = s.reg a

/-- Block control (R86, R92, Table 3.12): an idle block starts, a running one drains and is idle at the end or starts again where a re-arm is pending; a reset gives an idle
block its register values from 0x040 on again, but for those that show what the device is (log entry 32) and those that reporting writes, and leaves any other block as it
is. -/
def Obligations.BlockControlAndReset : Prop :=
  (∀ (m : Master) (page block : Nat) (s : State), s.Direct m (R.CTRL page) (BitVec.ofNat 32 (256 * block + 1)) → s.on (F.S_FAULT page) = false →
    s.on (F.S_DRAINING page) = false → s.on (F.S_IDLE page) = true → ∃ t, exec (.blockEnable m page block) s = .next t ∧ t.on (F.C_ENABLE page) = true
      ∧ t.on (F.S_IDLE page) = false ∧ t.dram = s.dram ∧ t.devtime = s.devtime)
  ∧ (∀ (m : Master) (page block : Nat) (s : State), s.Direct m (R.CTRL page) (BitVec.ofNat 32 (256 * block)) → page ≠ P_PAR → s.on (F.S_DRAINING page) = false →
    s.on (F.S_IDLE page) = false → ∃ t, exec (.blockDisable m page block) s = .next t ∧ t.on (F.C_ENABLE page) = false ∧ t.on (F.S_DRAINING page) = true ∧ t.dram = s.dram
      ∧ OnlyRegs s t [R.CTRL page, R.STATE page])
  ∧ (∀ (m : Master) (block : Nat) (s : State), s.Direct m (R.CTRL P_PAR) (BitVec.ofNat 32 (256 * block)) → ¬ (s.role = .active ∧ s.dev.inJob = true) →
    s.on (F.S_DRAINING P_PAR) = false → s.on (F.S_IDLE P_PAR) = false → ∃ t, exec (.blockDisable m P_PAR block) s = .next t ∧ t.role = .solo)
  ∧ (∀ (page : Nat) (s : State), s.pageUp page = true → page < 0x34 → page ≠ P_NZC → s.on (F.S_DRAINING page) = true → s.on (F.S_REARM page) = false →
    ∃ t, exec (.drainComplete page) s = .next t ∧ t.on (F.S_DRAINING page) = false ∧ t.on (F.S_IDLE page) = true ∧ t.shows page 2 = true ∧ OnlyRegs s t [R.STATE page])
  ∧ (∀ (page : Nat) (s : State), s.pageUp page = true → page < 0x34 → page ≠ P_NZC → s.on (F.S_DRAINING page) = true → s.on (F.S_REARM page) = true →
    ∃ t, exec (.drainComplete page) s = .next t ∧ t.on (F.S_REARM page) = false ∧ t.on (F.S_DRAINING page) = false ∧ t.on (F.S_IDLE page) = false
      ∧ t.on (F.C_ENABLE page) = true ∧ t.shows page 2 = true)
  ∧ (∀ s : State, s.pageUp P_NZC = true → s.on (F.S_DRAINING P_NZC) = true → ∃ t, exec (.drainComplete P_NZC) s = .next t ∧ t.shows P_NZC 2 = true)
  ∧ (∀ (m : Master) (page block : Nat) (s : State), s.Direct m (R.CTRL page) (BitVec.ofNat 32 (256 * block + 2)) → page ≠ P_CAL → page ≠ P_CRT → s.on (F.S_IDLE page) = true →
    ∃ t, exec (.blockSrst m page block) s = .next t ∧ t.shows page 3 = true ∧ t.on (F.S_IDLE page) = true ∧ t.on (F.S_FAULT page) = false ∧ t.dram = s.dram
      ∧ ∀ a, a / 0x1000 = page → 0x040 ≤ a % 0x1000 → ¬ (page = 0 ∧ 0x700 ≤ a) → liveReg a = false → toldReg a = false → a ≠ R.PAR_CFG → t.reg a = resetVal a)
  ∧ (∀ (m : Master) (page block : Nat) (s : State), s.Direct m (R.CTRL page) (BitVec.ofNat 32 (256 * block + 2)) → page = P_CAL ∨ page = P_CRT → s.on (F.S_IDLE page) = true →
    ∃ t, exec (.blockSrst m page block) s = .next t ∧ t.shows page 3 = true ∧ t.dram = s.dram)
  ∧ (∀ (m : Master) (block : Nat) (s : State), s.Direct m (R.CTRL P_PAR) (BitVec.ofNat 32 (256 * block + 2)) → s.on (F.S_IDLE P_PAR) = true →
    ∃ t, exec (.blockSrst m P_PAR block) s = .next t ∧ t.get F.PAR_CFG_UNIT_ID = if s.on F.DEV_STRAPS_ROLE_PREF then 1 else 2)
  ∧ (∀ (m : Master) (page block : Nat) (s : State), s.Direct m (R.CTRL page) (BitVec.ofNat 32 (256 * block + 2)) → s.on (F.S_IDLE page) = false →
    ∃ t, exec (.blockSrst m page block) s = .next t ∧ t.shows page 1 = true ∧ OnlyRegs s t [] ∧ t.dram = s.dram)

/-- ISL_HOLD (R88, Table 3.6): a bit that becomes 1 puts its island into reset, but not in a job, and one that becomes 0 makes it wait for its clock. EVT_PEND and EVT_FORCE
(R93): bits written 1 clear PEND and RAW, but for those whose event occurs in the same cycle; forcing sets EVT_RAW as the event would. -/
def Obligations.IslandHoldAndEvents : Prop :=
  (∀ (m : Master) (i : Nat) (s : State), s.Direct m R.RSC_ISL_HOLD (s.reg R.RSC_ISL_HOLD ||| BitVec.ofNat 32 (2 ^ i)) → 4 ≤ i → i ≤ 6 → s.islHeld i = false →
    s.dev.inJob = false → i < s.aux.phases.length → ∃ t, exec (.islHoldSet m i) s = .next t ∧ t.phase i = .inReset ∧ (∀ j, j ≠ i → t.phase j = s.phase j)
      ∧ t.islHeld i = true ∧ (∀ j, j ≠ i → t.islHeld j = s.islHeld j))
  ∧ (∀ (m : Master) (i : Nat) (s : State), s.Direct m R.RSC_ISL_HOLD (s.reg R.RSC_ISL_HOLD ||| BitVec.ofNat 32 (2 ^ i)) → 4 ≤ i → i ≤ 6 → s.islHeld i = false →
    s.dev.inJob = true → ∃ t, exec (.islHoldSet m i) s = .next t ∧ (∀ j, t.phase j = s.phase j) ∧ (∀ j, t.islHeld j = s.islHeld j) ∧ t.shows P_RSC 1 = true)
  ∧ (∀ (m : Master) (i : Nat) (s : State), s.Direct m R.RSC_ISL_HOLD (s.reg R.RSC_ISL_HOLD &&& ~~~(BitVec.ofNat 32 (2 ^ i))) → 4 ≤ i → i ≤ 6 → s.islHeld i = true →
    s.phase i = .inReset → s.aux.todo.contains i = false → s.dev ≠ .auxonly → s.dev ≠ .resethold → s.aux.seq = .idle → i < s.aux.phases.length →
    ∃ t, exec (.islHoldClear m i) s = .next t ∧ t.phase i = .releaseHeld ∧ (∀ j, j ≠ i → t.phase j = s.phase j) ∧ t.islHeld i = false)
  ∧ (∀ (m : Master) (page : Nat) (w same : Word) (s : State), s.Direct m (R.EVT_PEND page) (w &&& ~~~same) → ∃ t, exec (.evtPendClear m page w same) s = .next t
    ∧ t.reg (R.EVT_PEND page) = s.reg (R.EVT_PEND page) &&& ~~~(w &&& ~~~same) ∧ t.reg (R.EVT_RAW page) = s.reg (R.EVT_RAW page) &&& ~~~(w &&& ~~~same)
    ∧ (∀ a, a ≠ R.EVT_PEND page → a ≠ R.EVT_RAW page → a ≠ R.ERR_CODE page → t.reg a = s.reg a) ∧ t.dram = s.dram ∧ t.out = s.out)
  ∧ (∀ (m : Master) (page : Nat) (w : Word) (s : State), s.Direct m (R.EVT_FORCE page) w → ∃ t, exec (.evtForce m page w) s = .next t
    ∧ (∀ b, b < 4 + (blockEvents page).length → bit w.toNat b = true → t.shows page b = true) ∧ OnlyRegs s t [] ∧ t.dram = s.dram)

/-! ### Register accesses (chapter 4) -/

/-- The word that four enabled bytes spell (R6). -/
def wordOf (b0 b1 b2 b3 : Byte) : Word := BitVec.ofNat 32 (leNat [b0, b1, b2, b3])

/-- A register write (R7, R96, R97, R106): an aligned 32-bit write of a plain register changes its RW bits and nothing else; one of another width, one that would only change
read-only bits, and in a pair one of a lockstep register on a STANDBY unit are refused, which changes nothing but what REFUSED reports. -/
def Obligations.RegisterWrites : Prop :=
  (∀ (m : Master) (a i j : Nat) (r : RegRow) (b0 b1 b2 b3 : Byte) (s : State), s.Direct m a (wordOf b0 b1 b2 b3) → a % 4 = 0 → regRow a = some (r, i, j) →
    0x040 ≤ a % 0x1000 → a / 0x1000 ∈ [P_PWR, P_CLK, P_TRM, P_TMB, P_HIF, P_SBP, P_CHN, P_PLK, P_CDC, P_IMG, P_MEM, P_ARB] → r.claspOnly = false → r.pair = false →
    s.openBits a = 0 → onlyReadOnly r a i (s.live a) (wordOf b0 b1 b2 b3) = false → rowInRange r (wordOf b0 b1 b2 b3) = true →
    s.writeBars m a i j r.off (wordOf b0 b1 b2 b3) = none → (∀ l, loOf a = some l → s.heldLo m l = none) →
    ∃ t, exec (.registerWrite m a [some b0, some b1, some b2, some b3]) s = .next t ∧ t.reg a = writtenWord r a i (s.reg a) (wordOf b0 b1 b2 b3)
      ∧ (∀ b, b ≠ a → t.reg b = s.reg b) ∧ t.dram = s.dram ∧ t.aux = s.aux ∧ t.out = s.out)
  ∧ (∀ (m : Master) (a : Nat) (b : Byte) (s : State), s.reaches m = true → s.quiet → s.pix.fabric.holders = [] → placeOf (4 * (a / 4)) = .page (a / 0x1000) →
    s.pageUp (a / 0x1000) = true → ∃ t, exec (.registerWrite m a [some b]) s = .next t ∧ t.shows (a / 0x1000) 1 = true ∧ OnlyRegs s t [] ∧ t.dram = s.dram)
  ∧ (∀ (m : Master) (a i j : Nat) (r : RegRow) (b0 b1 b2 b3 : Byte) (s : State), s.Direct m a (wordOf b0 b1 b2 b3) → a % 4 = 0 → regRow a = some (r, i, j) →
    0x040 ≤ a % 0x1000 → a / 0x1000 ≠ P_CLS → r.claspOnly = false → s.openBits a = 0 → a ≠ R.DEV_GPIO_IN → wdtReg a = false → onlyReadOnly r a i (s.live a) (wordOf b0 b1 b2 b3) = true →
    ∃ t, exec (.registerWrite m a [some b0, some b1, some b2, some b3]) s = .next t ∧ t.shows (a / 0x1000) 1 = true ∧ OnlyRegs s t [] ∧ t.dram = s.dram)
  ∧ (∀ (a : Nat) (b0 b1 b2 b3 : Byte) (s : State), s.reaches .host = true → s.quiet → s.pix.fabric.holders = [] → placeOf a = .page (a / 0x1000) →
    s.pageUp (a / 0x1000) = true → a % 4 = 0 → s.role = .standby → s.lockstepWrite (.page (a / 0x1000)) a (wordOf b0 b1 b2 b3) = true →
    ∃ t, exec (.registerWrite .host a [some b0, some b1, some b2, some b3]) s = .next t ∧ t.shows (a / 0x1000) 1 = true ∧ OnlyRegs s t [] ∧ t.dram = s.dram)

/-- 64-bit quantities in two registers (R8): a read of the _LO half holds the _HI half for the same master, whose read takes it; a write of the _LO half is held until the _HI
half is written, and both then take their values at once. -/
def Obligations.HalfAccesses : Prop :=
  (∀ (m : Master) (a i j : Nat) (r : RegRow) (s : State), s.DirectRead m a → regRow a = some (r, i, j) → r.pair = true → captureSet a = [] → captureOf a = none →
    s.captured m a = none → s.openBits a = 0 → a ≠ R.EVT_LOST → ¬ (a / 0x1000 = P_DMA ∧ 0x800 ≤ a % 0x1000 ∧ a % 0x20 = 0x18) → ∃ t, exec (.loHalfRead m a) s = .next t ∧ t.out = .readReply m (s.live a) :: s.out
      ∧ t.captured m (a + 4) = some (s.live (a + 4)) ∧ t.regs = s.regs ∧ t.dram = s.dram)
  ∧ (∀ (m : Master) (a i j : Nat) (r : RegRow) (w : Word) (s : State), s.DirectRead m a → regRow a = some (r, i, j) → captureSet a = [] → captureOf a = none →
    s.captured m a = some w → ∃ t, exec (.loHalfRead m a) s = .next t ∧ t.out = .readReply m w :: s.out ∧ t.captured m a = none ∧ t.regs = s.regs ∧ t.dram = s.dram)
  ∧ (∀ (m : Master) (a i j : Nat) (r : RegRow) (w : Word) (s : State), s.Direct m a w → regRow a = some (r, i, j) → 0x040 ≤ a % 0x1000 →
    a / 0x1000 ∉ [P_CLS, P_CAL, P_MCH] → r.pair = true → r.claspOnly = false → rwBits r a i ≠ 0 → s.openBits a = 0 →
    onlyReadOnly r a i (s.live a) w = false → rowInRange r w = true → s.writeBars m a i j r.off w = none →
    ∃ t, exec (.loHalfWrite m a w) s = .next t ∧ t.heldLo m a = some w ∧ t.regs = s.regs ∧ t.dram = s.dram ∧ t.out = s.out)
  ∧ (∀ (m : Master) (a i j k l : Nat) (r q : RegRow) (w v : Word) (s : State), s.Direct m (a + 4) w → regRow (a + 4) = some (r, i, j) → regRow a = some (q, k, l) →
    0x040 ≤ (a + 4) % 0x1000 → a / 0x1000 = (a + 4) / 0x1000 → a / 0x1000 ∈ [P_EVT, P_HIF, P_SBP, P_CDC, P_IMG, P_PLK] → q.pair = true → r.pair = false → r.claspOnly = false →
    s.openBits (a + 4) = 0 → onlyReadOnly r (a + 4) i (s.live (a + 4)) w = false → rowInRange r w = true → s.writeBars m (a + 4) i j r.off w = none →
    a + 4 ≠ R.EVT_LOG_FROM → s.heldLo m a = some v →
    ∃ t, exec (.hiHalfWrite m (a + 4) w) s = .next t ∧ t.reg a = writtenWord q a k (s.reg a) v ∧ t.reg (a + 4) = writtenWord r (a + 4) i (s.reg (a + 4)) w
      ∧ t.heldLo m a = none ∧ (∀ b, b ≠ a → b ≠ a + 4 → t.reg b = s.reg b) ∧ t.dram = s.dram)

/-- Reads that do something (R8, R237, R243, R419, R429): the registers of a latch, a compare position and an anchor hold what they showed for the same master, and EVT LOST
arms RECORD_LOST again. Array windows and LOG_FROM (R100, R210, R219, R261, R424): the host's write outside a job is stored without the reserved bits, one to the history
set in force is refused, and a write of LOG_FROM copies the record asked for to ring 61. -/
def Obligations.ReadsAndWindows : Prop :=
  (∀ (m : Master) (k : Nat) (s : State), s.DirectRead m (R.POS_LAT_CNT k) → k < 4 → ∃ t, exec (.latCntRead m k) s = .next t
    ∧ t.out = .readReply m (s.reg (R.POS_LAT_CNT k)) :: s.out ∧ t.captured m (R.POS_LAT_WC_LO k) = some (s.reg (R.POS_LAT_WC_LO k))
    ∧ t.captured m (R.POS_LAT_WC_HI k) = some (s.reg (R.POS_LAT_WC_HI k)) ∧ t.captured m (R.POS_LAT_FRAC k) = some (s.reg (R.POS_LAT_FRAC k))
    ∧ t.captured m (R.POS_LAT_TIME_LO k) = some (s.reg (R.POS_LAT_TIME_LO k)) ∧ t.captured m (R.POS_LAT_TIME_HI k) = some (s.reg (R.POS_LAT_TIME_HI k)) ∧ t.regs = s.regs)
  ∧ (∀ (m : Master) (b : Nat) (s : State), s.DirectRead m (R.LCK_CMP_FRAC b) → b < 8 → ∃ t, exec (.cmpFracRead m b) s = .next t
    ∧ t.out = .readReply m (s.reg (R.LCK_CMP_FRAC b)) :: s.out ∧ t.captured m (R.LCK_CMP_LO b) = some (s.reg (R.LCK_CMP_LO b))
    ∧ t.captured m (R.LCK_CMP_HI b) = some (s.reg (R.LCK_CMP_HI b)) ∧ t.regs = s.regs)
  ∧ (∀ (m : Master) (b : Nat) (s : State), s.DirectRead m (R.TMB_LINE64_LO b) → b < 8 → ∃ t, exec (.line64LoRead m b) s = .next t
    ∧ t.out = .readReply m (s.reg (R.TMB_LINE64_LO b)) :: s.out ∧ t.captured m (R.TMB_LINE64_HI b) = some (s.reg (R.TMB_LINE64_HI b))
    ∧ t.captured m (R.TMB_BOUND_TIME_LO b) = some (s.reg (R.TMB_BOUND_TIME_LO b)) ∧ t.captured m (R.TMB_BOUND_TIME_HI b) = some (s.reg (R.TMB_BOUND_TIME_HI b))
    ∧ t.regs = s.regs)
  ∧ (∀ (m : Master) (s : State), s.DirectRead m R.EVT_LOST → s.captured m R.EVT_LOST = none → ∃ t, exec (.evtLostRead m) s = .next t
    ∧ t.out = .readReply m (s.reg R.EVT_LOST) :: s.out ∧ t.pix.lostArmed = true ∧ t.regs = s.regs ∧ t.dram = s.dram)
  ∧ (∀ (a b : Nat) (w : Word) (s : State), s.reaches .host = true → s.quiet → s.pix.fabric.holders = [] → s.up 3 = true → s.role = .solo → placeOf a = .tone b →
    s.inJob b = false → ∃ t, exec (.arrayWindowWrite .host a w) s = .next t ∧ t.reg a = w &&& 0xDFFFFFFF#32 ∧ (∀ c, c ≠ a → t.reg c = s.reg c) ∧ t.dram = s.dram ∧ t.out = s.out)
  ∧ (∀ (a b : Nat) (w : Word) (s : State), s.reaches .host = true → s.quiet → s.pix.fabric.holders = [] → s.up 3 = true → s.role = .solo → placeOf a = .history b →
    a / 8 % 2 ≠ s.setInForce b → ∃ t, exec (.arrayWindowWrite .host a w) s = .next t ∧ t.reg a = w &&& 0xFFFFFF00#32 ∧ (∀ c, c ≠ a → t.reg c = s.reg c) ∧ t.dram = s.dram)
  ∧ (∀ (a b : Nat) (w : Word) (s : State), s.reaches .host = true → s.quiet → s.pix.fabric.holders = [] → s.up 3 = true → s.role = .solo → placeOf a = .history b →
    a / 8 % 2 = s.setInForce b → ∃ t, exec (.arrayWindowWrite .host a w) s = .next t ∧ OnlyRegs s t [] ∧ t.dram = s.dram ∧ (s.up 4 = true → t.shows (P_FIRE b) 1 = true))
  ∧ (∀ (m : Master) (l : List Rec) (r : Rec) (s : State), s.Direct m R.EVT_LOG_FROM (s.reg R.SBP_LOG_SEQ - 1) → s.aux.log = l ++ [r] → s.ringRunning 61 = true →
    s.dmaOk = true → s.ringFill 61 < s.ringSize 61 → (s.rt 61).held = [] → ∃ t, exec (.logFromWrite m (s.reg R.SBP_LOG_SEQ - 1)) s = .next t
      ∧ .memWrite (s.ringEntry 61 (s.reg (R.DMA_RING_PROD 61)).toNat) (padTo 32 r.bytes) ∈ t.out ∧ t.reg (R.DMA_RING_PROD 61) = s.reg (R.DMA_RING_PROD 61) + 1
      ∧ t.aux.log = s.aux.log ∧ t.dram = s.dram)

/-! ### Outputs (chapter 2) -/

/-- The output pads (R42 to R47, R49, Table 2.7): an enable that takes effect starts rest-follow, the samples of which decide what the pad drives, and a pad whose enable is
cleared returns to rest at once, a FIRE group after the pulse in progress. -/
def Obligations.OutputPads : Prop :=
  (∀ (m : Master) (p : Nat) (s : State), (p < 15 ∨ 16 ≤ p ∧ p < 32) → s.Direct m (enableBit p).1 (s.reg (enableBit p).1 ||| BitVec.ofNat 32 (2 ^ (enableBit p).2)) →
    s.pad p = .rest → p < s.aux.pads.length → s.padAllowed p = true → s.inStop = false → ∃ t, exec (.outputEnable m p) s = .next t ∧ t.pad p = .follow s.devtime none
      ∧ t.padBit p = true ∧ t.dram = s.dram ∧ t.dev = s.dev)
  ∧ (∀ (m : Master) (p : Nat) (s : State), (p < 15 ∨ 16 ≤ p ∧ p < 32) → s.Direct m (enableBit p).1 (s.reg (enableBit p).1 &&& ~~~(BitVec.ofNat 32 (2 ^ (enableBit p).2))) →
    p < s.aux.pads.length → (p < 8 → s.pulsing p = false) → ∃ t, exec (.outputDisable m p) s = .next t ∧ t.pad p = .rest ∧ t.padBit p = false ∧ t.dram = s.dram ∧ t.dev = s.dev)
  ∧ (∀ (p at_ : Nat) (held : Option Bool) (samples : List (List PadSample)) (s : State), s.up 0 = true → p < 8 → p < s.aux.pads.length → s.pad p = .follow at_ held →
    (∀ i < 9, decided (nth samples i) = some false) → ∃ t, exec (.restFollowDone p samples) s = .next t ∧ t.pad p = .driving (List.replicate 9 false)
      ∧ t.on ⟨R.DEV_OUTGRP_ACT, p, p⟩ = true ∧ OnlyRegs s t [R.DEV_OUTGRP_ACT] ∧ t.dram = s.dram)
  ∧ (∀ (p at_ i : Nat) (held : Option Bool) (samples : List (List PadSample)) (s : State), s.up 0 = true → p < 8 → p < s.aux.pads.length → s.pad p = .follow at_ held →
    i < 9 → decided (nth samples i) ≠ some false → ∃ t, exec (.restFollowDone p samples) s = .next t ∧ t.pad p = .rest ∧ t.padBit p = false ∧ t.shows P_DEV 5 = true
      ∧ OnlyRegs s t [R.DEV_OUTGRP_ACT, R.DEV_OUTGRP_EN])
  ∧ (∀ (p at_ : Nat) (level : Bool) (held : Option Bool) (samples : List (List PadSample)) (s : State), s.up 0 = true → 16 ≤ p → p < 32 → p < s.aux.pads.length →
    s.pad p = .follow at_ held → decided (nth samples 0) = some level → ∃ t, exec (.restFollowDone p samples) s = .next t ∧ t.pad p = .driving [held.getD level]
      ∧ bit (t.reg R.DEV_GPIO_OUT).toNat (p - 16) = held.getD level ∧ OnlyRegs s t [R.DEV_GPIO_OUT])
  ∧ (∀ (p at_ : Nat) (l0 l1 l2 : Bool) (held : Option Bool) (samples : List (List PadSample)) (s : State), s.up 0 = true → 8 ≤ p → p < 12 → p < s.aux.pads.length →
    s.pad p = .follow at_ held → decided (nth samples 0) = some l0 → decided (nth samples 1) = some l1 → decided (nth samples 2) = some l2 →
    ∃ t, exec (.restFollowDone p samples) s = .next t ∧ t.pad p = .driving [l0, l1, l2] ∧ OnlyRegs s t [R.DEV_OUTGRP_ACT])
  ∧ (∀ (p at_ : Nat) (held : Option Bool) (samples : List (List PadSample)) (s : State), s.up 0 = true → 12 ≤ p → p < 15 → p < s.aux.pads.length → s.pad p = .follow at_ held →
    decided (nth samples 0) = none → ∃ t, exec (.restFollowDone p samples) s = .next t ∧ t.pad p = .driving [s.safeLevel p] ∧ t.shows P_DEV 4 = true
      ∧ OnlyRegs s t [R.DEV_OUTGRP_ACT])

/-! ### Two rules stated whole -/

/-- ACCESS (R95): a write of it by the host takes effect; one by the side-band, or by the JTAG port, which has the side-band's permissions (R446), is refused with SB_DENIED on every
page that is up, whatever SB_WRITE says; the clasp engine and the pair-apply requester make no access of their own, and no clasp entry may name ACCESS. -/
def Obligations.AccessWrites : Prop :=
  (∀ (p i j : Nat) (r : RegRow) (b0 b1 b2 b3 : Byte) (s : State), s.Direct .host (R.ACCESS p) (wordOf b0 b1 b2 b3) → regRow (R.ACCESS p) = some (r, i, j) →
    onlyReadOnly r (R.ACCESS p) i (s.live (R.ACCESS p)) (wordOf b0 b1 b2 b3) = false →
    ∃ t, exec (.registerWrite .host (R.ACCESS p) [some b0, some b1, some b2, some b3]) s = .next t
      ∧ t.reg (R.ACCESS p) = writtenWord r (R.ACCESS p) i (s.reg (R.ACCESS p)) (wordOf b0 b1 b2 b3) ∧ (∀ a, a ≠ R.ACCESS p → t.reg a = s.reg a) ∧ t.dram = s.dram ∧ t.out = s.out)
  ∧ (∀ (m : Master) (p : Nat) (b0 b1 b2 b3 : Byte) (s : State), m = .sideband ∨ m = .debug → s.reaches m = true → s.quiet → s.pix.fabric.holders = [] → p < 0x34 →
    s.pageUp p = true → ∃ t, exec (.registerWrite m (R.ACCESS p) [some b0, some b1, some b2, some b3]) s = .next t ∧ t.reg (R.ACCESS p) = s.reg (R.ACCESS p)
      ∧ t.shows p 1 = true ∧ (t.reg (R.ERR_CODE p)).toNat % 0x1000000 = 0x028 * 0x1000 + 0x400 + eSbDenied ∧ OnlyRegs s t [] ∧ t.dram = s.dram)
  ∧ (∀ (addr p : Nat) (w : Word) (s : State), s.sbAlive = true → addr ≠ 0x3F → s.sbMine addr = true → s.quiet → s.pix.fabric.holders = [] → p < 0x34 → p ≠ P_SBP →
    s.pageUp p = true → s.pageHeld p = false → ∃ t, exec (.sbWrite addr (R.ACCESS p) [w]) s = .next t ∧ t.reg (R.ACCESS p) = s.reg (R.ACCESS p) ∧ t.shows p 1 = true
      ∧ (t.reg (R.ERR_CODE p)).toNat % 0x1000000 = 0x028 * 0x1000 + 0x400 + eSbDenied
      ∧ .sbReply (sbFrame addr 0x03 (leBytes 1 1 ++ leBytes 1 eSbDenied ++ leBytes 1 0)) ∈ t.out ∧ OnlyRegs s t [R.SBP_RX_FRAMES, R.SBP_TX_FRAMES])
  ∧ (∀ (m : Master) (p : Nat) (l : List (Option Byte)) (s : State), m = .claspEngine ∨ m = .pairApply → exec (.registerWrite m (R.ACCESS p) l) s = .next s)
  ∧ ∀ p, p < 0x34 → claspCapable (R.ACCESS p) = false

/-- POP (R138): a read on a record ring claims the oldest entry written but not yet claimed, with its slot and VALID, and releases nothing; with no such entry it answers VALID = 0
and changes nothing, and on a submission ring it answers 0 and changes nothing. A write of CONS moves the claim index up to CONS where it would stay below, and leaves it otherwise. -/
def Obligations.PopReads : Prop :=
  (∀ (m : Master) (n : Nat) (s : State), s.DirectRead m (R.DMA_RING_POP n) → n < 64 → isSubmission n = false → (s.rt n).claim ≠ (s.reg (R.DMA_RING_PROD n)).toNat →
    n < s.host.rings.length → s.captured m (R.DMA_RING_POP n) = none →
    ∃ t, exec (.popRead m n) s = .next t ∧ t.out = .readReply m (BitVec.ofNat 32 (0x80000000 + (s.rt n).claim % s.ringSize n)) :: s.out
      ∧ (t.rt n).claim = ((s.rt n).claim + 1) % 2 ^ 32 ∧ (∀ k, k ≠ n → t.rt k = s.rt k) ∧ t.regs = s.regs ∧ t.dram = s.dram)
  ∧ (∀ (m : Master) (n : Nat) (s : State), s.DirectRead m (R.DMA_RING_POP n) → n < 64 → isSubmission n = false → (s.rt n).claim = (s.reg (R.DMA_RING_PROD n)).toNat →
    s.captured m (R.DMA_RING_POP n) = none →
    ∃ t, exec (.popRead m n) s = .next t ∧ t.out = .readReply m 0 :: s.out ∧ t.host = s.host ∧ t.regs = s.regs ∧ t.dram = s.dram)
  ∧ (∀ (m : Master) (n : Nat) (s : State), s.DirectRead m (R.DMA_RING_POP n) → n < 64 → isSubmission n = true → s.captured m (R.DMA_RING_POP n) = none →
    ∃ t, exec (.popRead m n) s = .next t ∧ t.out = .readReply m 0 :: s.out ∧ t.host = s.host ∧ t.regs = s.regs ∧ t.dram = s.dram)
  ∧ (∀ (n : Nat) (w : Word) (s : State), s.Direct .host (R.DMA_RING_CONS n) w → n < 64 → isSubmission n = false → s.consPast n w = false →
    (s.rt n).held = [] → n < s.host.rings.length → ∃ t, exec (.recordRingConsWrite n w) s = .next t ∧ t.reg (R.DMA_RING_CONS n) = w
      ∧ (t.rt n).claim = (if (s.reg (R.DMA_RING_PROD n) - w).toNat < (s.reg (R.DMA_RING_PROD n) - BitVec.ofNat 32 (s.rt n).claim).toNat then w.toNat else (s.rt n).claim))

/-! ### Clasps (chapter 4) -/

/-- The commands of a clasp slot (R107 to R111, Table 4.13): OPEN takes the next sequence number, DATA stages an entry, COMMIT arms the slot, ABORT ends it unapplied, and FREE
empties it. -/
def Obligations.ClaspCommands : Prop :=
  (∀ (m : Master) (k : Nat) (s : State), s.Direct m (R.CLS_CMD k) 1 → k < 16 → k < s.pix.slots.length → slotOwner m k = true →
    (s.slotState k = clFree ∨ s.slotState k = clDone ∨ s.slotState k = clAborted) → ∃ t, exec (.claspOpen m k) s = .next t ∧ t.slotState k = clOpen
      ∧ (t.slot k).entries = [] ∧ t.get (F.CLS_SEQ k) = s.get F.CLS_NEXT_SEQ ∧ t.get F.CLS_NEXT_SEQ = (s.get F.CLS_NEXT_SEQ + 1) % 65536 ∧ t.dram = s.dram ∧ t.out = s.out)
  ∧ (∀ (m : Master) (k : Nat) (w : Word) (s : State), s.Direct m (R.CLS_DATA k) w → k < 16 → k < s.pix.slots.length → slotOwner m k = true → s.slotState k = clOpen →
    claspCapable (s.reg (R.CLS_ADDR k)).toNat = true → ((s.slot k).entries.any fun e => e.1 == (s.reg (R.CLS_ADDR k)).toNat) = false → (s.slot k).entries.length < 256 →
    (8 ≤ k → s.on ⟨R.ACCESS ((s.reg (R.CLS_ADDR k)).toNat / 0x1000), 0, 0⟩ = true) → ∃ t, exec (.claspData m k w) s = .next t
      ∧ (t.slot k).entries = (s.slot k).entries ++ [((s.reg (R.CLS_ADDR k)).toNat, w)] ∧ t.get (F.CLS_STATUS_COUNT k) = (s.slot k).entries.length + 1 ∧ t.slotState k = clOpen
      ∧ t.dram = s.dram ∧ t.out = s.out)
  ∧ (∀ (m : Master) (k : Nat) (s : State), s.Direct m (R.CLS_CMD k) 2 → k < 16 → k < s.pix.slots.length → slotOwner m k = true → s.slotState k = clOpen →
    s.clPassed k = false → ∃ t, exec (.claspCommit m k) s = .next t ∧ t.slotState k = clArmed ∧ (t.slot k).entries = (s.slot k).entries ∧ (t.slot k).armedAt = s.devtime
      ∧ t.dram = s.dram ∧ t.out = s.out)
  ∧ (∀ (m : Master) (k : Nat) (s : State), s.Direct m (R.CLS_CMD k) 3 → k < 16 → slotOwner m k = true → (s.slotState k = clOpen ∨ s.slotState k = clArmed) →
    (s.slot k).desc = none → ∃ t, exec (.claspAbort m k) s = .next t ∧ t.slotState k = clAborted ∧ t.get (F.CLS_STATUS_CAUSE k) = caHostAbort ∧ t.shows P_CLS 5 = true
      ∧ t.dram = s.dram)
  ∧ (∀ (m : Master) (k : Nat) (s : State), s.Direct m (R.CLS_CMD k) 4 → k < 16 → k < s.pix.slots.length → slotOwner m k = true →
    (s.slotState k = clDone ∨ s.slotState k = clAborted) → ∃ t, exec (.claspFree m k) s = .next t ∧ t.slotState k = clFree ∧ t.slot k = {} ∧ t.dram = s.dram ∧ t.out = s.out)

/-- The apply of a clasp (R112, R114, Table 4.14), on a SOLO unit with one entry of a plain register: at its commit point the entry's RW bits take their values, and when the
apply is complete the page's CLASP_TAG names the slot and the slot is DONE. Batch clasps (R118, R119): a descriptor opens its slot and its entry list is read, and the
list fetched is staged and committed. -/
def Obligations.ClaspApplies : Prop :=
  (∀ (k a i j : Nat) (w : Word) (r : RegRow) (s : State), s.up 3 = true → s.quiet → k < 16 → k < s.pix.slots.length → s.role = .solo → s.slotState k = clArmed →
    s.clCond k = 0 → (∀ n < 16, n ≠ k → s.slotState n ≠ clOpen ∧ s.slotState n ≠ clArmed) → (s.slot k).entries = [(a, w)] → s.pageUp (a / 0x1000) = true → isCmp a = false →
    regRow a = some (r, i, j) → s.entryRefused r a w = none → a / 0x1000 ∈ [P_NZC, P_IMG, P_POS, P_ARB, P_CDC] →
    ∃ t, exec (.claspCommitPoint k) s = .next t ∧ t.slotState k = clApplying ∧ t.reg a = ((s.reg a &&& ~~~(rowMask r .rw)) ||| (w &&& rowMask r .rw))
      ∧ (t.slot k).applyAt = s.devtime ∧ OnlyRegs s t [a, R.CLS_STATUS k] ∧ t.dram = s.dram)
  ∧ (∀ (k a : Nat) (w : Word) (s : State), s.up 3 = true → s.quiet → k < 16 → s.slotState k = clApplying → (s.slot k).desc = none → (s.slot k).entries = [(a, w)] →
    ∃ t, exec (.claspApplyComplete k) s = .next t ∧ t.slotState k = clDone
      ∧ t.reg (R.CLASP_TAG (a / 0x1000)) = BitVec.ofNat 32 (0x100000 + 0x10000 * k + s.get (F.CLS_SEQ k)) ∧ t.reg (R.CLS_EFF_LINE k) = BitVec.ofNat 32 (s.slot k).effLine
      ∧ t.shows P_CLS 4 = true ∧ t.dram = s.dram)
  ∧ (∀ (r : Nat) (d : Desc) (s : State), s.up 3 = true → s.quiet → r < 4 → s.pix.slots.length = 16 → s.nextDesc (24 + r) = some d → s.ringRunning (24 + r) = true →
    (s.slot (12 + r)).desc = none → 1 ≤ bcCount d → bcCount d ≤ 256 → ∃ t, exec (.claspBatchDescriptor r) s = .next t ∧ t.slotState (12 + r) = clOpen
      ∧ (t.slot (12 + r)).desc = some d.idx ∧ t.reg (R.CLS_COND (12 + r)) = bcWord d ∧ t.out = .dmaRead 2 (24 + r) (leAt d.bytes 0 8) (8 * bcCount d) :: s.out
      ∧ t.get F.CLS_NEXT_SEQ = (s.get F.CLS_NEXT_SEQ + 1) % 65536 ∧ t.dram = s.dram)
  ∧ (∀ (r : Nat) (data : List Byte) (d : Desc) (s : State), s.up 3 = true → s.quiet → r < 4 → s.pix.slots.length = 16 → (s.slot (12 + r)).fetching = true →
    s.slotState (12 + r) = clOpen → (s.slot (12 + r)).entries = [] → ((s.rt (24 + r)).descs.find? fun d => some d.idx == (s.slot (12 + r)).desc) = some d → bcCount d = 1 →
    s.clCond (12 + r) = 0 → claspCapable (leAt data 0 4) = true → ∃ t, exec (.claspListFetched r data) s = .next t ∧ t.slotState (12 + r) = clArmed
      ∧ (t.slot (12 + r)).entries = [(leAt data 0 4, BitVec.ofNat 32 (leAt data 4 4))] ∧ (t.slot (12 + r)).fetching = false ∧ t.dram = s.dram ∧ t.out = s.out)

/-! ### The PCIe link, rings and the watchdog (chapter 5) -/

/-- The request of a one-byte write at BAR 2 offset `a`, with deadline `d` (R127, Table 12.3). -/
def Sys2Proof.Machine.State.bar2Req (s : State) (a : Nat) (b : Option Byte) (d : Nat) : Req :=
  let x := s.get F.HIF_APERTURE_BASE_2M * 0x200000 + a
  { r := 3, deadline := d, raised := s.devtime, work := .access (64 * (x / 64)) true 0 (granuleBytes x [b] (x / 64)) }

/-- The PCIe link (R121 to R125): training reaches L0, a Hot Reset and a Data Link Down reset HOST alone, configuration writes and Recovery take effect. BAR 2 (R127, R128): a
write raises one request at the DRAM front end for each granule, and is discarded and counted under WP. -/
def Obligations.PcieAndBar2 : Prop :=
  (∀ (speed width : Nat) (s : State), s.up 7 = true → s.aux.perstLow = false → s.host.link = .down → s.host.inReset = false → s.host.busMaster = false →
    s.quiet → ∃ t, exec (.pcieLinkUp false speed width) s = .next t ∧ t.host.link = .l0 ∧ t.hostUp = true ∧ t.on F.HIF_LINK_STAT_DL_ACTIVE = true
      ∧ t.get F.HIF_LINK_STAT_RECOV = 0 ∧ t.on F.DEV_DEVSTATE_PCIE_UP = true ∧ t.dram = s.dram)
  ∧ (∀ (speed width : Nat) (s : State), s.up 7 = true → s.aux.perstLow = false → s.host.link ≠ .down → s.quiet →
    ∃ t, exec (.pcieLinkUp true speed width) s = .next t ∧ t.host = { s.host with configReady := true } ∧ t.regs = s.regs ∧ t.dram = s.dram ∧ t.out = s.out)
  ∧ (∀ (c : Instr) (s : State), c ∈ [.hotReset, .dataLinkDown] → s.hostUp = true → s.host.link ≠ .down → s.quiet → ∃ t, exec c s = .next t ∧ t.host.link = .down
    ∧ t.host.inReset = true ∧ t.hostUp = false ∧ (∀ i, t.phase i = s.phase i) ∧ (∀ a, addrIsland a = 7 → toldReg a = false → t.reg a = resetVal a) ∧ t.dram = s.dram)
  ∧ (∀ (busMaster memSpace d3hot : Bool) (s : State), s.hostUp = true → s.host.link ≠ .down → s.host.configReady = true →
    ∃ t, exec (.pcieConfigWrite busMaster memSpace d3hot) s = .next t ∧ t.host.busMaster = busMaster ∧ t.host.memSpace = memSpace ∧ t.host.d3hot = d3hot ∧ t.dram = s.dram)
  ∧ (∀ (speed width : Nat) (s : State), s.hostUp = true → s.host.link = .l0 → ∃ t, exec (.pcieLinkRecovery false speed width) s = .next t ∧ t.host.link = .recovery
    ∧ t.get F.HIF_LINK_STAT_RECOV = min (fldMax F.HIF_LINK_STAT_RECOV) (s.get F.HIF_LINK_STAT_RECOV + 1) ∧ t.on F.DEV_DEVSTATE_PCIE_UP = false ∧ t.dram = s.dram)
  ∧ (∀ (speed width : Nat) (s : State), s.hostUp = true → s.host.link = .recovery → ∃ t, exec (.pcieLinkRecovery true speed width) s = .next t ∧ t.host.link = .l0
    ∧ t.on F.DEV_DEVSTATE_PCIE_UP = true ∧ t.dram = s.dram)
  ∧ (∀ (a : Nat) (b : Option Byte) (s : State), s.barOpen = true → a < 0x10000000 → s.on F.HIF_APERTURE_WP = false → s.up 2 = true → s.get F.MEM_STAT_USABLE_2M ≠ 0 →
    ∃ t, exec (.bar2Write a [b]) s = .next t
      ∧ (∃ d : Nat, t.mem.arb.waiting = s.mem.arb.waiting ++ [s.bar2Req a b d])
      ∧ t.mem.arb.holders = s.mem.arb.holders ∧ t.dram = s.dram ∧ t.out = s.out)
  ∧ (∀ (a : Nat) (l : List (Option Byte)) (s : State), s.barOpen = true → l ≠ [] → a + l.length ≤ 0x10000000 → s.on F.HIF_APERTURE_WP = true →
    ∃ t, exec (.bar2Write a l) s = .next t ∧ t.get F.HIF_BAR2_DROP = min (fldMax F.HIF_BAR2_DROP) (s.get F.HIF_BAR2_DROP + 1)
      ∧ (∀ c, c ≠ R.HIF_BAR2_DROP → t.reg c = s.reg c) ∧ t.mem = s.mem ∧ t.dram = s.dram ∧ t.out = s.out)

/-- Doorbells and CONS (R136, R137): a doorbell within its window is taken and one beyond it stops the ring; CONS of a record ring releases entries, and one past PROD is
refused. RING_EN (R139, Table 5.9): a ring whose base and size are in order starts with its indices at 0, one whose are not stops with CONFIG, and a ring without
descriptors in progress stops when it is disabled. -/
def Obligations.RingRegisters : Prop :=
  (∀ (n : Nat) (w : Word) (s : State), s.Direct .host (R.DMA_RING_PROD n) w → n < 64 → isSubmission n = true → (w - s.reg (R.DMA_RING_PROD n)).toNat ≤ s.ringSize n →
    (w - s.reg (R.DMA_RING_DONE n)).toNat ≤ s.ringSize n → ∃ t, exec (.submissionDoorbell n w) s = .next t ∧ t.reg (R.DMA_RING_PROD n) = w
      ∧ (∀ a, a ≠ R.DMA_RING_PROD n → t.reg a = s.reg a) ∧ (∀ k, (t.rt k).descs = (s.rt k).descs ∧ (t.rt k).held = (s.rt k).held ∧ (t.rt k).claim = (s.rt k).claim) ∧ t.dram = s.dram)
  ∧ (∀ (n : Nat) (w : Word) (s : State), s.Direct .host (R.DMA_RING_PROD n) w → n < 64 → isSubmission n = true → w ≠ s.reg (R.DMA_RING_PROD n) →
    (s.ringSize n < (w - s.reg (R.DMA_RING_PROD n)).toNat ∨ s.ringSize n < (w - s.reg (R.DMA_RING_DONE n)).toNat) → ∃ t, exec (.submissionDoorbell n w) s = .next t
      ∧ t.ringRunning n = false ∧ t.get (F.DMA_RING_STAT_ERR n) = 1 ∧ t.reg (R.DMA_RING_PROD n) = s.reg (R.DMA_RING_PROD n) ∧ t.shows P_DMA 4 = true ∧ t.dram = s.dram)
  ∧ (∀ (n : Nat) (w : Word) (s : State), s.Direct .host (R.DMA_RING_CONS n) w → n < 64 → isSubmission n = false → s.consPast n w = false → (s.rt n).held = [] →
    ∃ t, exec (.recordRingConsWrite n w) s = .next t ∧ t.reg (R.DMA_RING_CONS n) = w ∧ (∀ a, a ≠ R.DMA_RING_CONS n → a ≠ R.DMA_RING_STAT n → t.reg a = s.reg a)
      ∧ t.on (F.DMA_RING_STAT_FULL n) = decide (s.ringSize n ≤ (s.reg (R.DMA_RING_PROD n) - w).toNat) ∧ t.dram = s.dram)
  ∧ (∀ (n : Nat) (w : Word) (s : State), s.Direct .host (R.DMA_RING_CONS n) w → n < 64 → isSubmission n = false → s.consPast n w = true →
    ∃ t, exec (.recordRingConsWrite n w) s = .next t ∧ t.shows P_DMA 1 = true ∧ OnlyRegs s t [] ∧ t.dram = s.dram)
  ∧ (∀ (n : Nat) (cfg : Word) (s : State), s.Direct .host (R.DMA_RING_CFG n) (cfg ||| 0x20#32) → n < 64 → n < s.host.rings.length → s.ringRunning n = false →
    bit (s.reg (R.DMA_RING_CFG n)).toNat 5 = false → (s.reg (R.DMA_RING_BASE_LO n)).toNat % 32 = 0 → 4 ≤ getBits 4 0 cfg → getBits 4 0 cfg ≤ 16 →
    ∃ t, exec (.ringEnable n cfg) s = .next t ∧ t.ringRunning n = true ∧ t.reg (R.DMA_RING_PROD n) = 0 ∧ t.reg (R.DMA_RING_CONS n) = 0 ∧ t.reg (R.DMA_RING_DONE n) = 0
      ∧ (t.rt n).descs = [] ∧ (t.rt n).held = [] ∧ (t.rt n).claim = 0 ∧ t.dram = s.dram)
  ∧ (∀ (n : Nat) (cfg : Word) (s : State), s.Direct .host (R.DMA_RING_CFG n) (cfg ||| 0x20#32) → n < 64 → isSubmission n = true → s.ringRunning n = false →
    bit (s.reg (R.DMA_RING_CFG n)).toNat 5 = false → ((s.reg (R.DMA_RING_BASE_LO n)).toNat % 32 ≠ 0 ∨ getBits 4 0 cfg < 4 ∨ 16 < getBits 4 0 cfg) →
    ∃ t, exec (.ringEnable n cfg) s = .next t ∧ t.ringRunning n = false ∧ t.get (F.DMA_RING_STAT_ERR n) = 4 ∧ t.shows P_DMA 4 = true ∧ t.dram = s.dram)
  ∧ (∀ (n : Nat) (cfg : Word) (s : State), s.Direct .host (R.DMA_RING_CFG n) (cfg &&& ~~~0x20#32) → n < 64 → n < s.host.rings.length → isSubmission n = false →
    bit (s.reg (R.DMA_RING_CFG n)).toNat 5 = true → (s.ringRunning n = true → getBits 4 0 cfg = s.get (F.DMA_RING_CFG_LOG2_SIZE n)) →
    ∃ t, exec (.ringDisable n cfg) s = .next t ∧ t.ringRunning n = false ∧ (t.rt n).held = [] ∧ t.dram = s.dram)
  ∧ (∀ (n : Nat) (cfg : Word) (s : State), s.Direct .host (R.DMA_RING_CFG n) (cfg &&& ~~~0x20#32) → (8 ≤ n ∧ n < 12 ∨ n = 62) → n < s.host.rings.length →
    bit (s.reg (R.DMA_RING_CFG n)).toNat 5 = true → (s.ringRunning n = true → getBits 4 0 cfg = s.get (F.DMA_RING_CFG_LOG2_SIZE n)) → (s.rt n).descs = [] →
    ∃ t, exec (.ringDisable n cfg) s = .next t ∧ t.ringRunning n = false ∧ t.dram = s.dram)

/-- Descriptors, failed reads and interrupts of rings (R132, R136, R137, R146): a descriptor fetched joins its ring's, a failed descriptor read stops the ring with FETCH,
COAL_TIME sends the message of items not yet signalled, and a record that was held is written when there is room. -/
def Obligations.RingTraffic : Prop :=
  (∀ (n : Nat) (bytes : List Byte) (s : State), s.hostUp = true → n < 64 → n < s.host.rings.length → isSubmission n = true → s.ringRunning n = true →
    (s.rt n).disabling = false → s.dmaOk = true → s.reg (R.DMA_RING_CONS n) ≠ s.reg (R.DMA_RING_PROD n) →
    (s.reg (R.DMA_RING_CONS n) - s.reg (R.DMA_RING_DONE n)).toNat < 8 → ∃ t, exec (.descriptorFetched n bytes) s = .next t
      ∧ (t.rt n).descs = (s.rt n).descs ++ [({ idx := (s.reg (R.DMA_RING_CONS n)).toNat, bytes := padTo 32 bytes } : Desc)]
      ∧ t.reg (R.DMA_RING_CONS n) = s.reg (R.DMA_RING_CONS n) + 1 ∧ (∀ a, a ≠ R.DMA_RING_CONS n → t.reg a = s.reg a) ∧ t.dram = s.dram)
  ∧ (∀ (n : Nat) (err : Machine.ReadError) (s : State), s.hostUp = true → n < 64 → isSubmission n = true → s.ringRunning n = true → s.pix.img.refetchFail = false → s.quiet →
    ∃ t, exec (.dmaReadError n 1 err) s = .next t ∧ t.ringRunning n = false ∧ t.get (F.DMA_RING_STAT_ERR n) = 2 ∧ t.host.aer = s.host.aer ++ [(aerKind err, n)]
      ∧ t.shows P_DMA 4 = true ∧ t.dram = s.dram)
  ∧ (∀ (t0 n : Nat) (s : State), s.hostUp = true → n < s.host.rings.length → s.on (F.DMA_RING_CFG_IRQ_EN n) = true → s.get (F.DMA_RING_CFG_COAL_TIME n) ≠ 0 →
    (s.rt n).unsig ≠ 0 → (s.rt n).unsigSince + s.get (F.DMA_RING_CFG_COAL_TIME n) * 400 ≤ max s.devtime t0 → s.dmaOk = true →
    s.on (F.MSIX_MASK (s.get (F.DMA_RING_CFG_VECTOR n))) = false → ∃ t, exec (.coalesceTimeout t0 n) s = .next t ∧ (t.rt n).unsig = 0
      ∧ t.out = .msix (s.get (F.DMA_RING_CFG_VECTOR n)) (s.get64 (0x800 + 16 * s.get (F.DMA_RING_CFG_VECTOR n))) (s.reg (0x808 + 16 * s.get (F.DMA_RING_CFG_VECTOR n))) :: s.out
      ∧ t.regs = s.regs ∧ t.dram = s.dram)
  ∧ (∀ (n : Nat) (e : List Byte) (s : State), s.hostUp = true → n < 64 → n < s.host.rings.length → isSubmission n = false → s.ringRunning n = true → s.dmaOk = true →
    (s.rt n).held = [e] → (s.rt n).descs = [] → (s.rt n).disabling = false → s.ringFill n < s.ringSize n → ∃ t, exec (.heldRecordFlush n) s = .next t ∧ (t.rt n).held = []
      ∧ .memWrite (s.ringEntry n (s.reg (R.DMA_RING_PROD n)).toNat) (padTo 32 e) ∈ t.out ∧ t.reg (R.DMA_RING_PROD n) = s.reg (R.DMA_RING_PROD n) + 1 ∧ t.dram = s.dram)

/-- The host watchdog (R148 to R151, Tables 3.6 and 5.11): a kick with its key starts the period again, half a period without one warns, a whole one resets the core islands, and
the side-band and the host may stop it with a key. -/
def Obligations.Watchdog : Prop :=
  (∀ (w : Word) (s : State), s.Direct .host R.DEV_WDT_KICK w → getBits 31 16 w = 0x4B1C → s.on F.DEV_WDT_CTRL_EN = true → ∃ t, exec (.wdtKick w) s = .next t
    ∧ t.aux.wdtStart = s.devtime ∧ t.on F.DEV_WDT_STAT_WARNED = false ∧ t.on F.DEV_WDT_CTRL_EN = true ∧ t.dram = s.dram ∧ t.out = s.out)
  ∧ (∀ (w : Word) (s : State), s.Direct .host R.DEV_WDT_KICK w → getBits 31 16 w ≠ 0x4B1C → ∃ t, exec (.wdtKick w) s = .next t ∧ t.shows P_DEV 1 = true ∧ OnlyRegs s t []
    ∧ t.aux.wdtStart = s.aux.wdtStart)
  ∧ (∀ (t0 : Nat) (s : State), s.up 0 = true → s.on F.DEV_WDT_CTRL_EN = true → s.on F.DEV_WDT_STAT_WARNED = false →
    s.aux.wdtStart + s.get F.DEV_WDT_PERIOD_PERIOD * 20000 ≤ max s.devtime t0 → ∃ t, exec (.wdtWarn t0) s = .next t ∧ t.on F.DEV_WDT_STAT_WARNED = true ∧ t.shows P_DEV 6 = true
      ∧ OnlyRegs s t [R.DEV_WDT_STAT] ∧ t.dram = s.dram)
  ∧ (∀ (t0 : Nat) (s : State), s.up 0 = true → s.on F.DEV_WDT_CTRL_EN = true → s.aux.wdtStart + s.get F.DEV_WDT_PERIOD_PERIOD * 40000 ≤ max s.devtime t0 →
    s.dev ≠ .resethold → s.quiet → ∃ t, exec (.wdtExpired t0) s = .next t ∧ t.dev = .trimload ∧ t.aux.seq = .trim ∧ (∀ i ∈ [3, 4, 5, 6], t.phase i = .inReset)
      ∧ (∀ i, i ∉ [3, 4, 5, 6] → t.phase i = s.phase i) ∧ t.on F.DEV_WDT_CTRL_EN = false ∧ t.on F.DEV_WDT_STAT_EXPIRED = true ∧ t.shows P_DEV 7 = true)
  ∧ (∀ (m : Master) (s : State), s.Direct m R.RSC_WDT_STOP 0x3C5A0001#32 → ∃ t, exec (.wdtStop m 0x3C5A0001#32) s = .next t ∧ t.on F.DEV_WDT_CTRL_EN = false
    ∧ t.on F.DEV_WDT_STAT_WARNED = false ∧ t.dram = s.dram ∧ t.out = s.out)

/-! ### Jobs (chapter 5) -/

/-- Ring `n` has nothing left to do for its descriptor `i`: it has been written back, or waits to be with bytes 24 to 31 `r` (R136). -/
def Completes (t : State) (n i : Nat) (r : List Byte) : Prop := ∀ e ∈ (t.rt n).descs, e.idx = i → e.result = some r

/-- Job markers (R30, R31, R143 to R145, R201): a START whose conditions hold arms a job on its bars, an ACTIVE unit stamps it, an END fixes where the job ends, and a STOP stops
its bars at their next boundaries, or ends at once a job that has not reached its first line; a marker with a reserved KIND stops the ring with DESC. -/
def Obligations.JobMarkers : Prop :=
  (∀ (k : Nat) (d : Desc) (s : State), s.up 3 = true → s.role = .solo → k < 4 → s.pix.jobs.length = 4 → s.pix.bars.length = 8 → s.jobHead k = some d → jmBad d = false →
    jmKind d = 1 → s.startAhead k d = true → s.startReady k d = true → s.dev = .ready → s.jobs = [] → ∃ t, exec (.jobStart k) s = .next t ∧ t.dev = .armed
      ∧ (∃ j, t.job k = some j ∧ j.id = jmId d ∧ j.bars = jmBars d ∧ j.start = some d.idx ∧ j.started = false)
      ∧ (∀ b < 8, t.inJob b = (s.inJob b || bit (jmBars d) b)) ∧ t.dram = s.dram)
  ∧ (∀ (k : Nat) (d : Desc) (s : State), s.up 3 = true → s.role = .active → s.startQueued k = false → s.jobHead k = some d → jmBad d = false → jmKind d = 1 →
    s.startAhead k d = true → s.startReady k d = true → ∃ t, exec (.jobStart k) s = .next t ∧ t.startQueued k = true ∧ t.pix.jobs = s.pix.jobs ∧ t.regs = s.regs ∧ t.dram = s.dram)
  ∧ (∀ (k : Nat) (d : Desc) (s : State), s.up 3 = true → s.hostUp = true → s.role = .solo → k < 4 → s.jobHead k = some d → jmBad d = true →
    ∃ t, exec (.jobStart k) s = .next t ∧ t.ringRunning (56 + k) = false ∧ t.get (F.DMA_RING_STAT_ERR (56 + k)) = 3 ∧ t.shows P_DMA 4 = true ∧ t.pix.jobs = s.pix.jobs)
  ∧ (∀ (k : Nat) (d : Desc) (j : Machine.Job) (s : State), s.up 3 = true → k < s.pix.jobs.length → s.jobHead k = some d → jmBad d = false → jmKind d = 2 → s.job k = some j →
    j.id = jmId d → j.hadStop = false → j.hadEnd = false → (∀ b ∈ s.streamBars k, s.hasLines b = true) → ∃ t, exec (.jobEnd k) s = .next t
      ∧ t.job k = some { j with endIdx := some d.idx, hadEnd := true } ∧ (jmPosEn d = false → ∀ b ∈ s.streamBars k, ∃ r, t.run b = some r ∧ r.endAt.isSome = true)
      ∧ t.regs = s.regs ∧ t.dram = s.dram ∧ t.out = s.out)
  ∧ (∀ (k : Nat) (d : Desc) (j : Machine.Job) (s : State), s.up 3 = true → k < s.pix.jobs.length → s.jobHead k = some d → jmBad d = false → jmKind d = 3 → s.job k = some j →
    j.id = jmId d → j.hadStop = false → j.started = true → (∀ b ∈ s.streamBars k, s.hasLines b = true) → ∃ t, exec (.jobStop k) s = .next t
      ∧ t.job k = some { j with stopIdx := some d.idx, hadStop := true } ∧ (∀ b ∈ s.streamBars k, ∃ r, t.run b = some r ∧ r.stopAt.isSome = true) ∧ t.regs = s.regs
      ∧ t.dram = s.dram ∧ t.out = s.out)
  ∧ (∀ (k : Nat) (d : Desc) (j : Machine.Job) (s : State), s.up 3 = true → k < 4 → s.pix.jobs.length = 4 → s.jobHead k = some d → jmBad d = false → jmKind d = 3 →
    s.job k = some j → j.id = jmId d → j.hadStop = false → j.started = false → ∃ t, exec (.jobStop k) s = .next t ∧ t.job k = none)

/-! ### The image store (chapter 6) -/

/-- Descriptors of TILE rings (R161 to R165): a LOAD and a STREAM start the read of their tiles, a PRINT whose tiles are all there becomes the placement, and a FREE clears the
pin and releases the plane. -/
def Obligations.TileDescriptors : Prop :=
  (∀ (b : Nat) (d : Desc) (s : State), s.up 3 = true → b < 8 → s.pix.img.rings.length = 8 → s.pix.img.planes.length = 512 → s.imgOn = true → s.ringLive b = true →
    (s.img b).fetch = none → (s.pix.img.refetch.any fun x => x.1 == b) = false → s.nextFetch b = some d → tdOp d = 1 → tdValid d = true → s.hasStore = true →
    16 ≤ leAt d.bytes 8 4 → bit (tdFlags d) 2 = false → s.loadWaits b d = false →
    ∃ t, exec (.tileLoad b) s = .next t ∧ (∃ f, (t.img b).fetch = some f ∧ f.idx = d.idx ∧ f.stream = false ∧ f.plane = tdPlane d ∧ f.tilesLeft = tdCount d ∧ f.reading = true)
      ∧ (t.plane b (tdPlane d)).loading = true ∧ (∃ cls, t.out = .dmaRead cls b (leAt d.bytes 0 8) (leAt d.bytes 8 4) :: s.out) ∧ t.regs = s.regs ∧ t.dram = s.dram)
  ∧ (∀ (b : Nat) (d : Desc) (s : State), s.up 3 = true → b < 8 → s.pix.img.rings.length = 8 → s.imgOn = true → s.ringLive b = true → (s.img b).fetch = none →
    (s.pix.img.refetch.any fun x => x.1 == b) = false → s.nextFetch b = some d → tdOp d = 2 → tdValid d = true → s.hasStore = true → 16 ≤ leAt d.bytes 8 4 →
    bit (tdFlags d) 2 = false → ∃ t, exec (.tileStream b) s = .next t ∧ (∃ f, (t.img b).fetch = some f ∧ f.idx = d.idx ∧ f.stream = true ∧ f.tilesLeft = 1 ∧ f.reading = true)
      ∧ (∃ cls, t.out = .dmaRead cls b (leAt d.bytes 0 8) (leAt d.bytes 8 4) :: s.out) ∧ t.pix.img.planes = s.pix.img.planes ∧ t.regs = s.regs ∧ t.dram = s.dram)
  ∧ (∀ (b : Nat) (d : Desc) (s : State), s.up 3 = true → b < 8 → s.pix.img.rings.length = 8 → s.imgOn = true → s.ringLive b = true → (s.img b).print = none →
    (s.img b).openBand = none → ((s.openDescs b).find? fun e => !e.taken && tdOp e == 3) = some d → s.placementAhead b d.idx = false →
    (((s.rt b).descs.takeWhile fun e => decide (e.idx ≠ d.idx)).any fun e => e.result.isNone && tdOp e == 1 && tdPlane e == tdPlane d) = false → tdValid d = true →
    s.printReady b (tdPlane d) (tdHeight d) = true → ∃ t, exec (.tilePrint b) s = .next t
      ∧ (t.img b).print = some { idx := d.idx, plane := tdPlane d, height := tdHeight d, count := tdCount d, passLx := (s.img b).nextLx, firstLx := (s.img b).nextLx }
      ∧ t.pix.img.planes = s.pix.img.planes ∧ t.regs = s.regs ∧ t.dram = s.dram ∧ t.out = s.out)
  ∧ (∀ (b : Nat) (d : Desc) (s : State), s.up 3 = true → b < 8 → s.pix.img.planes.length = 512 → s.imgOn = true → s.ringLive b = true →
    ((s.openDescs b).find? fun e => !e.taken && tdOp e == 4) = some d →
    (((s.rt b).descs.takeWhile fun e => decide (e.idx ≠ d.idx)).any fun e => e.result.isNone && tdOp e == 1 && tdPlane e == tdPlane d) = false → tdValid d = true →
    ∃ t, exec (.tileFree b) s = .next t ∧ (t.plane b (tdPlane d)).pin = false ∧ (t.plane b (tdPlane d)).tiles = (s.plane b (tdPlane d)).tiles
      ∧ ((s.plane b (tdPlane d)).tiles ≠ [] → (t.plane b (tdPlane d)).freeing = true) ∧ ((s.plane b (tdPlane d)).tiles = [] → Completes t b d.idx (tileResult 0x01 0 0 0))
      ∧ t.dram = s.dram)

/-- The data of a LOAD (R154, R162, R168): a valid tile with room in the store joins its plane and the fetch goes on, and a reserved header ends it INVALID and stops the ring
with DESC. The end of a pass and of a plane (R164, R165): a PRINT without a count goes on with the next pass, one whose passes are done completes, and a FREEING plane
without references is empty again. -/
def Obligations.LoadsAndPlanes : Prop :=
  (∀ (b : Nat) (data : List Byte) (f : Fetch) (t0 : Tile) (s : State), s.up 3 = true → b < 8 → s.pix.img.rings.length = 8 → s.pix.img.planes.length = 512 → s.imgOn = true →
    s.role = .solo → s.pix.img.refetchFail = false → (s.img b).fetch = some f → f.reading = true → f.fromDram = false → f.stream = false → f.verify = false → f.locket = false →
    f.stopping = false → f.plane < 64 → 2 ≤ f.tilesLeft → 16 + t0.payBytes ≤ data.length → s.parseTile b (data.take 16) = some t0 →
    (f.off + 16 + t0.payBytes + 15) / 16 * 16 + 16 ≤ f.len → f.off + 16 + t0.payBytes ≤ f.len → t0.pages ≤ s.storeFree → 1 ≤ s.dirFree →
    ∃ t, exec (.loadReadComplete b data) s = .next t
      ∧ (t.plane b f.plane).tiles = storeTile { t0 with payload := (data.take (16 + t0.payBytes)).drop 16 } (s.plane b f.plane).tiles
      ∧ (t.img b).fetch = some { f with off := (f.off + 16 + t0.payBytes + 15) / 16 * 16, tilesLeft := f.tilesLeft - 1, ord := f.ord + 1, waiting := false }
      ∧ t.regs = s.regs ∧ t.dram = s.dram)
  ∧ (∀ (b : Nat) (data : List Byte) (f : Fetch) (s : State), s.up 3 = true → s.hostUp = true → b < 8 → s.pix.img.rings.length = 8 → s.imgOn = true →
    s.pix.img.refetchFail = false → (s.img b).fetch = some f → f.reading = true → f.fromDram = false → f.locket = false → isStale f.idx = false → 16 ≤ data.length →
    s.parseTile b (data.take 16) = none → ∃ t, exec (.loadReadComplete b data) s = .next t ∧ (t.img b).fetch = none ∧ t.ringRunning b = false
      ∧ t.get (F.DMA_RING_STAT_ERR b) = 3 ∧ t.shows P_DMA 4 = true ∧ t.dram = s.dram)
  ∧ (∀ (b : Nat) (p : Print) (s : State), s.up 3 = true → b < 8 → s.pix.img.rings.length = 8 → (s.img b).print = some p → isStale p.idx = false → (p.height + 63) / 64 ≤ p.row →
    p.passLx + p.height ≤ (s.img b).wrLx → p.count = 0 →
    ((((s.rt b).descs.dropWhile fun d => decide (d.idx ≠ p.idx)).drop 1).any fun d => tdOp d == 2 || tdOp d == 3) = false → ∃ t, exec (.printPassEnd b) s = .next t
      ∧ (t.img b).print = some { p with done := p.done + 1, row := 0, col := 0, passLx := p.passLx + p.height } ∧ t.regs = s.regs ∧ t.dram = s.dram ∧ t.out = s.out)
  ∧ (∀ (b : Nat) (p : Print) (s : State), s.up 3 = true → b < 8 → s.pix.img.rings.length = 8 → (s.img b).print = some p → (p.height + 63) / 64 ≤ p.row →
    p.passLx + p.height ≤ (s.img b).wrLx → p.count ≠ 0 → p.count ≤ p.done + 1 → ∃ t, exec (.printPassEnd b) s = .next t ∧ (t.img b).print = none
      ∧ Completes t b p.idx (tileResult (if p.errs = 0 then 0x01 else 0x02) p.errs ((p.done + 1) % 2 ^ 16) (p.firstLx % 2 ^ 32)) ∧ t.dram = s.dram)
  ∧ (∀ (b p : Nat) (d : Desc) (s : State), s.up 3 = true → b < 8 → p < 64 → s.pix.img.planes.length = 512 → s.imgOn = true → (s.plane b p).freeing = true →
    ((s.rt b).descs.find? fun e => e.taken && e.result.isNone && tdOp e == 4 && tdPlane e == p) = some d →
    (((s.rt b).descs.takeWhile fun e => decide (e.idx ≠ d.idx)).any fun e => e.result.isNone && tdOp e == 3 && tdPlane e == p) = false → (s.img b).print = none →
    ∃ t, exec (.planeReleaseComplete b p) s = .next t ∧ t.plane b p = {} ∧ Completes t b d.idx (tileResult 0x01 0 0 0) ∧ t.dram = s.dram)

/-- Lanes and the copy engine (R159, R172 to R176): a tile whose line slots are released is written into the contone ring and leaves its lane, one whose slots are not stalls the
lane, and a stalled lane goes on when they are. -/
def Obligations.TilePlacement : Prop :=
  (∀ (k : Nat) (q : Req) (j : TileJob) (s : State), s.up 3 = true → s.laneHolder k = some q → q.work = .tile j → s.holdsCarats 1 k = true → q.stallFrom = none →
    s.tileSlots j = true → ∃ t, exec (.tileDecodeDone k) s = .next t ∧ t.pix.pool.holders = s.pix.pool.holders.erase q ∧ t.pix.pool.waiting = s.pix.pool.waiting
      ∧ (j.tile.lines (s.colWidth j.bar j.tile.col) = 1 → ∀ i < s.colWidth j.bar j.tile.col, i < (tileRaw j.tile q.bad).1.length →
          t.dramByte (s.contoneAddr j.bar j.lx (1024 * j.tile.col) + i) = (tileRaw j.tile q.bad).1.getD i 0))
  ∧ (∀ (k : Nat) (q : Req) (j : TileJob) (s : State), s.up 3 = true → s.laneHolder k = some q → q.work = .tile j → s.holdsCarats 1 k = true → q.stallFrom = none →
    s.tileSlots j = false → ∃ t, exec (.tileDecodeDone k) s = .next t ∧ { q with stallFrom := some s.devtime } ∈ t.pix.pool.holders ∧ t.dram = s.dram ∧ t.out = s.out)
  ∧ (∀ (b : Nat) (j : TileJob) (s s' : State), s.up 3 = true → s.pix.img.copy = none → s.nextTile b = (some j, s') → j.tile.kind ≠ 1 → s'.tileSlots j = true →
    ∃ t, exec (.tileCopyDone b) s = .next t ∧ t.pix.img.copy = none ∧ t.pix.pool = s.pix.pool
      ∧ (j.tile.lines (s'.colWidth j.bar j.tile.col) = 1 → ∀ i < s'.colWidth j.bar j.tile.col, i < (tileRaw j.tile false).1.length →
          t.dramByte (s'.contoneAddr j.bar j.lx (1024 * j.tile.col) + i) = (tileRaw j.tile false).1.getD i 0))
  ∧ (∀ (b : Nat) (j : TileJob) (s s' : State), s.up 3 = true → s.pix.img.copy = none → s.nextTile b = (some j, s') → j.tile.kind ≠ 1 → s'.tileSlots j = false →
    ∃ t, exec (.tileCopyDone b) s = .next t ∧ t.pix.img.copy = some j ∧ t.pix.img.copyStalled = true ∧ t.dram = s.dram)
  ∧ (∀ (j : TileJob) (s : State), s.up 3 = true → s.pix.img.copy = some j → s.tileSlots j = true → ∃ t, exec (.laneStallResume 32) s = .next t ∧ t.pix.img.copyStalled = false
    ∧ t.pix.img.copy = some j ∧ t.regs = s.regs ∧ t.dram = s.dram)
  ∧ (∀ (k t0 : Nat) (q : Req) (j : TileJob) (s : State), s.up 3 = true → k ≠ 32 → s.laneHolder k = some q → q.work = .tile j → q.stallFrom = some t0 → s.tileSlots j = true →
    ∃ t, exec (.laneStallResume k) s = .next t ∧ { q with stallFrom := none, stalled := q.stalled + (s.devtime - t0) } ∈ t.pix.pool.holders ∧ t.dram = s.dram)

/-! ### The dictionary codec (chapter 6) -/

/-- The command `c` takes the next descriptor of CODEC ring 8 + k, if its OP is `op` (R181, R185): the job holds it; DISCARD needs no data, RESUME a parked context, and the other
operations a free slot. -/
def TakesCodecJob (op : Nat) (c : Nat → List Byte → List Byte → Instr) : Prop :=
  ∀ (k : Nat) (host ctx : List Byte) (d : Desc) (s : State), s.up 3 = true → s.enabled P_CDC = true → k < s.pix.img.codec.length → (s.codec k).job = none →
    s.nextDesc (8 + k) = some d → cdOp d = op → ∃ t, exec (c k host ctx) s = .next t
      ∧ (∃ j, (t.codec k).job = some j ∧ j.idx = d.idx ∧ j.op = op ∧ j.slot = cdSlot d ∧ j.bad = false ∧ (op = 6 → j.fixed = some csDiscarded)
        ∧ (op = 5 → s.parked k (cdSlot d) = none → j.fixed = some csBadContext) ∧ (op ≤ 4 → (s.parked k (cdSlot d)).isSome = true → j.fixed = some csCtxBusy))
      ∧ (t.codec k).slots = (s.codec k).slots ∧ t.regs = s.regs ∧ t.dram = s.dram

/-- Each operation of Table 6.8 is taken by its command (R181, R185). The end of a codec job (R182, R184, R185, Tables 6.9 and 6.10): its ring is free and JOBS counts it; a
decoded tile is in DRAM, a discarded context is gone, and a RESUME without its context is counted and reported. -/
def Obligations.CodecJobs : Prop :=
  TakesCodecJob 1 .codecEncodeTile ∧ TakesCodecJob 2 .codecEncodeStream ∧ TakesCodecJob 3 .codecDecodeTile ∧ TakesCodecJob 4 .codecDecodeStream ∧ TakesCodecJob 5 .codecResume
    ∧ TakesCodecJob 6 .codecDiscard
  ∧ (∀ (k : Nat) (j : CodecJob) (s : State), s.up 3 = true → k < 4 → s.pix.img.codec.length = 4 → (s.codec k).job = some j → j.fixed = none → j.resume = none → j.op = 3 →
    j.bad = false → j.dstDram = true → s.jobCanEnd k j = true → ∃ t, exec (.codecJobComplete k) s = .next t ∧ (t.codec k).job = none
      ∧ t.get (F.CDC_JOBS k) = (s.get (F.CDC_JOBS k) + 1) % (fldMax (F.CDC_JOBS k) + 1)
      ∧ ∀ i < (runDecodeTile j).out.length, t.dramByte (j.dst + i) = (runDecodeTile j).out.getD i 0)
  ∧ (∀ (k : Nat) (j : CodecJob) (s : State), s.up 3 = true → k < 4 → s.pix.img.codec.length = 4 → j.slot < (s.codec k).slots.length → (s.codec k).job = some j →
    j.fixed = some csDiscarded → s.codecLane k = none → ∃ t, exec (.codecJobComplete k) s = .next t ∧ (t.codec k).job = none ∧ t.parked k j.slot = none
      ∧ t.get (F.CDC_JOBS k) = (s.get (F.CDC_JOBS k) + 1) % (fldMax (F.CDC_JOBS k) + 1) ∧ t.dram = s.dram)
  ∧ (∀ (k : Nat) (j : CodecJob) (s : State), s.up 3 = true → k < 4 → s.pix.img.codec.length = 4 → (s.codec k).job = some j → j.fixed = some csBadContext →
    s.codecLane k = none → ∃ t, exec (.codecJobComplete k) s = .next t ∧ (t.codec k).job = none
      ∧ t.get F.CDC_CTXERR_CNT = min (fldMax F.CDC_CTXERR_CNT) (s.get F.CDC_CTXERR_CNT + 1) ∧ t.shows P_CDC 5 = true ∧ t.dram = s.dram)

/-! ### Screening and nozzle correction (chapters 7 and 8) -/

/-- Screening (R186, R194 to R197): a line that completes goes to the FIFO with its words and moves the history on, and a check of a mask set gives its CRC. Nozzle correction
(R215 to R217, R220, R221, R225): a pass gives every nozzle that it does not skip its target gain, a density report is read, rejected if it is not fresh, and staged, and
the end of the load sets the model from the records. -/
def Obligations.ScreeningAndCorrection : Prop :=
  (∀ (b : Nat) (q : ScreenJob) (s : State), s.up 3 = true → b < 8 → s.pix.scn.length = 8 → (s.scn b).job = some q → q.dead = false → (s.scn b).fifo.length ≤ 3 →
    ∃ t, exec (.screeningComplete b) s = .next t ∧ (t.scn b).job = none ∧ (t.scn b).hist2 = (s.scn b).hist1
      ∧ (∃ x, (t.scn b).fifo.getLast? = some x ∧ x.line = q.line ∧ x.words = s.screenWords b (s.scn b) q ∧ x.noFire = false)
      ∧ t.get (F.SCN_LINE b) = q.line % (fldMax (F.SCN_LINE b) + 1) ∧ t.dram = s.dram)
  ∧ (∀ (m : Master) (sets : Nat) (s : State), s.Direct m R.SCN_MASK_CMD (BitVec.ofNat 32 sets) → ∃ t, exec (.maskCheck m sets) s = .next t
    ∧ (∀ k < 2, bit sets k = true → k ∈ t.pix.maskChk) ∧ (∀ k ∈ s.pix.maskChk, k ∈ t.pix.maskChk) ∧ t.dram = s.dram ∧ t.out = s.out)
  ∧ (∀ (k : Nat) (s : State), s.up 3 = true → k < 2 → k ∈ s.pix.maskChk → ∃ t, exec (.maskCheckDone k) s = .next t ∧ t.pix.maskChk = s.pix.maskChk.erase k
    ∧ t.get (F.SCN_MASK_CRC k) = (crc32c (s.maskBytes k)).toNat ∧ t.shows (P_SCN 0) 6 = true ∧ t.dram = s.dram)
  ∧ (∀ (m : Master) (bars : Nat) (s : State), s.Direct m R.NZC_PASS_CMD (BitVec.ofNat 32 bars) → (∀ b < 8, bit bars b = true → s.inJob b = false) →
    ∃ t, exec (.passCmd m bars) s = .next t ∧ t.dram = s.dram
      ∧ ∀ b < 8, bit bars b = true → s.nzcActs b = true → ∀ x < nozzles, s.visitSkips b x = false → t.get (F.GAIN b x) = (s.targetGain b x).1 % 4096)
  ∧ (∀ (b : Nat) (q : Desc) (s : State), s.up 3 = true → b < 8 → s.pix.nzc.length = 8 → s.enabled P_NZC = true → (s.nz b).dens = none → s.nextDesc (16 + b) = some q →
    leAt q.bytes 0 8 % 64 = 0 → leAt q.bytes 12 4 ≠ 0 → leAt q.bytes 8 4 + leAt q.bytes 12 4 ≤ nozzles → leAt q.bytes 25 1 = 0 → leAt q.bytes 16 8 ≤ s.webCount →
    s.get64 (R.NZC_LAST_WC_LO b) + s.get64 (R.NZC_SETTLE_LO b) ≤ leAt q.bytes 16 8 → ∃ t, exec (.densityReport b) s = .next t
      ∧ (t.nz b).dens = some { idx := q.idx, first := leAt q.bytes 8 4, count := leAt q.bytes 12 4, tag := leAt q.bytes 16 8 }
      ∧ t.out = .dmaRead 4 (16 + b) (leAt q.bytes 0 8) (2 * leAt q.bytes 12 4) :: s.out ∧ t.regs = s.regs ∧ t.dram = s.dram)
  ∧ (∀ (b : Nat) (q : Desc) (s : State), s.up 3 = true → b < 8 → s.pix.nzc.length = 8 → s.enabled P_NZC = true → (s.nz b).dens = none → s.nextDesc (16 + b) = some q →
    leAt q.bytes 0 8 % 64 = 0 → leAt q.bytes 12 4 ≠ 0 → leAt q.bytes 8 4 + leAt q.bytes 12 4 ≤ nozzles → leAt q.bytes 25 1 = 0 → leAt q.bytes 16 8 ≤ s.webCount →
    leAt q.bytes 16 8 < s.get64 (R.NZC_LAST_WC_LO b) + s.get64 (R.NZC_SETTLE_LO b) → ∃ t, exec (.densityReport b) s = .next t ∧ (t.nz b).dens = none
      ∧ Completes t (16 + b) q.idx (densResult 2 0 0)
      ∧ t.get (F.NZC_DENS_CNT_REJECTED b) = min (fldMax (F.NZC_DENS_CNT_REJECTED b)) (s.get (F.NZC_DENS_CNT_REJECTED b) + 1) ∧ t.dram = s.dram)
  ∧ (∀ (b : Nat) (data : List Byte) (d : Dens) (s : State), s.up 3 = true → b < 8 → s.pix.nzc.length = 8 → (s.nz b).dens = some d → d.staged = false →
    ∃ t, exec (.densityStaged b data) s = .next t ∧ (∃ d', (t.nz b).dens = some d' ∧ d'.idx = d.idx ∧ d'.staged = true ∧ d'.stagedAt = s.devtime)
      ∧ (∀ i < 2 * d.count, t.dramByte (s.stagingAddr b + i) = (padTo (2 * d.count) data).getD i 0))
  ∧ (∀ s : State, s.up 3 = true → s.pix.nzc.length = 8 → s.on F.NZC_LOADING = true → ∃ t, exec .nzcLoadDone s = .next t ∧ t.on F.NZC_LOADING = false
    ∧ (∀ b < 8, (t.nz b).run = true) ∧ (∀ b < 8, ∀ x < nozzles, t.get (F.ACC b x) = 0
      ∧ t.get (F.DELTA b x) = unsignedOf 8 (deltaOf (s.get (F.NZC_KW b)) (s.record b x).1 (s.record b x).2)) ∧ t.dram = s.dram)

/-! ### Position (chapter 9) -/

/-- Counting in QUAD and TOOTH mode (R228, R231, R232, R234): an edge counts one in its direction, a gap its missing teeth too, a reference mark in forward travel is seen,
and the web count takes what goes past the high-water mark. SINCOS samples (R229, R230): AMP follows the amplitude, the counts of the phase's way are an edge, and a way
of more than an eighth of a period between samples is a fault. -/
def Obligations.Encoders : Prop :=
  (∀ (t0 n : Nat) (fwd mark : Bool) (d pos : Int) (s : State), s.counting n = true → n < 4 → s.fire.chans.length = 4 → s.chMode n = modeQuad →
    d = (if fwd = s.on (F.POS_CH_CFG_INVERT n) then -1 else 1) → pos = s.getInt64 (R.POS_POS_LO n) + d → ∃ t, exec (.encoderEdge t0 n fwd mark) s = .next t
      ∧ t.get64 (R.POS_POS_LO n) = unsignedOf 64 pos ∧ (∃ e, (t.chan n).last = some e ∧ e.2 = pos) ∧ (mark = true → 0 < d → t.on (F.POS_STAT_REF_SEEN n) = true)
      ∧ (n = s.webCh → s.fire.hwm < pos → t.webCount = (s.webCount + (pos - s.fire.hwm).toNat) % 2 ^ 64 ∧ t.fire.hwm = pos)
      ∧ (¬ (n = s.webCh ∧ s.fire.hwm < pos) → t.webCount = s.webCount ∧ t.fire.hwm = s.fire.hwm) ∧ (∀ k, k ≠ n → t.chan k = s.chan k) ∧ t.dram = s.dram)
  ∧ (∀ (t0 n : Nat) (fwd mark : Bool) (d : Int) (s : State), s.counting n = true → n < 4 → s.fire.chans.length = 4 → s.chMode n = modeTooth →
    s.get (F.POS_TW_CFG_REFKIND n) = 0 → d = (if (if s.on (F.POS_CH_CFG_TW_DIR n) then fwd else true) = s.on (F.POS_CH_CFG_INVERT n) then -1 else 1) →
    ∃ t, exec (.encoderEdge t0 n fwd mark) s = .next t ∧ t.get64 (R.POS_POS_LO n) = unsignedOf 64 (s.getInt64 (R.POS_POS_LO n) + d) ∧ t.dram = s.dram)
  ∧ (∀ (t0 n : Nat) (fwd mark : Bool) (e : Nat × Int) (d : Int) (s : State), s.counting n = true → n < 4 → s.fire.chans.length = 4 → s.role = .solo → s.chMode n = modeTooth →
    s.get (F.POS_TW_CFG_REFKIND n) = 1 → s.speedValid n = true → (s.chan n).last = some e →
    s.get (F.POS_TW_CFG_GAP_RATIO n) * (s.speedSum n).1 ≤ 64 * (t0 - e.1) * (s.speedSum n).2 →
    d = (if (if s.on (F.POS_CH_CFG_TW_DIR n) then fwd else true) = s.on (F.POS_CH_CFG_INVERT n) then -1 else 1) → ∃ t, exec (.encoderEdge t0 n fwd mark) s = .next t
      ∧ t.get64 (R.POS_POS_LO n) = unsignedOf 64 (s.getInt64 (R.POS_POS_LO n) + d * (s.get (F.POS_TW_CFG_GAP_TEETH n) + 1))
      ∧ (0 < d → t.on (F.POS_STAT_REF_SEEN n) = true) ∧ t.dram = s.dram)
  ∧ (∀ (t0 n : Nat) (sin cos : Int) (phase : Nat) (mark : Bool) (s : State), s.counting n = true → n < 4 → s.fire.chans.length = 4 → s.chMode n = modeSincos →
    (s.chan n).adc = none → s.get (F.POS_AMP_NOM n) ≠ 0 → ∃ t, exec (.sincosSample t0 n sin cos phase mark) s = .next t ∧ (t.chan n).lastSample = t0
      ∧ (t.chan n).meas = phase % 4096 ∧ t.get (F.POS_STAT_AMP n) = min 0xFFFF (256 * s.ampSq n sin cos / (s.get (F.POS_AMP_NOM n) * 2 ^ 30)) ∧ t.dram = s.dram)
  ∧ (∀ (t0 n : Nat) (sin cos : Int) (phase : Nat) (mark : Bool) (p q d : Int) (s : State), s.counting n = true → n < 4 → s.fire.chans.length = 4 → s.chMode n = modeSincos →
    (s.chan n).adc = none → ((s.atTime t0).amplitude n sin cos).on (F.POS_STAT_AMP_OK n) = true → s.adcTrim n = false → (s.chan n).dr = none → (s.chan n).phase = some p →
    (s.chan n).rejoin = 0 → (sdiff 12 phase (s.chan n).meas).natAbs ≤ 512 → q = p + 16 * sdiff 12 phase (s.chan n).meas →
    d = phaseCount (s.get (F.POS_CH_CFG_LOG2_INTERP n)) q - phaseCount (s.get (F.POS_CH_CFG_LOG2_INTERP n)) p → ∃ t, exec (.sincosSample t0 n sin cos phase mark) s = .next t
      ∧ (t.chan n).phase = some q ∧ t.on (F.POS_STAT_FAULT n) = false ∧ t.dram = s.dram
      ∧ t.get64 (R.POS_POS_LO n) = unsignedOf 64 (s.getInt64 (R.POS_POS_LO n) + (if s.on (F.POS_CH_CFG_INVERT n) then -d else d)))
  ∧ (∀ (t0 n : Nat) (sin cos : Int) (phase : Nat) (mark : Bool) (p : Int) (s : State), s.counting n = true → n < 4 → s.fire.chans.length = 4 → s.chMode n = modeSincos →
    (s.chan n).adc = none → ((s.atTime t0).amplitude n sin cos).on (F.POS_STAT_AMP_OK n) = true → s.adcTrim n = false → (s.chan n).dr = none → (s.chan n).phase = some p →
    512 < (sdiff 12 phase (s.chan n).meas).natAbs → ∃ t, exec (.sincosSample t0 n sin cos phase mark) s = .next t ∧ t.on (F.POS_STAT_FAULT n) = true
      ∧ t.shows P_POS 4 = true ∧ t.get64 (R.POS_POS_LO n) = s.get64 (R.POS_POS_LO n) ∧ t.dram = s.dram)

/-- Faults and standstill of a channel (R228 to R230, R233, Table 9.2), and its configuration: clearing FAULT and changing MODE restart the channel, and its position goes on. -/
def Obligations.ChannelStates : Prop :=
  (∀ (n : Nat) (s : State), s.up 4 = true → s.enabled P_POS = true → (s.chMode n = modeQuad ∨ s.chMode n = modeTooth) → ∃ t, exec (.encoderSignalError n) s = .next t
    ∧ t.get (F.POS_ERR_CNT_SIG_ERR n) = min (fldMax (F.POS_ERR_CNT_SIG_ERR n)) (s.get (F.POS_ERR_CNT_SIG_ERR n) + 1) ∧ (∀ a, a ≠ R.POS_ERR_CNT n → t.reg a = s.reg a)
    ∧ t.dram = s.dram ∧ t.out = s.out)
  ∧ (∀ (t0 n : Nat) (e : Nat × Int) (s : State), s.counting n = true → n < 4 → s.fire.chans.length = 4 → (s.chan n).last = some e → e.1 + s.get (F.POS_ZERO_TO n) * 400 ≤ t0 →
    s.get (F.POS_STAT_SPEEDST n) ≠ flStill → ∃ t, exec (.zeroTimeout t0 n) s = .next t ∧ t.get (F.POS_STAT_SPEEDST n) = flStill ∧ t.get64 (R.POS_SPEED_LO n) = 0
      ∧ (n = s.webCh → t.shows P_POS 8 = true) ∧ OnlyRegs s t [R.POS_STAT n, R.POS_SPEED_LO n, R.POS_SPEED_HI n] ∧ t.dram = s.dram)
  ∧ (∀ (t0 n : Nat) (d : Nat × Int × Int) (s : State), s.up 4 = true → n < 4 → s.fire.chans.length = 4 → (s.chan n).dr = some d →
    d.1 + s.get (F.POS_AMP_CFG_DR_MAX n) * 400 < t0 → ∃ t, exec (.deadReckoningLimit t0 n) s = .next t ∧ t.on (F.POS_STAT_FAULT n) = true ∧ t.on (F.POS_STAT_DR n) = false
      ∧ (t.chan n).dr = none ∧ t.shows P_POS 4 = true ∧ OnlyRegs s t [R.POS_STAT n, R.POS_SPEED_LO n, R.POS_SPEED_HI n] ∧ t.dram = s.dram)
  ∧ (∀ (m : Master) (n : Nat) (s : State), s.Direct m (R.POS_STAT n) 0x80 → n < 4 → s.fire.chans.length = 4 → s.on (F.POS_STAT_FAULT n) = true →
    ∃ t, exec (.chFaultClear m n) s = .next t ∧ t.on (F.POS_STAT_FAULT n) = false ∧ t.get (F.POS_STAT_SPEEDST n) = flStill ∧ (t.chan n).last = none
      ∧ t.get64 (R.POS_POS_LO n) = s.get64 (R.POS_POS_LO n) ∧ OnlyRegs s t [R.POS_STAT n, R.POS_SPEED_LO n, R.POS_SPEED_HI n] ∧ t.dram = s.dram)
  ∧ (∀ (m : Master) (n : Nat) (w : Word) (s : State), s.Direct m (R.POS_CH_CFG n) w → n < 4 → s.fire.chans.length = 4 →
    (∀ r i j, regRow (R.POS_CH_CFG n) = some (r, i, j) → rowInRange r w = true) → (s.anyJob = false ∨ s.chMode n = getBits 2 0 w) → ∃ t, exec (.chCfgWrite m n w) s = .next t
      ∧ t.chMode n = getBits 2 0 w ∧ (s.chMode n ≠ getBits 2 0 w → t.get (F.POS_STAT_SPEEDST n) = flStill ∧ (t.chan n).last = none)
      ∧ (s.chMode n = getBits 2 0 w → t.chan n = s.chan n) ∧ OnlyRegs s t [R.POS_CH_CFG n, R.POS_STAT n, R.POS_SPEED_LO n, R.POS_SPEED_HI n] ∧ t.dram = s.dram)
  ∧ (∀ (m : Master) (n : Nat) (w : Word) (s : State), s.Direct m (R.POS_CH_CFG n) w → n < 4 → (∀ r i j, regRow (R.POS_CH_CFG n) = some (r, i, j) → rowInRange r w = true) →
    s.anyJob = true → s.chMode n ≠ getBits 2 0 w → ∃ t, exec (.chCfgWrite m n w) s = .next t ∧ t.shows P_POS 1 = true ∧ OnlyRegs s t [] ∧ t.dram = s.dram)

/-- Triggers (R237, R238): a selected edge starts a latch with its edge time; the latch gives the web position at that time; and a PHASE action queues the bar's target, or counts
it as dropped where it is not accepted. -/
def Obligations.TriggerLatches : Prop :=
  (∀ (t0 k : Nat) (rising : Bool) (s : State), s.up 4 = true → s.enabled P_POS = true → k < s.fire.trigs.length → bit (s.get (F.POS_TRIG_CFG_EDGE k)) (if rising then 0 else 1) = true →
    ∃ t, exec (.triggerEdge t0 k rising) s = .next t ∧ (nth t.fire.trigs k).edges = (nth s.fire.trigs k).edges ++ [(t0, t0 + s.get (F.POS_TRIG_CFG_FILT k) * 40)]
      ∧ t.regs = s.regs ∧ t.dram = s.dram ∧ t.out = s.out)
  ∧ (∀ (t0 k : Nat) (rising : Bool) (s : State), s.up 4 = true → bit (s.get (F.POS_TRIG_CFG_EDGE k)) (if rising then 0 else 1) = false →
    ∃ t, exec (.triggerEdge t0 k rising) s = .next t ∧ t.fire = s.fire ∧ t.regs = s.regs ∧ t.dram = s.dram ∧ t.out = s.out)
  ∧ (∀ (t0 k e f due p : Nat) (rest : List (Nat × Nat)) (s : State), s.up 4 = true → s.enabled P_POS = true → k < 4 → s.fire.trigs.length = 4 →
    (nth s.fire.trigs k).edges = (e, f) :: rest → s.latchDue k = some due → due ≤ t0 → s.phaseBars k = [] → p = s.webPosAt e → ∃ t, exec (.triggerLatchComplete t0 k) s = .next t
      ∧ t.get64 (R.POS_LAT_WC_LO k) = p / 2 ^ 32 % 2 ^ 64 ∧ t.get (F.POS_LAT_FRAC k) = p % 2 ^ 32 ∧ t.get64 (R.POS_LAT_TIME_LO k) = e % 2 ^ 64
      ∧ t.get (F.POS_LAT_CNT k) = (s.get (F.POS_LAT_CNT k) + 1) % (fldMax (F.POS_LAT_CNT k) + 1) ∧ t.shows P_POS 9 = true ∧ (nth t.fire.trigs k).edges = rest ∧ t.dram = s.dram)
  ∧ (∀ (t0 k b e f due v : Nat) (rest : List (Nat × Nat)) (s : State), s.up 4 = true → s.enabled P_POS = true → s.role = .solo → k < 4 → s.fire.trigs.length = 4 →
    s.fire.clks.length = 8 → (nth s.fire.trigs k).edges = (e, f) :: rest → s.latchDue k = some due → due ≤ t0 → s.phaseBars k = [b] → v = s.phaseTarget k b (s.webPosAt e) →
    (s.atTime t0).phaseOk b v 0 = true → ∃ t, exec (.triggerLatchComplete t0 k) s = .next t ∧ ((v, k) ∈ (t.clk b).phq ∨ t.cmp b = v % 2 ^ 96) ∧ t.shows P_POS 9 = true)
  ∧ (∀ (t0 k b e f due v : Nat) (rest : List (Nat × Nat)) (s : State), s.up 4 = true → s.enabled P_POS = true → s.role = .solo → k < 4 → s.fire.trigs.length = 4 →
    (nth s.fire.trigs k).edges = (e, f) :: rest → s.latchDue k = some due → due ≤ t0 → s.phaseBars k = [b] → v = s.phaseTarget k b (s.webPosAt e) →
    (s.atTime t0).phaseOk b v 0 = false → ∃ t, exec (.triggerLatchComplete t0 k) s = .next t ∧ (t.clk b).phq = (s.clk b).phq ∧ t.shows P_POS 10 = true
      ∧ t.get (F.POS_DROP_CNT k) = min (fldMax (F.POS_DROP_CNT k)) (s.get (F.POS_DROP_CNT k) + 1))

/-! ### Line clocks (chapter 9) -/

/-- Latch points and commits (R240, R241): the latch point comes 1 µs before the predicted boundary; the commit fixes the boundary 240 ns ahead of now, once the web position
may reach it, 240 ns after the latest edge and 900 ns after the latch point, and a boundary that the latch point held back counts as a slip. A boundary (R239, R249,
R257): at t_B the committed line becomes the bar's line, CMP moves on by one spacing, and a line of the job that was transmitted, is not dropped and may fire gets its
pulses: one for each segment, and the spare's. -/
def Obligations.LineClock : Prop :=
  (∀ (t0 b x : Nat) (s : State), s.up 4 = true → b < s.fire.clks.length → s.predict b 0 = some x → (s.clk b).commit = none → (s.clk b).latched = none →
    x ≤ 64 * (max s.devtime t0 + 400) → ∃ t, exec (.lineLatchPoint t0 b) s = .next t ∧ (t.clk b).latched = some (max s.devtime t0) ∧ (∀ c, c ≠ b → t.clk c = s.clk c)
      ∧ t.devtime = max s.devtime t0 ∧ t.regs = s.regs ∧ t.dram = s.dram ∧ t.out = s.out)
  ∧ (∀ (t0 b x te w tl : Nat) (s : State), s.up 4 = true → b < s.fire.clks.length → s.predict b 0 = some x → s.webEdge = some (te, w) → (s.clk b).commit = none →
    s.withinCap (s.cmp b) = true → (s.clk b).latched = some tl → max (max x (64 * (te + 96))) (64 * (tl + 360)) ≤ 64 * (max s.devtime t0 + 96) →
    ∃ t, exec (.lineCommit t0 b) s = .next t ∧ (∃ c, (t.clk b).commit = some c ∧ c.line = s.nextLine b ∧ c.tB = 64 * (max s.devtime t0 + 96))
      ∧ (max x (64 * (te + 96)) < 64 * (tl + 360) → t.get F.LCK_SLIP_CNT = min (fldMax F.LCK_SLIP_CNT) (s.get F.LCK_SLIP_CNT + 1) ∧ t.shows P_LCK 5 = true)
      ∧ (64 * (tl + 360) ≤ max x (64 * (te + 96)) → t.get F.LCK_SLIP_CNT = s.get F.LCK_SLIP_CNT) ∧ OnlyRegs s t [R.LCK_SLIP_CNT] ∧ t.dram = s.dram)
  ∧ (∀ (t0 b : Nat) (c : Commit) (s : State), s.up 4 = true → b < 8 → s.fire.clks.length = 8 → s.role = .solo → s.plk.locket = none → (s.clk b).commit = some c →
    c.tB ≤ 64 * max s.devtime t0 → (s.clk b).phq = [] → (s.clk b).cmpSet = [] → s.run b = none → ∃ t, exec (.lineBoundary t0 b) s = .next t
      ∧ t.reg (R.LCK_LINE b) = BitVec.ofNat 32 c.line ∧ t.get64 (R.LCK_LAST_TIME_LO b) = c.tB / 64 % 2 ^ 64 ∧ t.cmp b = (s.cmp b + s.spacing b c.line) % 2 ^ 96
      ∧ (t.clk b).placed = true ∧ (t.clk b).commit = none ∧ (t.clk b).latched = none ∧ (t.clk b).lastB = c.tB)
  ∧ (∀ (t0 b : Nat) (c : Commit) (s : State), s.up 4 = true → (s.clk b).commit = some c → 64 * max s.devtime t0 < c.tB → ∃ t, exec (.lineBoundary t0 b) s = .next t
    ∧ t.fire = s.fire ∧ t.regs = s.regs ∧ t.dram = s.dram ∧ t.out = s.out)
  ∧ (∀ (t0 b l0 : Nat) (c : Commit) (r : BarRun) (j : Machine.Job) (q : Sent) (s : State), s.up 4 = true → b < 8 → s.fire.clks.length = 8 → s.fire.bars.length = 8 →
    s.role = .solo → s.dev = .printing → s.plk.locket = none → (s.clk b).commit = some c → c.tB ≤ 64 * max s.devtime t0 → (s.clk b).phq = [] → (s.clk b).cmpSet = [] →
    s.run b = some r → r.first = some l0 → r.endTarget = none → r.covers c.line = true → s.job r.stream = some j → (s.fbar b).sent = some q → q.line = c.line →
    q.control = true → c.drop = none → s.enabled (P_FIRE b) = true → s.groupDrives b = true → ∃ t, exec (.lineBoundary t0 b) s = .next t
      ∧ t.get (F.FIRE_LINES_FIRED b) = (s.get (F.FIRE_LINES_FIRED b) + 1) % (fldMax (F.FIRE_LINES_FIRED b) + 1)
      ∧ ∃ ps, (t.fbar b).pulses = (s.fbar b).pulses ++ ps ∧ ((List.range 8).map fun g => 9 * b + g) <+: ps.map Pulse.nn
        ∧ ∀ p ∈ ps, p.line = c.line ∧ p.width = c.width ∧ p.active = false)

/-! ### Firing (chapter 10) -/

/-- Pulses (R249, R259, R260): at its edge the output goes active, unless a cut holds it; WIDTH later it returns; the watchdog cuts one that is active for WDOG, and holds the
output until CUT is cleared, which takes effect at a boundary. SWAP, head states and dot capture (R255, R264 to R266, R269): a SWAP waits for the first line whose latch
point has not been reached, each used head takes a step of Table 10.3, and a capture starts anew with its segments and lines. -/
def Obligations.Firing : Prop :=
  (∀ (t0 nn : Nat) (p : Pulse) (lv : List Bool) (s : State), s.up 4 = true → nn / 9 < s.fire.bars.length → nn / 9 < s.aux.pads.length →
    ((s.fbar (nn / 9)).pulses.find? fun p => decide (p.nn = nn) && !p.active && decide (p.at64 / 64 ≤ t0)) = some p → s.pad (nn / 9) = .driving lv →
    bit (s.fbar (nn / 9)).cutHeld (nn % 9) = false → ∃ t, exec (.fireEdge t0 nn) s = .next t ∧ { p with active := true } ∈ (t.fbar (nn / 9)).pulses
      ∧ t.pad (nn / 9) = .driving (updNth lv (nn % 9) fun _ => true) ∧ t.out = .fire nn true p.at64 :: s.out ∧ OnlyRegs s t [R.DEV_OUTGRP_ACT] ∧ t.dram = s.dram)
  ∧ (∀ (t0 nn : Nat) (p : Pulse) (s : State), s.up 4 = true → nn / 9 < s.fire.bars.length →
    ((s.fbar (nn / 9)).pulses.find? fun p => decide (p.nn = nn) && !p.active && decide (p.at64 / 64 ≤ t0)) = some p →
    (s.groupDrives (nn / 9) = false ∨ bit (s.fbar (nn / 9)).cutHeld (nn % 9) = true) → ∃ t, exec (.fireEdge t0 nn) s = .next t
      ∧ (t.fbar (nn / 9)).pulses = (s.fbar (nn / 9)).pulses.erase p ∧ t.aux = s.aux ∧ t.out = s.out ∧ t.regs = s.regs ∧ t.dram = s.dram)
  ∧ (∀ (t0 nn : Nat) (p : Pulse) (s : State), s.up 4 = true → nn / 9 < s.fire.bars.length →
    ((s.fbar (nn / 9)).pulses.find? fun p => decide (p.nn = nn) && p.active && decide (p.at64 / 64 + p.width ≤ t0)) = some p → ∃ t, exec (.firePulseEnd t0 nn) s = .next t
      ∧ (t.fbar (nn / 9)).pulses = (s.fbar (nn / 9)).pulses.erase p ∧ t.out = .fire nn false (p.at64 + 64 * p.width) :: s.out ∧ OnlyRegs s t [R.DEV_OUTGRP_ACT] ∧ t.dram = s.dram)
  ∧ (∀ (t0 nn : Nat) (p : Pulse) (s : State), s.up 4 = true → nn < 72 → s.fire.bars.length = 8 →
    ((s.fbar (nn / 9)).pulses.find? fun p => decide (p.nn = nn) && p.active && decide (p.at64 / 64 + s.get (F.FIRE_WDOG (nn / 9)) ≤ t0)) = some p →
    ∃ t, exec (.strobeWatchdogCut t0 nn) s = .next t ∧ (t.fbar (nn / 9)).pulses = (s.fbar (nn / 9)).pulses.erase p ∧ bit (t.fbar (nn / 9)).cutHeld (nn % 9) = true
      ∧ .fire nn false (p.at64 + 64 * s.get (F.FIRE_WDOG (nn / 9))) ∈ t.out ∧ t.on (F.CUT nn) = true ∧ t.shows (P_FIRE (nn / 9)) 6 = true
      ∧ t.get (F.FIRE_CUT_CNT (nn / 9)) = min (fldMax (F.FIRE_CUT_CNT (nn / 9))) (s.get (F.FIRE_CUT_CNT (nn / 9)) + 1) ∧ t.dram = s.dram)
  ∧ (∀ (m : Master) (b bits : Nat) (s : State), s.Direct m (R.FIRE_CUT b) (BitVec.ofNat 32 bits) → b < 8 → ∃ t, exec (.strobeCutRelease m b bits) s = .next t
    ∧ t.reg (R.FIRE_CUT b) = s.reg (R.FIRE_CUT b) &&& ~~~(BitVec.ofNat 32 (bits % 512)) ∧ (t.fbar b).cutHeld = (s.fbar b).cutHeld ∧ (∀ a, a ≠ R.FIRE_CUT b → t.reg a = s.reg a)
    ∧ t.dram = s.dram ∧ t.out = s.out)
  ∧ (∀ (m : Master) (b : Nat) (s : State), s.Direct m (R.FIRE_SEL_CMD b) 1 → b < 8 → s.fire.clks.length = 8 → (s.role = .solo ∨ s.role = .detached) →
    ∃ t, exec (.slotBankSwap m b) s = .next t ∧ t.on (F.FIRE_SEL_CMD_SWAP b) = true ∧ OnlyRegs s t [R.FIRE_SEL_CMD b]
      ∧ (t.clk b).swap = some (if (s.clk b).latched.isSome then lineAdd (s.nextLine b) 1 else s.nextLine b) ∧ (∀ c, c ≠ b → t.clk c = s.clk c) ∧ t.dram = s.dram)
  ∧ (∀ (b h : Nat) (x : Head × Option Nat) (s : State), s.up 4 = true → s.enabled (P_FIRE b) = true → s.role = .solo → b < s.fire.bars.length → h < 64 →
    (s.fbar b).heads.length = 64 → s.headUsed b h = true → x = headStep (signedOf 16 (s.get (F.FIRE_HTEMP_LIMIT b))) (signedOf 16 (s.get (F.FIRE_HTEMP_WARN b)))
      (s.get (F.FIRE_HTEMP_CFG_HYST b)) (s.get (F.FIRE_HTEMP_CFG_DWELL b)) (s.headTheta b h) (nth (s.fbar b).heads h) → ∃ t, exec (.headTempMeasurement b) s = .next t
      ∧ (nth (t.fbar b).heads h).st = x.1.st ∧ (x.2 = none → nth (t.fbar b).heads h = x.1) ∧ (∀ st, x.2 = some st → (nth (t.fbar b).heads h).next = some (s.resolveLine b, st))
      ∧ t.regs = s.regs ∧ t.dram = s.dram ∧ t.out = s.out)
  ∧ (∀ (b : Nat) (s : State), s.role = .standby → exec (.headTempMeasurement b) s = .next s)
  ∧ (∀ (m : Master) (b : Nat) (w : Word) (s : State), s.Direct m (R.FIRE_CAP_CTRL b) (w ||| 0x80000000#32) → b < 8 → s.fire.bars.length = 8 → getBits 15 0 w ≠ 0 →
    ∃ t, exec (.captureArm m b w) s = .next t ∧ (∃ p, (t.fbar b).capture = some p ∧ p.mask = getBits 23 16 w ∧ p.lines = getBits 15 0 w ∧ p.first = none ∧ p.done = 0 ∧ p.segs = 0
        ∧ p.stamp = if bit w.toNat 24 then some (s.get (F.FIRE_CAP_STAMP b)) else none)
      ∧ t.on (F.FIRE_CAP_CTRL_ARM b) = true ∧ t.get (F.FIRE_CAP_STAT_DONE b) = 0 ∧ t.on (F.FIRE_CAP_STAT_LOST b) = false
      ∧ OnlyRegs s t [R.FIRE_CAP_CTRL b, R.FIRE_CAP_STAT b] ∧ t.dram = s.dram)

/-! ### ZaroLink (chapter 11) -/

/-- Lane `nn` has left ACTIVE to retrain (R285, R293): LDOWN has gone out, and fast training begins at LOCK. -/
def Retrained (s t : State) (nn : Nat) : Prop :=
  t.laneState nn = zLock ∧ t.shows (P_ZLB (nn / 9)) 5 = true ∧ (∃ d c, .zl nn (.ldown d c) ∈ t.out)
    ∧ t.get (F.ZLB_RETRAIN_CNT_FAST (nn / 9) (nn % 9)) = min (fldMax (F.ZLB_RETRAIN_CNT_FAST (nn / 9) (nn % 9))) (s.get (F.ZLB_RETRAIN_CNT_FAST (nn / 9) (nn % 9)) + 1)

/-- Enabling and disabling lanes (R292, R294, Table 11.10): a lane that is enabled begins full training with the forced preset or the one that last succeeded; one that is disabled
goes DOWN with cause 4, an ACTIVE lane after LDOWN and once the frame in progress is closed. -/
def Obligations.LaneEnables : Prop :=
  (∀ (m : Master) (b k p : Nat) (s : State), b < 8 → k < 9 → s.Direct m (R.ZLB_LANE_EN b) (s.reg (R.ZLB_LANE_EN b) ||| BitVec.ofNat 32 (2 ^ k)) → s.zl.lanes.length = 72 →
    bit (s.reg (R.ZLB_LANE_EN b)).toNat k = false →
    p = (if s.on (F.ZLB_TX_PRESET_FORCE b k) then s.get (F.ZLB_TX_PRESET_VALUE b k) else (s.lane (9 * b + k)).okPreset) → ∃ t, exec (.laneEnable m b k) s = .next t
      ∧ bit (t.reg (R.ZLB_LANE_EN b)).toNat k = true ∧ t.laneState (9 * b + k) = zLock ∧ t.get (F.ZLB_LANE_STAT_PRESET b k) = p % 8
      ∧ .zl (9 * b + k) (.trn 1 p (s.get F.ZLK_CFG_CHECK_LOG2) (s.get F.PAR_CFG_UNIT_ID)) ∈ t.out ∧ (∀ j, j < 72 → j ≠ 9 * b + k → t.laneState j = s.laneState j) ∧ t.dram = s.dram)
  ∧ (∀ (m : Master) (b k : Nat) (s : State), b < 8 → k < 9 → s.Direct m (R.ZLB_LANE_EN b) (s.reg (R.ZLB_LANE_EN b) &&& ~~~(BitVec.ofNat 32 (2 ^ k))) → s.zl.lanes.length = 72 →
    bit (s.reg (R.ZLB_LANE_EN b)).toNat k = true → s.laneState (9 * b + k) ∈ [zLock, zCheck, zMeasure, zActive] →
    (s.laneState (9 * b + k) = zActive → ∀ x, (s.lane (9 * b + k)).newest = some x → x.closed = true) → ∃ t, exec (.laneDisable m b k) s = .next t
      ∧ bit (t.reg (R.ZLB_LANE_EN b)).toNat k = false ∧ t.laneState (9 * b + k) = zDown ∧ t.get (F.ZLB_LANE_STAT_CAUSE b k) = 4 ∧ t.shows (P_ZLB b) 6 = true
      ∧ (s.laneState (9 * b + k) = zActive → ∃ d c, .zl (9 * b + k) (.ldown d c) ∈ t.out))
  ∧ (∀ (m : Master) (b k : Nat) (x : ZFrame) (s : State), b < 8 → k < 9 → s.Direct m (R.ZLB_LANE_EN b) (s.reg (R.ZLB_LANE_EN b) &&& ~~~(BitVec.ofNat 32 (2 ^ k))) →
    s.zl.lanes.length = 72 → bit (s.reg (R.ZLB_LANE_EN b)).toNat k = true → s.laneState (9 * b + k) = zActive → (s.lane (9 * b + k)).newest = some x → x.closed = false →
    ∃ t, exec (.laneDisable m b k) s = .next t ∧ bit (t.reg (R.ZLB_LANE_EN b)).toNat k = false ∧ t.laneState (9 * b + k) = zActive
      ∧ t.lane (9 * b + k) = { s.lane (9 * b + k) with disabling := true } ∧ OnlyRegs s t [R.ZLB_LANE_EN b] ∧ t.dram = s.dram)

/-- Training (R292 to R294, Table 11.9): block lock leads from LOCK to CHECK and a check without errors to MEASURE and its PINGs; a preset that fails gives way to the next, and a
training without presets or PINGs left puts the lane DOWN with its cause. -/
def Obligations.LaneTraining : Prop :=
  (∀ (t0 nn errs rx : Nat) (s : State), s.up 5 = true → nn < 72 → s.zl.lanes.length = 72 → s.laneState nn = zLock → ∃ t, exec (.trsReceived t0 nn 1 true errs rx) s = .next t
    ∧ t.laneState nn = zCheck ∧ t.dram = s.dram ∧ OnlyRegs s t [R.ZLB_LANE_STAT (nn / 9) (nn % 9), R.ZLK_LANES_ACTIVE]
    ∧ t.out = .zl nn (.trn 2 (s.get (F.ZLB_LANE_STAT_PRESET (nn / 9) (nn % 9))) (s.lane nn).check (s.get F.PAR_CFG_UNIT_ID)) :: s.out)
  ∧ (∀ (t0 nn : Nat) (locked : Bool) (s : State), s.up 5 = true → nn < 72 → s.zl.lanes.length = 72 → s.laneState nn = zCheck → ∃ t, exec (.trsReceived t0 nn 2 locked 0 0) s = .next t
    ∧ t.laneState nn = zMeasure ∧ (t.lane nn).deadline = max s.devtime t0 + 4000 ∧ (∃ c ∈ (t.lane nn).ctl, c.opc = 5 ∧ c.payload = leBytes 8 (max s.devtime t0)) ∧ t.dram = s.dram)
  ∧ (∀ (t0 nn errs rx p : Nat) (ps : List Nat) (locked : Bool) (s : State), s.up 5 = true → nn < 72 → s.zl.lanes.length = 72 → s.laneState nn = zCheck → (errs ≠ 0 ∨ rx ≠ 0) →
    (s.lane nn).presets = p :: ps → ∃ t, exec (.trsReceived t0 nn 2 locked errs rx) s = .next t ∧ t.laneState nn = zLock
      ∧ t.get (F.ZLB_LANE_STAT_PRESET (nn / 9) (nn % 9)) = p % 8 ∧ (t.lane nn).presets = ps ∧ t.dram = s.dram)
  ∧ (∀ (t0 nn p : Nat) (ps : List Nat) (s : State), s.up 5 = true → nn < 72 → s.zl.lanes.length = 72 → (s.laneState nn = zLock ∨ s.laneState nn = zCheck) →
    (s.lane nn).deadline ≤ max s.devtime t0 → (s.lane nn).presets = p :: ps → ∃ t, exec (.trainingTimeout t0 nn) s = .next t ∧ t.laneState nn = zLock
      ∧ t.get (F.ZLB_LANE_STAT_PRESET (nn / 9) (nn % 9)) = p % 8 ∧ (t.lane nn).presets = ps ∧ t.dram = s.dram)
  ∧ (∀ (t0 nn : Nat) (s : State), s.up 5 = true → nn < 72 → s.zl.lanes.length = 72 → (s.laneState nn = zLock ∨ s.laneState nn = zCheck ∨ s.laneState nn = zMeasure) →
    (s.lane nn).deadline ≤ max s.devtime t0 → (s.lane nn).presets = [] → (s.lane nn).retrain = false → ∃ t, exec (.trainingTimeout t0 nn) s = .next t ∧ t.laneState nn = zDown
      ∧ t.get (F.ZLB_LANE_STAT_CAUSE (nn / 9) (nn % 9)) = (if s.laneState nn = zMeasure then (if (s.lane nn).pings < 16 then 2 else 3) else 1) ∧ t.shows (P_ZLB (nn / 9)) 6 = true)
  ∧ (∀ (t0 nn : Nat) (s : State), s.up 5 = true → nn < 72 → s.zl.lanes.length = 72 → s.laneState nn = zActive → (s.lane nn).disabling = false →
    ∃ t, exec (.returnLaneSilent t0 nn) s = .next t ∧ Retrained s t nn)

/-- Acknowledgements (R282 to R284, Table 11.4): a GOOD header or chunk is so noted; a BAD chunk waits for its replay or is replayed, and after the replay window it is lost and
counted; the mailbox learns of its control frame. -/
def Obligations.LaneAcks : Prop :=
  (∀ (t0 nn k id : Nat) (x : ZFrame) (s : State), s.up 5 = true → nn < 72 → s.zl.lanes.length = 72 → s.laneState nn = zActive → s.frameOf nn id = some x →
    ∃ t, exec (.zlAckReceived t0 nn 2 k id 0) s = .next t ∧ (∃ y ∈ (t.lane nn).frames, y.line = x.line ∧ y.header = .good ∧ y.chunks = x.chunks)
      ∧ OnlyRegs s t [R.ZLB_LAST_GOOD (nn / 9) (nn % 9)] ∧ t.dram = s.dram ∧ t.out = s.out)
  ∧ (∀ (t0 nn k id : Nat) (x : ZFrame) (s : State), s.up 5 = true → nn < 72 → s.zl.lanes.length = 72 → s.laneState nn = zActive → s.frameOf nn id = some x →
    k < x.chunks.length → nth x.chunks k ≠ .lost → ∃ t, exec (.zlAckReceived t0 nn 1 k id 0) s = .next t
      ∧ (∃ y ∈ (t.lane nn).frames, y.line = x.line ∧ nth y.chunks k = .good ∧ y.header = x.header ∧ ∀ j, j ≠ k → nth y.chunks j = nth x.chunks j)
      ∧ OnlyRegs s t [R.ZLB_LAST_GOOD (nn / 9) (nn % 9)] ∧ t.dram = s.dram ∧ t.out = s.out)
  ∧ (∀ (t0 nn k id : Nat) (x : ZFrame) (s : State), s.up 5 = true → nn < 72 → s.zl.lanes.length = 72 → s.laneState nn = zActive → s.frameOf nn id = some x →
    k < x.chunks.length → nth x.chunks k ≠ .lost → nth x.chunks k ≠ .good → x.closed = false → ∃ t, exec (.zlAckReceived t0 nn 1 k id 1) s = .next t
      ∧ ((∃ y ∈ (t.lane nn).frames, y.line = x.line ∧ nth y.chunks k = .pending (max s.devtime t0 + 20) ∧ k ∈ y.order) ∨ ∃ fl d, .zl nn (.replay x.line k fl d) ∈ t.out)
      ∧ OnlyRegs s t [R.ZLB_REPLAY_CNT (nn / 9) (nn % 9)] ∧ t.dram = s.dram)
  ∧ (∀ (t0 nn k id : Nat) (x : ZFrame) (s : State), s.up 5 = true → nn < 72 → s.zl.lanes.length = 72 → s.laneState nn = zActive → s.frameOf nn id = some x →
    k < x.chunks.length → nth x.chunks k ≠ .lost → nth x.chunks k ≠ .good → x.closed = true → ∃ t, exec (.zlAckReceived t0 nn 1 k id 1) s = .next t
      ∧ (∃ y ∈ (t.lane nn).frames, y.line = x.line ∧ nth y.chunks k = .lost) ∧ t.shows (P_ZLB (nn / 9)) 8 = true ∧ t.dram = s.dram
      ∧ t.get (F.ZLB_LOSS_CNT (nn / 9) (nn % 9)) = min (fldMax (F.ZLB_LOSS_CNT (nn / 9) (nn % 9))) (s.get (F.ZLB_LOSS_CNT (nn / 9) (nn % 9)) + 1))
  ∧ (∀ (t0 nn k id status : Nat) (c : ZCtl) (s : State), s.up 5 = true → nn < 72 → s.zl.lanes.length = 72 → s.laneState nn = zActive → (status = 0 ∨ status = 3) →
    ((s.lane nn).ctl.find? fun c => decide (c.seq = id)) = some c → c.mailbox = true → ∃ t, exec (.zlAckReceived t0 nn 3 k id status) s = .next t
      ∧ t.on (F.ZLB_CMD_CTRL_GO (nn / 9)) = false ∧ t.on (F.ZLB_CMD_STAT_DONE (nn / 9)) = true ∧ t.get (F.ZLB_CMD_STAT_RESULT (nn / 9)) = status
      ∧ t.shows (P_ZLB (nn / 9)) 11 = true ∧ t.dram = s.dram)
  ∧ (∀ (t0 nn k id e : Nat) (x : ZFrame) (s : State), s.up 5 = true → nn < 72 → s.zl.lanes.length = 72 → s.laneState nn = zActive → s.frameOf nn id = some x →
    k < x.chunks.length → nth x.chunks k = .waiting e → x.closed = true → s.ackDue nn e ≤ max s.devtime t0 → ∃ t, exec (.zlAckTimeout t0 nn 1 k id) s = .next t
      ∧ (∃ y ∈ (t.lane nn).frames, y.line = x.line ∧ nth y.chunks k = .lost) ∧ t.shows (P_ZLB (nn / 9)) 8 = true ∧ t.dram = s.dram)
  ∧ (∀ (t0 nn k id e : Nat) (x : ZFrame) (s : State), s.up 5 = true → nn < 72 → s.frameOf nn id = some x → nth x.chunks k = .waiting e → max s.devtime t0 < s.ackDue nn e →
    ∃ t, exec (.zlAckTimeout t0 nn 1 k id) s = .next t ∧ t.zl = s.zl ∧ t.regs = s.regs ∧ t.dram = s.dram ∧ t.out = s.out)

/-- Replay windows (R284, R285, R293): the end of a line's payload opens its window; at RPL_END the window closes and what is not GOOD is lost, one by one counted; and a header that
is not GOOD by HDR_END sends the lane into retraining with cause 5. -/
def Obligations.ReplayWindows : Prop :=
  (∀ (t0 nn e : Nat) (x : ZFrame) (s : State), s.up 5 = true → nn < 72 → s.zl.lanes.length = 72 → (s.lane nn).busy = some (.payload, e) → e ≤ 6400 * max s.devtime t0 + 6399 →
    (s.lane nn).newest = some x → x.absent = false → x.closed = false → ∃ t, exec (.zlTransmissionEnd t0 nn) s = .next t
      ∧ (∃ y, (t.lane nn).newest = some y ∧ y.line = x.line ∧ y.windowOpen = true) ∧ OnlyRegs s t [R.ZLB_REPLAY_CNT (nn / 9) (nn % 9)] ∧ t.dram = s.dram)
  ∧ (∀ (t0 nn e n : Nat) (x : ZFrame) (s : State), s.up 5 = true → nn < 72 → s.zl.lanes.length = 72 → s.laneState nn = zActive → s.rplEnd nn = some e →
    e ≤ 6400 * max s.devtime t0 + 6399 → (s.lane nn).newest = some x → x.closed = false → x.absent = false → x.chunks.length = 8 → (s.lane nn).disabling = false →
    (s.lane nn).lossy + 1 < s.get F.ZLK_CFG_ERR_LINES → n = ((List.range 8).filter fun k => decide (nth x.chunks k ≠ .good)).length →
    ∃ t, exec (.replayWindowEnd t0 nn) s = .next t ∧ t.laneState nn = zActive ∧ (0 < n → t.shows (P_ZLB (nn / 9)) 8 = true) ∧ t.dram = s.dram
      ∧ (∃ y, (t.lane nn).newest = some y ∧ y.line = x.line ∧ y.closed = true ∧ ∀ k < 8, nth y.chunks k = if nth x.chunks k = .good then .good else .lost)
      ∧ t.get (F.ZLB_LOSS_CNT (nn / 9) (nn % 9)) = min (fldMax (F.ZLB_LOSS_CNT (nn / 9) (nn % 9))) (s.get (F.ZLB_LOSS_CNT (nn / 9) (nn % 9)) + n))
  ∧ (∀ (t0 nn e : Nat) (x : ZFrame) (s : State), s.up 5 = true → nn < 72 → s.zl.lanes.length = 72 → s.laneState nn = zActive → s.hdrEnd nn = some e →
    e ≤ 6400 * max s.devtime t0 + 6399 → (s.lane nn).newest = some x → x.closed = false → x.header ≠ .good → (s.lane nn).disabling = false →
    ∃ t, exec (.headerDeadline t0 nn) s = .next t ∧ Retrained s t nn ∧ t.get (F.ZLB_LANE_STAT_CAUSE (nn / 9) (nn % 9)) = 5)

/-- What forwarding a telemetry message does (R291): nothing where TELEM_FWD does not select its type; else its record is written to the bar's TELEMETRY ring, where that runs and
has room (Table 11.8; a payload of at most 20 bytes makes one record). -/
def Forwards (s t : State) (t0 nn typ : Nat) (p : List Byte) : Prop :=
  (s.telemSelected typ = false → t.regs = s.regs ∧ t.out = s.out)
    ∧ (s.telemSelected typ = true → p.length ≤ 20 → s.ringRunning (32 + nn / 9) = true → s.dmaOk = true → s.ringFill (32 + nn / 9) < s.ringSize (32 + nn / 9) →
      (s.rt (32 + nn / 9)).held = [] → .memWrite (s.ringEntry (32 + nn / 9) (s.reg (R.DMA_RING_PROD (32 + nn / 9))).toNat)
        (padTo 32 (leBytes 8 t0 ++ leBytes 1 nn ++ leBytes 1 typ ++ leBytes 1 p.length ++ leBytes 1 16 ++ padTo 20 p)) ∈ t.out)

/-- Telemetry (R252, R264, R290, R291, R293, Tables 11.7 and 11.9): head temperatures and failed nozzles are kept for their bar, HIB_STATUS completes a training, declares its
period and shows lost block lock, messages are forwarded, and bad frames are counted. -/
def Obligations.Telemetry : Prop :=
  (∀ (t0 nn : Nat) (p : List Byte) (s : State), s.up 5 = true → nn < 72 → p.length ≤ 64 → s.zl.heads.length = 512 → ∃ t, exec (.headTempMsg t0 nn p) s = .next t
    ∧ (∀ h < 8, nth t.zl.heads (64 * (nn / 9) + 8 * s.laneSeg nn + h) = { time := some t0, temp := signedOf 16 (leAt p (2 * h) 2), fault := bit (leAt p 16 1) h })
    ∧ (∀ i, (i < 64 * (nn / 9) + 8 * s.laneSeg nn ∨ 64 * (nn / 9) + 8 * s.laneSeg nn + 8 ≤ i) → nth t.zl.heads i = nth s.zl.heads i) ∧ Forwards s t t0 nn 1 p ∧ t.dram = s.dram)
  ∧ (∀ (t0 nn i : Nat) (p : List Byte) (s : State), s.up 5 = true → nn < 72 → p.length ≤ 64 → s.up 3 = true → s.role ≠ .standby → s.pix.nzc.length = 8 → i < leAt p 2 2 →
    bit (leAt p (4 + i / 8) 1) (i % 8) = true → 12416 * s.laneSeg nn + leAt p 0 2 + i < nozzles → ∃ t, exec (.nchkMsg t0 nn p) s = .next t
      ∧ 12416 * s.laneSeg nn + leAt p 0 2 + i ∈ (t.nz (nn / 9)).nchk ∧ (∀ x ∈ (s.nz (nn / 9)).nchk, x ∈ (t.nz (nn / 9)).nchk) ∧ Forwards s t t0 nn 2 p ∧ t.dram = s.dram)
  ∧ (∀ (t0 nn port : Nat) (p : List Byte) (s : State), s.up 5 = true → nn < 72 → p.length ≤ 64 → s.zl.lanes.length = 72 → s.laneState nn = zMeasure → (s.lane nn).pings = 16 →
    bit (leAt p 5 1) port = true → ∃ t, exec (.hibStatusMsg t0 nn port p) s = .next t ∧ t.laneState nn = zActive ∧ t.on (F.ZLB_LANE_STAT_HIB_LOCK (nn / 9) (nn % 9)) = true
      ∧ t.shows (P_ZLB (nn / 9)) 4 = true ∧ (t.lane nn).okPreset = s.get (F.ZLB_LANE_STAT_PRESET (nn / 9) (nn % 9)) ∧ (∃ c ∈ (t.lane nn).ctl, c.opc = 3) ∧ t.dram = s.dram)
  ∧ (∀ (t0 nn port : Nat) (p : List Byte) (s : State), s.up 5 = true → nn < 72 → p.length ≤ 64 → s.zl.lanes.length = 72 → s.laneState nn = zActive → (s.lane nn).disabling = false →
    bit (leAt p 5 1) port = false → ∃ t, exec (.hibStatusMsg t0 nn port p) s = .next t ∧ Retrained s t nn ∧ t.on (F.ZLB_LANE_STAT_HIB_LOCK (nn / 9) (nn % 9)) = false)
  ∧ (∀ (t0 nn port : Nat) (p : List Byte) (s : State), s.up 5 = true → nn < 72 → p.length ≤ 64 → s.up 4 = true → s.role = .solo → s.fire.bars.length = 8 →
    ∃ t, exec (.hibStatusMsg t0 nn port p) s = .next t ∧ (t.fbar (nn / 9)).declared = (updNth (s.fbar (nn / 9)).declared (nn % 9) fun _ => leAt p 3 2)
      ∧ t.get (F.FIRE_MLP_HEAD (nn / 9)) = ((updNth (s.fbar (nn / 9)).declared (nn % 9) fun _ => leAt p 3 2).foldl max 0) % 2 ^ 16)
  ∧ (∀ (t0 nn : Nat) (p : List Byte) (s : State), s.up 5 = true → nn < 72 → p.length ≤ 64 → ∃ t, exec (.responseMsg t0 nn p) s = .next t ∧ Forwards s t t0 nn 4 p
    ∧ t.zl = s.zl ∧ t.dram = s.dram)
  ∧ (∀ (t0 nn typ : Nat) (p : List Byte) (s : State), s.up 5 = true → nn < 72 → p.length ≤ 64 → (typ = 5 ∨ (0x80 ≤ typ ∧ typ ≤ 0xFF)) → ∃ t, exec (.hibEventMsg t0 nn typ p) s = .next t
    ∧ Forwards s t t0 nn typ p ∧ t.zl = s.zl ∧ t.dram = s.dram)
  ∧ (∀ (t0 nn port typ : Nat) (p : List Byte) (c : Instr) (s : State), s.up 5 = true → nn < 72 →
    (64 < p.length ∧ c ∈ [.headTempMsg t0 nn p, .nchkMsg t0 nn p, .hibStatusMsg t0 nn port p, .responseMsg t0 nn p, .hibEventMsg t0 nn typ p]
      ∨ c = .hibEventMsg t0 nn typ p ∧ typ ≠ 5 ∧ ¬ (0x80 ≤ typ ∧ typ ≤ 0xFF) ∨ c = .badTelemetryFrame t0 nn false) → ∃ t, exec c s = .next t
      ∧ t.get F.ZLK_TELEM_BAD = min (fldMax F.ZLK_TELEM_BAD) (s.get F.ZLK_TELEM_BAD + 1) ∧ t.shows P_ZLK 4 = true ∧ OnlyRegs s t [R.ZLK_TELEM_BAD] ∧ t.zl = s.zl ∧ t.dram = s.dram)
  ∧ (∀ (t0 nn : Nat) (s : State), s.up 5 = true → nn < 72 → ∃ t, exec (.badTelemetryFrame t0 nn true) s = .next t ∧ t.shows P_ZLK 4 = true
    ∧ t.get F.ZLK_TELEM_BAD = min (fldMax F.ZLK_TELEM_BAD) (s.get F.ZLK_TELEM_BAD + 1) ∧ OnlyRegs s t [R.ZLK_TELEM_BAD, R.ZLB_RX_ERR_CNT (nn / 9) (nn % 9)] ∧ t.dram = s.dram
    ∧ t.get (F.ZLB_RX_ERR_CNT (nn / 9) (nn % 9)) = min (fldMax (F.ZLB_RX_ERR_CNT (nn / 9) (nn % 9))) (s.get (F.ZLB_RX_ERR_CNT (nn / 9) (nn % 9)) + 1))
  ∧ (∀ (m : Master) (w : Word) (s : State), s.Direct m R.ZLK_TELEM_PER w → s.zl.lanes.length = 72 → (1 ≤ getBits 15 0 w ∧ getBits 15 0 w ≤ 100) →
    (1 ≤ getBits 23 16 w ∧ getBits 23 16 w ≤ 10) → ∃ t, exec (.telemPerWrite m w) s = .next t ∧ t.get F.ZLK_TELEM_PER_TEMP = getBits 15 0 w
      ∧ t.get F.ZLK_TELEM_PER_STATUS = getBits 23 16 w ∧ t.dram = s.dram ∧ (t.reg R.ZLK_TELEM_PER = s.reg R.ZLK_TELEM_PER → t.zl = s.zl)
      ∧ (t.reg R.ZLK_TELEM_PER ≠ s.reg R.ZLK_TELEM_PER → ∀ nn < 72, s.laneState nn = zActive →
          ∃ c ∈ (t.lane nn).ctl, c.opc = 3 ∧ c.payload = leBytes 2 (getBits 15 0 w) ++ leBytes 1 (getBits 23 16 w)))

/-- The command `c` sends a control frame with opcode `opc` through the mailbox of its bar (R279, R298): the frame takes the lane's next SEQ and carries the bytes of CMD_DATA, and
on a lane that is not ACTIVE the command is over with result 2. -/
def SendsByMailbox (opc : Nat) (c : Master → Nat → Nat → Nat → Instr) : Prop :=
  (∀ (m : Master) (b lane len : Nat) (s : State), s.Direct m (R.ZLB_CMD_CTRL b) (mailboxWord lane opc len) → b < 8 → lane < 9 → len ≤ 64 → s.zl.lanes.length = 72 →
    s.on (F.ZLB_CMD_CTRL_GO b) = false → s.laneState (9 * b + lane) = zActive → ∃ t, exec (c m b lane len) s = .next t ∧ t.on (F.ZLB_CMD_CTRL_GO b) = true
      ∧ t.on (F.ZLB_CMD_STAT_DONE b) = false ∧ t.get (F.ZLB_CMD_STAT_SEQ b) = (s.lane (9 * b + lane)).seq % 0x10000
      ∧ (t.lane (9 * b + lane)).seq = ((s.lane (9 * b + lane)).seq + 1) % 0x10000 ∧ t.dram = s.dram
      ∧ (∃ x ∈ (t.lane (9 * b + lane)).ctl, x.seq = (s.lane (9 * b + lane)).seq ∧ x.opc = opc ∧ x.mailbox = true
        ∧ x.payload = ((List.range 16).map fun k => leBytes 4 (s.get (F.ZLB_CMD_DATA b k))).flatten.take len)
      ∧ OnlyRegs s t [R.ZLB_CMD_CTRL b, R.ZLB_CMD_STAT b, R.ZLB_REPLAY_CNT b lane])
  ∧ (∀ (m : Master) (b lane len : Nat) (s : State), s.Direct m (R.ZLB_CMD_CTRL b) (mailboxWord lane opc len) → b < 8 → lane < 9 → len ≤ 64 → s.on (F.ZLB_CMD_CTRL_GO b) = false →
    s.laneState (9 * b + lane) ≠ zActive → ∃ t, exec (c m b lane len) s = .next t ∧ t.on (F.ZLB_CMD_CTRL_GO b) = false ∧ t.on (F.ZLB_CMD_STAT_DONE b) = true
      ∧ t.get (F.ZLB_CMD_STAT_RESULT b) = 2 ∧ t.shows (P_ZLB b) 11 = true ∧ OnlyRegs s t [R.ZLB_CMD_CTRL b, R.ZLB_CMD_STAT b] ∧ t.dram = s.dram)

/-- Sparing (R295): TAKE puts a ready spare in the place of its segment's lane and otherwise does nothing; RELEASE gives the segment back, where the working lane is ACTIVE.
The mailbox commands (R279, R298, Table 11.3). -/
def Obligations.SparingAndMailbox : Prop :=
  (∀ (m : Master) (b g : Nat) (s : State), s.Direct m (R.ZLB_SPARE_CMD b) 1 → b < 8 → g = s.get (F.ZLB_SPARE_CFG_SEG b) → s.spareReady b g = true →
    ∃ t, exec (.spareTake m b) s = .next t ∧ t.on (F.ZLB_SPARE_STAT_SERVING b) = true ∧ t.get (F.ZLB_SPARE_STAT_SEG b) = g ∧ t.shows (P_ZLB b) 7 = true
      ∧ t.get (F.ZLB_SPARE_STAT_TAKEOVERS b) = min (fldMax (F.ZLB_SPARE_STAT_TAKEOVERS b)) (s.get (F.ZLB_SPARE_STAT_TAKEOVERS b) + 1) ∧ (b, g) ∉ t.zl.lostSegs
      ∧ OnlyRegs s t [R.ZLB_SPARE_STAT b] ∧ t.dram = s.dram)
  ∧ (∀ (m : Master) (b : Nat) (s : State), s.Direct m (R.ZLB_SPARE_CMD b) 1 → b < 8 → s.spareReady b (s.get (F.ZLB_SPARE_CFG_SEG b)) = false →
    ∃ t, exec (.spareTake m b) s = .next t ∧ t.zl = s.zl ∧ (∀ a, t.reg a = s.reg a) ∧ t.dram = s.dram ∧ t.out = s.out)
  ∧ (∀ (m : Master) (b : Nat) (s : State), s.Direct m (R.ZLB_SPARE_CMD b) 2 → b < 8 → s.on (F.ZLB_SPARE_STAT_SERVING b) = true →
    s.laneState (9 * b + s.get (F.ZLB_SPARE_STAT_SEG b)) = zActive → ∃ t, exec (.spareRelease m b) s = .next t ∧ t.on (F.ZLB_SPARE_STAT_SERVING b) = false
      ∧ (∀ a, a ≠ R.ZLB_SPARE_STAT b → t.reg a = s.reg a) ∧ t.dram = s.dram ∧ t.out = s.out)
  ∧ (∀ (m : Master) (b : Nat) (s : State), s.Direct m (R.ZLB_SPARE_CMD b) 2 → b < 8 → s.on (F.ZLB_SPARE_STAT_SERVING b) = true →
    s.laneState (9 * b + s.get (F.ZLB_SPARE_STAT_SEG b)) ≠ zActive → ∃ t, exec (.spareRelease m b) s = .next t ∧ t.shows (P_ZLB b) 1 = true ∧ OnlyRegs s t [] ∧ t.zl = s.zl
      ∧ t.dram = s.dram)
  ∧ SendsByMailbox 1 .zlHibWrite ∧ SendsByMailbox 2 .zlHibRead ∧ SendsByMailbox 4 .zlNchk ∧ (∀ op < 64, SendsByMailbox (0x40 + op) fun m b lane len => .zlHibSpecific m b lane op len)

/-! ### The arbiter (chapter 12) -/

/-- Requests (R299, R302, R315, Tables 12.3 to 12.5): a request waits with its stamp, the raise time plus OFFSET or the instant of need minus OFFSET, and in panic the present time; a
request for a byte beyond the DRAM is a fault (log entry 5). -/
def Obligations.ArbiterRequests : Prop :=
  (∀ (t0 r need addr who dl : Nat) (write panic : Bool) (s : State), s.up 2 = true → r < 10 → addr < s.dramSize → (panic = false ∨ 3 ≤ r) →
    dl = (if s.on (F.ARB_REQ_CFG_SELF 0 r) then need - s.get (F.ARB_REQ_CFG_OFFSET 0 r) else max s.devtime t0 + s.get (F.ARB_REQ_CFG_OFFSET 0 r)) →
    ∃ t, exec (.arbRequest t0 0 r need panic (.access addr write who)) s = .next t
      ∧ t.mem.arb.waiting = s.mem.arb.waiting ++ [{ r := r, deadline := dl, raised := max s.devtime t0, work := .access (addr / 64 * 64) write who [] }]
      ∧ t.mem.arb.holders = s.mem.arb.holders ∧ OnlyRegs s t [R.ARB_HOLDING 0] ∧ t.dram = s.dram ∧ t.out = s.out)
  ∧ (∀ (t0 r need addr who : Nat) (write : Bool) (s : State), s.up 2 = true → r < 3 → addr < s.dramSize → ∃ t, exec (.arbRequest t0 0 r need true (.access addr write who)) s = .next t
      ∧ (∀ q ∈ t.mem.arb.waiting, q.r = r → q.deadline ≤ max s.devtime t0) ∧ t.mem.arb.waiting.length = s.mem.arb.waiting.length + 1 ∧ t.dram = s.dram)
  ∧ (∀ (t0 r need addr who : Nat) (write panic : Bool) (s : State), s.up 2 = true → s.dramSize ≤ addr →
    exec (.arbRequest t0 0 r need panic (.access addr write who)) s = .fault .noSuchAddress)
  ∧ (∀ (t0 r need n dl : Nat) (panic : Bool) (s : State), s.up 3 = true → r < 6 → 1 ≤ n → n ≤ (if r = 0 then 256 else if r = 2 ∨ r = 3 then 1 else 16) →
    dl = (if s.on (F.ARB_REQ_CFG_SELF 1 r) then need - s.get (F.ARB_REQ_CFG_OFFSET 1 r) else max s.devtime t0 + s.get (F.ARB_REQ_CFG_OFFSET 1 r)) →
    ∃ t, exec (.arbRequest t0 1 r need panic (.batch n)) s = .next t ∧ t.pix.fabric.holders = s.pix.fabric.holders
      ∧ t.pix.fabric.waiting = s.pix.fabric.waiting ++ [{ r := r, deadline := dl, raised := max s.devtime t0, work := .batch n }] ∧ OnlyRegs s t [R.ARB_HOLDING 1] ∧ t.dram = s.dram)
  ∧ (∀ (t0 r need : Nat) (panic : Bool) (j : TileJob) (s s' : State), s.up 3 = true → r < 8 → (s.atTime t0).nextTile r = (some j, s') → j.tile.kind = 1 →
    ∃ t, exec (.arbRequest t0 2 r need panic .tile) s = .next t ∧ (∃ q ∈ t.pix.pool.waiting, q.r = r ∧ q.work = .tile j ∧ q.raised = s'.devtime)
      ∧ t.pix.pool.holders = s'.pix.pool.holders ∧ t.dram = s'.dram)
  ∧ (∀ (t0 k need : Nat) (panic : Bool) (s : State), s.up 3 = true → k < 4 → s.codecWants k = true → ∃ t, exec (.arbRequest t0 2 8 need panic (.codec k)) s = .next t
    ∧ (∃ q, t.pix.pool.waiting = s.pix.pool.waiting ++ [q] ∧ q.r = 8 ∧ q.work = .codec k ∧ q.raised = max s.devtime t0) ∧ t.dram = s.dram)

/-- Grants, preemption, the hold limit and starvation (R300 to R305, R308, R313): a grant goes to a waiting request with room that none with room goes before; a preempted holder
waits again with its stamp; a holder beyond MAX_HOLD is cut off and its work raised afresh; and a request that starves is marked once. -/
def Obligations.ArbiterGrants : Prop :=
  (∀ (t0 i lane blocked : Nat) (s : State), i < 3 → s.up (arbIsland i) = true → (∀ p ∈ (s.arb i).waiting, p.r < 16) → (∃ p ∈ (s.arb i).waiting, s.arbRoom i lane p = true) →
    ∃ t q, exec (.arbGrant t0 i lane blocked) s = .next t ∧ q ∈ (s.arb i).waiting ∧ s.arbRoom i lane q = true
      ∧ (∀ p ∈ (s.arb i).waiting, s.arbRoom i lane p = true → p.before q = false) ∧ (t.arb i).waiting = (s.arb i).waiting.erase q
      ∧ (t.arb i).holders = (s.arb i).holders ++ [{ q with granted := max s.devtime t0, stalled := 0, stallFrom := none, lane := lane }]
      ∧ t.get (F.ARB_LATE_MAX i q.r) = max (s.get (F.ARB_LATE_MAX i q.r)) (min (fldMax (F.ARB_LATE_MAX i q.r)) (max s.devtime t0 - q.deadline))
      ∧ (s.get (F.ARB_WC_BLOCK i) < blocked → s.pageUp P_ARB = true → t.shows P_ARB 6 = true) ∧ t.dram = s.dram
      ∧ ∀ a, a / 0x1000 = P_ARB → a ∉ [R.ARB_HOLDING i, R.ARB_BLOCK_MAX i, R.ARB_LATE_MAX i q.r] → toldReg a = false → t.reg a = s.reg a)
  ∧ (∀ (t0 i need blocked : Nat) (q h : Req) (s : State), (i = 1 ∨ i = 2) → s.up 3 = true → h.r < 16 → q.r < 16 →
    nearest ((s.arb i).waiting.filter fun q => !(s.victims i q).isEmpty && (i == 1 || decide (32 ≤ (s.arb 2).holders.length))) = some q →
    victimOf (s.victims i q) = some h → (s.atTime t0).overHold i h = false → ∃ t, exec (.arbPreemption t0 i need blocked) s = .next t
      ∧ (t.arb i).waiting = (s.arb i).waiting.erase q ++ [{ h with granted := 0, stalled := 0, stallFrom := none }]
      ∧ (t.arb i).holders = ((s.arb i).holders ++ [{ q with granted := max s.devtime t0, stalled := 0, stallFrom := none, lane := h.lane }]).erase h
      ∧ t.get (F.ARB_REQ_CNT_PREEMPTS i h.r) = min (fldMax (F.ARB_REQ_CNT_PREEMPTS i h.r)) (s.get (F.ARB_REQ_CNT_PREEMPTS i h.r) + 1) ∧ t.dram = s.dram)
  ∧ (∀ (t0 i r lane need : Nat) (h : Req) (s : State), (i = 1 ∨ i = 2) → s.up 3 = true → h.r < 16 →
    ((s.arb i).holders.find? fun h => decide (h.r = r) && (i == 1 || decide (h.lane = lane)) && (s.atTime t0).overHold i h && !(i == 1 && r == 0)) = some h →
    ∃ t, exec (.arbHoldCut t0 i r lane need) s = .next t ∧ (t.arb i).holders = (s.arb i).holders.erase h ∧ bit (t.reg (R.ARB_CUT i)).toNat h.r = true ∧ t.shows P_ARB 5 = true
      ∧ (∃ q, (t.arb i).waiting.getLast? = some q ∧ q.r = h.r ∧ q.work = h.work ∧ q.raised = max s.devtime t0)
      ∧ t.get (F.ARB_REQ_CNT_CUTS i h.r) = min (fldMax (F.ARB_REQ_CNT_CUTS i h.r)) (s.get (F.ARB_REQ_CNT_CUTS i h.r) + 1) ∧ t.dram = s.dram)
  ∧ (∀ (t0 i r : Nat) (q : Req) (s : State), i < 3 → r < 16 → s.up (arbIsland i) = true → s.pageUp P_ARB = true →
    ((s.arb i).waiting.find? fun q => decide (q.r = r) && !q.starved && decide (q.deadline + s.get (F.ARB_STARVE i) ≤ max s.devtime t0)) = some q →
    ∃ t, exec (.arbStarve t0 i r) s = .next t ∧ { q with starved := true } ∈ (t.arb i).waiting ∧ (t.arb i).waiting.length = (s.arb i).waiting.length
      ∧ (t.arb i).holders = (s.arb i).holders ∧ bit (t.reg (R.ARB_STARVED i)).toNat r = true ∧ t.shows P_ARB 4 = true ∧ OnlyRegs s t [R.ARB_STARVED i, R.ARB_HOLDING i]
      ∧ t.dram = s.dram)

/-! ### The in-package DRAM (chapter 13) -/

/-- Accesses and errors (R317, R325 to R327): an access that completes gives its grant back, a read answers with the data, a write stores its enabled bytes and no other, and errors
are counted, reported and, where they were corrected, written back. -/
def Obligations.DramAccesses : Prop :=
  (∀ (t0 victim a : Nat) (q : Req) (data : List (Option Byte)) (s : State), s.up 2 = true → s.role = .solo → s.dramHolder 4 = some q → q.work = .access a false 0 data →
    s.mem.bad.contains (a / 64) = false → ∃ t, exec (.dramAccess t0 4 0 0 victim) s = .next t ∧ t.mem.arb.holders = s.mem.arb.holders.erase q
      ∧ .barReply (s.dramBytes (a / 64 * 64) 64) false ∈ t.out ∧ t.dram = s.dram)
  ∧ (∀ (t0 port ce ue victim a who : Nat) (q : Req) (data : List (Option Byte)) (s : State), s.up 2 = true → s.role = .solo → port ≠ 6 → port ≠ 7 → s.dramHolder port = some q →
    q.work = .access a true who data → data ≠ [] → ∃ t, exec (.dramAccess t0 port ce ue victim) s = .next t ∧ t.mem.arb.holders = s.mem.arb.holders.erase q
      ∧ (∀ i < data.length, t.dramByte (a + i) = (data.getD i none).getD (s.dramByte (a + i))) ∧ ∀ x, (x < a ∨ a + data.length ≤ x) → t.dramByte x = s.dramByte x)
  ∧ (∀ (t0 port ce ue victim a who : Nat) (q : Req) (data : List (Option Byte)) (s : State), s.up 2 = true → s.role = .solo → port ≠ 6 → port ≠ 7 → s.dramHolder port = some q →
    q.work = .access a false who data → s.mem.inited.contains (a / 0x200000) = true → s.mem.bad.contains (a / 64) = false → ce % 256 ≠ 0 → ue % 256 = 0 →
    ∃ t, exec (.dramAccess t0 port ce ue victim) s = .next t ∧ t.get F.MEM_CE_CNT = min (fldMax F.MEM_CE_CNT) (s.get F.MEM_CE_CNT + 1) ∧ t.get F.MEM_UE_CNT = s.get F.MEM_UE_CNT
      ∧ t.get64 R.MEM_ERR_ADDR_LO = a % 2 ^ 64 ∧ t.on F.MEM_ERR_INFO_UE = false ∧ t.shows P_MEM 4 = true
      ∧ (∃ x ∈ t.mem.arb.waiting, x.r = 9 ∧ x.work = .access (a / 64 * 64) true 0 []) ∧ t.dram = s.dram)
  ∧ (∀ (t0 ce ue victim a : Nat) (q : Req) (data : List (Option Byte)) (s : State), s.up 2 = true → s.role = .solo → s.dramHolder 4 = some q → q.work = .access a false 0 data →
    s.mem.inited.contains (a / 0x200000) = true → ue % 256 ≠ 0 → ∃ t, exec (.dramAccess t0 4 ce ue victim) s = .next t
      ∧ t.get F.MEM_UE_CNT = min (fldMax F.MEM_UE_CNT) (s.get F.MEM_UE_CNT + 1) ∧ t.get F.MEM_CE_CNT = s.get F.MEM_CE_CNT ∧ t.get64 R.MEM_ERR_ADDR_LO = a % 2 ^ 64
      ∧ t.on F.MEM_ERR_INFO_UE = true ∧ t.shows P_MEM 5 = true ∧ .barReply (s.dramBytes (a / 64 * 64) 64) true ∈ t.out ∧ t.dram = s.dram
      ∧ (s.hostUp = true → t.get F.HIF_BAR2_POISON = min (fldMax F.HIF_BAR2_POISON) (s.get F.HIF_BAR2_POISON + 1)))

/-- Refresh, the row tables, initialisation and the WDQ delay (R321, R322, R324, R328, R335): a refresh that falls due is postponed while accesses hold the bank, the eighth is
forced; a window clears the row tables; the poll shows the refresh rate; and CUR stays within 16 of TRAINED. -/
def Obligations.DramUpkeep : Prop :=
  (∀ (bank : Nat) (s : State), s.up 2 = true → bank < 256 → s.mem.postponed.length = 256 → s.bankWaiting bank = false → s.bankBusy bank = false →
    ∃ t, exec (.refreshDue bank) s = .next t ∧ t.postponed bank = s.postponed bank - 1 ∧ (∀ c, c ≠ bank → t.postponed c = s.postponed c) ∧ t.dram = s.dram ∧ t.out = s.out)
  ∧ (∀ (bank : Nat) (s : State), s.up 2 = true → bank < 256 → s.mem.postponed.length = 256 → s.bankBusy bank = true → ∃ t, exec (.refreshDue bank) s = .next t
    ∧ t.postponed bank = min 8 (s.postponed bank + 1) ∧ (∀ c, c ≠ bank → t.postponed c = s.postponed c)
    ∧ t.get (F.MCH_REFRESH_FORCED (bank / 16)) = s.get (F.MCH_REFRESH_FORCED (bank / 16)) ∧ t.dram = s.dram)
  ∧ (∀ (bank : Nat) (s : State), s.up 2 = true → bank < 256 → s.mem.postponed.length = 256 → s.bankWaiting bank = true → s.bankBusy bank = false → 7 ≤ s.postponed bank →
    ∃ t, exec (.refreshDue bank) s = .next t ∧ t.postponed bank = 7 ∧ t.dram = s.dram
      ∧ t.get (F.MCH_REFRESH_FORCED (bank / 16)) = min (fldMax (F.MCH_REFRESH_FORCED (bank / 16))) (s.get (F.MCH_REFRESH_FORCED (bank / 16)) + 1))
  ∧ (∀ (ch rate : Nat) (doubled : Bool) (s : State), s.up 2 = true → ch < 16 → bit (s.get F.MEM_CH_MAP_USED) ch = true → ∃ t, exec (.mr4Poll ch rate doubled) s = .next t
    ∧ t.get (F.MCH_MR4 ch) = rate % 256 ∧ t.on (F.MCH_REFRESH_DOUBLE ch) = doubled ∧ (doubled = true → t.on F.MEM_STAT_DOUBLE = true)
    ∧ (∀ a, a ≠ R.MCH_MR4 ch → a ≠ R.MCH_REFRESH ch → a ≠ R.MEM_STAT → t.reg a = s.reg a) ∧ t.dram = s.dram ∧ t.out = s.out)
  ∧ (∀ s : State, s.up 2 = true → ∃ t, exec .rdWindowStart s = .next t ∧ (∀ bank, nth t.mem.rows bank = []) ∧ t.mem.thr = s.get F.MEM_RD_CFG ∧ t.mem.overflowed = []
    ∧ t.regs = s.regs ∧ t.dram = s.dram ∧ t.out = s.out)
  ∧ (∀ s : State, s.up 2 = true → s.get F.MEM_STAT_USABLE_2M ≠ 0 → s.on F.MEM_STAT_INIT_DONE = false → ∃ t, exec .dramInitDone s = .next t ∧ t.on F.MEM_STAT_INIT_DONE = true
    ∧ t.get F.MEM_INIT_LEFT = 0 ∧ (∀ k < s.get F.MEM_STAT_USABLE_2M, k ∈ t.mem.inited) ∧ t.shows P_MEM 8 = true ∧ OnlyRegs s t [R.MEM_STAT, R.MEM_INIT_LEFT] ∧ t.dram = s.dram)
  ∧ (∀ (m : Master) (ch : Nat) (w : Word) (s : State), s.Direct m (R.MCH_WDQ ch) w → ch < 16 → s.calRun 4 0 = none → getBits 23 16 w = s.get (F.MCH_WDQ_TRAINED ch) →
    (getBits 7 0 w ≤ s.get (F.MCH_WDQ_TRAINED ch) + 16 ∧ s.get (F.MCH_WDQ_TRAINED ch) ≤ getBits 7 0 w + 16) → ∃ t, exec (.wdqWrite m ch w) s = .next t
      ∧ t.get (F.MCH_WDQ_CUR ch) = getBits 7 0 w ∧ t.get (F.MCH_WDQ_TRAINED ch) = s.get (F.MCH_WDQ_TRAINED ch) ∧ (∀ a, a ≠ R.MCH_WDQ ch → t.reg a = s.reg a) ∧ t.dram = s.dram)
  ∧ (∀ (m : Master) (ch : Nat) (w : Word) (s : State), s.Direct m (R.MCH_WDQ ch) w → ch < 16 →
    ((s.calRun 4 0).isSome = true ∨ s.get (F.MCH_WDQ_TRAINED ch) + 16 < getBits 7 0 w ∨ getBits 7 0 w + 16 < s.get (F.MCH_WDQ_TRAINED ch)) →
    ∃ t, exec (.wdqWrite m ch w) s = .next t ∧ t.shows P_MCH 1 = true ∧ OnlyRegs s t [] ∧ t.dram = s.dram)

/-! ### Core carats (chapter 14) -/

/-- Requests and grants (R336 to R338): a unit that needs its carats waits with its deadline, WAITS counts it where it does not fit at once, and a grant goes to the request
that none goes before, if it fits the budget and the rate; otherwise it blocks the others. Giving carats back, and starving (R305, R337 to R339): a unit that no longer
needs its carats releases them, a lane first lingers until LINGER has run out, and a request that waits STARVE_LIMIT beyond its deadline is reported once. -/
def Obligations.Carats : Prop :=
  (∀ (t0 c u dl : Nat) (s : State), s.up 1 = true → c < 8 → c ≠ 1 → s.caratNeed c u = true → s.holdsCarats c u = false → s.waitsCarats c u = false →
    dl = max s.devtime t0 + s.get (F.CRT_CONS_CFG_OFFSET c) → ∃ t, exec (.caratRequest t0 c u) s = .next t
      ∧ t.hsk.cwait = s.hsk.cwait ++ [{ cons := c, unit := u, deadline := dl, raised := max s.devtime t0 }] ∧ t.hsk.cheld = s.hsk.cheld
      ∧ (s.caratFits c = true → s.hsk.cwait = [] → t.regs = s.regs)
      ∧ (s.caratFits c = false ∨ s.hsk.cwait ≠ [] → t.get (F.CRT_CONS_STAT_WAITS c) = min (fldMax (F.CRT_CONS_STAT_WAITS c)) (s.get (F.CRT_CONS_STAT_WAITS c) + 1))
      ∧ (∀ a, a ≠ R.CRT_CONS_STAT c → t.reg a = s.reg a) ∧ t.dram = s.dram ∧ t.out = s.out)
  ∧ (∀ (t0 u : Nat) (q : Req) (j : TileJob) (s : State), s.up 1 = true → s.up 3 = true → s.laneHolder u = some q → q.work = .tile j → s.holdsCarats 1 u = false →
    s.waitsCarats 1 u = false → ∃ t, exec (.caratRequest t0 1 u) s = .next t ∧ ∃ x, t.hsk.cwait = s.hsk.cwait ++ [x] ∧ x.cons = 1 ∧ x.unit = u
      ∧ x.deadline = if (s.atTime t0).barPanic j.bar then max s.devtime t0 else q.deadline - s.get (F.CRT_CONS_CFG_OFFSET 1))
  ∧ (∀ (t0 : Nat) (s : State), s.up 1 = true → (∀ p ∈ s.hsk.cwait, p.cons < 8) → s.hsk.cwait ≠ [] → ∃ t q, exec (.caratGrant t0) s = .next t ∧ q ∈ s.hsk.cwait
    ∧ (∀ p ∈ s.hsk.cwait, p.before q = false)
    ∧ (s.caratFits q.cons = true → (s.atTime t0).caratRate q.cons = true → t.hsk.cwait = s.hsk.cwait.erase q ∧ t.hsk.cheld = s.hsk.cheld ++ [q]
        ∧ t.get F.CRT_CORE_STAT_GRANTED = (s.hsk.cheld ++ [q]).foldl (fun n p => n + s.caratCost p.cons) 0 % (fldMax F.CRT_CORE_STAT_GRANTED + 1))
    ∧ (s.caratFits q.cons = false ∨ (s.atTime t0).caratRate q.cons = false → t.hsk = s.hsk ∧ t.regs = s.regs) ∧ t.dram = s.dram ∧ t.out = s.out)
  ∧ (∀ (t0 : Nat) (s : State), s.up 1 = true → s.hsk.cwait.length ≤ 64 → ∃ t, exec (.caratRateWindow t0) s = .next t
    ∧ (∀ q, nearestC t.hsk.cwait = some q → (t.caratFits q.cons && t.caratRate q.cons) = false) ∧ (∀ q ∈ s.hsk.cwait, q ∈ t.hsk.cwait ∨ q ∈ t.hsk.cheld)
    ∧ (∀ q ∈ s.hsk.cheld, q ∈ t.hsk.cheld) ∧ t.dram = s.dram ∧ t.out = s.out)
  ∧ (∀ (c u : Nat) (s : State), s.up 1 = true → s.caratNeed c u = false → ((c ≠ 1 ∧ c ≠ 5) ∨ (s.lingering u = false ∧ s.laneHolder u = none)) →
    ∃ t, exec (.caratRelease c u) s = .next t ∧ t.hsk.cheld = (s.hsk.cheld.filter fun q => !sameUnit c u q.cons q.unit) ∧ t.hsk.cwait = s.hsk.cwait
      ∧ t.holdsCarats c u = false ∧ t.dram = s.dram ∧ t.out = s.out)
  ∧ (∀ (t0 k t1 : Nat) (s : State), s.up 1 = true → k < s.pix.img.lanes.length → (nth s.pix.img.lanes k).linger = some t1 → t1 + s.get F.CRT_LINGER ≤ max s.devtime t0 →
    ∃ t, exec (.lingerExpiry t0 k) s = .next t ∧ t.lingering k = false ∧ t.holdsCarats 1 k = false ∧ t.pix.pool = s.pix.pool ∧ t.dram = s.dram ∧ t.out = s.out)
  ∧ (∀ (t0 k t1 : Nat) (s : State), (nth s.pix.img.lanes k).linger = some t1 → max s.devtime t0 < t1 + s.get F.CRT_LINGER → ∃ t, exec (.lingerExpiry t0 k) s = .next t
    ∧ t.hsk = s.hsk ∧ t.pix = s.pix ∧ t.regs = s.regs ∧ t.dram = s.dram ∧ t.out = s.out)
  ∧ (∀ (t0 c : Nat) (q : CReq) (s : State), s.up 1 = true → c < 8 →
    (s.hsk.cwait.find? fun q => decide (q.cons = c) && !q.starved && decide (q.deadline + s.get F.CRT_STARVE ≤ max s.devtime t0)) = some q →
    ∃ t, exec (.caratStarve t0 c) s = .next t ∧ { q with starved := true } ∈ t.hsk.cwait ∧ t.hsk.cwait.length = s.hsk.cwait.length ∧ t.hsk.cheld = s.hsk.cheld
      ∧ bit (t.reg R.CRT_STARVED).toNat c = true ∧ t.shows P_CRT 4 = true ∧ OnlyRegs s t [R.CRT_STARVED] ∧ t.dram = s.dram)

/-! ### Temperature (chapter 14) -/

/-- Rounds (R343 to R348, Table 3.6): a round shows the raw counts; a state is entered by the sixteenth round in a row at or above its threshold, and left by the sixteenth below it
by more than HYST; entering STOP stops every bar of every job, and entering CRITICAL holds the device in reset. -/
def Obligations.ThermalRounds : Prop :=
  (∀ (sites : List SiteSample) (s : State), s.up 1 = true → s.role = .solo → (s.thermalRound sites).2.crit ≠ some true → ∃ t, exec (.thermalRound sites) s = .next t
    ∧ t.get F.THM_ROUNDS = (s.get F.THM_ROUNDS + 1) % (fldMax F.THM_ROUNDS + 1) ∧ ∀ k < 16, t.get (F.THM_SITE_RAW k) = (sites.getD k ⟨0, 0, true⟩).raw % 2 ^ 16)
  ∧ (∀ (i : Nat) (dev thr : Int) (s : State), thr = signedOf 16 (nth s.hsk.thr i) →
    ((s.threshold i dev).2 = some true ↔ s.on (tstate i) = false ∧ thr ≤ dev ∧ 15 ≤ nth s.hsk.enter i)
    ∧ ((s.threshold i dev).2 = some false ↔ s.on (tstate i) = true ∧ dev < thr - (s.hsk.hyst : Int) ∧ 15 ≤ nth s.hsk.leave i))
  ∧ (∀ (sites : List SiteSample) (s : State), s.up 1 = true → s.role = .solo → s.dev.inJob = true → s.pix.jobs.length = 4 → s.pix.bars.length = 8 →
    (∀ b r, s.run b = some r → r.stream < 4 ∧ (s.job r.stream).isSome = true) → (s.thermalRound sites).2.stop = some true → (s.thermalRound sites).2.crit ≠ some true →
    ∃ t, exec (.thermalRound sites) s = .next t ∧ t.shows P_THM 5 = true ∧ ∀ b, t.run b = none ∨ ∃ r, t.run b = some r ∧ r.stopAt.isSome = true)
  ∧ (∀ (sites : List SiteSample) (s : State), s.up 1 = true → s.role = .solo → s.aux.vaux = true → s.quiet → (s.thermalRound sites).2.crit = some true →
    ∃ t, exec (.thermalRound sites) s = .next t ∧ t.dev = .resethold ∧ t.aux.seq = .idle ∧ t.aux.holdMark = true ∧ (∀ i, 2 ≤ i → i ≤ 7 → t.phase i = .inReset)
      ∧ (∀ i < 2, t.phase i = s.phase i) ∧ t.dram = [] ∧ ∃ r ∈ t.aux.log, r.code = 0xFF07)

/-! ### Self-calibration (chapter 15) -/

/-- Runs (R353 to R356, R359, R362): a pending unit starts in its quiet window, an ADC unit waits for its TRIM phase once the circle is covered, a good result is loaded and the item
done when none of its units is left, a bad one leaves the registers and is reported, and a unit pending for too long is overdue. -/
def Obligations.CalibrationRuns : Prop :=
  (∀ (t0 i u : Nat) (s : State), s.up 1 = true → u < calUnits i → s.calRun i u = none → s.calPending i u = true → s.calCircuit i u = true → ¬ (i = 0 ∧ s.inJob u = true) →
    ∃ t, exec (.calUnitStart t0 i u) s = .next t ∧ (∃ r ∈ t.hsk.runs, r.item = i ∧ r.unit = u ∧ r.since = some (max s.devtime t0) ∧ r.phase = if i = 2 then .fit else .run)
      ∧ bit (t.get (F.CAL_RUNNING i)) u = true ∧ t.calPending i u = false ∧ OnlyRegs s t [R.CAL_ITEM_STAT i, R.CAL_RUNNING i] ∧ t.dram = s.dram ∧ t.out = s.out)
  ∧ (∀ (t0 u l t1 : Nat) (s : State), s.up 1 = true → u < 8 → s.calRun 0 u = none → s.calPending 0 u = true → s.calCircuit 0 u = true → s.inJob u = true →
    s.zone u = some (l, t1) → ∃ t, exec (.calUnitStart t0 0 u) s = .next t ∧ (∃ r ∈ t.hsk.runs, r.item = 0 ∧ r.unit = u ∧ r.zone = some l ∧ r.since = some t1)
      ∧ t.calPending 0 u = false ∧ t.dram = s.dram)
  ∧ (∀ (t0 i u : Nat) (s : State), s.up 1 = true → s.calRun i u = none → (s.calPending i u = false ∨ s.calCircuit i u = false) → ∃ t, exec (.calUnitStart t0 i u) s = .next t
    ∧ t.hsk = s.hsk ∧ t.regs = s.regs ∧ t.dram = s.dram ∧ t.out = s.out)
  ∧ (∀ (t0 c t1 : Nat) (r : CalRun) (s : State), s.up 1 = true → s.calRun 2 c = some r → r.phase = .fit → s.speedValid c = true → r.since = some t1 →
    t1 + 819200 ≤ max s.devtime t0 → ∃ t, exec (.adcFitDone t0 c) s = .next t ∧ { r with phase := .trimWait } ∈ t.hsk.runs ∧ t.regs = s.regs ∧ t.dram = s.dram ∧ t.out = s.out)
  ∧ (∀ (t0 i u t1 : Nat) (ws : List Word) (r : CalRun) (s : State), s.up 1 = true → i < 5 → u < calUnits i → s.calRun i u = some r → (r.phase = .run ∨ r.phase = .trim) →
    r.since = some t1 → t1 + calTicks i ≤ max s.devtime t0 → (((s.calRegs i u).zip ws).all fun x => s.calInRange x.1 x.2) = true →
    (i = 1 → ∀ x ∈ s.hsk.broken, x = 0) → ∃ t, exec (.calUnitComplete t0 i u true ws) s = .next t ∧ (∀ x ∈ (s.calRegs i u).zip ws, t.reg x.1 = calWord s x.1 x.2)
      ∧ bit (t.reg (R.CAL_ITEM_STAT i)).toNat (23 + u) = false ∧ r ∉ t.hsk.runs ∧ bit (t.get (F.CAL_RUNNING i)) u = false
      ∧ (s.hsk.again = [] → s.get (F.CAL_ITEM_STAT_PEND i) = 0 → s.get (F.CAL_RUNNING i) = 2 ^ u → t.shows P_CAL 4 = true
          ∧ t.get (F.CAL_RUN_CNT i) = (s.get (F.CAL_RUN_CNT i) + 1) % (fldMax (F.CAL_RUN_CNT i) + 1) ∧ t.get64 (R.CAL_LAST_TIME_LO i) = max s.devtime t0 % 2 ^ 64)
      ∧ t.dram = s.dram)
  ∧ (∀ (t0 i u t1 : Nat) (ws : List Word) (r : CalRun) (s : State), s.up 1 = true → i < 5 → u < calUnits i → s.calRun i u = some r → (r.phase = .run ∨ r.phase = .trim) →
    r.since = some t1 → t1 + calTicks i ≤ max s.devtime t0 → (((s.calRegs i u).zip ws).all fun x => s.calInRange x.1 x.2) = true →
    ∃ t, exec (.calUnitComplete t0 i u false ws) s = .next t ∧ (∀ a ∈ s.calRegs i u, t.reg a = s.reg a) ∧ bit (t.reg (R.CAL_ITEM_STAT i)).toNat (23 + u) = true
      ∧ t.shows P_CAL 6 = true ∧ r ∉ t.hsk.runs ∧ bit (t.get (F.CAL_RUNNING i)) u = false ∧ t.dram = s.dram)
  ∧ (∀ (t0 i u : Nat) (x : Nat × Nat × Nat) (s : State), s.up 1 = true → i < 5 → (s.hsk.pendSince.find? fun x => x.1 == i && x.2.1 == u) = some x →
    x.2.2 + s.get F.CAL_PEND_MAX * 1000 * 400000 < max s.devtime t0 → (i, u) ∉ s.hsk.overdue → ∃ t, exec (.calOverdue t0 i u) s = .next t
      ∧ (i, u) ∈ t.hsk.overdue ∧ t.on (F.CAL_ITEM_STAT_OVERDUE i) = true ∧ t.shows P_CAL 5 = true ∧ OnlyRegs s t [R.CAL_ITEM_STAT i] ∧ t.dram = s.dram)

/-- ITEM_CMD (R353, R357, R363, Table 15.2): RUN makes units pending, FORCE starts units whose circuits are there, in a job at the first line whose latch point has not been
reached, and CANCEL withdraws pending units. A write of a result register (R361): it is loaded like a run's result, but not while a run of its unit is under way or with a
value outside its range. -/
def Obligations.CalibrationRegisters : Prop :=
  (∀ (m : Master) (i u units : Nat) (s : State), s.Direct m (R.CAL_ITEM_CMD i) (BitVec.ofNat 32 (units * 0x10000 + 1)) → i < 5 → u < calUnits i → units < 512 →
    bit units u = true → s.calRun i u = none → ∃ t, exec (.calRunCmd m i units) s = .next t ∧ t.calPending i u = true
      ∧ (s.calPending i u = false → t.get (F.CAL_ITEM_STAT_TRIG i) = 2 ∧ (i, u, s.devtime) ∈ t.hsk.pendSince) ∧ t.hsk.runs = s.hsk.runs ∧ OnlyRegs s t [R.CAL_ITEM_STAT i]
      ∧ t.dram = s.dram)
  ∧ (∀ (m : Master) (i u units : Nat) (s : State), s.Direct m (R.CAL_ITEM_CMD i) (BitVec.ofNat 32 (units * 0x10000 + 2)) → s.role = .solo → i < 5 → u < calUnits i →
    units < 512 → bit units u = true → s.calRun i u = none → s.calCircuit i u = true → (i = 0 → s.inJob u = false) → ∃ t, exec (.calForce m i units) s = .next t
      ∧ (∃ r ∈ t.hsk.runs, r.item = i ∧ r.unit = u ∧ r.since = some s.devtime ∧ r.phase = if i = 2 then .fit else .run) ∧ bit (t.get (F.CAL_RUNNING i)) u = true
      ∧ t.calPending i u = false ∧ OnlyRegs s t [R.CAL_ITEM_STAT i, R.CAL_RUNNING i] ∧ t.dram = s.dram)
  ∧ (∀ (m : Master) (u units : Nat) (s : State), s.Direct m (R.CAL_ITEM_CMD 0) (BitVec.ofNat 32 (units * 0x10000 + 2)) → s.role = .solo → u < 8 → units < 512 →
    bit units u = true → s.fire.clks.length = 8 → s.calRun 0 u = none → s.calCircuit 0 u = true → s.inJob u = true → ∃ t, exec (.calForce m 0 units) s = .next t
      ∧ (∃ r ∈ t.hsk.runs, r.item = 0 ∧ r.unit = u ∧ r.forced = true ∧ r.since = none ∧ r.zone = some (lineAdd (s.nextLine u) (s.unlatched u)))
      ∧ (∃ k, (t.clk u).forced = some (lineAdd (s.nextLine u) (s.unlatched u), k)) ∧ bit (t.get (F.CAL_RUNNING 0)) u = true ∧ t.dram = s.dram)
  ∧ (∀ (m : Master) (i u units : Nat) (s : State), s.Direct m (R.CAL_ITEM_CMD i) (BitVec.ofNat 32 (units * 0x10000 + 4)) → i < 5 → u < calUnits i → units < 512 →
    bit units u = true → s.calPending i u = true → ∃ t, exec (.calCancel m i units) s = .next t ∧ t.calPending i u = false ∧ (∀ x ∈ t.hsk.pendSince, ¬ (x.1 = i ∧ x.2.1 = u))
      ∧ t.hsk.runs = s.hsk.runs ∧ OnlyRegs s t [R.CAL_ITEM_STAT i] ∧ t.dram = s.dram)
  ∧ (∀ (m : Master) (a i u k j : Nat) (r : RegRow) (w : Word) (s : State), s.Direct m a w → a / 0x1000 = P_CAL → calUnitOf a = some (i, u) → regRow a = some (r, k, j) →
    onlyReadOnly r a k (s.live a) w = false → rowInRange r w = true → s.calRun i u = none → s.calInRange a w = true → ∃ t, exec (.calResultWrite m a w) s = .next t
      ∧ t.reg a = calWord s a w ∧ OnlyRegs s t [a, R.CAL_ITEM_STAT 0, R.CAL_ITEM_STAT 2] ∧ t.dram = s.dram ∧ t.out = s.out)
  ∧ (∀ (m : Master) (a i u : Nat) (w : Word) (s : State), s.Direct m a w → a / 0x1000 = P_CAL → calUnitOf a = some (i, u) →
    ((s.calRun i u).isSome = true ∨ s.calInRange a w = false) → ∃ t, exec (.calResultWrite m a w) s = .next t ∧ t.shows P_CAL 1 = true ∧ OnlyRegs s t [] ∧ t.hsk = s.hsk
      ∧ t.dram = s.dram)

/-! ### The redundant pair (chapter 16) -/

/-- HOLD_IN has been low for 20 µs and no frame with HOLDING = 1 has been sent in that time (R368, step 1). -/
def NoOneHolds (s : State) (now : Nat) : Prop :=
  (∃ x, s.plk.lowSince = some x ∧ x + 8000 ≤ now) ∧ ∀ y : Int, s.plk.lastHolding = some y → y + 8000 ≤ (now : Int)

/-- A claim has raised HOLD_OUT (R368, step 3): the unit is ACTIVE, and the collision check is due 5 µs later. -/
def Raised (s t : State) (now : Nat) : Prop :=
  t.role = .active ∧ t.plk.claim = .raised (now + 2000) ∧ t.on F.PAR_STAT_CLAIMING = true ∧ t.pad 34 = .follow now none ∧ t.shows P_PAR 4 = true ∧ t.dram = s.dram

/-- A frame of the partner with header `h` is a new one (R370). -/
def NewFrame (s : State) (h : PairHdr) : Prop := s.linkUp = true ∧ ∀ x, s.plk.rxSeq = some x → 0 < sdiff 16 h.seq x

/-- The acknowledgement of a frame with header `h` that arrives at `now`. -/
def ackFor (s : State) (now : Nat) (h : PairHdr) : Out := .pair s.plk.txSeq s.holding (s.toPair now) (.ack h.seq)

/-- Claims (R368): a DETACHED unit claims control by command or by itself, when no unit holds it; the check 5 µs later ends the claim, or backs off from a collision up to three
times; a unit that is not DETACHED refuses CLAIM. -/
def Obligations.PairClaims : Prop :=
  (∀ (t0 : Nat) (m : Master) (s : State), (s.atTime t0).Direct m R.PAR_CMD (parWord 1) → s.role = .detached → s.unitClash = false → NoOneHolds s (max s.devtime t0) →
    s.plk.peerClaim = none → s.aux.pads.length = 35 → ∃ t, exec (.parClaim t0 (some m)) s = .next t ∧ Raised s t (max s.devtime t0))
  ∧ (∀ (t0 : Nat) (s : State), s.up 6 = true → s.role = .detached → s.on F.PAR_CFG_AUTO_CLAIM = true → s.on F.DEV_STRAPS_ROLE_PREF = true → s.unitClash = false →
    NoOneHolds s (max s.devtime t0) → s.plk.peerClaim = none → s.aux.pads.length = 35 → ∃ t, exec (.parClaim t0 none) s = .next t ∧ Raised s t (max s.devtime t0))
  ∧ (∀ (t0 : Nat) (m : Master) (s : State), (s.atTime t0).Direct m R.PAR_CMD (parWord 1) → s.role = .detached → s.unitClash = false → ¬ NoOneHolds s (max s.devtime t0) →
    ∃ t, exec (.parClaim t0 (some m)) s = .next t ∧ t.role = .detached ∧ t.plk.claim = .none ∧ t.shows P_PAR 11 = true ∧ OnlyRegs s t [R.PAR_STAT] ∧ t.dram = s.dram)
  ∧ (∀ (t0 : Nat) (m : Master) (s : State), (s.atTime t0).Direct m R.PAR_CMD (parWord 1) → s.role ≠ .detached →
    ∃ t, exec (.parClaim t0 (some m)) s = .next t ∧ t.shows P_PAR 1 = true ∧ t.role = s.role ∧ t.plk.claim = s.plk.claim ∧ OnlyRegs s t [] ∧ t.dram = s.dram)
  ∧ (∀ (t0 due : Nat) (s : State), s.up 6 = true → s.plk.claim = .raised due → due ≤ max s.devtime t0 → s.on F.PAR_STAT_HOLD_IN = false →
    ∃ t, exec (.claimCollisionCheck t0) s = .next t ∧ t.plk.claim = .none ∧ t.on F.PAR_STAT_CLAIMING = false ∧ t.role = s.role ∧ (∀ a, a ≠ R.PAR_STAT → t.reg a = s.reg a)
      ∧ t.dram = s.dram ∧ t.out = s.out)
  ∧ (∀ (t0 due : Nat) (s : State), s.up 6 = true → s.plk.claim = .raised due → due ≤ max s.devtime t0 → s.on F.PAR_STAT_HOLD_IN = true → s.aux.pads.length = 35 →
    ∃ t, exec (.claimCollisionCheck t0) s = .next t ∧ t.role = .detached ∧ (s.role ≠ .detached → t.pad 34 = .rest) ∧ t.dram = s.dram
      ∧ (s.plk.collisions < 2 → t.plk.collisions = s.plk.collisions + 1
          ∧ t.plk.claim = .backOff (max s.devtime t0 + if s.on F.DEV_STRAPS_ROLE_PREF then 40000 else 400000))
      ∧ (2 ≤ s.plk.collisions → t.plk.claim = .none ∧ t.on F.PAR_STAT_CLAIMING = false ∧ t.shows P_PAR 11 = true))
  ∧ (∀ (t0 due : Nat) (s : State), s.up 6 = true → s.plk.claim = .backOff due → due ≤ max s.devtime t0 → s.role = .detached → NoOneHolds s (max s.devtime t0) →
    s.plk.peerClaim = none → s.aux.pads.length = 35 → ∃ t, exec (.claimRetry t0) s = .next t ∧ Raised s t (max s.devtime t0))
  ∧ (∀ (t0 due : Nat) (s : State), s.plk.claim = .backOff due → max s.devtime t0 < due → ∃ t, exec (.claimRetry t0) s = .next t ∧ t.plk = s.plk ∧ t.regs = s.regs
    ∧ t.dram = s.dram ∧ t.out = s.out)

/-- Stamped actions (R106, R373, R374, R392): the active queues a lockstep write or a hand-over with its stamp and sends it, its partner queues it or is too late for it, and at its
stamp it takes effect: a write changes its register, a hand-over the role. -/
def Obligations.StampedActions : Prop :=
  (∀ (a : Nat) (b0 b1 b2 b3 : Byte) (s : State), s.reaches .host = true → s.pix.fabric.holders = [] → s.quiet → s.pageUp (a / 0x1000) = true → a % 4 = 0 →
    placeOf a = .page (a / 0x1000) → s.role = .active → s.lockstepWrite (.page (a / 0x1000)) a (wordOf b0 b1 b2 b3) = true →
    ∃ t, exec (.registerWrite .host a [some b0, some b1, some b2, some b3]) s = .next t ∧ t.regs = s.regs ∧ t.dram = s.dram
      ∧ t.plk.actions = insertAction { stamp := s.devtime + s.get F.PAR_DELAY, act := .writes .host [(a, wordOf b0 b1 b2 b3)], waitAck := if s.linkUp then some s.plk.txSeq else none }
        s.plk.actions)
  ∧ (∀ (a i j : Nat) (r : RegRow) (m : Master) (w : Word) (q : QAction) (l : List QAction) (s : State), s.up 6 = true → s.plk.actions = q :: l → q.act = .writes m [(a, w)] →
    s.quiet → s.pix.fabric.holders = [] → a / 0x1000 = P_CDC → a % 4 = 0 → placeOf a = .page P_CDC → s.pageUp P_CDC = true → s.pageHeld P_CDC = false →
    regRow a = some (r, i, j) → 0x040 ≤ a % 0x1000 → r.claspOnly = false → r.pair = false → s.openBits a = 0 → onlyReadOnly r a i (s.live a) w = false → rowInRange r w = true →
    s.writeBars m a i j r.off w = none → (∀ l, loOf a = some l → s.heldLo m l = none) → ∃ t, exec .actionStamp s = .next t ∧ t.plk.actions = l
      ∧ t.devtime = max s.devtime q.stamp ∧ t.reg a = writtenWord r a i (s.reg a) w ∧ (∀ b, b ≠ a → t.reg b = s.reg b) ∧ t.dram = s.dram ∧ t.out = s.out)
  ∧ (∀ (m : Master) (s : State), s.Direct m R.PAR_CMD (parWord 2) → s.role = .active → s.linkUp = true → s.get F.PAR_STAT_PEER_ROLE = 2 →
    ∃ t, exec (.parHandover m) s = .next t ∧ t.role = .active ∧ t.dram = s.dram
      ∧ t.plk.actions = insertAction { stamp := s.devtime + s.get F.PAR_DELAY, act := .handover, waitAck := some s.plk.txSeq } s.plk.actions
      ∧ .pair s.plk.txSeq true s.pairTime (.action (s.toPair (s.devtime + s.get F.PAR_DELAY)) .handover) ∈ t.out)
  ∧ (∀ (m : Master) (s : State), s.Direct m R.PAR_CMD (parWord 2) → (s.role = .detached ∨ s.role = .solo ∨ (s.role = .active ∧ (s.linkUp = false ∨ s.get F.PAR_STAT_PEER_ROLE ≠ 2))) →
    ∃ t, exec (.parHandover m) s = .next t ∧ t.shows P_PAR 1 = true ∧ t.role = s.role ∧ t.plk.actions = s.plk.actions ∧ OnlyRegs s t [] ∧ t.dram = s.dram)
  ∧ (∀ (m : Master) (s : State), s.Direct m R.PAR_CMD (parWord 2) → s.role = .standby → s.linkUp = true → ∃ t, exec (.parHandover m) s = .next t ∧ t.role = .standby
    ∧ t.out = .pair s.plk.txSeq false s.pairTime .handoverRequest :: s.out ∧ OnlyRegs s t [] ∧ t.dram = s.dram)
  ∧ (∀ (q : QAction) (l : List QAction) (s : State), s.up 6 = true → s.plk.actions = q :: l → q.act = .handover → s.role = .active → s.plk.locket = none → s.quiet →
    s.pix.fabric.holders = [] → s.aux.pads.length = 35 → ∃ t, exec .actionStamp s = .next t ∧ t.role = .standby ∧ t.plk.actions = l ∧ t.pad 34 = .rest ∧ t.shows P_PAR 4 = true
      ∧ t.get F.PAR_CHANGES_HANDOVERS = min (fldMax F.PAR_CHANGES_HANDOVERS) (s.get F.PAR_CHANGES_HANDOVERS + 1) ∧ t.dram = s.dram)
  ∧ (∀ (t0 : Nat) (h : PairHdr) (stamp : Int) (act : PairAct) (s : State), NewFrame s h → (s.role = .standby ∨ s.role = .detached) →
    ((max s.devtime t0 : Nat) : Int) + 200 ≤ s.fromPair stamp → ∃ t, exec (.actionReceived t0 h stamp act) s = .next t
      ∧ t.plk.actions = insertAction { stamp := (s.fromPair stamp).toNat, act := act } s.plk.actions ∧ t.out = ackFor s (max s.devtime t0) h :: s.out ∧ t.regs = s.regs
      ∧ t.dram = s.dram)
  ∧ (∀ (t0 : Nat) (h : PairHdr) (stamp : Int) (act : PairAct) (s : State), NewFrame s h → (s.role = .standby ∨ s.role = .detached) →
    s.fromPair stamp < ((max s.devtime t0 : Nat) : Int) + 200 →
    ∃ t, exec (.actionReceived t0 h stamp act) s = .next t ∧ t.role = .detached ∧ t.get F.PAR_STAT_DETACH_CAUSE = 2 ∧ t.shows P_PAR 10 = true
      ∧ t.plk.actions = s.plk.actions ∧ t.dram = s.dram)

/-- HOLD_IN, takeover and detaching (R365, R367, R381, R384, R385, R391): a fall of HOLD_IN starts the wait of 2 µs, after which a standby takes control unless its partner still
holds it, and a DETACHED unit reports that no unit is eligible; a rise ends the wait; DETACH is taken on a standby only. -/
def Obligations.HoldAndTakeover : Prop :=
  (∀ (t0 : Nat) (s : State), s.up 6 = true → ∃ t, exec (.holdInFall t0) s = .next t ∧ t.on F.PAR_STAT_HOLD_IN = false ∧ t.plk.holdFell = some (max s.devtime t0 - 400)
    ∧ t.plk.lowSince = some (max s.devtime t0 - 400) ∧ t.plk.locket = none ∧ t.role = s.role ∧ (s.plk.locket.isSome = true → t.shows P_PAR 9 = true) ∧ t.dram = s.dram)
  ∧ (∀ (t0 : Nat) (s : State), s.up 6 = true → ∃ t, exec (.holdInRise t0) s = .next t ∧ t.on F.PAR_STAT_HOLD_IN = true ∧ t.plk.holdFell = none ∧ t.plk.lowSince = none
    ∧ t.plk.locket = s.plk.locket ∧ (∀ a, a ≠ R.PAR_STAT → t.reg a = s.reg a) ∧ t.dram = s.dram ∧ t.out = s.out)
  ∧ (∀ (t0 x : Nat) (s : State), s.up 6 = true → s.role = .standby → s.plk.holdFell = some x → x + 1200 ≤ max s.devtime t0 → s.aux.pads.length = 35 →
    (∀ y : Int, s.plk.lastHolding = some y → y < (x : Int)) → ∃ t, exec (.takeoverDecision t0) s = .next t ∧ t.role = .active ∧ t.plk.holdFell = none
      ∧ t.pad 34 = .follow (max s.devtime t0) none ∧ t.shows P_PAR 4 = true ∧ t.dram = s.dram ∧ (s.plk.handover = false →
          t.get F.PAR_CHANGES_TAKEOVERS = min (fldMax F.PAR_CHANGES_TAKEOVERS) (s.get F.PAR_CHANGES_TAKEOVERS + 1)
          ∧ t.get F.PAR_CHANGES_HANDOVERS = s.get F.PAR_CHANGES_HANDOVERS)
      ∧ (s.plk.handover = true → t.get F.PAR_CHANGES_HANDOVERS = min (fldMax F.PAR_CHANGES_HANDOVERS) (s.get F.PAR_CHANGES_HANDOVERS + 1)
          ∧ t.get F.PAR_CHANGES_TAKEOVERS = s.get F.PAR_CHANGES_TAKEOVERS))
  ∧ (∀ (t0 x : Nat) (y : Int) (s : State), s.up 6 = true → s.role = .standby → s.plk.holdFell = some x → x + 1200 ≤ max s.devtime t0 → s.plk.lastHolding = some y →
    (x : Int) ≤ y → ∃ t, exec (.takeoverDecision t0) s = .next t ∧ t.role = .detached ∧ t.get F.PAR_STAT_DETACH_CAUSE = 4 ∧ t.shows P_PAR 7 = true ∧ t.plk.holdFell = none
      ∧ t.dram = s.dram)
  ∧ (∀ (t0 x : Nat) (s : State), s.up 6 = true → s.role = .detached → s.dev.inJob = false → s.plk.holdFell = some x → x + 1200 ≤ max s.devtime t0 →
    (∀ y : Int, s.plk.lastHolding = some y → y < (x : Int)) → ∃ t, exec (.takeoverDecision t0) s = .next t ∧ t.role = .detached ∧ t.shows P_PAR 12 = true
      ∧ t.plk.holdFell = none ∧ OnlyRegs s t [] ∧ t.dram = s.dram)
  ∧ (∀ (t0 x : Nat) (s : State), s.plk.holdFell = some x → max s.devtime t0 < x + 1200 → ∃ t, exec (.takeoverDecision t0) s = .next t ∧ t.plk = s.plk ∧ t.regs = s.regs
    ∧ t.dram = s.dram ∧ t.out = s.out)
  ∧ (∀ (m : Master) (s : State), s.Direct m R.PAR_CMD (parWord 4) → s.role = .standby → ∃ t, exec (.parDetach m) s = .next t ∧ t.role = .detached
    ∧ t.get F.PAR_STAT_DETACH_CAUSE = 7 ∧ t.shows P_PAR 4 = true ∧ t.dram = s.dram)
  ∧ (∀ (m : Master) (s : State), s.Direct m R.PAR_CMD (parWord 4) → s.role ≠ .standby → ∃ t, exec (.parDetach m) s = .next t ∧ t.shows P_PAR 1 = true ∧ t.role = s.role
    ∧ OnlyRegs s t [] ∧ t.dram = s.dram)

/-- The pair link (R370, R384, R396): it comes up on two or more lanes, a frame waits for its acknowledgement and is sent again up to three times, a frame with a wrong CRC is
counted and discarded, and a link that is lost leaves the active in control and gives a standby its grace. -/
def Obligations.PairLink : Prop :=
  (∀ (t0 seq : Nat) (s : State), s.linkUp = true → s.quiet → ∃ t, exec (.pairFrameAck t0 seq) s = .next t ∧ t.plk.unacked = (s.plk.unacked.filter fun f => f.seq ≠ seq)
    ∧ t.plk.lastValid = max s.devtime t0 ∧ t.regs = s.regs ∧ t.dram = s.dram ∧ t.out = s.out)
  ∧ (∀ (t0 seq : Nat) (f : PairFrame) (s : State), s.linkUp = true → (s.plk.unacked.find? fun f => decide (f.seq = seq)) = some f → f.sends < 4 → s.quiet →
    ∃ t, exec (.pairFrameRetransmit t0 seq) s = .next t ∧ t.out = .pair f.seq s.holding (s.toPair (max s.devtime t0)) f.msg :: s.out
      ∧ t.get F.PLK_RETX_CNT = min (fldMax F.PLK_RETX_CNT) (s.get F.PLK_RETX_CNT + 1) ∧ (∀ g ∈ s.plk.unacked, g.seq = seq → { g with sends := g.sends + 1 } ∈ t.plk.unacked)
      ∧ (∀ a, a ≠ R.PLK_RETX_CNT → t.reg a = s.reg a) ∧ t.dram = s.dram)
  ∧ (∀ (t0 seq : Nat) (f : PairFrame) (s : State), s.linkUp = true → (s.plk.unacked.find? fun f => decide (f.seq = seq)) = some f → 4 ≤ f.sends → s.quiet →
    ∃ t, exec (.pairFrameRetransmit t0 seq) s = .next t ∧ t.linkUp = false ∧ t.plk.unacked = []
      ∧ t.get F.PLK_LOSS_CNT = min (fldMax F.PLK_LOSS_CNT) (s.get F.PLK_LOSS_CNT + 1) ∧ t.dram = s.dram)
  ∧ (∀ s : State, s.linkUp = true → ∃ t, exec .pairFrameCrcError s = .next t ∧ t.get F.PLK_CRC_CNT = min (fldMax F.PLK_CRC_CNT) (s.get F.PLK_CRC_CNT + 1)
    ∧ (∀ a, a ≠ R.PLK_CRC_CNT → t.reg a = s.reg a) ∧ t.plk = s.plk ∧ t.dram = s.dram ∧ t.out = s.out)
  ∧ (∀ (t0 : Nat) (s : State), s.linkUp = true → s.plk.lastValid + s.get F.PAR_TIMING_LINK_TO * 400 ≤ max s.devtime t0 → s.quiet → ∃ t, exec (.pairLinkLost t0) s = .next t
    ∧ t.linkUp = false ∧ t.role = s.role ∧ t.plk.locket = none ∧ t.get F.PLK_LOSS_CNT = min (fldMax F.PLK_LOSS_CNT) (s.get F.PLK_LOSS_CNT + 1)
    ∧ (s.role = .active → t.shows P_PAR 5 = true) ∧ t.dram = s.dram
    ∧ (s.role = .standby → t.plk.graceEnd = some (max s.devtime t0 - s.get F.PAR_TIMING_LINK_TO * 400 + s.get F.PAR_TIMING_GRACE * 400)))
  ∧ (∀ (t0 x : Nat) (s : State), s.up 6 = true → s.role = .standby → s.linkUp = false → s.plk.holdFell = none → s.plk.graceEnd = some x → x ≤ max s.devtime t0 →
    ∃ t, exec (.graceExpiry t0) s = .next t ∧ t.role = .detached ∧ t.get F.PAR_STAT_DETACH_CAUSE = 3 ∧ t.shows P_PAR 5 = true ∧ t.plk.graceEnd = none ∧ t.dram = s.dram)
  ∧ (∀ (t0 latency : Nat) (passed : List Nat) (s : State), s.up 6 = true → s.linkUp = false →
    2 ≤ ((List.range 4).filter fun j => passed.contains j && bit (s.get F.PLK_LANE_EN) j).length → ∃ t, exec (.pairLinkTraining t0 passed latency) s = .next t ∧ t.linkUp = true
      ∧ t.get F.PLK_LINK_STAT_LANES = ((List.range 4).filter fun j => passed.contains j && bit (s.get F.PLK_LANE_EN) j).length
      ∧ t.get F.PLK_LINK_STAT_LATENCY = min 0xFFFF latency ∧ t.on F.PAR_STAT_LINK_UP = true ∧ t.plk.lastValid = max s.devtime t0 ∧ t.plk.aligned = false ∧ t.role = s.role)
  ∧ (∀ (t0 latency : Nat) (passed : List Nat) (s : State), s.up 6 = true → s.linkUp = false →
    ((List.range 4).filter fun j => passed.contains j && bit (s.get F.PLK_LANE_EN) j).length < 2 → ∃ t, exec (.pairLinkTraining t0 passed latency) s = .next t ∧ t.linkUp = false)

/-- Frames of the partner (R369 to R372, R375, R377 to R379): a new one is acknowledged and taken, one sent again only acknowledged. A heartbeat shows the partner and measures the
time between the units, a decision of the active is taken over, equal digests meet, and unequal ones are counted and detach a standby. -/
def Obligations.PairFrames : Prop :=
  (∀ (t0 : Nat) (h : PairHdr) (b : Heartbeat) (s : State), NewFrame s h → ∃ t, exec (.heartbeatReceived t0 h b) s = .next t
    ∧ t.get F.PAR_STAT_PEER_ROLE = b.role % 4 ∧ t.get F.PAR_STAT_PEER_STATE = b.state % 16 ∧ t.get F.PLK_LINK_STAT_LATENCY = min 0xFFFF b.latency
    ∧ t.plk.lastValid = max s.devtime t0 ∧ t.plk.peerUnit = some b.unitId ∧ t.plk.rxSeq = some h.seq ∧ ackFor s (max s.devtime t0) h ∈ t.out ∧ t.role = s.role ∧ t.dram = s.dram
    ∧ (s.paired = true → b.unitId = s.get F.PAR_CFG_UNIT_ID → t.shows P_PAR 13 = true)
    ∧ (s.role = .standby ∨ s.role = .detached → b.role = 1 → s.plk.aligned = true → t.reg R.PAR_TIME_OFS = BitVec.ofInt 32 b.offset ∧ t.plk.slew = b.offset)
    ∧ (s.role = .standby ∨ s.role = .detached → b.role = 1 → s.plk.aligned = false → b.offset < -400 → t.plk.aligned = true
        ∧ t.devtime = max s.devtime t0 + (-b.offset).toNat))
  ∧ (∀ (t0 x : Nat) (h : PairHdr) (b : Heartbeat) (s : State), s.linkUp = true → s.plk.rxSeq = some x → sdiff 16 h.seq x ≤ 0 →
    ∃ t, exec (.heartbeatReceived t0 h b) s = .next t ∧ t.regs = s.regs ∧ t.dram = s.dram ∧ t.out = ackFor s (max s.devtime t0) h :: s.out ∧ t.plk.rxSeq = some x)
  ∧ (∀ (t0 : Nat) (s : State), s.linkUp = true → ∃ t, exec (.heartbeatSend t0) s = .next t ∧ t.regs = s.regs ∧ t.dram = s.dram ∧ t.plk.txSeq = (s.plk.txSeq + 1) % 65536
    ∧ ∃ x n, t.out = .pair s.plk.txSeq s.holding (s.toPair (max s.devtime t0)) (.heartbeat (s.get F.DEV_DEVSTATE_ROLE) (s.get F.DEV_DEVSTATE_STATE) (s.role == .standby)
        s.holding (s.get F.PAR_CFG_UNIT_ID) (s.get F.PAR_LOCKET_GEN) ((s.plk.locket.map fun k => k.phase).getD 0) x n) :: s.out)
  ∧ (∀ (t0 b l : Nat) (h : PairHdr) (s : State), NewFrame s h → (s.role = .standby ∨ s.role = .detached) → b < 8 → s.fire.clks.length = 8 →
    ∃ t, exec (.resolveReceived t0 h (.slotSwap b l)) s = .next t ∧ (t.clk b).swap = some l ∧ t.out = ackFor s (max s.devtime t0) h :: s.out ∧ t.regs = s.regs ∧ t.dram = s.dram)
  ∧ (∀ (t0 b : Nat) (h : PairHdr) (r : Resolve) (s : State), NewFrame s h → (s.role = .standby ∨ s.role = .detached) → s.up 3 = true → b < 8 → s.pix.nzc.length = 8 →
    ((∃ l x, r = .headTemps b l x) ∨ (∃ l x, r = .nchkMarks b l x) ∨ (∃ l, r = .densityLine b l) ∨ ∃ l x, r = .nzcWrites b l x) →
    ∃ t, exec (.telemReceived t0 h r) s = .next t ∧ (t.nz b).told = (s.nz b).told ++ [r] ∧ t.out = ackFor s (max s.devtime t0) h :: s.out ∧ t.regs = s.regs ∧ t.dram = s.dram)
  ∧ (∀ (t0 d : Nat) (h : PairHdr) (k : DigKey) (w : DigWait) (s : State), NewFrame s h → s.paired = true → (s.plk.ownDigs.find? fun w => decide (w.key = k)) = some w →
    w.digest = d → ∃ t, exec (.digestReceived t0 h k d) s = .next t ∧ t.plk.ownDigs = s.plk.ownDigs.erase w ∧ t.regs = s.regs ∧ t.dram = s.dram)
  ∧ (∀ (t0 d : Nat) (h : PairHdr) (k : DigKey) (w : DigWait) (s : State), NewFrame s h → s.paired = true → (s.plk.ownDigs.find? fun w => decide (w.key = k)) = some w →
    w.digest ≠ d → s.plk.locket = none → ∃ t, exec (.digestReceived t0 h k d) s = .next t ∧ t.plk.ownDigs = s.plk.ownDigs.erase w ∧ t.shows P_PAR 6 = true
      ∧ t.get F.PAR_DIVERGE_CNT = min (fldMax F.PAR_DIVERGE_CNT) (s.get F.PAR_DIVERGE_CNT + 1) ∧ t.dram = s.dram
      ∧ (s.role = .standby → t.role = .detached ∧ t.get F.PAR_STAT_DETACH_CAUSE = 1) ∧ (s.role ≠ .standby → t.role = s.role))
  ∧ (∀ (t0 d : Nat) (h : PairHdr) (k : DigKey) (s : State), NewFrame s h → s.paired = true → (s.plk.ownDigs.find? fun w => decide (w.key = k)) = none →
    ∃ t, exec (.digestReceived t0 h k d) s = .next t ∧ (∃ w, t.plk.peerDigs = s.plk.peerDigs ++ [w] ∧ w.key = k ∧ w.digest = d) ∧ t.regs = s.regs ∧ t.dram = s.dram)
  ∧ (∀ (t0 ring idx ord d due : Nat) (s : State), s.up 6 = true → { key := .tile ring idx ord, digest := d, due := due } ∈ s.plk.ownDigs → due ≤ max s.devtime t0 →
    ∃ t, exec (.digestWaitExpiry t0) s = .next t ∧ t.plk.ownDigs.length + 1 = s.plk.ownDigs.length ∧ t.shows P_PAR 6 = true
      ∧ t.get F.PAR_DIVERGE_CNT = min (fldMax F.PAR_DIVERGE_CNT) (s.get F.PAR_DIVERGE_CNT + 1) ∧ t.dram = s.dram)

/-- Lockets (R386 to R388, R390, R391): RESYNC asks an aligned partner for one, the active begins it, and its receiver takes the content and becomes STANDBY with the last phase; an
abort or a BULK phase that lasts too long ends it. -/
def Obligations.Lockets : Prop :=
  (∀ (m : Master) (s : State), s.Direct m R.PAR_CMD (parWord 3) → s.role = .detached → s.unitClash = false → ∃ t, exec (.parResync (some m)) s = .next t ∧ t.dram = s.dram
    ∧ OnlyRegs s t [] ∧ t.role = .detached
    ∧ (s.linkUp = true ∧ s.get F.PAR_STAT_PEER_ROLE = 1 ∧ s.alignedNow = true ∧ s.plk.locket = none → t.plk.resyncWait = false ∧ .pair s.plk.txSeq false s.pairTime .resyncRequest ∈ t.out)
    ∧ (s.linkUp = false ∨ s.get F.PAR_STAT_PEER_ROLE ≠ 1 ∨ s.alignedNow = false ∨ s.plk.locket ≠ none → t.plk.resyncWait = true ∧ t.out = s.out))
  ∧ (∀ s : State, s.up 6 = true → s.role = .detached → s.on F.PAR_CFG_AUTO_RESYNC = true → s.unitClash = false → s.linkUp = true → s.get F.PAR_STAT_PEER_ROLE = 1 →
    s.alignedNow = true → s.plk.locket = none → ∃ t, exec (.parResync none) s = .next t ∧ t.plk.resyncWait = false ∧ t.out = .pair s.plk.txSeq false s.pairTime .resyncRequest :: s.out
      ∧ t.regs = s.regs ∧ t.dram = s.dram)
  ∧ (∀ (t0 g : Nat) (h : PairHdr) (s : State), NewFrame s h → s.role = .active → s.plk.locket = none → g = (s.get F.PAR_LOCKET_GEN + 1) % 65536 →
    ∃ t, exec (.controlReceived t0 h .resync) s = .next t ∧ t.plk.locket = some { gen := g, sender := true, started := max s.devtime t0 } ∧ t.get F.PAR_LOCKET_GEN = g
      ∧ t.get F.PAR_LOCKET_PHASE = 1 ∧ t.on F.PAR_STAT_LOCKET_BUSY = true ∧ t.get64 R.PAR_LOCKET_BYTES_LO = 0 ∧ t.role = .active ∧ t.dram = s.dram)
  ∧ (∀ (t0 g n : Nat) (h : PairHdr) (s : State), NewFrame s h → s.role = .detached → s.alignedNow = true → s.unitClash = false → s.plk.locket = none →
    ∃ t, exec (.locketReceived t0 h g n .start) s = .next t ∧ t.plk.locket = some { gen := g, sender := false, started := max s.devtime t0 }
      ∧ t.get F.PAR_LOCKET_GEN = g % 65536 ∧ t.get F.PAR_LOCKET_PHASE = 1 ∧ t.on F.PAR_STAT_LOCKET_BUSY = true ∧ t.role = .detached ∧ t.dram = s.dram)
  ∧ (∀ (t0 n off : Nat) (h : PairHdr) (l : List Byte) (k : Locket) (s : State), NewFrame s h → s.plk.locket = some k → k.sender = false → s.up 2 = true →
    ∃ t, exec (.locketReceived t0 h k.gen n (.dram off l)) s = .next t ∧ t.dram = (s.setDram off l).dram ∧ (t.plk.locket.map fun k => (k.gen, k.sender, k.phase)) = some (k.gen, false, k.phase)
      ∧ t.get64 R.PAR_LOCKET_BYTES_LO = (s.get64 R.PAR_LOCKET_BYTES_LO + n) % 2 ^ 64
      ∧ ∀ a, a ∉ [R.PAR_LOCKET_BYTES_LO, R.PAR_LOCKET_BYTES_HI, R.MEM_INIT_LEFT] → t.reg a = s.reg a)
  ∧ (∀ (t0 n p : Nat) (h : PairHdr) (k : Locket) (s : State), NewFrame s h → s.plk.locket = some k → k.sender = false → k.phase < p → p < 5 →
    ∃ t, exec (.locketReceived t0 h k.gen n (.phase p)) s = .next t ∧ t.plk.locket = some { k with phase := p } ∧ t.get F.PAR_LOCKET_PHASE = p ∧ t.dram = s.dram)
  ∧ (∀ (t0 n : Nat) (h : PairHdr) (k : Locket) (s : State), NewFrame s h → s.plk.locket = some k → k.sender = false → k.phase < 5 → s.role = .detached →
    ∃ t, exec (.locketReceived t0 h k.gen n (.phase 5)) s = .next t ∧ t.plk.locket = none ∧ t.role = .standby ∧ t.shows P_PAR 8 = true ∧ t.on F.PAR_STAT_LOCKET_BUSY = false
      ∧ t.dram = s.dram)
  ∧ (∀ (n : Nat) (k : Locket) (s : State), s.linkUp = true → s.plk.locket = some k → k.sender = true → k.phase < 3 → s.phaseOver k = true →
    ∃ t, exec (.locketPhaseComplete n) s = .next t ∧ t.plk.locket = some { k with phase := k.phase + 1 } ∧ t.get F.PAR_LOCKET_PHASE = k.phase + 1
      ∧ .pair s.plk.txSeq s.holding s.pairTime (.locketPhase k.gen (k.phase + 1)) ∈ t.out ∧ t.dram = s.dram)
  ∧ (∀ (n : Nat) (k : Locket) (s : State), s.plk.locket = some k → s.phaseOver k = false → ∃ t, exec (.locketPhaseComplete n) s = .next t ∧ t.plk = s.plk ∧ t.regs = s.regs
    ∧ t.dram = s.dram ∧ t.out = s.out)
  ∧ (∀ (t0 : Nat) (k : Locket) (s : State), s.up 6 = true → s.plk.locket = some k → k.phase = 1 → k.started + s.get F.PAR_TIMING_LOCKET_MAX * 4000000 ≤ max s.devtime t0 →
    ∃ t, exec (.locketMaxExpiry t0) s = .next t ∧ t.plk.locket = none ∧ t.shows P_PAR 9 = true ∧ t.on F.PAR_STAT_LOCKET_BUSY = false ∧ t.role = s.role ∧ t.dram = s.dram)
  ∧ (∀ (m : Master) (k : Locket) (s : State), s.Direct m R.PAR_CMD (parWord 5) → (s.role = .active ∨ s.role = .detached) → s.plk.locket = some k →
    ∃ t, exec (.parAbortLocket m) s = .next t ∧ t.plk.locket = none ∧ t.shows P_PAR 9 = true ∧ t.on F.PAR_STAT_LOCKET_BUSY = false ∧ t.role = s.role ∧ t.dram = s.dram)

/-! ### The side-band and the chain (chapter 17) -/

/-- The side-band answers: the reply frame goes out, both frame counters count, and of the registers only those of `l` may differ besides. -/
def Answers (s t : State) (addr cmd : Nat) (payload : List Byte) (l : List Nat) : Prop :=
  t.out = .sbReply (sbFrame addr cmd payload) :: s.out ∧ t.get F.SBP_RX_FRAMES = min (fldMax F.SBP_RX_FRAMES) (s.get F.SBP_RX_FRAMES + 1)
    ∧ t.get F.SBP_TX_FRAMES = min (fldMax F.SBP_TX_FRAMES) (s.get F.SBP_TX_FRAMES + 1) ∧ t.dram = s.dram
    ∧ ∀ a, a ∉ R.SBP_RX_FRAMES :: R.SBP_TX_FRAMES :: l → t.reg a = s.reg a

/-- Requests on the side-band (R400 to R406, Tables 17.1 to 17.4): a unit answers PING, READ, WRITE, LOG_READ and EVT_POLL that carry its address with the frame of the table; it
drops those of other units, answers what is unusable with its status, and counts bad frames. -/
def Obligations.SidebandRequests : Prop :=
  (∀ (addr : Nat) (s : State), s.sbAlive = true → addr ≠ 0x3F → s.sbMine addr = true → ∃ t, exec (.sbPing addr) s = .next t
    ∧ Answers s t addr 0x01 (leBytes 1 0 ++ leBytes 1 (s.get F.CHN_ADDR) ++ leBytes 8 Config.serial.toNat ++ leBytes 4 (s.reg R.DEV_DEVSTATE).toNat) [])
  ∧ (∀ (addr : Nat) (s : State), addr ≠ 0x3F → (s.sbAlive = false ∨ s.sbMine addr = false) → ∃ t, exec (.sbPing addr) s = .next t ∧ t.out = s.out ∧ t.regs = s.regs ∧ t.dram = s.dram)
  ∧ (∀ (addr off i j : Nat) (r : RegRow) (s : State), s.sbAlive = true → addr ≠ 0x3F → s.sbMine addr = true → s.DirectRead .sideband off → off % 4 = 0 →
    regRow off = some (r, i, j) → r.pair = false → off / 0x1000 ∈ [P_PWR, P_CLK, P_TRM, P_CDC, P_IMG, P_NZC] → captureSet off = [] → captureOf off = none →
    s.captured .sideband off = none → s.openBits off = 0 → ∃ t, exec (.sbRead addr off 1) s = .next t
      ∧ Answers s t addr 0x02 (leBytes 1 0 ++ leBytes 1 0 ++ leBytes 1 1 ++ leBytes 4 (s.live off).toNat) [])
  ∧ (∀ (addr off n : Nat) (s : State), s.sbAlive = true → addr ≠ 0x3F → s.sbMine addr = true → sbRange off n = false → ∃ t, exec (.sbRead addr off n) s = .next t
    ∧ Answers s t addr 0x02 (leBytes 1 4) [])
  ∧ (∀ (addr a i j : Nat) (r : RegRow) (w : Word) (s : State), s.sbAlive = true → addr ≠ 0x3F → s.sbMine addr = true → s.Direct .sideband a w → a % 4 = 0 →
    regRow a = some (r, i, j) → 0x040 ≤ a % 0x1000 → a / 0x1000 ∈ [P_PWR, P_CDC, P_IMG] → r.claspOnly = false → r.pair = false → s.openBits a = 0 →
    onlyReadOnly r a i (s.live a) w = false → rowInRange r w = true → s.writeBars .sideband a i j r.off w = none → (∀ l, loOf a = some l → s.heldLo .sideband l = none) →
    ∃ t, exec (.sbWrite addr a [w]) s = .next t ∧ t.reg a = writtenWord r a i (s.reg a) w ∧ Answers s t addr 0x03 (leBytes 1 0 ++ leBytes 1 0 ++ leBytes 1 1) [a])
  ∧ (∀ (addr a : Nat) (w : Word) (s : State), s.sbAlive = true → addr ≠ 0x3F → s.sbMine addr = true → s.quiet → a % 4 = 0 → placeOf a = .page (a / 0x1000) →
    s.pageUp (a / 0x1000) = true → s.pageHeld (a / 0x1000) = false → s.on ⟨R.ACCESS (a / 0x1000), 0, 0⟩ = false → a / 0x1000 ≠ P_SBP → ∃ t, exec (.sbWrite addr a [w]) s = .next t
      ∧ t.shows (a / 0x1000) 1 = true ∧ .sbReply (sbFrame addr 0x03 (leBytes 1 1 ++ leBytes 1 eSbDenied ++ leBytes 1 0)) ∈ t.out ∧ t.dram = s.dram
      ∧ OnlyRegs s t [R.SBP_RX_FRAMES, R.SBP_TX_FRAMES])
  ∧ (∀ (addr seq max d : Nat) (s : State), s.sbAlive = true → addr ≠ 0x3F → s.sbMine addr = true → 1 ≤ max → max ≤ 31 → sdiff 32 (s.reg R.SBP_LOG_SEQ).toNat seq = d → 1 ≤ d →
    d ≤ s.aux.log.length → ∃ t, exec (.sbLogRead addr seq max) s = .next t ∧ t.aux.log = s.aux.log
      ∧ Answers s t addr 0x04 (leBytes 1 0 ++ leBytes 4 ((s.reg R.SBP_LOG_SEQ).toNat + 2 ^ 32 - d) ++ leBytes 1 ((s.aux.log.drop (s.aux.log.length - d)).take max).length
        ++ (((s.aux.log.drop (s.aux.log.length - d)).take max).map Rec.bytes).flatten) [])
  ∧ (∀ (addr ack max : Nat) (q : List Rec) (s : State), s.sbAlive = true → addr ≠ 0x3F → s.sbMine addr = true → max ≤ 31 →
    q = (s.aux.evq.filter fun r => decide (0 ≤ sdiff 16 r.seq ack)) → ∃ t, exec (.sbEvtPoll addr ack max) s = .next t ∧ t.aux.evq = q
      ∧ Answers s t addr 0x05 (leBytes 1 0 ++ leBytes 2 ((q.head?.map fun r => r.seq).getD s.aux.evqSeq) ++ leBytes 1 (q.take max).length ++ leBytes 2 (s.get F.SBP_EVQ_LOST)
        ++ ((q.take max).map Rec.bytes).flatten) [R.SBP_EVQ])
  ∧ (∀ (addr cmd st : Nat) (l : List Byte) (s : State), s.sbAlive = true → addr ≠ 0x3F → s.sbMine addr = true → sbUnusable addr cmd l = some st →
    ∃ t, exec (.sbUnusableRequest addr cmd l) s = .next t ∧ Answers s t addr cmd (leBytes 1 st) [])
  ∧ (∀ (crc : Bool) (s : State), s.sbAlive = true → ∃ t, exec (.sbInvalidFrame crc) s = .next t ∧ t.shows P_SBP 4 = true ∧ OnlyRegs s t [R.SBP_RX_ERR] ∧ t.dram = s.dram
    ∧ t.get F.SBP_RX_ERR_CRC = (if crc then min (fldMax F.SBP_RX_ERR_CRC) (s.get F.SBP_RX_ERR_CRC + 1) else s.get F.SBP_RX_ERR_CRC)
    ∧ t.get F.SBP_RX_ERR_OTHER = (if crc then s.get F.SBP_RX_ERR_OTHER else min (fldMax F.SBP_RX_ERR_OTHER) (s.get F.SBP_RX_ERR_OTHER + 1)))

/-- The chain (R399, R403, R407 to R409, R412, R413): ASSIGN gives the front its address and opens CHAIN_OUT, UNASSIGN and SET_RATE take their key, and an epoch is armed, taken at the
pulse or the edge, or expires. -/
def Obligations.ChainAndEpoch : Prop :=
  (∀ (new : Nat) (s : State), s.sbAlive = true → s.front = true → 1 ≤ new → new ≤ 62 → s.aux.pads.length = 35 → ∃ t, exec (.sbAssign 0 new) s = .next t
    ∧ t.get F.CHN_ADDR = new ∧ t.pad 33 = .follow s.devtime none ∧ t.shows P_CHN 4 = true
    ∧ .sbReply (sbFrame 0 0x10 (leBytes 1 0 ++ leBytes 1 new ++ leBytes 8 Config.serial.toNat)) ∈ t.out ∧ t.dram = s.dram
    ∧ OnlyRegs s t [R.SBP_RX_FRAMES, R.SBP_TX_FRAMES, R.CHN_ADDR])
  ∧ (∀ s : State, s.sbAlive = true → s.aux.pads.length = 35 → ∃ t, exec (.sbUnassign 0xC3A5) s = .next t ∧ t.get F.CHN_ADDR = 0 ∧ t.pad 33 = .rest ∧ t.shows P_CHN 5 = true
    ∧ t.dram = s.dram ∧ OnlyRegs s t [R.SBP_RX_FRAMES, R.CHN_ADDR])
  ∧ (∀ (key : Nat) (s : State), s.sbAlive = true → key ≠ 0xC3A5 → ∃ t, exec (.sbUnassign key) s = .next t ∧ t.get F.CHN_ADDR = s.get F.CHN_ADDR ∧ t.shows P_SBP 4 = true
    ∧ t.get F.SBP_RX_ERR_OTHER = min (fldMax F.SBP_RX_ERR_OTHER) (s.get F.SBP_RX_ERR_OTHER + 1) ∧ OnlyRegs s t [R.SBP_RX_ERR] ∧ t.dram = s.dram)
  ∧ (∀ (t0 rate : Nat) (s : State), s.sbAlive = true → rate < 4 → ∃ t, exec (.sbSetRate t0 0xC3A5 rate) s = .next t
    ∧ t.aux.rateNext = some (rate, max s.devtime t0 + 800000) ∧ (∀ a, a ≠ R.SBP_RX_FRAMES → t.reg a = s.reg a) ∧ t.dram = s.dram ∧ t.out = s.out)
  ∧ (∀ (t0 rate x : Nat) (s : State), s.sbAlive = true → s.aux.rateNext = some (rate, x) → x ≤ max s.devtime t0 → ∃ t, exec (.sbRateSwitch t0) s = .next t
    ∧ t.get F.SBP_RATE_CUR = rate % 4 ∧ t.aux.rateNext = none ∧ (∀ a, a ≠ R.SBP_RATE → t.reg a = s.reg a) ∧ t.dram = s.dram ∧ t.out = s.out)
  ∧ (∀ (t0 e : Nat) (s : State), s.sbAlive = true → s.aux.vin = true → s.on F.CHN_SYNC_CFG_EN = true → ∃ t, exec (.sbEpochArm t0 e) s = .next t ∧ t.dram = s.dram
    ∧ t.get64 R.CHN_EPOCH_LO = e % 2 ^ 64 ∧ OnlyRegs s t [R.SBP_RX_FRAMES, R.CHN_EPOCH_LO, R.CHN_EPOCH_HI, R.CHN_SYNC_STAT]
    ∧ (s.on F.CHN_SYNC_CFG_SOURCE = false → t.aux.arm = some (e, some (max s.devtime t0 + 400000000)) ∧ t.on F.CHN_SYNC_STAT_ARMED = true)
    ∧ (s.on F.CHN_SYNC_CFG_SOURCE = true → max s.devtime t0 + 8000 ≤ e → t.aux.arm = some (e, none) ∧ t.on F.CHN_SYNC_STAT_ARMED = true)
    ∧ (s.on F.CHN_SYNC_CFG_SOURCE = true → e < max s.devtime t0 + 8000 → t.aux.arm = none ∧ t.on F.CHN_SYNC_STAT_ARMED = false ∧ t.shows P_CHN 7 = true))
  ∧ (∀ (t0 e : Nat) (s : State), s.sbAlive = true → (s.aux.vin = false ∨ s.on F.CHN_SYNC_CFG_EN = false) → ∃ t, exec (.sbEpochArm t0 e) s = .next t ∧ t.aux.arm = s.aux.arm
    ∧ (∀ a, a ≠ R.SBP_RX_FRAMES → t.reg a = s.reg a) ∧ t.dram = s.dram ∧ t.out = s.out)
  ∧ (∀ (e : Nat) (s : State), s.sbAlive = true → s.aux.arm = some (e, none) → ∃ t, exec .epochPulse s = .next t ∧ t.devtime = max s.devtime e ∧ t.aux.arm = none
    ∧ (s.syncDrives = true → .syncPulse e ∈ t.out) ∧ t.get64 R.CHN_CHAIN_OFS_LO = 0 ∧ t.get64 R.CHN_SYNC_EDGE_LO = e % 2 ^ 64 ∧ t.on F.CHN_SYNC_STAT_ARMED = false
    ∧ t.on F.CHN_SYNC_STAT_VALID = true ∧ t.get F.CHN_SYNC_STAT_COUNT = min (fldMax F.CHN_SYNC_STAT_COUNT) (s.get F.CHN_SYNC_STAT_COUNT + 1) ∧ t.shows P_CHN 6 = true ∧ t.dram = s.dram)
  ∧ (∀ (t0 e due : Nat) (s : State), s.sbAlive = true → s.aux.arm = some (e, some due) → t0 ≤ due → ∃ t, exec (.syncInEdge t0) s = .next t ∧ t.aux.arm = none
    ∧ (s.syncDrives = true → s.on F.CHN_SYNC_CFG_FWD = true → s.on F.CHN_SYNC_CFG_SOURCE = false → .syncPulse t0 ∈ t.out)
    ∧ t.get64 R.CHN_CHAIN_OFS_LO = unsignedOf 64 ((e : Int) + (s.get F.CHN_SYNC_DELAY : Int) - (t0 : Int)) ∧ t.get64 R.CHN_SYNC_EDGE_LO = t0 % 2 ^ 64
    ∧ t.on F.CHN_SYNC_STAT_ARMED = false ∧ t.on F.CHN_SYNC_STAT_VALID = true ∧ t.shows P_CHN 6 = true ∧ t.dram = s.dram)
  ∧ (∀ (t0 e due : Nat) (s : State), s.sbAlive = true → s.aux.arm = some (e, some due) → due ≤ max s.devtime t0 → ∃ t, exec (.syncArmExpiry t0) s = .next t ∧ t.aux.arm = none
    ∧ t.on F.CHN_SYNC_STAT_ARMED = false ∧ t.on F.CHN_SYNC_STAT_VALID = s.on F.CHN_SYNC_STAT_VALID ∧ t.shows P_CHN 8 = true ∧ OnlyRegs s t [R.CHN_SYNC_STAT] ∧ t.dram = s.dram)
  ∧ (∀ (high : Bool) (s : State), s.sbAlive = true → ∃ t, exec (.chainInChange high) s = .next t ∧ t.on F.CHN_STAT_CHAIN_IN = high ∧ (∀ a, a ≠ R.CHN_STAT → t.reg a = s.reg a)
    ∧ t.dram = s.dram ∧ t.out = s.out)

/-! ### The JTAG port and diagnostics (chapter 19) -/

/-- The JTAG port (R51, R446, R447, Table 19.9): the EXTEST instructions drive the pins from the boundary register and Test-Logic-Reset takes them back to rest, IDCODE and SAMPLE
shift out, DBGRESET resets as software ALL does, and REGACCESS reads and writes BAR 0 words until it is locked. -/
def Obligations.JtagPort : Prop :=
  (∀ (cells : Option (List Bool)) (s : State), s.aux.vaux = true → ∀ c ir, (c, ir) ∈ [(Instr.tapExtest cells, 0x00), (.tapExtestPulse cells, 0x08), (.tapExtestTrain cells, 0x09)] →
    ∃ t, exec c s = .next t ∧ t.aux.tap.ir = ir ∧ t.aux.tap.cells = cells.getD s.aux.tap.cells ∧ t.out = .boundary ir (cells.getD s.aux.tap.cells) :: s.out ∧ t.regs = s.regs
      ∧ t.dram = s.dram)
  ∧ (∀ s : State, s.aux.vaux = true → ∃ t l, exec .tapIdcode s = .next t ∧ t.aux.tap.ir = 0x01 ∧ t.out = .tdo l :: s.out ∧ l.length = 32
    ∧ (∀ i < 16, l.getD (16 + i) false = bit 0x1821 i) ∧ t.regs = s.regs ∧ t.dram = s.dram)
  ∧ (∀ (pins : List Bool) (load : Option (List Bool)) (s : State), s.aux.vaux = true → ∃ t, exec (.tapSamplePreload pins load) s = .next t ∧ t.out = .tdo pins :: s.out
    ∧ t.aux.tap.ir = 0x02 ∧ t.aux.tap.cells = load.getD pins ∧ t.regs = s.regs ∧ t.dram = s.dram)
  ∧ (∀ (code : Nat) (s : State), s.aux.vaux = true → code < 256 → irListed code = false → ∃ t, exec (.tapBypass code) s = .next t ∧ t.aux.tap.ir = code
    ∧ t.aux.tap.cells = s.aux.tap.cells ∧ t.out = s.out ∧ t.regs = s.regs ∧ t.dram = s.dram)
  ∧ (∀ s : State, s.aux.vaux = true → s.aux.pads.length = 35 → irDrives s.aux.tap.ir = true → ∃ t, exec .tapTestLogicReset s = .next t ∧ t.aux.tap.ir = 0x01
    ∧ (∀ p < 35, t.pad p = .rest) ∧ t.on F.PAR_STAT_HOLD_OUT = false ∧ (∀ a, a ≠ R.PAR_STAT → a ≠ R.DEV_OUTGRP_ACT → t.reg a = s.reg a) ∧ t.dram = s.dram ∧ t.out = s.out)
  ∧ (∀ s : State, s.aux.vaux = true → irDrives s.aux.tap.ir = false → ∃ t, exec .tapTestLogicReset s = .next t ∧ t.aux.tap.ir = 0x01 ∧ (∀ p, t.pad p = s.pad p) ∧ t.regs = s.regs
    ∧ t.dram = s.dram ∧ t.out = s.out)
  ∧ (∀ s : State, s.aux.vaux = true → s.dev ≠ .resethold → s.quiet → ∃ t, exec .tapDbgreset s = .next t ∧ Restart s t [1, 2, 3, 4, 5, 6, 7])
  ∧ (∀ (a i j : Nat) (r : RegRow) (s : State), s.aux.vaux = true → s.aux.regLock = false → s.DirectRead .debug a → regRow a = some (r, i, j) → r.pair = false →
    a / 0x1000 ∈ [P_PWR, P_CLK, P_TRM, P_CDC, P_IMG, P_NZC] → captureSet a = [] → captureOf a = none → s.captured .debug a = none → s.openBits a = 0 →
    ∃ t, exec (.tapRegaccess a none) s = .next t ∧ t.out = .readReply .debug (s.live a) :: s.out ∧ t.aux.tap.ir = 0x21 ∧ t.regs = s.regs ∧ t.dram = s.dram)
  ∧ (∀ (a i j : Nat) (r : RegRow) (w : Word) (s : State), s.aux.vaux = true → s.aux.regLock = false → s.Direct .debug a w → regRow a = some (r, i, j) → 0x040 ≤ a % 0x1000 →
    a / 0x1000 ∈ [P_PWR, P_CDC, P_IMG] → r.claspOnly = false → r.pair = false → s.openBits a = 0 → onlyReadOnly r a i (s.live a) w = false → rowInRange r w = true →
    s.writeBars .debug a i j r.off w = none → (∀ l, loOf a = some l → s.heldLo .debug l = none) → ∃ t, exec (.tapRegaccess a (some w)) s = .next t
      ∧ t.reg a = writtenWord r a i (s.reg a) w ∧ (∀ b, b ≠ a → t.reg b = s.reg b) ∧ t.dram = s.dram ∧ t.out = s.out)
  ∧ (∀ (a : Nat) (w : Option Word) (s : State), s.aux.vaux = true → s.aux.regLock = true → ∃ t, exec (.tapRegaccess a w) s = .next t ∧ t.regs = s.regs ∧ t.dram = s.dram
    ∧ t.out = (if w = none then .readReply .debug 0 :: s.out else s.out))
  ∧ (∀ (m : Master) (s : State), s.Direct m R.DBG_LOCK 1 → ∃ t, exec (.regaccessLock m) s = .next t ∧ t.aux.regLock = true ∧ (∀ a, t.reg a = s.reg a) ∧ t.dram = s.dram
    ∧ t.out = s.out)

/-- The bytes that the DIAG ring's engine writes back for a descriptor: the result, three bytes of 0 and the length of the output (Table 19.11). -/
def diagBack (res n : Nat) : List Byte := leBytes 1 res ++ leBytes 3 0 ++ leBytes 4 n

/-- The oldest descriptor `d` of the DIAG ring waits for its engine, and the host takes its writes. -/
def NextDiag (s : State) (d : Desc) : Prop :=
  s.up 3 = true ∧ s.dmaOk = true ∧ s.ringLive 62 = true ∧ d.taken = false ∧ ∃ l, (s.rt 62).descs = d :: l

/-- The PRBS engine and the DIAG ring (R447, R448, Table 19.11): a run starts on a lane that is not in use and reports its errors at its end; a descriptor's data and its result are
written to host memory, and one that is invalid stops the ring. -/
def Obligations.Diagnostics : Prop :=
  (∀ (m : Master) (w : Word) (s : State), s.Direct m R.DBG_PRBS_CFG w → 1 ≤ getBits 31 16 w → getBits 9 8 w ≤ 2 → getBits 6 0 w ≤ 75 → (bit w.toNat 12 || bit w.toNat 13) = true →
    s.prbsRefused w = false → ∃ t, exec (.prbsStart m w) s = .next t ∧ t.pix.prbs = some { lane := getBits 6 0 w, due := s.devtime + getBits 31 16 w * 400000, desc := none }
      ∧ t.on F.DBG_PRBS_STAT_BUSY = true ∧ t.on F.DBG_PRBS_STAT_LOCK = false ∧ t.on F.DBG_PRBS_STAT_ABORTED = false
      ∧ t.out = (if bit w.toNat 12 then .prbs (getBits 6 0 w) (getBits 9 8 w) :: s.out else s.out)
      ∧ (∀ a, a ≠ R.DBG_PRBS_CFG → a ≠ R.DBG_PRBS_STAT → t.reg a = s.reg a) ∧ t.dram = s.dram)
  ∧ (∀ (m : Master) (w : Word) (s : State), s.Direct m R.DBG_PRBS_CFG w → 1 ≤ getBits 31 16 w → getBits 9 8 w ≤ 2 → getBits 6 0 w ≤ 75 → s.prbsRefused w = true →
    ∃ t, exec (.prbsStart m w) s = .next t ∧ t.shows P_DBG 1 = true ∧ t.pix.prbs = s.pix.prbs ∧ OnlyRegs s t [] ∧ t.dram = s.dram)
  ∧ (∀ (t0 errs : Nat) (locked : Bool) (r : Prbs) (s : State), s.up 3 = true → s.pix.prbs = some r → r.desc = none → r.due ≤ max s.devtime t0 →
    ∃ t, exec (.prbsRunEnd t0 errs locked) s = .next t ∧ t.pix.prbs = none ∧ t.on F.DBG_PRBS_STAT_BUSY = false ∧ t.on F.DBG_PRBS_STAT_LOCK = (s.on F.DBG_PRBS_CFG_CHK && locked)
      ∧ t.reg R.DBG_PRBS_ERR = BitVec.ofNat 32 (if s.on F.DBG_PRBS_CFG_CHK then min errs 0xFFFFFFFF else 0) ∧ t.shows P_DBG 4 = true
      ∧ OnlyRegs s t [R.DBG_PRBS_ERR, R.DBG_PRBS_STAT] ∧ t.dram = s.dram)
  ∧ (∀ (d : Desc) (s : State), NextDiag s d → dgInvalid d = false → dgOp d = 1 → s.pix.prbs = none → s.laneInUse (dgTarget d) = false → ∃ t, exec .diagLaneBert s = .next t
    ∧ t.pix.prbs = some { lane := dgTarget d, due := s.devtime + dgParam d * 400000, desc := some d.idx } ∧ t.on F.DBG_PRBS_STAT_BUSY = true
    ∧ t.out = .prbs (dgTarget d) 2 :: s.out ∧ (∀ a, a ≠ R.DBG_PRBS_STAT → t.reg a = s.reg a) ∧ t.dram = s.dram)
  ∧ (∀ (d : Desc) (s : State), NextDiag s d → dgInvalid d = false → dgOp d = 1 → (s.pix.prbs.isSome = true ∨ s.laneInUse (dgTarget d) = true) →
    ∃ t, exec .diagLaneBert s = .next t ∧ .memWrite (s.ringEntry 62 d.idx + 24) (diagBack 2 0) ∈ t.out ∧ t.pix.prbs = s.pix.prbs ∧ t.dram = s.dram)
  ∧ (∀ (d : Desc) (data : List Byte) (s : State), NextDiag s d → dgInvalid d = false → dgOp d = 2 → ∃ t, exec (.diagAdcCapture data) s = .next t
    ∧ .memWrite (dgAddr d) (padTo (dgParam d * 1024) data) ∈ t.out ∧ .memWrite (s.ringEntry 62 d.idx + 24) (diagBack 1 (dgParam d * 1024)) ∈ t.out ∧ t.dram = s.dram)
  ∧ (∀ (d : Desc) (data : List Byte) (s : State), NextDiag s d → dgInvalid d = false → dgOp d = 3 → ∃ t, exec (.diagEyeScan data) s = .next t
    ∧ .memWrite (dgAddr d) (padTo 8192 data) ∈ t.out ∧ .memWrite (s.ringEntry 62 d.idx + 24) (diagBack 1 8192) ∈ t.out ∧ t.dram = s.dram)
  ∧ (∀ (d : Desc) (s : State), NextDiag s d → dgInvalid d = false → dgOp d = 4 → ∃ t, exec .diagSensorDump s = .next t
    ∧ .memWrite (dgAddr d) (((List.range 16).map fun k => leBytes 2 (s.get (F.THM_SITE_RAW k)) ++ leBytes 2 (s.get (F.THM_SITE_TEMP k))).flatten) ∈ t.out
    ∧ .memWrite (s.ringEntry 62 d.idx + 24) (diagBack 1 64) ∈ t.out ∧ t.dram = s.dram)
  ∧ (∀ (d : Desc) (s : State), NextDiag s d → dgInvalid d = true → ∃ t, exec .diagSensorDump s = .next t ∧ .memWrite (s.ringEntry 62 d.idx + 24) (diagBack 15 0) ∈ t.out
    ∧ t.get (F.DMA_RING_STAT_ERR 62) = 3 ∧ t.ringRunning 62 = false ∧ t.shows P_DMA 4 = true ∧ t.dram = s.dram)

/-! ### The whole block -/

/-- Commands that reach registers of every page, or that start a reset: accesses to registers and windows, and the events of supplies, clocks and the reset pins. -/
def broad : Instr → Bool
  | .vauxPowerOn | .vauxBrownOut | .vinValid | .vinBrownOut | .regulatorFault .. | .regulatorRestart | .trimLoadComplete .. | .railsInRegulation
  | .islandClockQualified .. | .dramTrainingComplete .. | .resetN | .perstNAssert | .perstNDeassert | .clockFailure .. | .auxOscillatorFailure ..
  | .fabricLockUp .. | .trimInvalid | .swrstCore .. | .swrstCoreMem .. | .swrstAll .. | .bootContinue .. | .islHoldSet .. | .islHoldClear ..
  | .blockEnable .. | .blockDisable .. | .blockSrst .. | .drainComplete .. | .evtPendClear .. | .evtForce .. | .registerWrite .. | .loHalfRead ..
  | .loHalfWrite .. | .hiHalfWrite .. | .popRead .. | .latCntRead .. | .cmpFracRead .. | .line64LoRead .. | .evtLostRead .. | .arrayWindowWrite ..
  | .outputEnable .. | .outputDisable .. | .claspOpen .. | .claspData .. | .claspCommit .. | .claspAbort .. | .claspFree .. | .claspCommitPoint ..
  | .claspApplyComplete .. | .claspBatchDescriptor .. | .claspListFetched .. | .pcieLinkUp .. | .hotReset | .dataLinkDown | .submissionDoorbell ..
  | .recordRingConsWrite .. | .ringEnable .. | .ringDisable .. | .dmaReadError .. | .wdtKick .. | .wdtExpired .. | .wdtStop .. | .maskCheck .. | .passCmd ..
  | .chFaultClear .. | .chCfgWrite .. | .strobeCutRelease .. | .slotBankSwap .. | .captureArm .. | .laneEnable .. | .laneDisable .. | .spareTake ..
  | .spareRelease .. | .zlHibWrite .. | .zlHibRead .. | .zlNchk .. | .zlHibSpecific .. | .telemPerWrite .. | .wdqWrite .. | .thermalRound .. | .calRunCmd ..
  | .calForce .. | .calCancel .. | .calResultWrite .. | .parClaim .. | .parHandover .. | .parResync .. | .parDetach .. | .parAbortLocket .. | .actionStamp
  | .pairFrameAck .. | .pairFrameRetransmit .. | .pairLinkLost .. | .sbRead .. | .sbWrite .. | .logFromWrite .. | .tapDbgreset | .tapRegaccess ..
  | .prbsStart .. | .regaccessLock .. | .vauxReturn | .resetNRelease | .auxOscillatorReturn => true
  | _ => false

/-- The other commands whose effect may store to DRAM: copies and decodes of tiles, the codec, DRAM traffic, density reports, and lockets. -/
def storesDram : Instr → Bool
  | .tilePrint .. | .tileDecodeDone .. | .tileCopyDone .. | .codecJobComplete .. | .densityStaged .. | .dramAccess .. | .locketReceived .. => true
  | _ => false

/-- The other commands after which an output pad may be driven or at rest. -/
def drivesPads : Instr → Bool
  | .restFollowDone .. | .jobStart .. | .jobEnd .. | .jobStop .. | .loadReadComplete .. | .lineBoundary .. | .strobeWatchdogCut .. | .trsReceived ..
  | .trainingTimeout .. | .zlAckReceived .. | .replayWindowEnd .. | .headerDeadline .. | .returnLaneSilent .. | .hibStatusMsg .. | .dramAccess ..
  | .claimCollisionCheck .. | .claimRetry .. | .takeoverDecision .. | .actionReceived .. | .resolveReceived .. | .telemReceived .. | .digestReceived ..
  | .digestWaitExpiry .. | .locketReceived .. | .locketPhaseComplete .. | .controlReceived .. | .graceExpiry .. | .sbPing .. | .sbLogRead .. | .sbEvtPoll ..
  | .sbAssign .. | .sbUnassign .. | .fireEdge .. | .firePulseEnd .. | .sbUnusableRequest .. | .tapTestLogicReset => true
  | _ => false

/-- The other commands that move ZaroLink lanes, their frames or their head temperatures. -/
def usesLanes : Instr → Bool
  | .lineCommit .. | .lineBoundary .. | .trsReceived .. | .trainingTimeout .. | .zlAckReceived .. | .zlAckTimeout .. | .replayWindowEnd ..
  | .headerDeadline .. | .returnLaneSilent .. | .headTempMsg .. | .hibStatusMsg .. | .zlTransmissionEnd .. => true
  | _ => false

/-- A step takes the command at the front of the queue and carries it out with the queue's rest; with nothing to do, DEVTIME counts one tick while VAUX is present and nothing else
changes (the model's choice, log entry 2). -/
def Obligations.StepTakesFrontCommand : Prop :=
  (∀ (c : Instr) (l : List Instr) (s : State), step { s with pending := c :: l } = exec c { s with pending := l })
  ∧ (∀ s : State, s.pending = [] → s.aux.vaux = true → s.plk.slew = 0 → step s = .next { s with devtime := s.devtime + 1 })
  ∧ (∀ s : State, s.pending = [] → s.aux.vaux = false → step s = .next s)

/-- The block right after a VAUX power-on, as AUX is released (R71, R72, R83; Tables 3.6 and 3.9; that this instant is State.reset is the model's choice, log entry 100): every
register reads its reset value but for RST_CAUSE and LOG_SEQ, which count the power-on, no DRAM byte is written, only AUX is released, and the trim load runs. -/
def Obligations.StateAfterReset : Prop :=
  State.reset.pending = [] ∧ State.reset.devtime = 0 ∧ State.reset.dram = [] ∧ State.reset.out = [] ∧ State.reset.up 0 = true ∧ (∀ i, 1 ≤ i → i ≤ 7 → State.reset.phase i = .inReset)
  ∧ State.reset.dev = .trimload ∧ State.reset.role = .solo ∧ State.reset.aux.seq = .trim ∧ State.reset.aux.todo = [1, 2, 3, 4, 5, 6, 7]
  ∧ (∀ a, a ≠ R.RSC_RST_CAUSE → a ≠ R.SBP_LOG_SEQ → State.reset.reg a = resetVal a) ∧ State.reset.reg R.RSC_RST_CAUSE = 0x00100001#32 ∧ State.reset.reg R.SBP_LOG_SEQ = 1#32
  ∧ (∃ r, State.reset.aux.log = [r] ∧ r.code = 0xFF01) ∧ State.reset.memOk ∧ State.reset.sized ∧ State.reset.quiet

/-- Every command completes: it answers a next state, with what waits behind it still waiting and what has left the device still recorded. The one exception is an ARB_REQUEST that
names a DRAM byte beyond the last one, which faults (log entry 5). Nothing is refused. -/
def Obligations.CommandsComplete : Prop :=
  ∀ (c : Instr) (s : State), (∃ t, exec c s = .next t ∧ t.pending = s.pending ∧ s.out <:+ t.out)
    ∨ (exec c s = .fault .noSuchAddress ∧ ∃ t0 q r dl w j, c = .arbRequest t0 q r dl w j)

/-- Frames of the commands that do not reach every register (R72, R317): only those that store to DRAM change a byte of it, only those that act on pads change a pad, only those of the
lanes change ZaroLink's state, and no other command changes the supplies, the reset controller or the islands. -/
def Obligations.CommandFrames : Prop :=
  ∀ (c : Instr) (s t : State), broad c = false → exec c s = .next t →
    (storesDram c = false → ∀ a, t.dramByte a = s.dramByte a) ∧ (drivesPads c = false → ∀ p, t.pad p = s.pad p) ∧ (usesLanes c = false → t.zl = s.zl)
    ∧ t.aux.vaux = s.aux.vaux ∧ t.aux.vin = s.aux.vin ∧ t.aux.railsUp = s.aux.railsUp ∧ t.aux.seq = s.aux.seq ∧ t.aux.todo = s.aux.todo ∧ ∀ i, t.phase i = s.phase i

/-- Every step keeps the canonical form of the register file and of DRAM: addresses rise, and no entry holds what its address reads as without it. Every step keeps every unit
in its place: islands and pads, DRAM banks, planes, tile rings, decoder lanes and codec rings, bars, streams and clasp slots, encoder channels, triggers and line clocks,
ZaroLink lanes and heads, and host rings. -/
def Obligations.StepKeepsForm : Prop :=
  (∀ s t : State, s.memOk → step s = .next t → t.memOk)
  ∧ (∀ s t : State, s.sized → step s = .next t → t.sized)

/-- DEVTIME never decreases (R71): a step sets it back only if its command is a VAUX power-on or a return of VAUX. -/
def Obligations.DevtimeNeverDecreases : Prop :=
  ∀ s t : State, s.pending.head? ≠ some .vauxPowerOn → s.pending.head? ≠ some .vauxReturn → step s = .next t → s.devtime ≤ t.devtime

/-- A device without VAUX (R62, R63, Table 3.6): with every island in reset and no access waiting, no command but a VAUX event changes a register or a DRAM byte or makes anything
leave the device, and it stays so. -/
def Obligations.DarkDeviceIsInert : Prop :=
  ∀ (c : Instr) (s t : State), s.aux.vaux = false → (∀ i, s.up i = false) → s.quiet → c ≠ .vauxPowerOn → c ≠ .vauxReturn → c ≠ .vauxBrownOut → exec c s = .next t →
    t.regs = s.regs ∧ t.dram = s.dram ∧ t.out = s.out ∧ t.aux.vaux = false ∧ (∀ i, t.up i = false) ∧ t.quiet
end

