-- ==== Sys2Proof/Laws/Memory.lean ====
section
/-!
SUPPORT. Sys2Proof/Laws/Memory.lean: reading after writing a register or a DRAM byte, and the canonical form, which every operation on the register file and on DRAM keeps.
-/
namespace Sys2Proof.Machine

open Sys2Proof

section keys
variable {α : Type}

theorem lookupKey_insertKey_same (l : List (Nat × α)) (a : Nat) (v : α) (h : ∀ e ∈ l, e.1 ≠ a) :
    lookupKey (insertKey l a v) a = some v := by
  induction l with
  | nil => simp [insertKey, lookupKey]
  | cons e l ih =>
    obtain ⟨k, w⟩ := e
    have hk : k ≠ a := h (k, w) (by simp)
    have hl : ∀ e ∈ l, e.1 ≠ a := fun e he => h e (by simp [he])
    by_cases c : a < k
    · simp [insertKey, c, lookupKey]
    · simp [insertKey, c, lookupKey, hk, ih hl]

theorem lookupKey_insertKey_other (l : List (Nat × α)) (a b : Nat) (v : α) (hb : b ≠ a) :
    lookupKey (insertKey l a v) b = lookupKey l b := by
  induction l with
  | nil => simp [insertKey, lookupKey, Ne.symm hb]
  | cons e l ih =>
    obtain ⟨k, w⟩ := e
    by_cases c : a < k
    · simp [insertKey, c, lookupKey, Ne.symm hb]
    · simp [insertKey, c, lookupKey, ih]

theorem lookupKey_eraseKey_other (l : List (Nat × α)) (a b : Nat) (hb : b ≠ a) :
    lookupKey (eraseKey l a) b = lookupKey l b := by
  induction l with
  | nil => simp [eraseKey, lookupKey]
  | cons e l ih =>
    obtain ⟨k, w⟩ := e
    by_cases c : k = a
    · subst c
      simpa [eraseKey, lookupKey, Ne.symm hb] using ih
    · have : eraseKey ((k, w) :: l) a = (k, w) :: eraseKey l a := by simp [eraseKey, c]
      rw [this]
      simp [lookupKey, ih]

theorem lookupKey_none (l : List (Nat × α)) (a : Nat) (h : ∀ e ∈ l, e.1 ≠ a) : lookupKey l a = none := by
  induction l with
  | nil => rfl
  | cons e l ih =>
    obtain ⟨k, w⟩ := e
    have hk : k ≠ a := h (k, w) (by simp)
    simp [lookupKey, hk, ih fun e he => h e (by simp [he])]

theorem eraseKey_no_key (l : List (Nat × α)) (a : Nat) : ∀ e ∈ eraseKey l a, e.1 ≠ a := by
  intro e he
  simpa [eraseKey] using (List.mem_filter.mp he).2

theorem mem_insertKey (l : List (Nat × α)) (a : Nat) (v : α) (e : Nat × α) (h : e ∈ insertKey l a v) : e = (a, v) ∨ e ∈ l := by
  induction l with
  | nil => simpa [insertKey] using h
  | cons x l ih =>
    obtain ⟨k, w⟩ := x
    by_cases c : a < k
    · simpa [insertKey, c] using h
    · simp only [insertKey, c, if_false, List.mem_cons] at h
      rcases h with h | h
      · exact .inr (by simp [h])
      · rcases ih h with h | h
        · exact .inl h
        · exact .inr (by simp [h])

variable [DecidableEq α]

/-- A key reads the value put there. -/
theorem lookupKey_putKey_same (d : Nat → α) (l : List (Nat × α)) (a : Nat) (v : α) :
    (lookupKey (putKey (d a) l a v) a).getD (d a) = v := by
  unfold putKey
  split
  · next h => rw [lookupKey_none _ _ (eraseKey_no_key l a)]; exact h.symm
  · rw [lookupKey_insertKey_same _ _ _ (eraseKey_no_key l a)]; rfl

/-- Another key reads as before. -/
theorem lookupKey_putKey_other (d : α) (l : List (Nat × α)) (a b : Nat) (v : α) (h : b ≠ a) :
    lookupKey (putKey d l a v) b = lookupKey l b := by
  unfold putKey
  split
  · exact lookupKey_eraseKey_other l a b h
  · rw [lookupKey_insertKey_other _ _ _ _ h, lookupKey_eraseKey_other l a b h]

theorem Memory.wf_nil (d : Nat → α) : Memory.wf d ([] : List (Nat × α)) :=
  ⟨List.Pairwise.nil, fun _ he => absurd he (List.not_mem_nil)⟩

theorem filter_wf (d : Nat → α) (l : List (Nat × α)) (p : Nat × α → Bool) (h : Memory.wf d l) : Memory.wf d (l.filter p) :=
  ⟨h.1.sublist ((List.filter_sublist (l := l) (p := p)).map Prod.fst), fun e he => h.2 e (List.mem_filter.mp he).1⟩

theorem insertKey_wf (d : Nat → α) (l : List (Nat × α)) (a : Nat) (v : α) (h : Memory.wf d l) (hn : ∀ e ∈ l, e.1 ≠ a) (hv : v ≠ d a) :
    Memory.wf d (insertKey l a v) := by
  refine ⟨?_, fun e he => (mem_insertKey l a v e he).elim (fun h => by subst h; exact hv) (h.2 e)⟩
  have hs := h.1
  clear h hv
  induction l with
  | nil => simp [insertKey]
  | cons x l ih =>
    obtain ⟨k, w⟩ := x
    have hk : k ≠ a := hn (k, w) (by simp)
    rw [List.map_cons, List.pairwise_cons] at hs
    by_cases c : a < k
    · simp only [insertKey, c, if_true, List.map_cons, List.pairwise_cons, List.mem_cons]
      refine ⟨fun y hy => ?_, ⟨fun y hy => hs.1 y hy, hs.2⟩⟩
      rcases hy with rfl | hy
      · exact c
      · exact Nat.lt_trans c (hs.1 y hy)
    · simp only [insertKey, c, if_false, List.map_cons, List.pairwise_cons]
      refine ⟨fun y hy => ?_, ih (fun e he => hn e (by simp [he])) hs.2⟩
      obtain ⟨e, he, rfl⟩ := List.mem_map.mp hy
      rcases mem_insertKey l a v e he with rfl | he
      · show k < a; omega
      · exact hs.1 _ (List.mem_map.mpr ⟨e, he, rfl⟩)

/-- Writing a value keeps the canonical form. -/
theorem putKey_wf (d : Nat → α) (l : List (Nat × α)) (a : Nat) (v : α) (h : Memory.wf d l) : Memory.wf d (putKey (d a) l a v) := by
  unfold putKey
  split
  · exact filter_wf d l _ h
  · next hv => exact insertKey_wf d _ a v (filter_wf d l _ h) (eraseKey_no_key l a) hv

end keys

/-! ### Registers and DRAM bytes -/

/-- A register reads what was written. -/
@[simp] theorem State.reg_setReg_same (s : State) (a : Nat) (w : Word) : (s.setReg a w).reg a = w :=
  lookupKey_putKey_same resetVal s.regs a w

/-- Another register reads as before. -/
theorem State.reg_setReg_other (s : State) (a b : Nat) (w : Word) (h : b ≠ a) : (s.setReg a w).reg b = s.reg b := by
  unfold State.reg State.setReg
  rw [lookupKey_putKey_other _ _ _ _ _ h]

/-- A DRAM byte reads what was written. -/
@[simp] theorem State.dramByte_setDramByte_same (s : State) (a : Nat) (b : Byte) : (s.setDramByte a b).dramByte a = b :=
  lookupKey_putKey_same (fun _ => (0 : Byte)) s.dram a b

/-- Another DRAM byte reads as before. -/
theorem State.dramByte_setDramByte_other (s : State) (a c : Nat) (b : Byte) (h : c ≠ a) : (s.setDramByte a b).dramByte c = s.dramByte c := by
  unfold State.dramByte State.setDramByte
  rw [lookupKey_putKey_other _ _ _ _ _ h]

/-- Registers put back to their reset values read them, and the others read as before. -/
theorem State.reg_clearRegs (s : State) (p : Nat → Bool) (a : Nat) : (s.clearRegs p).reg a = if p a then resetVal a else s.reg a := by
  unfold State.reg State.clearRegs
  dsimp only
  induction s.regs with
  | nil => simp [lookupKey]
  | cons e l ih =>
    obtain ⟨k, w⟩ := e
    by_cases hk : k = a
    · subst hk
      by_cases hp : p k
      · simpa [hp] using ih
      · simp [hp, lookupKey]
    · by_cases hp : p k
      · simpa [hp, lookupKey, hk] using ih
      · simpa [hp, lookupKey, hk] using ih

theorem State.setReg_memOk (s : State) (a : Nat) (w : Word) (h : s.memOk) : (s.setReg a w).memOk :=
  ⟨putKey_wf resetVal s.regs a w h.1, h.2⟩

theorem State.clearRegs_memOk (s : State) (p : Nat → Bool) (h : s.memOk) : (s.clearRegs p).memOk :=
  ⟨filter_wf resetVal s.regs _ h.1, h.2⟩

theorem State.setDramByte_memOk (s : State) (a : Nat) (b : Byte) (h : s.memOk) : (s.setDramByte a b).memOk :=
  ⟨h.1, putKey_wf (fun _ => (0 : Byte)) s.dram a b h.2⟩

theorem State.putDram_memOk (l : List Byte) : ∀ (s : State) (a : Nat), s.memOk → (s.putDram a l).memOk := by
  induction l with
  | nil => intro s a h; exact h
  | cons b l ih => intro s a h; exact ih _ _ (s.setDramByte_memOk a b h)

@[simp] theorem length_updNth {α : Type} (l : List α) (i : Nat) (f : α → α) : (updNth l i f).length = l.length := by
  unfold updNth
  exact List.length_modify _ _ _

theorem sized_of {s t : State} (h : s.sized) (ha : s.aux.sized → t.aux.sized) (hm : s.mem.sized → t.mem.sized) (hp : s.pix.sized → t.pix.sized)
    (hf : s.fire.sized → t.fire.sized) (hz : s.zl.sized → t.zl.sized) (hh : s.host.sized → t.host.sized) : t.sized :=
  ⟨ha h.1, hm h.2.1, hp h.2.2.1, hf h.2.2.2.1, hz h.2.2.2.2.1, hh h.2.2.2.2.2⟩

theorem sized_newMem : ({} : Mem).sized := List.length_replicate

theorem sized_newPix : ({} : Pix).sized :=
  ⟨⟨List.length_replicate, List.length_replicate, List.length_replicate, List.length_replicate⟩, List.length_replicate, List.length_replicate, rfl,
    List.length_replicate, List.length_replicate⟩

theorem sized_newFire : ({} : Fire).sized := ⟨List.length_replicate, List.length_replicate, List.length_replicate, List.length_replicate⟩

theorem sized_newZl : ({} : Zl).sized := ⟨List.length_replicate, List.length_replicate⟩

theorem sized_newHost : ({} : HostIf).sized := List.length_replicate

@[simp] theorem length_padJobs (l : List (Option Job)) : (State.loadPosition.padJobs l).length = 4 := by
  unfold State.loadPosition.padJobs
  rw [List.length_take, List.length_append, List.length_replicate]
  omega

@[simp] theorem length_padBars (l : List (Option BarRun)) : (State.loadPosition.padBars l).length = 8 := by
  unfold State.loadPosition.padBars
  rw [List.length_take, List.length_append, List.length_replicate]
  omega

end Sys2Proof.Machine
end

