-- ==== Sys2Proof/Laws/State.lean ====
section
/-!
SUPPORT. Sys2Proof/Laws/State.lean: what each elementary update of the state leaves in each field, what a register and a field of a register read after one, and which
islands run.
-/
namespace Sys2Proof.Machine

open Sys2Proof


section
variable (s : State)

/-! #### setReg -/

@[simp] theorem State.setReg_pending (a : Nat) (w : Word) : (s.setReg a w).pending = s.pending := rfl
@[simp] theorem State.setReg_devtime (a : Nat) (w : Word) : (s.setReg a w).devtime = s.devtime := rfl
@[simp] theorem State.setReg_regs (a : Nat) (w : Word) : (s.setReg a w).regs = putKey (resetVal a) s.regs a w := rfl
@[simp] theorem State.setReg_dram (a : Nat) (w : Word) : (s.setReg a w).dram = s.dram := rfl
@[simp] theorem State.setReg_aux (a : Nat) (w : Word) : (s.setReg a w).aux = s.aux := rfl
@[simp] theorem State.setReg_hsk (a : Nat) (w : Word) : (s.setReg a w).hsk = s.hsk := rfl
@[simp] theorem State.setReg_mem (a : Nat) (w : Word) : (s.setReg a w).mem = s.mem := rfl
@[simp] theorem State.setReg_pix (a : Nat) (w : Word) : (s.setReg a w).pix = s.pix := rfl
@[simp] theorem State.setReg_fire (a : Nat) (w : Word) : (s.setReg a w).fire = s.fire := rfl
@[simp] theorem State.setReg_zl (a : Nat) (w : Word) : (s.setReg a w).zl = s.zl := rfl
@[simp] theorem State.setReg_plk (a : Nat) (w : Word) : (s.setReg a w).plk = s.plk := rfl
@[simp] theorem State.setReg_host (a : Nat) (w : Word) : (s.setReg a w).host = s.host := rfl
@[simp] theorem State.setReg_out (a : Nat) (w : Word) : (s.setReg a w).out = s.out := rfl
@[simp] theorem State.setReg_free (a : Nat) (w : Word) : (s.setReg a w).free = s.free := rfl
@[simp] theorem State.setReg_phase (a : Nat) (w : Word) (i : Nat) : (s.setReg a w).phase i = s.phase i := rfl
@[simp] theorem State.setReg_up (a : Nat) (w : Word) (i : Nat) : (s.setReg a w).up i = s.up i := rfl
@[simp] theorem State.setReg_hostUp (a : Nat) (w : Word) : (s.setReg a w).hostUp = s.hostUp := rfl
@[simp] theorem State.setReg_pageUp (a : Nat) (w : Word) (q : Nat) : (s.setReg a w).pageUp q = s.pageUp q := rfl

/-! #### clearRegs -/

@[simp] theorem State.clearRegs_pending (p : Nat → Bool) : (s.clearRegs p).pending = s.pending := rfl
@[simp] theorem State.clearRegs_devtime (p : Nat → Bool) : (s.clearRegs p).devtime = s.devtime := rfl
@[simp] theorem State.clearRegs_regs (p : Nat → Bool) : (s.clearRegs p).regs = s.regs.filter fun e => !p e.1 := rfl
@[simp] theorem State.clearRegs_dram (p : Nat → Bool) : (s.clearRegs p).dram = s.dram := rfl
@[simp] theorem State.clearRegs_aux (p : Nat → Bool) : (s.clearRegs p).aux = s.aux := rfl
@[simp] theorem State.clearRegs_hsk (p : Nat → Bool) : (s.clearRegs p).hsk = s.hsk := rfl
@[simp] theorem State.clearRegs_mem (p : Nat → Bool) : (s.clearRegs p).mem = s.mem := rfl
@[simp] theorem State.clearRegs_pix (p : Nat → Bool) : (s.clearRegs p).pix = s.pix := rfl
@[simp] theorem State.clearRegs_fire (p : Nat → Bool) : (s.clearRegs p).fire = s.fire := rfl
@[simp] theorem State.clearRegs_zl (p : Nat → Bool) : (s.clearRegs p).zl = s.zl := rfl
@[simp] theorem State.clearRegs_plk (p : Nat → Bool) : (s.clearRegs p).plk = s.plk := rfl
@[simp] theorem State.clearRegs_host (p : Nat → Bool) : (s.clearRegs p).host = s.host := rfl
@[simp] theorem State.clearRegs_out (p : Nat → Bool) : (s.clearRegs p).out = s.out := rfl
@[simp] theorem State.clearRegs_free (p : Nat → Bool) : (s.clearRegs p).free = s.free := rfl
@[simp] theorem State.clearRegs_phase (p : Nat → Bool) (i : Nat) : (s.clearRegs p).phase i = s.phase i := rfl
@[simp] theorem State.clearRegs_up (p : Nat → Bool) (i : Nat) : (s.clearRegs p).up i = s.up i := rfl
@[simp] theorem State.clearRegs_hostUp (p : Nat → Bool) : (s.clearRegs p).hostUp = s.hostUp := rfl
@[simp] theorem State.clearRegs_pageUp (p : Nat → Bool) (q : Nat) : (s.clearRegs p).pageUp q = s.pageUp q := rfl

/-! #### setDramByte -/

@[simp] theorem State.setDramByte_pending (a : Nat) (b : Byte) : (s.setDramByte a b).pending = s.pending := rfl
@[simp] theorem State.setDramByte_devtime (a : Nat) (b : Byte) : (s.setDramByte a b).devtime = s.devtime := rfl
@[simp] theorem State.setDramByte_regs (a : Nat) (b : Byte) : (s.setDramByte a b).regs = s.regs := rfl
@[simp] theorem State.setDramByte_dram (a : Nat) (b : Byte) : (s.setDramByte a b).dram = putKey 0 s.dram a b := rfl
@[simp] theorem State.setDramByte_aux (a : Nat) (b : Byte) : (s.setDramByte a b).aux = s.aux := rfl
@[simp] theorem State.setDramByte_hsk (a : Nat) (b : Byte) : (s.setDramByte a b).hsk = s.hsk := rfl
@[simp] theorem State.setDramByte_mem (a : Nat) (b : Byte) : (s.setDramByte a b).mem = s.mem := rfl
@[simp] theorem State.setDramByte_pix (a : Nat) (b : Byte) : (s.setDramByte a b).pix = s.pix := rfl
@[simp] theorem State.setDramByte_fire (a : Nat) (b : Byte) : (s.setDramByte a b).fire = s.fire := rfl
@[simp] theorem State.setDramByte_zl (a : Nat) (b : Byte) : (s.setDramByte a b).zl = s.zl := rfl
@[simp] theorem State.setDramByte_plk (a : Nat) (b : Byte) : (s.setDramByte a b).plk = s.plk := rfl
@[simp] theorem State.setDramByte_host (a : Nat) (b : Byte) : (s.setDramByte a b).host = s.host := rfl
@[simp] theorem State.setDramByte_out (a : Nat) (b : Byte) : (s.setDramByte a b).out = s.out := rfl
@[simp] theorem State.setDramByte_free (a : Nat) (b : Byte) : (s.setDramByte a b).free = s.free := rfl
@[simp] theorem State.setDramByte_reg (a : Nat) (b : Byte) (x : Nat) : (s.setDramByte a b).reg x = s.reg x := rfl
@[simp] theorem State.setDramByte_get (a : Nat) (b : Byte) (x : Fld) : (s.setDramByte a b).get x = s.get x := rfl
@[simp] theorem State.setDramByte_on (a : Nat) (b : Byte) (x : Fld) : (s.setDramByte a b).on x = s.on x := rfl
@[simp] theorem State.setDramByte_role (a : Nat) (b : Byte) : (s.setDramByte a b).role = s.role := rfl
@[simp] theorem State.setDramByte_dev (a : Nat) (b : Byte) : (s.setDramByte a b).dev = s.dev := rfl
@[simp] theorem State.setDramByte_phase (a : Nat) (b : Byte) (i : Nat) : (s.setDramByte a b).phase i = s.phase i := rfl
@[simp] theorem State.setDramByte_up (a : Nat) (b : Byte) (i : Nat) : (s.setDramByte a b).up i = s.up i := rfl
@[simp] theorem State.setDramByte_hostUp (a : Nat) (b : Byte) : (s.setDramByte a b).hostUp = s.hostUp := rfl
@[simp] theorem State.setDramByte_pageUp (a : Nat) (b : Byte) (q : Nat) : (s.setDramByte a b).pageUp q = s.pageUp q := rfl

/-! #### atTime -/

@[simp] theorem State.atTime_pending (t : Nat) : (s.atTime t).pending = s.pending := rfl
@[simp] theorem State.atTime_devtime (t : Nat) : (s.atTime t).devtime = max s.devtime t := rfl
@[simp] theorem State.atTime_regs (t : Nat) : (s.atTime t).regs = s.regs := rfl
@[simp] theorem State.atTime_dram (t : Nat) : (s.atTime t).dram = s.dram := rfl
@[simp] theorem State.atTime_aux (t : Nat) : (s.atTime t).aux = s.aux := rfl
@[simp] theorem State.atTime_hsk (t : Nat) : (s.atTime t).hsk = s.hsk := rfl
@[simp] theorem State.atTime_mem (t : Nat) : (s.atTime t).mem = s.mem := rfl
@[simp] theorem State.atTime_pix (t : Nat) : (s.atTime t).pix = s.pix := rfl
@[simp] theorem State.atTime_fire (t : Nat) : (s.atTime t).fire = s.fire := rfl
@[simp] theorem State.atTime_zl (t : Nat) : (s.atTime t).zl = s.zl := rfl
@[simp] theorem State.atTime_plk (t : Nat) : (s.atTime t).plk = s.plk := rfl
@[simp] theorem State.atTime_host (t : Nat) : (s.atTime t).host = s.host := rfl
@[simp] theorem State.atTime_out (t : Nat) : (s.atTime t).out = s.out := rfl
@[simp] theorem State.atTime_free (t : Nat) : (s.atTime t).free = s.free := rfl
@[simp] theorem State.atTime_reg (t : Nat) (x : Nat) : (s.atTime t).reg x = s.reg x := rfl
@[simp] theorem State.atTime_get (t : Nat) (x : Fld) : (s.atTime t).get x = s.get x := rfl
@[simp] theorem State.atTime_on (t : Nat) (x : Fld) : (s.atTime t).on x = s.on x := rfl
@[simp] theorem State.atTime_role (t : Nat) : (s.atTime t).role = s.role := rfl
@[simp] theorem State.atTime_dev (t : Nat) : (s.atTime t).dev = s.dev := rfl
@[simp] theorem State.atTime_phase (t : Nat) (i : Nat) : (s.atTime t).phase i = s.phase i := rfl
@[simp] theorem State.atTime_up (t : Nat) (i : Nat) : (s.atTime t).up i = s.up i := rfl
@[simp] theorem State.atTime_hostUp (t : Nat) : (s.atTime t).hostUp = s.hostUp := rfl
@[simp] theorem State.atTime_pageUp (t : Nat) (q : Nat) : (s.atTime t).pageUp q = s.pageUp q := rfl

/-! #### emit -/

@[simp] theorem State.emit_pending (o : Out) : (s.emit o).pending = s.pending := rfl
@[simp] theorem State.emit_devtime (o : Out) : (s.emit o).devtime = s.devtime := rfl
@[simp] theorem State.emit_regs (o : Out) : (s.emit o).regs = s.regs := rfl
@[simp] theorem State.emit_dram (o : Out) : (s.emit o).dram = s.dram := rfl
@[simp] theorem State.emit_aux (o : Out) : (s.emit o).aux = s.aux := rfl
@[simp] theorem State.emit_hsk (o : Out) : (s.emit o).hsk = s.hsk := rfl
@[simp] theorem State.emit_mem (o : Out) : (s.emit o).mem = s.mem := rfl
@[simp] theorem State.emit_pix (o : Out) : (s.emit o).pix = s.pix := rfl
@[simp] theorem State.emit_fire (o : Out) : (s.emit o).fire = s.fire := rfl
@[simp] theorem State.emit_zl (o : Out) : (s.emit o).zl = s.zl := rfl
@[simp] theorem State.emit_plk (o : Out) : (s.emit o).plk = s.plk := rfl
@[simp] theorem State.emit_host (o : Out) : (s.emit o).host = s.host := rfl
@[simp] theorem State.emit_out (o : Out) : (s.emit o).out = o :: s.out := rfl
@[simp] theorem State.emit_free (o : Out) : (s.emit o).free = s.free := rfl
@[simp] theorem State.emit_reg (o : Out) (x : Nat) : (s.emit o).reg x = s.reg x := rfl
@[simp] theorem State.emit_get (o : Out) (x : Fld) : (s.emit o).get x = s.get x := rfl
@[simp] theorem State.emit_on (o : Out) (x : Fld) : (s.emit o).on x = s.on x := rfl
@[simp] theorem State.emit_role (o : Out) : (s.emit o).role = s.role := rfl
@[simp] theorem State.emit_dev (o : Out) : (s.emit o).dev = s.dev := rfl
@[simp] theorem State.emit_phase (o : Out) (i : Nat) : (s.emit o).phase i = s.phase i := rfl
@[simp] theorem State.emit_up (o : Out) (i : Nat) : (s.emit o).up i = s.up i := rfl
@[simp] theorem State.emit_hostUp (o : Out) : (s.emit o).hostUp = s.hostUp := rfl
@[simp] theorem State.emit_pageUp (o : Out) (q : Nat) : (s.emit o).pageUp q = s.pageUp q := rfl

/-! #### modAux -/

@[simp] theorem State.modAux_pending (f : Aux → Aux) : (s.modAux f).pending = s.pending := rfl
@[simp] theorem State.modAux_devtime (f : Aux → Aux) : (s.modAux f).devtime = s.devtime := rfl
@[simp] theorem State.modAux_regs (f : Aux → Aux) : (s.modAux f).regs = s.regs := rfl
@[simp] theorem State.modAux_dram (f : Aux → Aux) : (s.modAux f).dram = s.dram := rfl
@[simp] theorem State.modAux_aux (f : Aux → Aux) : (s.modAux f).aux = f s.aux := rfl
@[simp] theorem State.modAux_hsk (f : Aux → Aux) : (s.modAux f).hsk = s.hsk := rfl
@[simp] theorem State.modAux_mem (f : Aux → Aux) : (s.modAux f).mem = s.mem := rfl
@[simp] theorem State.modAux_pix (f : Aux → Aux) : (s.modAux f).pix = s.pix := rfl
@[simp] theorem State.modAux_fire (f : Aux → Aux) : (s.modAux f).fire = s.fire := rfl
@[simp] theorem State.modAux_zl (f : Aux → Aux) : (s.modAux f).zl = s.zl := rfl
@[simp] theorem State.modAux_plk (f : Aux → Aux) : (s.modAux f).plk = s.plk := rfl
@[simp] theorem State.modAux_host (f : Aux → Aux) : (s.modAux f).host = s.host := rfl
@[simp] theorem State.modAux_out (f : Aux → Aux) : (s.modAux f).out = s.out := rfl
@[simp] theorem State.modAux_free (f : Aux → Aux) : (s.modAux f).free = s.free := rfl
@[simp] theorem State.modAux_reg (f : Aux → Aux) (x : Nat) : (s.modAux f).reg x = s.reg x := rfl
@[simp] theorem State.modAux_get (f : Aux → Aux) (x : Fld) : (s.modAux f).get x = s.get x := rfl
@[simp] theorem State.modAux_on (f : Aux → Aux) (x : Fld) : (s.modAux f).on x = s.on x := rfl
@[simp] theorem State.modAux_role (f : Aux → Aux) : (s.modAux f).role = s.role := rfl
@[simp] theorem State.modAux_dev (f : Aux → Aux) : (s.modAux f).dev = s.dev := rfl

/-! #### modHsk -/

@[simp] theorem State.modHsk_pending (f : Hsk → Hsk) : (s.modHsk f).pending = s.pending := rfl
@[simp] theorem State.modHsk_devtime (f : Hsk → Hsk) : (s.modHsk f).devtime = s.devtime := rfl
@[simp] theorem State.modHsk_regs (f : Hsk → Hsk) : (s.modHsk f).regs = s.regs := rfl
@[simp] theorem State.modHsk_dram (f : Hsk → Hsk) : (s.modHsk f).dram = s.dram := rfl
@[simp] theorem State.modHsk_aux (f : Hsk → Hsk) : (s.modHsk f).aux = s.aux := rfl
@[simp] theorem State.modHsk_hsk (f : Hsk → Hsk) : (s.modHsk f).hsk = f s.hsk := rfl
@[simp] theorem State.modHsk_mem (f : Hsk → Hsk) : (s.modHsk f).mem = s.mem := rfl
@[simp] theorem State.modHsk_pix (f : Hsk → Hsk) : (s.modHsk f).pix = s.pix := rfl
@[simp] theorem State.modHsk_fire (f : Hsk → Hsk) : (s.modHsk f).fire = s.fire := rfl
@[simp] theorem State.modHsk_zl (f : Hsk → Hsk) : (s.modHsk f).zl = s.zl := rfl
@[simp] theorem State.modHsk_plk (f : Hsk → Hsk) : (s.modHsk f).plk = s.plk := rfl
@[simp] theorem State.modHsk_host (f : Hsk → Hsk) : (s.modHsk f).host = s.host := rfl
@[simp] theorem State.modHsk_out (f : Hsk → Hsk) : (s.modHsk f).out = s.out := rfl
@[simp] theorem State.modHsk_free (f : Hsk → Hsk) : (s.modHsk f).free = s.free := rfl
@[simp] theorem State.modHsk_reg (f : Hsk → Hsk) (x : Nat) : (s.modHsk f).reg x = s.reg x := rfl
@[simp] theorem State.modHsk_get (f : Hsk → Hsk) (x : Fld) : (s.modHsk f).get x = s.get x := rfl
@[simp] theorem State.modHsk_on (f : Hsk → Hsk) (x : Fld) : (s.modHsk f).on x = s.on x := rfl
@[simp] theorem State.modHsk_role (f : Hsk → Hsk) : (s.modHsk f).role = s.role := rfl
@[simp] theorem State.modHsk_dev (f : Hsk → Hsk) : (s.modHsk f).dev = s.dev := rfl
@[simp] theorem State.modHsk_phase (f : Hsk → Hsk) (i : Nat) : (s.modHsk f).phase i = s.phase i := rfl
@[simp] theorem State.modHsk_up (f : Hsk → Hsk) (i : Nat) : (s.modHsk f).up i = s.up i := rfl
@[simp] theorem State.modHsk_hostUp (f : Hsk → Hsk) : (s.modHsk f).hostUp = s.hostUp := rfl
@[simp] theorem State.modHsk_pageUp (f : Hsk → Hsk) (q : Nat) : (s.modHsk f).pageUp q = s.pageUp q := rfl

/-! #### modMem -/

@[simp] theorem State.modMem_pending (f : Mem → Mem) : (s.modMem f).pending = s.pending := rfl
@[simp] theorem State.modMem_devtime (f : Mem → Mem) : (s.modMem f).devtime = s.devtime := rfl
@[simp] theorem State.modMem_regs (f : Mem → Mem) : (s.modMem f).regs = s.regs := rfl
@[simp] theorem State.modMem_dram (f : Mem → Mem) : (s.modMem f).dram = s.dram := rfl
@[simp] theorem State.modMem_aux (f : Mem → Mem) : (s.modMem f).aux = s.aux := rfl
@[simp] theorem State.modMem_hsk (f : Mem → Mem) : (s.modMem f).hsk = s.hsk := rfl
@[simp] theorem State.modMem_mem (f : Mem → Mem) : (s.modMem f).mem = f s.mem := rfl
@[simp] theorem State.modMem_pix (f : Mem → Mem) : (s.modMem f).pix = s.pix := rfl
@[simp] theorem State.modMem_fire (f : Mem → Mem) : (s.modMem f).fire = s.fire := rfl
@[simp] theorem State.modMem_zl (f : Mem → Mem) : (s.modMem f).zl = s.zl := rfl
@[simp] theorem State.modMem_plk (f : Mem → Mem) : (s.modMem f).plk = s.plk := rfl
@[simp] theorem State.modMem_host (f : Mem → Mem) : (s.modMem f).host = s.host := rfl
@[simp] theorem State.modMem_out (f : Mem → Mem) : (s.modMem f).out = s.out := rfl
@[simp] theorem State.modMem_free (f : Mem → Mem) : (s.modMem f).free = s.free := rfl
@[simp] theorem State.modMem_reg (f : Mem → Mem) (x : Nat) : (s.modMem f).reg x = s.reg x := rfl
@[simp] theorem State.modMem_get (f : Mem → Mem) (x : Fld) : (s.modMem f).get x = s.get x := rfl
@[simp] theorem State.modMem_on (f : Mem → Mem) (x : Fld) : (s.modMem f).on x = s.on x := rfl
@[simp] theorem State.modMem_role (f : Mem → Mem) : (s.modMem f).role = s.role := rfl
@[simp] theorem State.modMem_dev (f : Mem → Mem) : (s.modMem f).dev = s.dev := rfl
@[simp] theorem State.modMem_phase (f : Mem → Mem) (i : Nat) : (s.modMem f).phase i = s.phase i := rfl
@[simp] theorem State.modMem_up (f : Mem → Mem) (i : Nat) : (s.modMem f).up i = s.up i := rfl
@[simp] theorem State.modMem_hostUp (f : Mem → Mem) : (s.modMem f).hostUp = s.hostUp := rfl
@[simp] theorem State.modMem_pageUp (f : Mem → Mem) (q : Nat) : (s.modMem f).pageUp q = s.pageUp q := rfl

/-! #### modPix -/

@[simp] theorem State.modPix_pending (f : Pix → Pix) : (s.modPix f).pending = s.pending := rfl
@[simp] theorem State.modPix_devtime (f : Pix → Pix) : (s.modPix f).devtime = s.devtime := rfl
@[simp] theorem State.modPix_regs (f : Pix → Pix) : (s.modPix f).regs = s.regs := rfl
@[simp] theorem State.modPix_dram (f : Pix → Pix) : (s.modPix f).dram = s.dram := rfl
@[simp] theorem State.modPix_aux (f : Pix → Pix) : (s.modPix f).aux = s.aux := rfl
@[simp] theorem State.modPix_hsk (f : Pix → Pix) : (s.modPix f).hsk = s.hsk := rfl
@[simp] theorem State.modPix_mem (f : Pix → Pix) : (s.modPix f).mem = s.mem := rfl
@[simp] theorem State.modPix_pix (f : Pix → Pix) : (s.modPix f).pix = f s.pix := rfl
@[simp] theorem State.modPix_fire (f : Pix → Pix) : (s.modPix f).fire = s.fire := rfl
@[simp] theorem State.modPix_zl (f : Pix → Pix) : (s.modPix f).zl = s.zl := rfl
@[simp] theorem State.modPix_plk (f : Pix → Pix) : (s.modPix f).plk = s.plk := rfl
@[simp] theorem State.modPix_host (f : Pix → Pix) : (s.modPix f).host = s.host := rfl
@[simp] theorem State.modPix_out (f : Pix → Pix) : (s.modPix f).out = s.out := rfl
@[simp] theorem State.modPix_free (f : Pix → Pix) : (s.modPix f).free = s.free := rfl
@[simp] theorem State.modPix_reg (f : Pix → Pix) (x : Nat) : (s.modPix f).reg x = s.reg x := rfl
@[simp] theorem State.modPix_get (f : Pix → Pix) (x : Fld) : (s.modPix f).get x = s.get x := rfl
@[simp] theorem State.modPix_on (f : Pix → Pix) (x : Fld) : (s.modPix f).on x = s.on x := rfl
@[simp] theorem State.modPix_role (f : Pix → Pix) : (s.modPix f).role = s.role := rfl
@[simp] theorem State.modPix_dev (f : Pix → Pix) : (s.modPix f).dev = s.dev := rfl
@[simp] theorem State.modPix_phase (f : Pix → Pix) (i : Nat) : (s.modPix f).phase i = s.phase i := rfl
@[simp] theorem State.modPix_up (f : Pix → Pix) (i : Nat) : (s.modPix f).up i = s.up i := rfl
@[simp] theorem State.modPix_hostUp (f : Pix → Pix) : (s.modPix f).hostUp = s.hostUp := rfl
@[simp] theorem State.modPix_pageUp (f : Pix → Pix) (q : Nat) : (s.modPix f).pageUp q = s.pageUp q := rfl

/-! #### modFire -/

@[simp] theorem State.modFire_pending (f : Fire → Fire) : (s.modFire f).pending = s.pending := rfl
@[simp] theorem State.modFire_devtime (f : Fire → Fire) : (s.modFire f).devtime = s.devtime := rfl
@[simp] theorem State.modFire_regs (f : Fire → Fire) : (s.modFire f).regs = s.regs := rfl
@[simp] theorem State.modFire_dram (f : Fire → Fire) : (s.modFire f).dram = s.dram := rfl
@[simp] theorem State.modFire_aux (f : Fire → Fire) : (s.modFire f).aux = s.aux := rfl
@[simp] theorem State.modFire_hsk (f : Fire → Fire) : (s.modFire f).hsk = s.hsk := rfl
@[simp] theorem State.modFire_mem (f : Fire → Fire) : (s.modFire f).mem = s.mem := rfl
@[simp] theorem State.modFire_pix (f : Fire → Fire) : (s.modFire f).pix = s.pix := rfl
@[simp] theorem State.modFire_fire (f : Fire → Fire) : (s.modFire f).fire = f s.fire := rfl
@[simp] theorem State.modFire_zl (f : Fire → Fire) : (s.modFire f).zl = s.zl := rfl
@[simp] theorem State.modFire_plk (f : Fire → Fire) : (s.modFire f).plk = s.plk := rfl
@[simp] theorem State.modFire_host (f : Fire → Fire) : (s.modFire f).host = s.host := rfl
@[simp] theorem State.modFire_out (f : Fire → Fire) : (s.modFire f).out = s.out := rfl
@[simp] theorem State.modFire_free (f : Fire → Fire) : (s.modFire f).free = s.free := rfl
@[simp] theorem State.modFire_reg (f : Fire → Fire) (x : Nat) : (s.modFire f).reg x = s.reg x := rfl
@[simp] theorem State.modFire_get (f : Fire → Fire) (x : Fld) : (s.modFire f).get x = s.get x := rfl
@[simp] theorem State.modFire_on (f : Fire → Fire) (x : Fld) : (s.modFire f).on x = s.on x := rfl
@[simp] theorem State.modFire_role (f : Fire → Fire) : (s.modFire f).role = s.role := rfl
@[simp] theorem State.modFire_dev (f : Fire → Fire) : (s.modFire f).dev = s.dev := rfl
@[simp] theorem State.modFire_phase (f : Fire → Fire) (i : Nat) : (s.modFire f).phase i = s.phase i := rfl
@[simp] theorem State.modFire_up (f : Fire → Fire) (i : Nat) : (s.modFire f).up i = s.up i := rfl
@[simp] theorem State.modFire_hostUp (f : Fire → Fire) : (s.modFire f).hostUp = s.hostUp := rfl
@[simp] theorem State.modFire_pageUp (f : Fire → Fire) (q : Nat) : (s.modFire f).pageUp q = s.pageUp q := rfl

/-! #### modZl -/

@[simp] theorem State.modZl_pending (f : Zl → Zl) : (s.modZl f).pending = s.pending := rfl
@[simp] theorem State.modZl_devtime (f : Zl → Zl) : (s.modZl f).devtime = s.devtime := rfl
@[simp] theorem State.modZl_regs (f : Zl → Zl) : (s.modZl f).regs = s.regs := rfl
@[simp] theorem State.modZl_dram (f : Zl → Zl) : (s.modZl f).dram = s.dram := rfl
@[simp] theorem State.modZl_aux (f : Zl → Zl) : (s.modZl f).aux = s.aux := rfl
@[simp] theorem State.modZl_hsk (f : Zl → Zl) : (s.modZl f).hsk = s.hsk := rfl
@[simp] theorem State.modZl_mem (f : Zl → Zl) : (s.modZl f).mem = s.mem := rfl
@[simp] theorem State.modZl_pix (f : Zl → Zl) : (s.modZl f).pix = s.pix := rfl
@[simp] theorem State.modZl_fire (f : Zl → Zl) : (s.modZl f).fire = s.fire := rfl
@[simp] theorem State.modZl_zl (f : Zl → Zl) : (s.modZl f).zl = f s.zl := rfl
@[simp] theorem State.modZl_plk (f : Zl → Zl) : (s.modZl f).plk = s.plk := rfl
@[simp] theorem State.modZl_host (f : Zl → Zl) : (s.modZl f).host = s.host := rfl
@[simp] theorem State.modZl_out (f : Zl → Zl) : (s.modZl f).out = s.out := rfl
@[simp] theorem State.modZl_free (f : Zl → Zl) : (s.modZl f).free = s.free := rfl
@[simp] theorem State.modZl_reg (f : Zl → Zl) (x : Nat) : (s.modZl f).reg x = s.reg x := rfl
@[simp] theorem State.modZl_get (f : Zl → Zl) (x : Fld) : (s.modZl f).get x = s.get x := rfl
@[simp] theorem State.modZl_on (f : Zl → Zl) (x : Fld) : (s.modZl f).on x = s.on x := rfl
@[simp] theorem State.modZl_role (f : Zl → Zl) : (s.modZl f).role = s.role := rfl
@[simp] theorem State.modZl_dev (f : Zl → Zl) : (s.modZl f).dev = s.dev := rfl
@[simp] theorem State.modZl_phase (f : Zl → Zl) (i : Nat) : (s.modZl f).phase i = s.phase i := rfl
@[simp] theorem State.modZl_up (f : Zl → Zl) (i : Nat) : (s.modZl f).up i = s.up i := rfl
@[simp] theorem State.modZl_hostUp (f : Zl → Zl) : (s.modZl f).hostUp = s.hostUp := rfl
@[simp] theorem State.modZl_pageUp (f : Zl → Zl) (q : Nat) : (s.modZl f).pageUp q = s.pageUp q := rfl

/-! #### modPlk -/

@[simp] theorem State.modPlk_pending (f : Plk → Plk) : (s.modPlk f).pending = s.pending := rfl
@[simp] theorem State.modPlk_devtime (f : Plk → Plk) : (s.modPlk f).devtime = s.devtime := rfl
@[simp] theorem State.modPlk_regs (f : Plk → Plk) : (s.modPlk f).regs = s.regs := rfl
@[simp] theorem State.modPlk_dram (f : Plk → Plk) : (s.modPlk f).dram = s.dram := rfl
@[simp] theorem State.modPlk_aux (f : Plk → Plk) : (s.modPlk f).aux = s.aux := rfl
@[simp] theorem State.modPlk_hsk (f : Plk → Plk) : (s.modPlk f).hsk = s.hsk := rfl
@[simp] theorem State.modPlk_mem (f : Plk → Plk) : (s.modPlk f).mem = s.mem := rfl
@[simp] theorem State.modPlk_pix (f : Plk → Plk) : (s.modPlk f).pix = s.pix := rfl
@[simp] theorem State.modPlk_fire (f : Plk → Plk) : (s.modPlk f).fire = s.fire := rfl
@[simp] theorem State.modPlk_zl (f : Plk → Plk) : (s.modPlk f).zl = s.zl := rfl
@[simp] theorem State.modPlk_plk (f : Plk → Plk) : (s.modPlk f).plk = f s.plk := rfl
@[simp] theorem State.modPlk_host (f : Plk → Plk) : (s.modPlk f).host = s.host := rfl
@[simp] theorem State.modPlk_out (f : Plk → Plk) : (s.modPlk f).out = s.out := rfl
@[simp] theorem State.modPlk_free (f : Plk → Plk) : (s.modPlk f).free = s.free := rfl
@[simp] theorem State.modPlk_reg (f : Plk → Plk) (x : Nat) : (s.modPlk f).reg x = s.reg x := rfl
@[simp] theorem State.modPlk_get (f : Plk → Plk) (x : Fld) : (s.modPlk f).get x = s.get x := rfl
@[simp] theorem State.modPlk_on (f : Plk → Plk) (x : Fld) : (s.modPlk f).on x = s.on x := rfl
@[simp] theorem State.modPlk_role (f : Plk → Plk) : (s.modPlk f).role = s.role := rfl
@[simp] theorem State.modPlk_dev (f : Plk → Plk) : (s.modPlk f).dev = s.dev := rfl
@[simp] theorem State.modPlk_phase (f : Plk → Plk) (i : Nat) : (s.modPlk f).phase i = s.phase i := rfl
@[simp] theorem State.modPlk_up (f : Plk → Plk) (i : Nat) : (s.modPlk f).up i = s.up i := rfl
@[simp] theorem State.modPlk_hostUp (f : Plk → Plk) : (s.modPlk f).hostUp = s.hostUp := rfl
@[simp] theorem State.modPlk_pageUp (f : Plk → Plk) (q : Nat) : (s.modPlk f).pageUp q = s.pageUp q := rfl

/-! #### modHost -/

@[simp] theorem State.modHost_pending (f : HostIf → HostIf) : (s.modHost f).pending = s.pending := rfl
@[simp] theorem State.modHost_devtime (f : HostIf → HostIf) : (s.modHost f).devtime = s.devtime := rfl
@[simp] theorem State.modHost_regs (f : HostIf → HostIf) : (s.modHost f).regs = s.regs := rfl
@[simp] theorem State.modHost_dram (f : HostIf → HostIf) : (s.modHost f).dram = s.dram := rfl
@[simp] theorem State.modHost_aux (f : HostIf → HostIf) : (s.modHost f).aux = s.aux := rfl
@[simp] theorem State.modHost_hsk (f : HostIf → HostIf) : (s.modHost f).hsk = s.hsk := rfl
@[simp] theorem State.modHost_mem (f : HostIf → HostIf) : (s.modHost f).mem = s.mem := rfl
@[simp] theorem State.modHost_pix (f : HostIf → HostIf) : (s.modHost f).pix = s.pix := rfl
@[simp] theorem State.modHost_fire (f : HostIf → HostIf) : (s.modHost f).fire = s.fire := rfl
@[simp] theorem State.modHost_zl (f : HostIf → HostIf) : (s.modHost f).zl = s.zl := rfl
@[simp] theorem State.modHost_plk (f : HostIf → HostIf) : (s.modHost f).plk = s.plk := rfl
@[simp] theorem State.modHost_host (f : HostIf → HostIf) : (s.modHost f).host = f s.host := rfl
@[simp] theorem State.modHost_out (f : HostIf → HostIf) : (s.modHost f).out = s.out := rfl
@[simp] theorem State.modHost_free (f : HostIf → HostIf) : (s.modHost f).free = s.free := rfl
@[simp] theorem State.modHost_reg (f : HostIf → HostIf) (x : Nat) : (s.modHost f).reg x = s.reg x := rfl
@[simp] theorem State.modHost_get (f : HostIf → HostIf) (x : Fld) : (s.modHost f).get x = s.get x := rfl
@[simp] theorem State.modHost_on (f : HostIf → HostIf) (x : Fld) : (s.modHost f).on x = s.on x := rfl
@[simp] theorem State.modHost_role (f : HostIf → HostIf) : (s.modHost f).role = s.role := rfl
@[simp] theorem State.modHost_dev (f : HostIf → HostIf) : (s.modHost f).dev = s.dev := rfl
@[simp] theorem State.modHost_phase (f : HostIf → HostIf) (i : Nat) : (s.modHost f).phase i = s.phase i := rfl
@[simp] theorem State.modHost_up (f : HostIf → HostIf) (i : Nat) : (s.modHost f).up i = s.up i := rfl

/-! #### put -/

@[simp] theorem State.put_pending (x : Fld) (v : Nat) : (s.put x v).pending = s.pending := rfl
@[simp] theorem State.put_devtime (x : Fld) (v : Nat) : (s.put x v).devtime = s.devtime := rfl
@[simp] theorem State.put_dram (x : Fld) (v : Nat) : (s.put x v).dram = s.dram := rfl
@[simp] theorem State.put_aux (x : Fld) (v : Nat) : (s.put x v).aux = s.aux := rfl
@[simp] theorem State.put_hsk (x : Fld) (v : Nat) : (s.put x v).hsk = s.hsk := rfl
@[simp] theorem State.put_mem (x : Fld) (v : Nat) : (s.put x v).mem = s.mem := rfl
@[simp] theorem State.put_pix (x : Fld) (v : Nat) : (s.put x v).pix = s.pix := rfl
@[simp] theorem State.put_fire (x : Fld) (v : Nat) : (s.put x v).fire = s.fire := rfl
@[simp] theorem State.put_zl (x : Fld) (v : Nat) : (s.put x v).zl = s.zl := rfl
@[simp] theorem State.put_plk (x : Fld) (v : Nat) : (s.put x v).plk = s.plk := rfl
@[simp] theorem State.put_host (x : Fld) (v : Nat) : (s.put x v).host = s.host := rfl
@[simp] theorem State.put_out (x : Fld) (v : Nat) : (s.put x v).out = s.out := rfl
@[simp] theorem State.put_free (x : Fld) (v : Nat) : (s.put x v).free = s.free := rfl
@[simp] theorem State.put_phase (x : Fld) (v : Nat) (i : Nat) : (s.put x v).phase i = s.phase i := rfl
@[simp] theorem State.put_up (x : Fld) (v : Nat) (i : Nat) : (s.put x v).up i = s.up i := rfl
@[simp] theorem State.put_hostUp (x : Fld) (v : Nat) : (s.put x v).hostUp = s.hostUp := rfl
@[simp] theorem State.put_pageUp (x : Fld) (v : Nat) (p : Nat) : (s.put x v).pageUp p = s.pageUp p := rfl

/-! #### freshWord -/

@[simp] theorem State.freshWord_pending : s.freshWord.2.pending = s.pending := rfl
@[simp] theorem State.freshWord_devtime : s.freshWord.2.devtime = s.devtime := rfl
@[simp] theorem State.freshWord_regs : s.freshWord.2.regs = s.regs := rfl
@[simp] theorem State.freshWord_dram : s.freshWord.2.dram = s.dram := rfl
@[simp] theorem State.freshWord_aux : s.freshWord.2.aux = s.aux := rfl
@[simp] theorem State.freshWord_hsk : s.freshWord.2.hsk = s.hsk := rfl
@[simp] theorem State.freshWord_mem : s.freshWord.2.mem = s.mem := rfl
@[simp] theorem State.freshWord_pix : s.freshWord.2.pix = s.pix := rfl
@[simp] theorem State.freshWord_fire : s.freshWord.2.fire = s.fire := rfl
@[simp] theorem State.freshWord_zl : s.freshWord.2.zl = s.zl := rfl
@[simp] theorem State.freshWord_plk : s.freshWord.2.plk = s.plk := rfl
@[simp] theorem State.freshWord_host : s.freshWord.2.host = s.host := rfl
@[simp] theorem State.freshWord_out : s.freshWord.2.out = s.out := rfl
@[simp] theorem State.freshWord_free : s.freshWord.2.free = s.free + 1 := rfl
@[simp] theorem State.freshWord_reg (x : Nat) : s.freshWord.2.reg x = s.reg x := rfl
@[simp] theorem State.freshWord_fst : s.freshWord.1 = Config.freeWord s.free := rfl

end

end Sys2Proof.Machine
end

