-- ==== Sys2Proof/Laws/Reg.lean ====
section
/-!
SUPPORT. Sys2Proof/Laws/Reg.lean: fields of words, and what a field of a register reads after a register or a field was written.
-/
namespace Sys2Proof.Machine

open Sys2Proof

/-! ### Fields of words -/

theorem getBits_lt (hi lo : Nat) (w : Word) : getBits hi lo w < 2 ^ (hi + 1 - lo) := Nat.mod_lt _ (Nat.two_pow_pos _)

theorem testBit_getBits (hi lo i : Nat) (w : Word) : (getBits hi lo w).testBit i = (decide (i < hi + 1 - lo) && w.toNat.testBit (lo + i)) := by
  unfold getBits
  rw [Nat.testBit_mod_two_pow, ← Nat.shiftRight_eq_div_pow, Nat.testBit_shiftRight]

theorem testBit_mask (hi lo i : Nat) : ((2 ^ (hi + 1 - lo) - 1) * 2 ^ lo).testBit i = (decide (lo ≤ i) && decide (i - lo < hi + 1 - lo)) := by
  rw [← Nat.shiftLeft_eq, Nat.testBit_shiftLeft, Nat.testBit_two_pow_sub_one]

theorem testBit_putBits (hi lo i v : Nat) (w : Word) (h : hi < 32) :
    (putBits hi lo w v).toNat.testBit i = (if lo ≤ i ∧ i ≤ hi then v.testBit (i - lo) else w.toNat.testBit i) := by
  rw [BitVec.testBit_toNat]
  unfold putBits
  simp only [BitVec.getLsbD_or, BitVec.getLsbD_and, BitVec.getLsbD_not, BitVec.getLsbD_ofNat, testBit_mask, BitVec.testBit_toNat]
  rw [← Nat.shiftLeft_eq (v % _), Nat.testBit_shiftLeft, Nat.testBit_mod_two_pow]
  by_cases h1 : lo ≤ i
  · by_cases h2 : i ≤ hi
    · have h3 : i < 32 := by omega
      have h4 : i - lo < hi + 1 - lo := by omega
      simp [h1, h2, h3, h4]
    · have h4 : ¬ i - lo < hi + 1 - lo := by omega
      by_cases h3 : i < 32
      · simp [h1, h2, h3, h4]
      · simp [h2, h3, h4, BitVec.getLsbD_of_ge w i (by omega)]
  · by_cases h3 : i < 32
    · simp [h1, h3]
    · simp [h1, h3, BitVec.getLsbD_of_ge w i (by omega)]

/-- The field that was replaced reads the value, cut to its width. -/
theorem getBits_putBits_same (hi lo v : Nat) (w : Word) (h : hi < 32) : getBits hi lo (putBits hi lo w v) = v % 2 ^ (hi + 1 - lo) := by
  apply Nat.eq_of_testBit_eq
  intro i
  rw [testBit_getBits, testBit_putBits _ _ _ _ _ h, Nat.testBit_mod_two_pow]
  by_cases c : i < hi + 1 - lo
  · have h1 : lo ≤ lo + i ∧ lo + i ≤ hi := by omega
    simp [c, h1]
  · simp [c]

/-- A field beside it reads as before. -/
theorem getBits_putBits_other (hi lo hi' lo' v : Nat) (w : Word) (h : hi < 32) (hd : hi' < lo ∨ hi < lo') :
    getBits hi' lo' (putBits hi lo w v) = getBits hi' lo' w := by
  apply Nat.eq_of_testBit_eq
  intro i
  rw [testBit_getBits, testBit_getBits, testBit_putBits _ _ _ _ _ h]
  by_cases c : i < hi' + 1 - lo'
  · have h1 : ¬ (lo ≤ lo' + i ∧ lo' + i ≤ hi) := by omega
    simp [h1]
  · simp [c]

/-! ### Registers and fields after an update -/

section
variable (s : State)

@[simp] theorem State.reg_put_same (f : Fld) (v : Nat) : (s.put f v).reg f.addr = putBits f.hi f.lo (s.reg f.addr) v := s.reg_setReg_same _ _

theorem State.reg_put_other (f : Fld) (v a : Nat) (h : a ≠ f.addr) : (s.put f v).reg a = s.reg a := s.reg_setReg_other _ _ _ h

/-- A field that was written reads what was written, cut to its width. -/
theorem State.get_put_same (f : Fld) (v : Nat) (h : f.hi < 32) : (s.put f v).get f = v % 2 ^ (f.hi + 1 - f.lo) := by
  unfold State.get
  rw [State.reg_put_same, getBits_putBits_same _ _ _ _ h]

/-- A field that was written reads what was written, if it fits. -/
theorem State.get_put_fits (f : Fld) (v : Nat) (h : f.hi < 32) (hv : v < 2 ^ (f.hi + 1 - f.lo)) : (s.put f v).get f = v := by
  rw [s.get_put_same f v h, Nat.mod_eq_of_lt hv]

/-- A field of another register, or of other bits of the register, reads as before. -/
theorem State.get_put_other (f g : Fld) (v : Nat) (hf : f.hi < 32) (h : g.addr ≠ f.addr ∨ g.hi < f.lo ∨ f.hi < g.lo) : (s.put f v).get g = s.get g := by
  by_cases c : g.addr = f.addr
  · unfold State.get
    rw [c, State.reg_put_same, getBits_putBits_other _ _ _ _ _ _ hf (by omega)]
  · unfold State.get
    rw [s.reg_put_other f v _ c]

theorem State.get_setReg_other (a : Nat) (w : Word) (f : Fld) (h : f.addr ≠ a) : (s.setReg a w).get f = s.get f := by
  unfold State.get
  rw [s.reg_setReg_other a f.addr w h]

theorem State.get_setReg_same (a : Nat) (w : Word) (f : Fld) (h : f.addr = a) : (s.setReg a w).get f = getBits f.hi f.lo w := by
  unfold State.get
  rw [h, State.reg_setReg_same]

end

end Sys2Proof.Machine
end

