-- ==== Sys2Proof/Laws/Tell.lean ====
section
/-!
SUPPORT. Sys2Proof/Laws/Tell.lean: what reporting can change. Raising an event, writing a record, refusing an access and sending a pair frame touch only event registers, the
record queues, rings and what leaves the device; `Tells s t` says that nothing else differs. One lemma per operation.
-/
namespace Sys2Proof.Machine

open Sys2Proof

/-- `aux` without what reporting changes in it. -/
def Aux.core (a : Aux) : Aux := { a with evq := [], evqSeq := 0, evqFull := false, log := [], savedTime := 0 }

/-- `pix` without what reporting changes in it. -/
def Pix.core (p : Pix) : Pix := { p with agg := [], lostArmed := true }

/-- `plk` without what reporting changes in it. -/
def Plk.core (p : Plk) : Plk := { p with txSeq := 0, unacked := [] }

/-- `host` without what reporting changes in it. -/
def HostIf.core (h : HostIf) : HostIf := { h with rings := [] }

/-- From `s` to `t` there has only been reporting. -/
structure Tells (s t : State) : Prop where
  pending : t.pending = s.pending
  devtime : t.devtime = s.devtime
  reg : ∀ a, toldReg a = false → t.reg a = s.reg a
  shows : ∀ p i, s.shows p i = true → t.shows p i = true
  dram : t.dram = s.dram
  aux : t.aux.core = s.aux.core
  hsk : t.hsk = s.hsk
  mem : t.mem = s.mem
  pix : t.pix.core = s.pix.core
  fire : t.fire = s.fire
  zl : t.zl = s.zl
  plk : t.plk.core = s.plk.core
  host : t.host.core = s.host.core
  out : s.out <:+ t.out
  free : t.free = s.free

theorem Tells.refl (s : State) : Tells s s :=
  ⟨rfl, rfl, fun _ _ => rfl, fun _ _ h => h, rfl, rfl, rfl, rfl, rfl, rfl, rfl, rfl, rfl, List.suffix_refl _, rfl⟩

theorem Tells.trans {s t u : State} (h : Tells s t) (g : Tells t u) : Tells s u :=
  ⟨g.pending.trans h.pending, g.devtime.trans h.devtime, fun a ha => (g.reg a ha).trans (h.reg a ha), fun p i hp => g.shows p i (h.shows p i hp), g.dram.trans h.dram, g.aux.trans h.aux, g.hsk.trans h.hsk,
   g.mem.trans h.mem, g.pix.trans h.pix, g.fire.trans h.fire, g.zl.trans h.zl, g.plk.trans h.plk, g.host.trans h.host, h.out.trans g.out, g.free.trans h.free⟩

section
variable {s0 s : State}

/-! ### What follows for fields -/

theorem Tells.get {t : State} (h : Tells s t) (f : Fld) (hf : toldReg f.addr = false) : t.get f = s.get f := by
  unfold State.get
  rw [h.reg _ hf]

theorem Tells.on {t : State} (h : Tells s t) (f : Fld) (hf : toldReg f.addr = false) : t.on f = s.on f := by
  unfold State.on
  rw [h.get _ hf]

theorem Tells.phases {t : State} (h : Tells s t) : t.aux.phases = s.aux.phases := by
  show t.aux.core.phases = s.aux.core.phases
  rw [h.aux]

theorem Tells.pads {t : State} (h : Tells s t) : t.aux.pads = s.aux.pads := by
  show t.aux.core.pads = s.aux.core.pads
  rw [h.aux]

theorem Tells.up {t : State} (h : Tells s t) (i : Nat) : t.up i = s.up i := by
  unfold State.up State.phase
  rw [h.phases]

theorem Tells.hostUp {t : State} (h : Tells s t) : t.hostUp = s.hostUp := by
  have h1 : t.aux.perstLow = s.aux.perstLow := by
    show t.aux.core.perstLow = s.aux.core.perstLow
    rw [h.aux]
  have h2 : t.host.inReset = s.host.inReset := by
    show t.host.core.inReset = s.host.core.inReset
    rw [h.host]
  unfold State.hostUp
  rw [h.up, h1, h2]

theorem Tells.pageUp {t : State} (h : Tells s t) (p : Nat) : t.pageUp p = s.pageUp p := by
  unfold State.pageUp
  rw [h.up, h.hostUp]

theorem Tells.dev {t : State} (h : Tells s t) : t.dev = s.dev := by
  unfold State.dev
  rw [h.get _ (by decide)]

theorem Tells.role {t : State} (h : Tells s t) : t.role = s.role := by
  unfold State.role
  rw [h.get _ (by decide)]

/-! ### Elementary steps -/

/-- A reporting register that is no EVT_RAW. -/
def toldOther (a : Nat) : Bool := toldReg a && decide (a % 0x1000 ≠ 0x010)

theorem State.shows_congr {t : State} {p : Nat} (h : t.reg (R.EVT_RAW p) = s.reg (R.EVT_RAW p)) (i : Nat) : t.shows p i = s.shows p i := by
  unfold State.shows
  rw [h]

theorem tell_setReg (h : Tells s0 s) (a : Nat) (w : Word) (ha : toldOther a = true) : Tells s0 (s.setReg a w) := by
  obtain ⟨ha, hr⟩ := Bool.and_eq_true_iff.mp ha
  refine h.trans ⟨rfl, rfl, fun b hb => s.reg_setReg_other a b w (fun e => by rw [e, ha] at hb; cases hb), ?_, rfl, rfl, rfl, rfl, rfl, rfl, rfl, rfl, rfl,
    List.suffix_refl _, rfl⟩
  intro p i hp
  rw [State.shows_congr (s.reg_setReg_other a _ w ?_)]
  · exact hp
  · intro e
    rw [← e] at hr
    unfold R.EVT_RAW at hr
    have := of_decide_eq_true hr
    omega

theorem testBit_putBits_one (b i : Nat) (w : Word) (h : w.toNat.testBit i = true) : (putBits b b w 1).toNat.testBit i = true := by
  by_cases hb : b < 32
  · rw [testBit_putBits _ _ _ _ _ hb]
    split
    · have : i - b = 0 := by omega
      rw [this]; rfl
    · exact h
  · have hi : i < 32 := by
      apply Classical.byContradiction
      intro c
      rw [BitVec.testBit_toNat, BitVec.getLsbD_of_ge w i (by omega)] at h
      cases h
    rw [BitVec.testBit_toNat] at *
    unfold putBits
    simp only [BitVec.getLsbD_or, BitVec.getLsbD_and, BitVec.getLsbD_not, BitVec.getLsbD_ofNat, testBit_mask, h]
    have : ¬ b ≤ i := by omega
    simp [hi, this]

theorem tell_setRaw (h : Tells s0 s) (p b : Nat) : Tells s0 (s.setBit (R.EVT_RAW p) b true) := by
  refine h.trans ⟨rfl, rfl, fun c hc => s.reg_put_other ⟨R.EVT_RAW p, b, b⟩ _ c (fun e => ?_), ?_, rfl, rfl, rfl, rfl, rfl, rfl, rfl, rfl, rfl, List.suffix_refl _, rfl⟩
  · subst e
    unfold toldReg R.EVT_RAW at hc
    have := of_decide_eq_false hc
    dsimp only at this
    omega
  · intro q i hq
    unfold State.shows State.setBit State.put at *
    dsimp only
    by_cases e : R.EVT_RAW q = R.EVT_RAW p
    · rw [e] at hq ⊢
      rw [State.reg_setReg_same]
      exact testBit_putBits_one _ _ _ hq
    · rw [State.reg_setReg_other _ _ _ _ e]
      exact hq

theorem tell_put (h : Tells s0 s) (f : Fld) (v : Nat) (ha : toldOther f.addr = true) : Tells s0 (s.put f v) := tell_setReg h _ _ ha

theorem tell_satAdd (h : Tells s0 s) (f : Fld) (n : Nat) (ha : toldOther f.addr = true) : Tells s0 (s.satAdd f n) := tell_put h _ _ ha

theorem tell_wrapAdd (h : Tells s0 s) (f : Fld) (n : Nat) (ha : toldOther f.addr = true) : Tells s0 (s.wrapAdd f n) := tell_put h _ _ ha

theorem tell_setBit (h : Tells s0 s) (a i : Nat) (b : Bool) (ha : toldOther a = true) : Tells s0 (s.setBit a i b) := tell_put h _ _ ha

theorem tell_emit (h : Tells s0 s) (o : Out) : Tells s0 (s.emit o) :=
  h.trans ⟨rfl, rfl, fun _ _ => rfl, fun _ _ h => h, rfl, rfl, rfl, rfl, rfl, rfl, rfl, rfl, rfl, List.suffix_cons _ _, rfl⟩

theorem tell_modAux (h : Tells s0 s) (f : Aux → Aux) (hf : ∀ a, (f a).core = a.core) : Tells s0 (s.modAux f) :=
  h.trans ⟨rfl, rfl, fun _ _ => rfl, fun _ _ h => h, rfl, hf _, rfl, rfl, rfl, rfl, rfl, rfl, rfl, List.suffix_refl _, rfl⟩

theorem tell_modPix (h : Tells s0 s) (f : Pix → Pix) (hf : ∀ a, (f a).core = a.core) : Tells s0 (s.modPix f) :=
  h.trans ⟨rfl, rfl, fun _ _ => rfl, fun _ _ h => h, rfl, rfl, rfl, rfl, hf _, rfl, rfl, rfl, rfl, List.suffix_refl _, rfl⟩

theorem tell_modPlk (h : Tells s0 s) (f : Plk → Plk) (hf : ∀ a, (f a).core = a.core) : Tells s0 (s.modPlk f) :=
  h.trans ⟨rfl, rfl, fun _ _ => rfl, fun _ _ h => h, rfl, rfl, rfl, rfl, rfl, rfl, rfl, hf _, rfl, List.suffix_refl _, rfl⟩

theorem tell_modRt (h : Tells s0 s) (n : Nat) (f : RingRt → RingRt) : Tells s0 (s.modRt n f) :=
  h.trans ⟨rfl, rfl, fun _ _ => rfl, fun _ _ h => h, rfl, rfl, rfl, rfl, rfl, rfl, rfl, rfl, rfl, List.suffix_refl _, rfl⟩

theorem tell_ite {c : Prop} [Decidable c] {a b : State} (h1 : Tells s0 a) (h2 : Tells s0 b) : Tells s0 (if c then a else b) := by
  split
  · exact h1
  · exact h2

theorem tell_foldS {α : Type} {f : α → State → State} (hf : ∀ a x, Tells s0 x → Tells s0 (f a x)) (h : Tells s0 s) : ∀ l : List α, Tells s0 (foldS l f s) := by
  intro l
  unfold foldS
  induction l generalizing s with
  | nil => exact h
  | cons a l ih => exact ih (hf a s h)

/-! ### Rings and messages -/

theorem toldOther_of {a : Nat} (h : toldReg a = true) (hr : a % 0x1000 ≠ 0x010) : toldOther a = true := by
  unfold toldOther
  rw [h, decide_eq_true hr]
  rfl

theorem toldReg_pba (v : Nat) (h : v < 128) : toldOther (F.PBA v).addr = true := by
  refine toldOther_of ?_ ?_
  · unfold toldReg F.PBA
    exact decide_eq_true (.inl (by dsimp only; omega))
  · unfold F.PBA
    dsimp only
    omega

theorem toldReg_ring (n r : Nat) (hn : n < 64) (hs : isSubmission n = false) (hr : r < 8) : toldOther (0x9800 + 0x20 * n + 4 * r) = true := by
  refine toldOther_of ?_ (by omega)
  unfold toldReg
  refine decide_eq_true (.inr (.inr (.inr (.inr (.inr (.inr (.inr (.inr ⟨by omega, by omega, ?_⟩))))))))
  have e : (0x9800 + 0x20 * n + 4 * r - 0x9800) / 0x20 = n := by omega
  rw [e]
  exact hs

theorem toldReg_ringProd (n : Nat) (hn : n < 64) (hs : isSubmission n = false) : toldOther (R.DMA_RING_PROD n) = true := by
  have e : R.DMA_RING_PROD n = 0x9800 + 0x20 * n + 4 * 3 := by unfold R.DMA_RING_PROD; omega
  rw [e]
  exact toldReg_ring n 3 hn hs (by decide)

theorem toldReg_ringStat (n : Nat) (hn : n < 64) (hs : isSubmission n = false) : toldOther (R.DMA_RING_STAT n) = true := by
  have e : R.DMA_RING_STAT n = 0x9800 + 0x20 * n + 4 * 7 := by unfold R.DMA_RING_STAT; omega
  rw [e]
  exact toldReg_ring n 7 hn hs (by decide)

theorem tell_sendMsix (h : Tells s0 s) (v : Nat) (hv : v < 128) : Tells s0 (s.sendMsix v) := by
  unfold State.sendMsix
  exact tell_ite (tell_emit h _) (tell_ite (tell_put h _ _ (toldReg_pba v hv)) h)

theorem tell_ringItem (h : Tells s0 s) (n : Nat) : Tells s0 (s.ringItem n) := by
  unfold State.ringItem
  refine tell_ite (tell_ite ?_ (tell_modRt h _ _)) h
  exact tell_sendMsix (tell_modRt h _ _) _ (getBits_lt 15 9 _)

theorem tell_statusWrite (h : Tells s0 s) (n : Nat) : Tells s0 (s.statusWrite n) := by
  unfold State.statusWrite State.hostWrite
  exact tell_ite h (tell_ite (tell_modRt h _ _) (tell_emit (tell_modRt h _ _) _))

theorem tell_ringWriteEntry (h : Tells s0 s) (n : Nat) (hn : n < 64) (hs : isSubmission n = false) (e : List Byte) : Tells s0 (s.ringWriteEntry n e) := by
  unfold State.ringWriteEntry State.ringFullFlag State.hostWrite
  refine tell_ringItem (tell_statusWrite (tell_put (tell_setReg (tell_emit h _) _ _ ?_) _ _ ?_) _) _
  · exact toldReg_ringProd n hn hs
  · exact toldReg_ringStat n hn hs

theorem tell_ringPut (h : Tells s0 s) (n : Nat) (hn : n < 64) (hs : isSubmission n = false) (e : List Byte) : Tells s0 (s.ringPut n e).1 := by
  unfold State.ringPut
  split
  · exact h
  · split
    · exact tell_ringWriteEntry h n hn hs e
    · split
      · exact tell_modRt h _ _
      · exact tell_statusWrite (tell_satAdd h _ _ (toldReg_ringStat n hn hs)) _

theorem tell_ringErr (h : Tells s0 s) (n : Nat) (hn : n < 64) (hs : isSubmission n = false) (c : Nat) : Tells s0 (s.ringErr n c) := by
  have e := toldReg_ringStat n hn hs
  unfold State.ringErr
  exact tell_statusWrite (tell_put (tell_put (tell_put h _ _ e) _ _ e) _ _ e) _

/-! ### Pair frames and event records -/

theorem tell_sendPair (h : Tells s0 s) (m : PairMsg) : Tells s0 (s.sendPair m) := by
  unfold State.sendPair
  refine tell_ite ?_ h
  split
  · exact tell_emit h _
  · refine tell_modPlk (tell_emit h _) _ ?_
    intro _; rfl

theorem toldReg_pend (p : Nat) : toldOther (R.EVT_PEND p) = true := by
  refine toldOther_of ?_ ?_
  · unfold toldReg R.EVT_PEND
    exact decide_eq_true (.inr (.inr (.inl (by omega))))
  · unfold R.EVT_PEND
    omega

theorem toldReg_errCode (p : Nat) : toldOther (R.ERR_CODE p) = true := by
  refine toldOther_of ?_ ?_
  · unfold toldReg R.ERR_CODE
    exact decide_eq_true (.inr (.inr (.inr (.inl (by omega)))))
  · unfold R.ERR_CODE
    omega

theorem tell_evtFlags (h : Tells s0 s) (p b : Nat) : Tells s0 (s.evtFlags p b) := by
  unfold State.evtFlags
  extract_lets t
  exact tell_ite (tell_setBit (tell_setRaw h _ _) _ _ _ (toldReg_pend p)) (tell_setRaw h _ _)

theorem tell_evqPut (h : Tells s0 s) (r : Rec) : Tells s0 (s.evqPut r).1 := by
  unfold State.evqPut State.evqCount
  split
  · refine tell_put ?_ F.SBP_EVQ_COUNT _ (by decide)
    refine tell_modAux h _ ?_
    intro _; rfl
  · dsimp only
    refine tell_modAux (tell_satAdd h F.SBP_EVQ_LOST 1 (by decide)) _ ?_
    intro _; rfl

theorem tell_aggPut (h : Tells s0 s) (r : Rec) (u : Nat) : Tells s0 (s.aggPut r u).1 := by
  unfold State.aggPut
  dsimp only
  split
  · dsimp only
    refine tell_modPix (tell_wrapAdd h F.EVT_SEQ_NEXT 1 (by decide)) _ ?_
    intro _; rfl
  · dsimp only
    refine tell_modPix (tell_satAdd (tell_wrapAdd h F.EVT_SEQ_NEXT 1 (by decide)) F.EVT_LOST 1 (by decide)) _ ?_
    intro _; rfl

theorem tell_pairPut (h : Tells s0 s) (r : Rec) : Tells s0 (s.pairPut r).1 := by
  unfold State.pairPut
  split
  · exact tell_sendPair h (.record r)
  · dsimp only
    refine tell_modPix (tell_satAdd h F.EVT_LOST 1 (by decide)) _ ?_
    intro _; rfl

theorem tell_routeRec (h : Tells s0 s) (k route : Nat) (r : Rec) : Tells s0 (State.routeRec k s route r) := by
  induction k generalizing s route r with
  | zero => exact h
  | succ k ih =>
    unfold State.routeRec
    extract_lets raiseIn x1 s1 x2 s2 x3
    have hr : ∀ x p b, Tells s0 x → Tells s0 (raiseIn x p b) := by
      intro x p b hx
      unfold raiseIn
      extract_lets e t
      exact tell_ite (ih (tell_evtFlags hx _ _) _ _) (tell_evtFlags hx _ _)
    have h1 : Tells s0 s1 := tell_ite (tell_ite (hr _ _ _ (tell_evqPut h r)) (tell_evqPut h r)) h
    have h2 : Tells s0 s2 := tell_ite (tell_ite (hr _ _ _ (tell_aggPut h1 r _)) (tell_aggPut h1 r _)) h1
    exact tell_ite (tell_ite (hr _ _ _ (tell_pairPut h2 r)) (tell_pairPut h2 r)) h2

theorem tell_occur (h : Tells s0 s) (e : Evt) : Tells s0 (s.occur e) := by
  unfold State.occur
  exact tell_ite (tell_ite (tell_routeRec (tell_evtFlags h _ _) _ _ _) (tell_evtFlags h _ _)) h

theorem tell_deliver (h : Tells s0 s) : Tells s0 s.deliver := by
  unfold State.deliver
  extract_lets l
  have hm : Tells s0 (s.modPix fun p => { p with agg := [] }) := by
    refine tell_modPix h _ ?_
    intro _; rfl
  refine tell_foldS ?_ hm _
  intro e x hx
  extract_lets n y
  have hn : n < 64 := by unfold n; omega
  have hs : isSubmission n = false := by
    have : ∀ k < 4, isSubmission (28 + k) = false := by decide
    exact this _ (Nat.mod_lt _ (by decide))
  exact tell_ite (tell_occur (tell_ringPut hx n hn hs _) _) (tell_ringPut hx n hn hs _)

theorem tell_raise (h : Tells s0 s) (e : Evt) : Tells s0 (s.raise e) := tell_deliver (tell_occur h e)

theorem tell_putRecord (h : Tells s0 s) (n : Nat) (hn : n < 64) (hs : isSubmission n = false) (b : List Byte) : Tells s0 (s.putRecord n b) := by
  unfold State.putRecord
  exact tell_ite (tell_raise (tell_ringPut h n hn hs b) _) (tell_ringPut h n hn hs b)

theorem tell_ringStop (h : Tells s0 s) (n : Nat) (hn : n < 64) (hs : isSubmission n = false) (c : Nat) : Tells s0 (s.ringStop n c) := tell_raise (tell_ringErr h n hn hs c) _

/-! ### Refused accesses and the retained log -/

theorem tell_errCode (h : Tells s0 s) (p off : Nat) (m : Master) (code : Nat) : Tells s0 (s.errCode p off m code) := by
  unfold State.errCode
  exact tell_raise (tell_setReg h _ _ (toldReg_errCode p)) _

theorem tell_refuse (h : Tells s0 s) (a : Nat) (m : Master) (code : Nat) : Tells s0 (s.refuse a m code) := by
  unfold State.refuse
  exact tell_ite (tell_errCode h _ _ _ _) (tell_errCode h _ _ _ _)

theorem tell_logRec (h : Tells s0 s) (code cls extra : Nat) (d : List Byte) : Tells s0 (s.logRec code cls extra d) := by
  unfold State.logRec
  extract_lets r t
  have ht : Tells s0 t := by
    refine tell_modAux h _ ?_
    intro _
    unfold Aux.core
    rfl
  clear_value r t
  exact tell_putRecord (tell_wrapAdd ht F.SBP_LOG_SEQ 1 (by decide)) 61 (by decide) (by decide) _

/-! ### The flag of an occurrence -/

theorem shows_evtFlags (s : State) (p b : Nat) (hb : b < 32) : (s.evtFlags p b).shows p b = true := by
  have h1 : (s.setBit (R.EVT_RAW p) b true).shows p b = true := by
    unfold State.shows State.setBit
    rw [State.reg_put_same]
    unfold bit
    dsimp only
    rw [testBit_putBits _ _ _ _ _ hb]
    simp [b2n]
  unfold State.evtFlags
  extract_lets t
  split
  · exact (tell_setBit (Tells.refl t) _ b true (toldReg_pend p)).shows p b h1
  · exact h1

/-- An event that is raised in a page whose island runs shows in the page's EVT_RAW. -/
theorem shows_raise (s : State) (e : Evt) (hu : s.pageUp e.page = true) (hb : e.bit < 32) : (s.raise e).shows e.page e.bit = true := by
  unfold State.raise State.occur
  rw [if_pos hu]
  extract_lets t
  have h1 : t.shows e.page e.bit = true := shows_evtFlags s e.page e.bit hb
  refine (tell_deliver (Tells.refl _)).shows _ _ ?_
  split
  · exact (tell_routeRec (Tells.refl t) _ _ _).shows _ _ h1
  · exact h1

end

end Sys2Proof.Machine
end

