-- ==== Sys2Proof/Laws/Via.lean ====
section
/-!
SUPPORT. Sys2Proof/Laws/Via.lean: what a function from state to state can touch. `Via A s t` says that `t` comes from `s` by steps that touch only the parts named in
the mask `A`: every other part is as it was, commands that wait stay, the canonical form of memory is kept, every unit keeps its place, and what has left the device stays recorded. One lemma per
function of the model, in Laws/Touch*.lean, says which parts it touches.
-/
namespace Sys2Proof.Machine

open Sys2Proof

/-- The state of the reset controller: supplies, pins, and how far the islands are. -/
def Aux.power (a : Aux) : (Bool × Bool × Bool × Bool × Bool × Bool) × SeqStep × List Nat × List IslPhase :=
  ((a.vaux, a.vin, a.osc, a.resetN, a.perstLow, a.railsUp), a.seq, a.todo, a.phases)

/-- The accesses that wait. -/
def Aux.waits (a : Aux) : List BusAcc × Option SbWait := (a.heldAcc, a.sbWait)

/-- The jobs, their bars, and the bars that drain. -/
def Pix.jobState (p : Pix) : List (Option Job) × List (Option BarRun) × List Nat := (p.jobs, p.bars, p.draining)

/-! ### Masks: bit 0 regs, 1 dram, 2 devtime, 3 aux, 4 the reset controller in aux, 5 hsk, 6 mem, 7 pix, 8 fire, 9 zl, 10 plk, 11 host, 12 out, 13 free, 14 the waiting
accesses in aux, 15 the register fabric in pix, 16 the pads in aux, 17 the image store in pix, 18 the jobs in pix, 19 the clasp slots in pix, 20 the retained log in aux; bit 21 says that DEVTIME may go back -/

/-- The mask `F` lies in `A`. -/
def Sub (F A : Nat) : Prop := F &&& A = F

theorem Sub.trans {G F A : Nat} (h : Sub F A) (g : Sub G F) : Sub G A := by
  unfold Sub at *
  rw [← g, Nat.and_assoc, h]

theorem Sub.of {G F A : Nat} (h : Sub F A) (g : G &&& F = G) : Sub G A := h.trans g

theorem Sub.bit {F A i : Nat} (h : Sub F A) (hi : F.testBit i = true) : A.testBit i = true := by
  unfold Sub at h
  have : (F &&& A).testBit i = true := by rw [h]; exact hi
  rw [Nat.testBit_and] at this
  simp only [Bool.and_eq_true] at this
  exact this.2

theorem Sub.refl (A : Nat) : Sub A A := Nat.and_self A

/-- `t` comes from `s` by steps that touch only the parts in `A`. -/
structure Via (A : Nat) (s t : State) : Prop where
  pending : t.pending = s.pending
  regs : A.testBit 0 = false → t.regs = s.regs
  dram : A.testBit 1 = false → t.dram = s.dram
  devtime : A.testBit 2 = false → t.devtime = s.devtime
  aux : A.testBit 3 = false → t.aux = s.aux
  power : A.testBit 4 = false → t.aux.power = s.aux.power
  waits : A.testBit 14 = false → t.aux.waits = s.aux.waits
  pads : A.testBit 16 = false → t.aux.pads = s.aux.pads
  log : A.testBit 20 = false → t.aux.log = s.aux.log
  hsk : A.testBit 5 = false → t.hsk = s.hsk
  mem : A.testBit 6 = false → t.mem = s.mem
  pix : A.testBit 7 = false → t.pix = s.pix
  fabric : A.testBit 15 = false → t.pix.fabric = s.pix.fabric
  img : A.testBit 17 = false → t.pix.img = s.pix.img
  jobs : A.testBit 18 = false → t.pix.jobState = s.pix.jobState
  slots : A.testBit 19 = false → t.pix.slots = s.pix.slots
  fire : A.testBit 8 = false → t.fire = s.fire
  zl : A.testBit 9 = false → t.zl = s.zl
  plk : A.testBit 10 = false → t.plk = s.plk
  host : A.testBit 11 = false → t.host = s.host
  out : A.testBit 12 = false → t.out = s.out
  free : A.testBit 13 = false → t.free = s.free
  left : s.out <:+ t.out
  memOk : s.memOk → t.memOk
  sized : s.sized → t.sized
  time : A.testBit 21 = false → s.devtime ≤ t.devtime

theorem Via.refl (A : Nat) (s : State) : Via A s s where
  pending := rfl
  regs _ := rfl
  dram _ := rfl
  devtime _ := rfl
  aux _ := rfl
  power _ := rfl
  waits _ := rfl
  pads _ := rfl
  log _ := rfl
  hsk _ := rfl
  mem _ := rfl
  pix _ := rfl
  fabric _ := rfl
  img _ := rfl
  jobs _ := rfl
  slots _ := rfl
  fire _ := rfl
  zl _ := rfl
  plk _ := rfl
  host _ := rfl
  out _ := rfl
  free _ := rfl
  left := List.suffix_refl _
  memOk h := h
  sized h := h
  time _ := Nat.le_refl _

theorem Via.trans {A : Nat} {s t u : State} (h : Via A s t) (g : Via A t u) : Via A s u where
  pending := g.pending.trans h.pending
  regs x := (g.regs x).trans (h.regs x)
  dram x := (g.dram x).trans (h.dram x)
  devtime x := (g.devtime x).trans (h.devtime x)
  aux x := (g.aux x).trans (h.aux x)
  power x := (g.power x).trans (h.power x)
  waits x := (g.waits x).trans (h.waits x)
  pads x := (g.pads x).trans (h.pads x)
  log x := (g.log x).trans (h.log x)
  hsk x := (g.hsk x).trans (h.hsk x)
  mem x := (g.mem x).trans (h.mem x)
  pix x := (g.pix x).trans (h.pix x)
  fabric x := (g.fabric x).trans (h.fabric x)
  img x := (g.img x).trans (h.img x)
  jobs x := (g.jobs x).trans (h.jobs x)
  slots x := (g.slots x).trans (h.slots x)
  fire x := (g.fire x).trans (h.fire x)
  zl x := (g.zl x).trans (h.zl x)
  plk x := (g.plk x).trans (h.plk x)
  host x := (g.host x).trans (h.host x)
  out x := (g.out x).trans (h.out x)
  free x := (g.free x).trans (h.free x)
  left := h.left.trans g.left
  memOk x := g.memOk (h.memOk x)
  sized x := g.sized (h.sized x)
  time x := Nat.le_trans (h.time x) (g.time x)

theorem Sub.none {A B i : Nat} (h : Sub A B) (hB : B.testBit i = false) : A.testBit i = false := by
  cases hA : A.testBit i
  · rfl
  · exact (h.bit hA).symm.trans hB

theorem Via.mono {A B : Nat} {s t : State} (h : Sub A B) (v : Via A s t) : Via B s t where
  pending := v.pending

  regs x := v.regs (h.none x)
  dram x := v.dram (h.none x)
  devtime x := v.devtime (h.none x)
  aux x := v.aux (h.none x)
  power x := v.power (h.none x)
  waits x := v.waits (h.none x)
  pads x := v.pads (h.none x)
  log x := v.log (h.none x)
  hsk x := v.hsk (h.none x)
  mem x := v.mem (h.none x)
  pix x := v.pix (h.none x)
  fabric x := v.fabric (h.none x)
  img x := v.img (h.none x)
  jobs x := v.jobs (h.none x)
  slots x := v.slots (h.none x)
  fire x := v.fire (h.none x)
  zl x := v.zl (h.none x)
  plk x := v.plk (h.none x)
  host x := v.host (h.none x)
  out x := v.out (h.none x)
  free x := v.free (h.none x)
  left := v.left
  memOk := v.memOk
  sized := v.sized
  time x := v.time (h.none x)

/-! ### Elementary updates -/

section
variable {A : Nat} {s0 s : State}

/-- A step that leaves what is outside `A`, given part by part. -/
theorem Via.step {t : State} (h : Via A s0 s) (hp : t.pending = s.pending) (h0 : Sub 1 A ∨ t.regs = s.regs) (h1 : Sub 2 A ∨ t.dram = s.dram) (h2 : Sub 4 A ∨ t.devtime = s.devtime) (h3 : Sub 8 A ∨ t.aux = s.aux) (h4 : Sub 16 A ∨ t.aux.power = s.aux.power) (h14 : Sub 16384 A ∨ t.aux.waits = s.aux.waits) (h16 : Sub 65536 A ∨ t.aux.pads = s.aux.pads) (h20 : Sub 1048576 A ∨ t.aux.log = s.aux.log) (h5 : Sub 32 A ∨ t.hsk = s.hsk) (h6 : Sub 64 A ∨ t.mem = s.mem) (h7 : Sub 128 A ∨ t.pix = s.pix) (h15 : Sub 32768 A ∨ t.pix.fabric = s.pix.fabric) (h17 : Sub 131072 A ∨ t.pix.img = s.pix.img) (h18 : Sub 262144 A ∨ t.pix.jobState = s.pix.jobState) (h19 : Sub 524288 A ∨ t.pix.slots = s.pix.slots) (h8 : Sub 256 A ∨ t.fire = s.fire) (h9 : Sub 512 A ∨ t.zl = s.zl) (h10 : Sub 1024 A ∨ t.plk = s.plk) (h11 : Sub 2048 A ∨ t.host = s.host) (h12 : Sub 4096 A ∨ t.out = s.out) (h13 : Sub 8192 A ∨ t.free = s.free)
    (hout : s.out <:+ t.out) (hw : s.memOk → t.memOk) (hz : s.sized → t.sized) (ht : Sub 2097152 A ∨ s.devtime ≤ t.devtime) : Via A s0 t := by
  refine h.trans ⟨hp, ?_, ?_, ?_, ?_, ?_, ?_, ?_, ?_, ?_, ?_, ?_, ?_, ?_, ?_, ?_, ?_, ?_, ?_, ?_, ?_, ?_, hout, hw, hz, ?_⟩
  all_goals intro hb
  · exact h0.resolve_left fun x => by simp [x.bit (i := 0) (by decide)] at hb
  · exact h1.resolve_left fun x => by simp [x.bit (i := 1) (by decide)] at hb
  · exact h2.resolve_left fun x => by simp [x.bit (i := 2) (by decide)] at hb
  · exact h3.resolve_left fun x => by simp [x.bit (i := 3) (by decide)] at hb
  · exact h4.resolve_left fun x => by simp [x.bit (i := 4) (by decide)] at hb
  · exact h14.resolve_left fun x => by simp [x.bit (i := 14) (by decide)] at hb
  · exact h16.resolve_left fun x => by simp [x.bit (i := 16) (by decide)] at hb
  · exact h20.resolve_left fun x => by simp [x.bit (i := 20) (by decide)] at hb
  · exact h5.resolve_left fun x => by simp [x.bit (i := 5) (by decide)] at hb
  · exact h6.resolve_left fun x => by simp [x.bit (i := 6) (by decide)] at hb
  · exact h7.resolve_left fun x => by simp [x.bit (i := 7) (by decide)] at hb
  · exact h15.resolve_left fun x => by simp [x.bit (i := 15) (by decide)] at hb
  · exact h17.resolve_left fun x => by simp [x.bit (i := 17) (by decide)] at hb
  · exact h18.resolve_left fun x => by simp [x.bit (i := 18) (by decide)] at hb
  · exact h19.resolve_left fun x => by simp [x.bit (i := 19) (by decide)] at hb
  · exact h8.resolve_left fun x => by simp [x.bit (i := 8) (by decide)] at hb
  · exact h9.resolve_left fun x => by simp [x.bit (i := 9) (by decide)] at hb
  · exact h10.resolve_left fun x => by simp [x.bit (i := 10) (by decide)] at hb
  · exact h11.resolve_left fun x => by simp [x.bit (i := 11) (by decide)] at hb
  · exact h12.resolve_left fun x => by simp [x.bit (i := 12) (by decide)] at hb
  · exact h13.resolve_left fun x => by simp [x.bit (i := 13) (by decide)] at hb
  · exact ht.resolve_left fun x => by simp [x.bit (i := 21) (by decide)] at hb

theorem via_setReg (hA : Sub 1 A) (h : Via A s0 s) (a : Nat) (w : Word) : Via A s0 (s.setReg a w) :=
  h.step rfl (.inl hA) (.inr rfl) (.inr rfl) (.inr rfl) (.inr rfl) (.inr rfl) (.inr rfl) (.inr rfl) (.inr rfl) (.inr rfl) (.inr rfl) (.inr rfl) (.inr rfl) (.inr rfl) (.inr rfl) (.inr rfl) (.inr rfl) (.inr rfl) (.inr rfl) (.inr rfl) (.inr rfl)
    (List.suffix_refl _) (s.setReg_memOk a w) id (.inr (Nat.le_refl _))

theorem via_clearRegs (hA : Sub 1 A) (h : Via A s0 s) (p : Nat → Bool) : Via A s0 (s.clearRegs p) :=
  h.step rfl (.inl hA) (.inr rfl) (.inr rfl) (.inr rfl) (.inr rfl) (.inr rfl) (.inr rfl) (.inr rfl) (.inr rfl) (.inr rfl) (.inr rfl) (.inr rfl) (.inr rfl) (.inr rfl) (.inr rfl) (.inr rfl) (.inr rfl) (.inr rfl) (.inr rfl) (.inr rfl) (.inr rfl)
    (List.suffix_refl _) (s.clearRegs_memOk p) id (.inr (Nat.le_refl _))

theorem via_setDramByte (hA : Sub 2 A) (h : Via A s0 s) (a : Nat) (b : Byte) : Via A s0 (s.setDramByte a b) :=
  h.step rfl (.inr rfl) (.inl hA) (.inr rfl) (.inr rfl) (.inr rfl) (.inr rfl) (.inr rfl) (.inr rfl) (.inr rfl) (.inr rfl) (.inr rfl) (.inr rfl) (.inr rfl) (.inr rfl) (.inr rfl) (.inr rfl) (.inr rfl) (.inr rfl) (.inr rfl) (.inr rfl) (.inr rfl)
    (List.suffix_refl _) (s.setDramByte_memOk a b) id (.inr (Nat.le_refl _))

theorem via_putDram (hA : Sub 2 A) (h : Via A s0 s) (a : Nat) (l : List Byte) : Via A s0 (s.putDram a l) := by
  induction l generalizing s a with
  | nil => exact h
  | cons b l ih => exact ih (via_setDramByte hA h a b) (a + 1)

theorem via_atTime (hA : Sub 4 A) (h : Via A s0 s) (t : Nat) : Via A s0 (s.atTime t) :=
  h.step rfl (.inr rfl) (.inr rfl) (.inl hA) (.inr rfl) (.inr rfl) (.inr rfl) (.inr rfl) (.inr rfl) (.inr rfl) (.inr rfl) (.inr rfl) (.inr rfl) (.inr rfl) (.inr rfl) (.inr rfl) (.inr rfl) (.inr rfl) (.inr rfl) (.inr rfl) (.inr rfl) (.inr rfl)
    (List.suffix_refl _) id id (.inr (Nat.le_max_left _ _))

theorem via_emit (hA : Sub 4096 A) (h : Via A s0 s) (o : Out) : Via A s0 (s.emit o) :=
  h.step rfl (.inr rfl) (.inr rfl) (.inr rfl) (.inr rfl) (.inr rfl) (.inr rfl) (.inr rfl) (.inr rfl) (.inr rfl) (.inr rfl) (.inr rfl) (.inr rfl) (.inr rfl) (.inr rfl) (.inr rfl) (.inr rfl) (.inr rfl) (.inr rfl) (.inr rfl) (.inl hA) (.inr rfl)
    (List.suffix_cons _ _) id id (.inr (Nat.le_refl _))

theorem via_freshWord (hA : Sub 8192 A) (h : Via A s0 s) : Via A s0 (s.freshWord.2) :=
  h.step rfl (.inr rfl) (.inr rfl) (.inr rfl) (.inr rfl) (.inr rfl) (.inr rfl) (.inr rfl) (.inr rfl) (.inr rfl) (.inr rfl) (.inr rfl) (.inr rfl) (.inr rfl) (.inr rfl) (.inr rfl) (.inr rfl) (.inr rfl) (.inr rfl) (.inr rfl) (.inr rfl) (.inl hA)
    (List.suffix_refl _) id id (.inr (Nat.le_refl _))

/-- A change of `aux`, with the parts of it that stay. -/

theorem via_modAux (hA : Sub 8 A) (f : Aux → Aux) (hq : Sub 16 A ∨ ∀ a, (f a).power = a.power) (hw : Sub 16384 A ∨ ∀ a, (f a).waits = a.waits) (hp : Sub 65536 A ∨ ∀ a, (f a).pads = a.pads)
    (hl : Sub 1048576 A ∨ ∀ a, (f a).log = a.log) (hz : ∀ a : Aux, a.sized → (f a).sized) (h : Via A s0 s) : Via A s0 (s.modAux f) :=
  h.step rfl (.inr rfl) (.inr rfl) (.inr rfl) (.inl hA) (hq.imp_right fun e => e _) (hw.imp_right fun e => e _) (hp.imp_right fun e => e _) (hl.imp_right fun e => e _) (.inr rfl) (.inr rfl) (.inr rfl) (.inr rfl) (.inr rfl) (.inr rfl) (.inr rfl) (.inr rfl) (.inr rfl) (.inr rfl) (.inr rfl) (.inr rfl) (.inr rfl)
    (List.suffix_refl _) id (fun g => ⟨hz _ g.1, g.2⟩) (.inr (Nat.le_refl _))

theorem via_modHsk (hA : Sub 32 A) (h : Via A s0 s) (f : Hsk → Hsk) : Via A s0 (s.modHsk f) :=
  h.step rfl (.inr rfl) (.inr rfl) (.inr rfl) (.inr rfl) (.inr rfl) (.inr rfl) (.inr rfl) (.inr rfl) (.inl hA) (.inr rfl) (.inr rfl) (.inr rfl) (.inr rfl) (.inr rfl) (.inr rfl) (.inr rfl) (.inr rfl) (.inr rfl) (.inr rfl) (.inr rfl) (.inr rfl)
    (List.suffix_refl _) id id (.inr (Nat.le_refl _))

theorem via_modMem (hA : Sub 64 A) (f : Mem → Mem) (hz : ∀ a : Mem, a.sized → (f a).sized) (h : Via A s0 s) : Via A s0 (s.modMem f) :=
  h.step rfl (.inr rfl) (.inr rfl) (.inr rfl) (.inr rfl) (.inr rfl) (.inr rfl) (.inr rfl) (.inr rfl) (.inr rfl) (.inl hA) (.inr rfl) (.inr rfl) (.inr rfl) (.inr rfl) (.inr rfl) (.inr rfl) (.inr rfl) (.inr rfl) (.inr rfl) (.inr rfl) (.inr rfl)
    (List.suffix_refl _) id (fun g => ⟨g.1, hz _ g.2.1, g.2.2⟩) (.inr (Nat.le_refl _))

/-- A change of `pix`, with the parts of it that stay. -/

theorem via_modPix (hA : Sub 128 A) (f : Pix → Pix) (hq : Sub 32768 A ∨ ∀ a, (f a).fabric = a.fabric) (hi : Sub 131072 A ∨ ∀ a, (f a).img = a.img) (hj : Sub 262144 A ∨ ∀ a, (f a).jobState = a.jobState)
    (hk : Sub 524288 A ∨ ∀ a, (f a).slots = a.slots) (hz : ∀ a : Pix, a.sized → (f a).sized) (h : Via A s0 s) : Via A s0 (s.modPix f) :=
  h.step rfl (.inr rfl) (.inr rfl) (.inr rfl) (.inr rfl) (.inr rfl) (.inr rfl) (.inr rfl) (.inr rfl) (.inr rfl) (.inr rfl) (.inl hA) (hq.imp_right fun e => e _) (hi.imp_right fun e => e _) (hj.imp_right fun e => e _) (hk.imp_right fun e => e _) (.inr rfl) (.inr rfl) (.inr rfl) (.inr rfl) (.inr rfl) (.inr rfl)
    (List.suffix_refl _) id (fun g => ⟨g.1, g.2.1, hz _ g.2.2.1, g.2.2.2⟩) (.inr (Nat.le_refl _))

theorem via_modFire (hA : Sub 256 A) (f : Fire → Fire) (hz : ∀ a : Fire, a.sized → (f a).sized) (h : Via A s0 s) : Via A s0 (s.modFire f) :=
  h.step rfl (.inr rfl) (.inr rfl) (.inr rfl) (.inr rfl) (.inr rfl) (.inr rfl) (.inr rfl) (.inr rfl) (.inr rfl) (.inr rfl) (.inr rfl) (.inr rfl) (.inr rfl) (.inr rfl) (.inr rfl) (.inl hA) (.inr rfl) (.inr rfl) (.inr rfl) (.inr rfl) (.inr rfl)
    (List.suffix_refl _) id (fun g => ⟨g.1, g.2.1, g.2.2.1, hz _ g.2.2.2.1, g.2.2.2.2⟩) (.inr (Nat.le_refl _))

theorem via_modZl (hA : Sub 512 A) (f : Zl → Zl) (hz : ∀ a : Zl, a.sized → (f a).sized) (h : Via A s0 s) : Via A s0 (s.modZl f) :=
  h.step rfl (.inr rfl) (.inr rfl) (.inr rfl) (.inr rfl) (.inr rfl) (.inr rfl) (.inr rfl) (.inr rfl) (.inr rfl) (.inr rfl) (.inr rfl) (.inr rfl) (.inr rfl) (.inr rfl) (.inr rfl) (.inr rfl) (.inl hA) (.inr rfl) (.inr rfl) (.inr rfl) (.inr rfl)
    (List.suffix_refl _) id (fun g => ⟨g.1, g.2.1, g.2.2.1, g.2.2.2.1, hz _ g.2.2.2.2.1, g.2.2.2.2.2⟩) (.inr (Nat.le_refl _))

theorem via_modPlk (hA : Sub 1024 A) (h : Via A s0 s) (f : Plk → Plk) : Via A s0 (s.modPlk f) :=
  h.step rfl (.inr rfl) (.inr rfl) (.inr rfl) (.inr rfl) (.inr rfl) (.inr rfl) (.inr rfl) (.inr rfl) (.inr rfl) (.inr rfl) (.inr rfl) (.inr rfl) (.inr rfl) (.inr rfl) (.inr rfl) (.inr rfl) (.inr rfl) (.inl hA) (.inr rfl) (.inr rfl) (.inr rfl)
    (List.suffix_refl _) id id (.inr (Nat.le_refl _))

theorem via_modHost (hA : Sub 2048 A) (f : HostIf → HostIf) (hz : ∀ a : HostIf, a.sized → (f a).sized) (h : Via A s0 s) : Via A s0 (s.modHost f) :=
  h.step rfl (.inr rfl) (.inr rfl) (.inr rfl) (.inr rfl) (.inr rfl) (.inr rfl) (.inr rfl) (.inr rfl) (.inr rfl) (.inr rfl) (.inr rfl) (.inr rfl) (.inr rfl) (.inr rfl) (.inr rfl) (.inr rfl) (.inr rfl) (.inr rfl) (.inl hA) (.inr rfl) (.inr rfl)
    (List.suffix_refl _) id (fun g => ⟨g.1, g.2.1, g.2.2.1, g.2.2.2.1, g.2.2.2.2.1, hz _ g.2.2.2.2.2⟩) (.inr (Nat.le_refl _))

end

/-- A command completes: it answers a next state, which comes from `s` by steps that touch only the parts in `A`. -/
def Runs (A : Nat) (s : State) (o : Host.Outcome State Fault Refusal) : Prop := ∃ t, o = .next t ∧ Via A s t

/-! ### How the pieces of a function are put together -/

section
variable {A : Nat} {s0 : State} {α : Type}

theorem via_ite {c : Prop} [Decidable c] {a b : State} (h1 : Via A s0 a) (h2 : Via A s0 b) : Via A s0 (if c then a else b) := by
  split
  · exact h1
  · exact h2

theorem via_mk_fst {a : State} {b : α} (h : Via A s0 a) : Via A s0 (a, b).1 := h

theorem via_mk_snd {a : α} {b : State} (h : Via A s0 b) : Via A s0 (a, b).2 := h

theorem via_ite_fst {c : Prop} [Decidable c] {a b : State × α} (h1 : Via A s0 a.1) (h2 : Via A s0 b.1) : Via A s0 (if c then a else b).1 := by
  split
  · exact h1
  · exact h2

theorem via_ite_snd {c : Prop} [Decidable c] {a b : α × State} (h1 : Via A s0 a.2) (h2 : Via A s0 b.2) : Via A s0 (if c then a else b).2 := by
  split
  · exact h1
  · exact h2

theorem via_foldS {f : α → State → State} {s : State} (hf : ∀ a x, Via A s0 x → Via A s0 (f a x)) (h : Via A s0 s) :
    ∀ l : List α, Via A s0 (foldS l f s) := by
  intro l
  unfold foldS
  induction l generalizing s with
  | nil => exact h
  | cons a l ih => exact ih (hf a s h)

theorem via_foldl {f : State → α → State} {s : State} (hf : ∀ x a, Via A s0 x → Via A s0 (f x a)) (h : Via A s0 s) :
    ∀ l : List α, Via A s0 (l.foldl f s) := by
  intro l
  induction l generalizing s with
  | nil => exact h
  | cons a l ih => exact ih (hf s a h)

theorem via_foldl_snd {β : Type} {f : β × State → α → β × State} {b : β × State} (hf : ∀ x a, Via A s0 x.2 → Via A s0 (f x a).2) (h : Via A s0 b.2) :
    ∀ l : List α, Via A s0 (l.foldl f b).2 := by
  intro l
  induction l generalizing b with
  | nil => exact h
  | cons a l ih => exact ih (hf b a h)

theorem via_foldl_fst {β : Type} {f : State × β → α → State × β} {b : State × β} (hf : ∀ x a, Via A s0 x.1 → Via A s0 (f x a).1) (h : Via A s0 b.1) :
    ∀ l : List α, Via A s0 (l.foldl f b).1 := by
  intro l
  induction l generalizing b with
  | nil => exact h
  | cons a l ih => exact ih (hf b a h)

end

end Sys2Proof.Machine
end

