-- ==== Sys2Proof/Laws/TouchBase.lean ====
section
/-!
SUPPORT. Sys2Proof/Laws/TouchBase.lean: what the functions for reporting, rings, arbiters, carats and pads touch: one lemma per function, with the mask of the parts of the state that it can change (Laws/Via.lean).
-/
namespace Sys2Proof.Machine

open Sys2Proof

set_option linter.all false

/-! ### Ops -/

theorem via_put {A : Nat} {s0 : State} (hA : Sub 1 A) {s : State} (h : Via A s0 s) (a1 : Fld) (a2 : Nat) : Via A s0 (State.put s a1 a2) := by
  unfold State.put
  exact (via_setReg (hA.of rfl) h _ _)

theorem via_satAdd {A : Nat} {s0 : State} (hA : Sub 1 A) {s : State} (h : Via A s0 s) (a1 : Fld) (a2 : Nat) : Via A s0 (State.satAdd s a1 a2) := by
  unfold State.satAdd
  exact (via_put (hA.of rfl) h _ _)

theorem via_wrapAdd {A : Nat} {s0 : State} (hA : Sub 1 A) {s : State} (h : Via A s0 s) (a1 : Fld) (a2 : Nat) : Via A s0 (State.wrapAdd s a1 a2) := by
  unfold State.wrapAdd
  exact (via_put (hA.of rfl) h _ _)

theorem via_peak {A : Nat} {s0 : State} (hA : Sub 1 A) {s : State} (h : Via A s0 s) (a1 : Fld) (a2 : Nat) : Via A s0 (State.peak s a1 a2) := by
  unfold State.peak
  exact (via_put (hA.of rfl) h _ _)

theorem via_setBit {A : Nat} {s0 : State} (hA : Sub 1 A) {s : State} (h : Via A s0 s) (a1 : Nat) (a2 : Nat) (a3 : Bool) : Via A s0 (State.setBit s a1 a2 a3) := by
  unfold State.setBit
  exact (via_put (hA.of rfl) h _ _)

theorem via_put64 {A : Nat} {s0 : State} (hA : Sub 1 A) {s : State} (h : Via A s0 s) (a1 : Nat) (a2 : Nat) : Via A s0 (State.put64 s a1 a2) := by
  unfold State.put64
  exact (via_setReg (hA.of rfl) (via_setReg (hA.of rfl) h _ _) _ _)

theorem via_putInt64 {A : Nat} {s0 : State} (hA : Sub 1 A) {s : State} (h : Via A s0 s) (a1 : Nat) (a2 : Int) : Via A s0 (State.putInt64 s a1 a2) := by
  unfold State.putInt64
  exact (via_put64 (hA.of rfl) h _ _)

theorem via_initLeft {A : Nat} {s0 : State} (hA : Sub 1 A) {s : State} (h : Via A s0 s) : Via A s0 (State.initLeft s) := by
  unfold State.initLeft
  exact (via_put (hA.of rfl) h _ _)

theorem via_touchDram {A : Nat} {s0 : State} (hA : Sub 1089 A) {s : State} (h : Via A s0 s) (a1 : Nat) (a2 : Nat) : Via A s0 (State.touchDram s a1 a2) := by
  unfold State.touchDram
  extract_lets x0 x1 x2 x3
  try clear_value x0
  try clear_value x1
  have hx2 : Via A s0 x2 := by
    unfold x2
    refine via_modMem (hA.of rfl) _ (fun _ h => by first | simpa [Mem.sized] using h | simp_all [Mem.sized]) ?_
    exact h
  try clear_value x2
  have hx3 : Via A s0 x3 := by
    exact (via_modPlk (hA.of rfl) hx2 _)
  try clear_value x3
  refine via_ite ?_ ?_
  · exact h
  · exact (via_initLeft (hA.of rfl) hx3)

theorem via_setDram {A : Nat} {s0 : State} (hA : Sub 1091 A) {s : State} (h : Via A s0 s) (a1 : Nat) (a2 : List Sys2Proof.Byte) : Via A s0 (State.setDram s a1 a2) := by
  unfold State.setDram
  exact (via_putDram (hA.of rfl) (via_touchDram (hA.of rfl) h _ _) _ _)

/-! ### Rings -/

theorem via_hostWrite {A : Nat} {s0 : State} (hA : Sub 4096 A) {s : State} (h : Via A s0 s) (a1 : Nat) (a2 : List Sys2Proof.Byte) : Via A s0 (State.hostWrite s a1 a2) := by
  unfold State.hostWrite
  exact (via_emit (hA.of rfl) h _)

theorem via_modRt {A : Nat} {s0 : State} (hA : Sub 2048 A) {s : State} (h : Via A s0 s) (a1 : Nat) (a2 : RingRt → RingRt) : Via A s0 (State.modRt s a1 a2) := by
  unfold State.modRt
  refine via_modHost (hA.of rfl) _ (fun _ h => by first | simpa [HostIf.sized] using h | simp_all [HostIf.sized]) ?_
  exact h

theorem via_sendMsix {A : Nat} {s0 : State} (hA : Sub 4097 A) {s : State} (h : Via A s0 s) (a1 : Nat) : Via A s0 (State.sendMsix s a1) := by
  unfold State.sendMsix
  refine via_ite ?_ ?_
  · exact (via_emit (hA.of rfl) h _)
  · refine via_ite ?_ ?_
    · exact (via_put (hA.of rfl) h _ _)
    · exact h

theorem via_flushMsix {A : Nat} {s0 : State} (hA : Sub 4097 A) {s : State} (h : Via A s0 s) : Via A s0 (State.flushMsix s) := by
  unfold State.flushMsix
  refine via_foldS ?_ ?_ _
  · intro a0 x1 hx1
    refine via_ite ?_ ?_
    · exact (via_sendMsix (hA.of rfl) (via_put (hA.of rfl) hx1 _ _) _)
    · exact hx1
  · exact h

theorem via_ringItem {A : Nat} {s0 : State} (hA : Sub 6145 A) {s : State} (h : Via A s0 s) (a1 : Nat) : Via A s0 (State.ringItem s a1) := by
  unfold State.ringItem
  extract_lets x0
  try clear_value x0
  refine via_ite ?_ ?_
  · refine via_ite ?_ ?_
    · exact (via_sendMsix (hA.of rfl) (via_modRt (hA.of rfl) h _ _) _)
    · exact (via_modRt (hA.of rfl) h _ _)
  · exact h

theorem via_statusWrite {A : Nat} {s0 : State} (hA : Sub 6144 A) {s : State} (h : Via A s0 s) (a1 : Nat) : Via A s0 (State.statusWrite s a1) := by
  unfold State.statusWrite
  refine via_ite ?_ ?_
  · exact h
  · refine via_ite ?_ ?_
    · exact (via_modRt (hA.of rfl) h _ _)
    · exact (via_hostWrite (hA.of rfl) (via_modRt (hA.of rfl) h _ _) _ _)

theorem via_ringFullFlag {A : Nat} {s0 : State} (hA : Sub 1 A) {s : State} (h : Via A s0 s) (a1 : Nat) : Via A s0 (State.ringFullFlag s a1) := by
  unfold State.ringFullFlag
  exact (via_put (hA.of rfl) h _ _)

theorem via_ringWriteEntry {A : Nat} {s0 : State} (hA : Sub 6145 A) {s : State} (h : Via A s0 s) (a1 : Nat) (a2 : List Sys2Proof.Byte) : Via A s0 (State.ringWriteEntry s a1 a2) := by
  unfold State.ringWriteEntry
  extract_lets x0 x1
  have hx0 : Via A s0 x0 := by
    exact (via_hostWrite (hA.of rfl) h _ _)
  try clear_value x0
  have hx1 : Via A s0 x1 := by
    exact (via_setReg (hA.of rfl) hx0 _ _)
  try clear_value x1
  exact (via_ringItem (hA.of rfl) (via_statusWrite (hA.of rfl) (via_ringFullFlag (hA.of rfl) hx1 _) _) _)

theorem via_ringPut {A : Nat} {s0 : State} (hA : Sub 6145 A) {s : State} (h : Via A s0 s) (a1 : Nat) (a2 : List Sys2Proof.Byte) : Via A s0 (State.ringPut s a1 a2).1 := by
  unfold State.ringPut
  refine via_ite_fst ?_ ?_
  · refine via_mk_fst ?_
    exact h
  · refine via_ite_fst ?_ ?_
    · refine via_mk_fst ?_
      exact (via_ringWriteEntry (hA.of rfl) h _ _)
    · refine via_ite_fst ?_ ?_
      · refine via_mk_fst ?_
        exact (via_modRt (hA.of rfl) h _ _)
      · refine via_mk_fst ?_
        exact (via_statusWrite (hA.of rfl) (via_satAdd (hA.of rfl) h _ _) _)

theorem via_ringFlush {A : Nat} {s0 : State} (hA : Sub 6145 A) {s : State} (h : Via A s0 s) (a0 : Nat) (a2 : Nat) : Via A s0 (State.ringFlush a0 s a2) := by
  induction a0 generalizing s a2 with
  | zero =>
    unfold Sys2Proof.Machine.State.ringFlush
    exact h
  | succ k ih =>
    unfold Sys2Proof.Machine.State.ringFlush
    split
    · exact h
    · refine via_ite ?_ ?_
      · refine ih ?_ _
        exact (via_ringWriteEntry (hA.of rfl) (via_modRt (hA.of rfl) h _ _) _ _)
      · exact h

theorem via_ringFinish {A : Nat} {s0 : State} (hA : Sub 6145 A) {s : State} (h : Via A s0 s) (a1 : Nat) : Via A s0 (State.ringFinish s a1) := by
  unfold State.ringFinish
  refine via_ite ?_ ?_
  · exact (via_statusWrite (hA.of rfl) (via_put (hA.of rfl) (via_modRt (hA.of rfl) h _ _) _ _) _)
  · exact h

theorem via_ringComplete {A : Nat} {s0 : State} (hA : Sub 6145 A) {s : State} (h : Via A s0 s) (a0 : Nat) (a2 : Nat) : Via A s0 (State.ringComplete a0 s a2) := by
  induction a0 generalizing s a2 with
  | zero =>
    unfold Sys2Proof.Machine.State.ringComplete
    exact (via_ringFinish (hA.of rfl) h _)
  | succ k ih =>
    unfold Sys2Proof.Machine.State.ringComplete
    split
    · exact (via_ringFinish (hA.of rfl) h _)
    · split
      · exact h
      · extract_lets x0 x1 x2
        have hx0 : Via A s0 x0 := by
          exact (via_hostWrite (hA.of rfl) h _ _)
        try clear_value x0
        have hx1 : Via A s0 x1 := by
          exact (via_modRt (hA.of rfl) hx0 _ _)
        try clear_value x1
        have hx2 : Via A s0 x2 := by
          exact (via_setReg (hA.of rfl) hx1 _ _)
        try clear_value x2
        refine via_ite ?_ ?_
        · refine ih ?_ _
          exact (via_ringItem (hA.of rfl) (via_statusWrite (hA.of rfl) hx2 _) _)
        · exact h

theorem via_descDone {A : Nat} {s0 : State} (hA : Sub 6145 A) {s : State} (h : Via A s0 s) (a1 : Nat) (a2 : Nat) (a3 : List Sys2Proof.Byte) : Via A s0 (State.descDone s a1 a2 a3) := by
  unfold State.descDone
  exact (via_ringComplete (hA.of rfl) (via_modRt (hA.of rfl) h _ _) _ _)

theorem via_takeDesc {A : Nat} {s0 : State} (hA : Sub 2048 A) {s : State} (h : Via A s0 s) (a1 : Nat) (a2 : Nat) : Via A s0 (State.takeDesc s a1 a2) := by
  unfold State.takeDesc
  exact (via_modRt (hA.of rfl) h _ _)

theorem via_ringErr {A : Nat} {s0 : State} (hA : Sub 6145 A) {s : State} (h : Via A s0 s) (a1 : Nat) (a2 : Nat) : Via A s0 (State.ringErr s a1 a2) := by
  unfold State.ringErr
  exact (via_statusWrite (hA.of rfl) (via_put (hA.of rfl) (via_put (hA.of rfl) (via_put (hA.of rfl) h _ _) _ _) _ _) _)

theorem via_dmaResume {A : Nat} {s0 : State} (hA : Sub 6145 A) {s : State} (h : Via A s0 s) : Via A s0 (State.dmaResume s) := by
  unfold State.dmaResume
  refine via_flushMsix (hA.of rfl) ?_
  refine via_foldS ?_ ?_ _
  · intro a0 x1 hx1
    extract_lets x2
    have hx2 : Via A s0 x2 := by
      exact (via_ringFlush (hA.of rfl) (via_ringComplete (hA.of rfl) hx1 _ _) _ _)
    try clear_value x2
    refine via_ite ?_ ?_
    · exact (via_statusWrite (hA.of rfl) hx2 _)
    · exact hx2
  · exact h

/-! ### Flags -/

theorem via_sendPair {A : Nat} {s0 : State} (hA : Sub 5120 A) {s : State} (h : Via A s0 s) (a1 : PairMsg) : Via A s0 (State.sendPair s a1) := by
  unfold State.sendPair
  extract_lets x0
  have hx0 : Via A s0 x0 := by
    exact (via_emit (hA.of rfl) h _)
  try clear_value x0
  refine via_ite ?_ ?_
  · split
    · exact hx0
    · exact (via_modPlk (hA.of rfl) hx0 _)
  · exact h

theorem via_evtFlags {A : Nat} {s0 : State} (hA : Sub 1 A) {s : State} (h : Via A s0 s) (a1 : Nat) (a2 : Nat) : Via A s0 (State.evtFlags s a1 a2) := by
  unfold State.evtFlags
  extract_lets x0
  have hx0 : Via A s0 x0 := by
    exact (via_setBit (hA.of rfl) h _ _ _)
  try clear_value x0
  refine via_ite ?_ ?_
  · exact (via_setBit (hA.of rfl) hx0 _ _ _)
  · exact hx0

theorem via_evqCount {A : Nat} {s0 : State} (hA : Sub 1 A) {s : State} (h : Via A s0 s) : Via A s0 (State.evqCount s) := by
  unfold State.evqCount
  exact (via_put (hA.of rfl) h _ _)

theorem via_evqPut {A : Nat} {s0 : State} (hA : Sub 9 A) {s : State} (h : Via A s0 s) (a1 : Rec) : Via A s0 (State.evqPut s a1).1 := by
  unfold State.evqPut
  refine via_ite_fst ?_ ?_
  · refine via_mk_fst ?_
    refine via_evqCount (hA.of rfl) ?_
    refine via_modAux (hA.of rfl) _ (.inr fun _ => by unfold Aux.power; rfl) (.inr fun _ => by unfold Aux.waits; rfl) (.inr fun _ => rfl) (.inr fun _ => rfl) (fun _ h => by first | simpa [Aux.sized] using h | simp_all [Aux.sized]) ?_
    exact h
  · refine via_mk_fst ?_
    refine via_modAux (hA.of rfl) _ (.inr fun _ => by unfold Aux.power; rfl) (.inr fun _ => by unfold Aux.waits; rfl) (.inr fun _ => rfl) (.inr fun _ => rfl) (fun _ h => by first | simpa [Aux.sized] using h | simp_all [Aux.sized]) ?_
    exact (via_satAdd (hA.of rfl) h _ _)

theorem via_aggPut {A : Nat} {s0 : State} (hA : Sub 129 A) {s : State} (h : Via A s0 s) (a1 : Rec) (a2 : Nat) : Via A s0 (State.aggPut s a1 a2).1 := by
  unfold State.aggPut
  extract_lets x0 x1
  try clear_value x0
  have hx1 : Via A s0 x1 := by
    exact (via_wrapAdd (hA.of rfl) h _ _)
  try clear_value x1
  refine via_ite_fst ?_ ?_
  · refine via_mk_fst ?_
    refine via_modPix (hA.of rfl) _ (.inr fun _ => rfl) (.inr fun _ => rfl) (.inr fun _ => by unfold Pix.jobState; rfl) (.inr fun _ => rfl) (fun _ h => by first | simpa [Pix.sized, Img.sized] using h | simp_all [Pix.sized, Img.sized]) ?_
    exact hx1
  · refine via_mk_fst ?_
    refine via_modPix (hA.of rfl) _ (.inr fun _ => rfl) (.inr fun _ => rfl) (.inr fun _ => by unfold Pix.jobState; rfl) (.inr fun _ => rfl) (fun _ h => by first | simpa [Pix.sized, Img.sized] using h | simp_all [Pix.sized, Img.sized]) ?_
    exact (via_satAdd (hA.of rfl) hx1 _ _)

theorem via_pairPut {A : Nat} {s0 : State} (hA : Sub 5249 A) {s : State} (h : Via A s0 s) (a1 : Rec) : Via A s0 (State.pairPut s a1).1 := by
  unfold State.pairPut
  refine via_ite_fst ?_ ?_
  · refine via_mk_fst ?_
    exact (via_sendPair (hA.of rfl) h _)
  · refine via_mk_fst ?_
    refine via_modPix (hA.of rfl) _ (.inr fun _ => rfl) (.inr fun _ => rfl) (.inr fun _ => by unfold Pix.jobState; rfl) (.inr fun _ => rfl) (fun _ h => by first | simpa [Pix.sized, Img.sized] using h | simp_all [Pix.sized, Img.sized]) ?_
    exact (via_satAdd (hA.of rfl) h _ _)

theorem via_routeRec {A : Nat} {s0 : State} (hA : Sub 5257 A) {s : State} (h : Via A s0 s) (a0 : Nat) (a2 : Nat) (a3 : Rec) : Via A s0 (State.routeRec a0 s a2 a3) := by
  induction a0 generalizing s a2 a3 with
  | zero =>
    unfold Sys2Proof.Machine.State.routeRec
    exact h
  | succ k ih =>
    unfold Sys2Proof.Machine.State.routeRec
    extract_lets x0 x1 x2 x3 x4 x5
    have hx0 : ∀ b0 b1 b2, Via A s0 b0 → Via A s0 (x0 b0 b1 b2) := by
      intro b0 b1 b2 hb6
      unfold x0
      extract_lets x7 x8
      try clear_value x7
      have hx8 : Via A s0 x8 := by
        exact (via_evtFlags (hA.of rfl) hb6 _ _)
      try clear_value x8
      refine via_ite ?_ ?_
      · refine ih ?_ _ _
        exact hx8
      · exact hx8
    try clear_value x0
    have hx1 : Via A s0 x1.1 := by
      exact (via_evqPut (hA.of rfl) h _)
    try clear_value x1
    have hx2 : Via A s0 x2 := by
      unfold x2
      refine via_ite ?_ ?_
      · refine via_ite ?_ ?_
        · exact (hx0 _ _ _ hx1)
        · exact hx1
      · exact h
    try clear_value x2
    have hx3 : Via A s0 x3.1 := by
      exact (via_aggPut (hA.of rfl) hx2 _ _)
    try clear_value x3
    have hx4 : Via A s0 x4 := by
      unfold x4
      refine via_ite ?_ ?_
      · refine via_ite ?_ ?_
        · exact (hx0 _ _ _ hx3)
        · exact hx3
      · exact hx2
    try clear_value x4
    have hx5 : Via A s0 x5.1 := by
      exact (via_pairPut (hA.of rfl) hx4 _)
    try clear_value x5
    refine via_ite ?_ ?_
    · refine via_ite ?_ ?_
      · exact (hx0 _ _ _ hx5)
      · exact hx5
    · exact hx4

theorem via_occur {A : Nat} {s0 : State} (hA : Sub 5257 A) {s : State} (h : Via A s0 s) (a1 : Evt) : Via A s0 (State.occur s a1) := by
  unfold State.occur
  extract_lets x0
  have hx0 : Via A s0 x0 := by
    exact (via_evtFlags (hA.of rfl) h _ _)
  try clear_value x0
  refine via_ite ?_ ?_
  · refine via_ite ?_ ?_
    · exact (via_routeRec (hA.of rfl) hx0 _ _ _)
    · exact hx0
  · exact h

theorem via_deliver {A : Nat} {s0 : State} (hA : Sub 7305 A) {s : State} (h : Via A s0 s) : Via A s0 (State.deliver s) := by
  unfold State.deliver
  extract_lets x0
  try clear_value x0
  refine via_foldS ?_ ?_ _
  · intro a1 x2 hx2
    extract_lets x3 x4
    try clear_value x3
    have hx4 : Via A s0 x4.1 := by
      exact (via_ringPut (hA.of rfl) hx2 _ _)
    try clear_value x4
    refine via_ite ?_ ?_
    · exact (via_occur (hA.of rfl) hx4 _)
    · exact hx4
  · refine via_modPix (hA.of rfl) _ (.inr fun _ => rfl) (.inr fun _ => rfl) (.inr fun _ => by unfold Pix.jobState; rfl) (.inr fun _ => rfl) (fun _ h => by first | simpa [Pix.sized, Img.sized] using h | simp_all [Pix.sized, Img.sized]) ?_
    exact h

theorem via_raise {A : Nat} {s0 : State} (hA : Sub 7305 A) {s : State} (h : Via A s0 s) (a1 : Evt) : Via A s0 (State.raise s a1) := by
  unfold State.raise
  exact (via_deliver (hA.of rfl) (via_occur (hA.of rfl) h _))

theorem via_putRecord {A : Nat} {s0 : State} (hA : Sub 7305 A) {s : State} (h : Via A s0 s) (a1 : Nat) (a2 : List Sys2Proof.Byte) : Via A s0 (State.putRecord s a1 a2) := by
  unfold State.putRecord
  extract_lets x0
  have hx0 : Via A s0 x0.1 := by
    exact (via_ringPut (hA.of rfl) h _ _)
  try clear_value x0
  refine via_ite ?_ ?_
  · exact (via_raise (hA.of rfl) hx0 _)
  · exact hx0

theorem via_ringStop {A : Nat} {s0 : State} (hA : Sub 7305 A) {s : State} (h : Via A s0 s) (a1 : Nat) (a2 : Nat) : Via A s0 (State.ringStop s a1 a2) := by
  unfold State.ringStop
  exact (via_raise (hA.of rfl) (via_ringErr (hA.of rfl) h _ _) _)

theorem via_errCode {A : Nat} {s0 : State} (hA : Sub 7305 A) {s : State} (h : Via A s0 s) (a1 : Nat) (a2 : Nat) (a3 : Sys2Proof.Master) (a4 : Nat) : Via A s0 (State.errCode s a1 a2 a3 a4) := by
  unfold State.errCode
  extract_lets x0
  try clear_value x0
  exact (via_raise (hA.of rfl) (via_setReg (hA.of rfl) h _ _) _)

theorem via_refuse {A : Nat} {s0 : State} (hA : Sub 7305 A) {s : State} (h : Via A s0 s) (a1 : Nat) (a2 : Sys2Proof.Master) (a3 : Nat) : Via A s0 (State.refuse s a1 a2 a3) := by
  unfold State.refuse
  extract_lets x0
  try clear_value x0
  refine via_ite ?_ ?_
  · exact (via_errCode (hA.of rfl) h _ _ _ _)
  · exact (via_errCode (hA.of rfl) h _ _ _ _)

theorem via_logRec {A : Nat} {s0 : State} (hA : Sub 1055881 A) {s : State} (h : Via A s0 s) (a1 : Nat) (a2 : Nat) (a3 : Nat) (a4 : List Sys2Proof.Byte) : Via A s0 (State.logRec s a1 a2 a3 a4) := by
  unfold State.logRec
  extract_lets x0 x1
  try clear_value x0
  have hx1 : Via A s0 x1 := by
    unfold x1
    refine via_modAux (hA.of rfl) _ (.inr fun _ => by unfold Aux.power; rfl) (.inr fun _ => by unfold Aux.waits; rfl) (.inr fun _ => rfl) (.inl (hA.of rfl)) (fun _ h => by first | simpa [Aux.sized] using h | simp_all [Aux.sized]) ?_
    exact h
  try clear_value x1
  exact (via_putRecord (hA.of rfl) (via_wrapAdd (hA.of rfl) hx1 _ _) _ _)

theorem via_mirror {A : Nat} {s0 : State} (hA : Sub 4097 A) {s : State} (h : Via A s0 s) : Via A s0 (State.mirror s) := by
  unfold State.mirror
  extract_lets x0
  have hx0 : Via A s0 x0 := by
    unfold x0
    refine via_ite ?_ ?_
    · exact (via_put (hA.of rfl) (via_put (hA.of rfl) h _ _) _ _)
    · exact h
  try clear_value x0
  refine via_ite ?_ ?_
  · refine via_ite ?_ ?_
    · exact hx0
    · exact (via_sendMsix (hA.of rfl) (via_setReg (hA.of rfl) hx0 _ _) _)
  · exact hx0

theorem via_putDev {A : Nat} {s0 : State} (hA : Sub 4097 A) {s : State} (h : Via A s0 s) (a1 : DevState) : Via A s0 (State.putDev s a1) := by
  unfold State.putDev
  exact (via_mirror (hA.of rfl) (via_put (hA.of rfl) h _ _))

theorem via_pageFault {A : Nat} {s0 : State} (hA : Sub 7305 A) {s : State} (h : Via A s0 s) (a1 : Nat) : Via A s0 (State.pageFault s a1) := by
  unfold State.pageFault
  exact (via_raise (hA.of rfl) (via_put (hA.of rfl) h _ _) _)

/-! ### Arbiter -/

theorem via_setArb {A : Nat} {s0 : State} (hA : Sub 32961 A) {s : State} (h : Via A s0 s) (a1 : Nat) (a2 : ArbInst) : Via A s0 (State.setArb s a1 a2) := by
  unfold State.setArb
  extract_lets x0
  have hx0 : Via A s0 x0 := by
    unfold x0
    refine via_ite ?_ ?_
    · refine via_modMem (hA.of rfl) _ (fun _ h => by first | simpa [Mem.sized] using h | simp_all [Mem.sized]) ?_
      exact h
    · refine via_ite ?_ ?_
      · refine via_modPix (hA.of rfl) _ (.inl (hA.of rfl)) (.inr fun _ => rfl) (.inr fun _ => by unfold Pix.jobState; rfl) (.inr fun _ => rfl) (fun _ h => by first | simpa [Pix.sized, Img.sized] using h | simp_all [Pix.sized, Img.sized]) ?_
        exact h
      · refine via_modPix (hA.of rfl) _ (.inr fun _ => rfl) (.inr fun _ => rfl) (.inr fun _ => by unfold Pix.jobState; rfl) (.inr fun _ => rfl) (fun _ h => by first | simpa [Pix.sized, Img.sized] using h | simp_all [Pix.sized, Img.sized]) ?_
        exact h
  try clear_value x0
  exact (via_put (hA.of rfl) hx0 _ _)

theorem via_panicRewrite {A : Nat} {s0 : State} (hA : Sub 32961 A) {s : State} (h : Via A s0 s) (a1 : Nat) (a2 : Nat) : Via A s0 (State.panicRewrite s a1 a2) := by
  unfold State.panicRewrite
  extract_lets x0
  try clear_value x0
  exact (via_setArb (hA.of rfl) h _ _)

theorem via_arbRaise {A : Nat} {s0 : State} (hA : Sub 32961 A) {s : State} (h : Via A s0 s) (a1 : Nat) (a2 : Nat) (a3 : Nat) (a4 : Bool) (a5 : Work) : Via A s0 (State.arbRaise s a1 a2 a3 a4 a5) := by
  unfold State.arbRaise
  extract_lets x0 x1
  have hx0 : Via A s0 x0 := by
    unfold x0
    refine via_ite ?_ ?_
    · exact (via_panicRewrite (hA.of rfl) h _ _)
    · exact h
  try clear_value x0
  try clear_value x1
  exact (via_setArb (hA.of rfl) hx0 _ _)

theorem via_arbGive {A : Nat} {s0 : State} (hA : Sub 40137 A) {s : State} (h : Via A s0 s) (a1 : Nat) (a2 : Req) (a3 : Nat) (a4 : Nat) : Via A s0 (State.arbGive s a1 a2 a3 a4) := by
  unfold State.arbGive
  extract_lets x0 x1 x2 x3
  try clear_value x0
  have hx1 : Via A s0 x1 := by
    exact (via_setArb (hA.of rfl) h _ _)
  try clear_value x1
  have hx2 : Via A s0 x2 := by
    exact (via_peak (hA.of rfl) hx1 _ _)
  try clear_value x2
  have hx3 : Via A s0 x3 := by
    exact (via_peak (hA.of rfl) hx2 _ _)
  try clear_value x3
  refine via_ite ?_ ?_
  · exact (via_raise (hA.of rfl) hx3 _)
  · exact hx3

theorem via_arbDone {A : Nat} {s0 : State} (hA : Sub 32961 A) {s : State} (h : Via A s0 s) (a1 : Nat) (a2 : Req) : Via A s0 (State.arbDone s a1 a2) := by
  unfold State.arbDone
  extract_lets x0
  try clear_value x0
  exact (via_setArb (hA.of rfl) h _ _)

theorem via_arbLose {A : Nat} {s0 : State} (hA : Sub 32961 A) {s : State} (h : Via A s0 s) (a1 : Nat) (a2 : Req) : Via A s0 (State.arbLose s a1 a2) := by
  unfold State.arbLose
  extract_lets x0
  try clear_value x0
  exact (via_satAdd (hA.of rfl) (via_setArb (hA.of rfl) h _ _) _ _)

theorem via_arbCut {A : Nat} {s0 : State} (hA : Sub 40137 A) {s : State} (h : Via A s0 s) (a1 : Nat) (a2 : Req) (a3 : Nat) (a4 : Bool) : Via A s0 (State.arbCut s a1 a2 a3 a4) := by
  unfold State.arbCut
  extract_lets x0
  have hx0 : Via A s0 x0 := by
    exact (via_arbRaise (hA.of rfl) (via_arbDone (hA.of rfl) h _ _) _ _ _ _ _)
  try clear_value x0
  exact (via_raise (hA.of rfl) (via_satAdd (hA.of rfl) (via_setBit (hA.of rfl) hx0 _ _ _) _ _) _)

theorem via_arbStarve {A : Nat} {s0 : State} (hA : Sub 40137 A) {s : State} (h : Via A s0 s) (a1 : Nat) (a2 : Nat) : Via A s0 (State.arbStarve s a1 a2) := by
  unfold State.arbStarve
  extract_lets x0
  try clear_value x0
  split
  · exact h
  · extract_lets x1
    have hx1 : Via A s0 x1 := by
      exact (via_setArb (hA.of rfl) h _ _)
    try clear_value x1
    exact (via_raise (hA.of rfl) (via_setBit (hA.of rfl) hx1 _ _ _) _)

theorem via_arbWithdraw {A : Nat} {s0 : State} (hA : Sub 32961 A) {s : State} (h : Via A s0 s) (a1 : Nat) (a2 : Req → Bool) : Via A s0 (State.arbWithdraw s a1 a2) := by
  unfold State.arbWithdraw
  extract_lets x0
  try clear_value x0
  exact (via_setArb (hA.of rfl) h _ _)

theorem via_fabricAccess {A : Nat} {s0 : State} (hA : Sub 32961 A) {s : State} (h : Via A s0 s) (a1 : Nat) : Via A s0 (State.fabricAccess s a1) := by
  unfold State.fabricAccess
  extract_lets x0
  try clear_value x0
  split
  · split
    · refine via_ite ?_ ?_
      · exact (via_arbDone (hA.of rfl) h _ _)
      · exact (via_setArb (hA.of rfl) h _ _)
    · exact (via_arbDone (hA.of rfl) h _ _)
  · exact h

theorem via_fabricEnd {A : Nat} {s0 : State} (hA : Sub 32961 A) {s : State} (h : Via A s0 s) (a1 : Nat) : Via A s0 (State.fabricEnd s a1) := by
  unfold State.fabricEnd
  split
  · exact (via_arbDone (hA.of rfl) h _ _)
  · exact h

/-! ### Carats -/

theorem via_caratCounts {A : Nat} {s0 : State} (hA : Sub 1 A) {s : State} (h : Via A s0 s) : Via A s0 (State.caratCounts s) := by
  unfold State.caratCounts
  extract_lets x0 x1
  try clear_value x0
  have hx1 : Via A s0 x1 := by
    unfold x1
    refine via_foldS ?_ ?_ _
    · intro a2 x3 hx3
      exact (via_put (hA.of rfl) hx3 _ _)
    · exact h
  try clear_value x1
  exact (via_peak (hA.of rfl) (via_put (hA.of rfl) hx1 _ _) _ _)

theorem via_caratRequest {A : Nat} {s0 : State} (hA : Sub 33 A) {s : State} (h : Via A s0 s) (a1 : Nat) (a2 : Nat) (a3 : Nat) (a4 : Bool) : Via A s0 (State.caratRequest s a1 a2 a3 a4) := by
  unfold State.caratRequest
  extract_lets x0 x1
  try clear_value x0
  have hx1 : Via A s0 x1 := by
    unfold x1
    refine via_ite ?_ ?_
    · exact h
    · exact (via_satAdd (hA.of rfl) h _ _)
  try clear_value x1
  refine via_ite ?_ ?_
  · exact h
  · exact (via_modHsk (hA.of rfl) hx1 _)

theorem via_caratGrant {A : Nat} {s0 : State} (hA : Sub 33 A) {s : State} (h : Via A s0 s) : Via A s0 (State.caratGrant s).1 := by
  unfold State.caratGrant
  split
  · refine via_mk_fst ?_
    exact h
  · extract_lets x0
    have hx0 : Via A s0 x0 := by
      exact (via_modHsk (hA.of rfl) h _)
    try clear_value x0
    refine via_ite_fst ?_ ?_
    · refine via_mk_fst ?_
      exact (via_peak (hA.of rfl) (via_caratCounts (hA.of rfl) hx0) _ _)
    · refine via_mk_fst ?_
      exact h

theorem via_caratGrants {A : Nat} {s0 : State} (hA : Sub 33 A) {s : State} (h : Via A s0 s) (a0 : Nat) : Via A s0 (State.caratGrants a0 s) := by
  induction a0 generalizing s with
  | zero =>
    unfold Sys2Proof.Machine.State.caratGrants
    exact h
  | succ k ih =>
    unfold Sys2Proof.Machine.State.caratGrants
    extract_lets x0
    have hx0 : Via A s0 x0.1 := by
      exact (via_caratGrant (hA.of rfl) h)
    try clear_value x0
    refine via_ite ?_ ?_
    · refine ih ?_
      exact hx0
    · exact h

theorem via_caratRelease {A : Nat} {s0 : State} (hA : Sub 33 A) {s : State} (h : Via A s0 s) (a1 : Nat) (a2 : Nat) : Via A s0 (State.caratRelease s a1 a2) := by
  unfold State.caratRelease
  exact (via_caratCounts (hA.of rfl) (via_modHsk (hA.of rfl) h _))

theorem via_caratWithdraw {A : Nat} {s0 : State} (hA : Sub 33 A) {s : State} (h : Via A s0 s) (a1 : CReq → Bool) : Via A s0 (State.caratWithdraw s a1) := by
  unfold State.caratWithdraw
  exact (via_caratCounts (hA.of rfl) (via_modHsk (hA.of rfl) h _))

theorem via_caratClass {A : Nat} {s0 : State} (hA : Sub 33 A) {s : State} (h : Via A s0 s) (a1 : Nat) (a2 : Nat) : Via A s0 (State.caratClass s a1 a2) := by
  unfold State.caratClass
  exact (via_caratCounts (hA.of rfl) (via_modHsk (hA.of rfl) h _))

theorem via_caratStarve {A : Nat} {s0 : State} (hA : Sub 7337 A) {s : State} (h : Via A s0 s) (a1 : Nat) : Via A s0 (State.caratStarve s a1) := by
  unfold State.caratStarve
  split
  · exact h
  · extract_lets x0
    have hx0 : Via A s0 x0 := by
      exact (via_modHsk (hA.of rfl) h _)
    try clear_value x0
    exact (via_raise (hA.of rfl) (via_setBit (hA.of rfl) hx0 _ _ _) _)

theorem via_recallOne {A : Nat} {s0 : State} (hA : Sub 164065 A) {s : State} (h : Via A s0 s) (a1 : CReq) : Via A s0 (State.recallOne s a1) := by
  unfold State.recallOne
  extract_lets x0 x1
  have hx0 : Via A s0 x0 := by
    exact (via_satAdd (hA.of rfl) (via_caratRelease (hA.of rfl) h _ _) _ _)
  try clear_value x0
  have hx1 : Via A s0 x1 := by
    unfold x1
    refine via_ite ?_ ?_
    · exact (via_satAdd (hA.of rfl) hx0 _ _)
    · exact hx0
  try clear_value x1
  refine via_ite ?_ ?_
  · refine via_ite ?_ ?_
    · refine via_modPix (hA.of rfl) _ (.inr fun _ => rfl) (.inl (hA.of rfl)) (.inr fun _ => by unfold Pix.jobState; rfl) (.inr fun _ => rfl) (fun _ h => by first | simpa [Pix.sized, Img.sized] using h | simp_all [Pix.sized, Img.sized]) ?_
      exact hx0
    · split
      · exact (via_arbLose (hA.of rfl) hx0 _ _)
      · exact hx0
  · exact (via_caratRequest (hA.of rfl) hx1 _ _ _ _)

theorem via_recallAll {A : Nat} {s0 : State} (hA : Sub 164065 A) {s : State} (h : Via A s0 s) (a0 : Nat) : Via A s0 (State.recallAll a0 s) := by
  induction a0 generalizing s with
  | zero =>
    unfold Sys2Proof.Machine.State.recallAll
    exact h
  | succ k ih =>
    unfold Sys2Proof.Machine.State.recallAll
    refine via_ite ?_ ?_
    · split
      · refine ih ?_
        exact (via_recallOne (hA.of rfl) h _)
      · exact h
    · exact h

theorem via_effUpdate {A : Nat} {s0 : State} (hA : Sub 171241 A) {s : State} (h : Via A s0 s) : Via A s0 (State.effUpdate s) := by
  unfold State.effUpdate
  refine via_ite ?_ ?_
  · exact h
  · exact (via_recallAll (hA.of rfl) (via_raise (hA.of rfl) (via_put (hA.of rfl) h _ _) _) _)

/-! ### Output -/

theorem via_setPad {A : Nat} {s0 : State} (hA : Sub 65801 A) {s : State} (h : Via A s0 s) (a1 : Nat) (a2 : PadPhase) : Via A s0 (State.setPad s a1 a2) := by
  unfold State.setPad
  extract_lets x0 x1
  have hx0 : Via A s0 x0 := by
    unfold x0
    refine via_modAux (hA.of rfl) _ (.inr fun _ => by unfold Aux.power; rfl) (.inr fun _ => by unfold Aux.waits; rfl) (.inl (hA.of rfl)) (.inr fun _ => rfl) (fun _ h => by first | simpa [Aux.sized] using h | simp_all [Aux.sized]) ?_
    exact h
  try clear_value x0
  have hx1 : Via A s0 x1 := by
    unfold x1
    refine via_ite ?_ ?_
    · refine via_modFire (hA.of rfl) _ (fun _ h => by first | simpa [Fire.sized] using h | simp_all [Fire.sized]) ?_
      exact hx0
    · exact hx0
  try clear_value x1
  refine via_ite ?_ ?_
  · exact (via_setBit (hA.of rfl) hx1 _ _ _)
  · exact hx1

theorem via_padUpdate {A : Nat} {s0 : State} (hA : Sub 65801 A) {s : State} (h : Via A s0 s) (a1 : Nat) : Via A s0 (State.padUpdate s a1) := by
  unfold State.padUpdate
  refine via_ite ?_ ?_
  · split
    · refine via_ite ?_ ?_
      · exact h
      · exact (via_setPad (hA.of rfl) h _ _)
    · exact h
  · split
    · exact h
    · refine via_ite ?_ ?_
      · exact h
      · exact (via_setPad (hA.of rfl) h _ _)

theorem via_padsUpdate {A : Nat} {s0 : State} (hA : Sub 65801 A) {s : State} (h : Via A s0 s) : Via A s0 (State.padsUpdate s) := by
  unfold State.padsUpdate
  refine via_foldS ?_ ?_ _
  · intro a0 x1 hx1
    exact (via_padUpdate (hA.of rfl) hx1 _)
  · exact h

theorem via_forceRest {A : Nat} {s0 : State} (hA : Sub 65801 A) {s : State} (h : Via A s0 s) : Via A s0 (State.forceRest s) := by
  unfold State.forceRest
  refine via_foldS ?_ ?_ _
  · intro a0 x1 hx1
    exact (via_setPad (hA.of rfl) hx1 _ _)
  · exact (via_setReg (hA.of rfl) (via_setReg (hA.of rfl) h _ _) _ _)

theorem via_enterDev {A : Nat} {s0 : State} (hA : Sub 69897 A) {s : State} (h : Via A s0 s) (a1 : DevState) : Via A s0 (State.enterDev s a1) := by
  unfold State.enterDev
  extract_lets x0
  have hx0 : Via A s0 x0 := by
    exact (via_putDev (hA.of rfl) h _)
  try clear_value x0
  refine via_ite ?_ ?_
  · exact (via_padsUpdate (hA.of rfl) hx0)
  · exact (via_forceRest (hA.of rfl) hx0)

theorem via_followDone {A : Nat} {s0 : State} (hA : Sub 73097 A) {s : State} (h : Via A s0 s) (a1 : Nat) (a2 : List (List Sys2Proof.PadSample)) (a3 : Option Bool) : Via A s0 (State.followDone s a1 a2 a3) := by
  unfold State.followDone
  extract_lets x0 x1 x2 x3 x4
  try clear_value x0
  try clear_value x1
  have hx2 : Via A s0 x2 := by
    unfold x2
    refine via_ite ?_ ?_
    · exact (via_raise (hA.of rfl) h _)
    · exact h
  try clear_value x2
  have hx3 : Via A s0 x3 := by
    exact (via_setBit (hA.of rfl) hx2 _ _ _)
  try clear_value x3
  have hx4 : Via A s0 x4 := by
    unfold x4
    split
    · exact hx3
    · exact (via_setBit (hA.of rfl) hx3 _ _ _)
  try clear_value x4
  refine via_ite ?_ ?_
  · refine via_ite ?_ ?_
    · exact (via_setPad (hA.of rfl) h _ _)
    · exact (via_raise (hA.of rfl) (via_setBit (hA.of rfl) (via_setPad (hA.of rfl) h _ _) _ _ _) _)
  · refine via_ite ?_ ?_
    · exact (via_setPad (hA.of rfl) hx2 _ _)
    · refine via_ite ?_ ?_
      · exact (via_setPad (hA.of rfl) hx4 _ _)
      · refine via_ite ?_ ?_
        · exact (via_put (hA.of rfl) (via_setPad (hA.of rfl) hx2 _ _) _ _)
        · refine via_ite ?_ ?_
          · exact (via_setPad (hA.of rfl) hx2 _ _)
          · exact (via_setPad (hA.of rfl) hx2 _ _)

end Sys2Proof.Machine
end

