-- ==== Sys2Proof/Laws/TouchImage.lean ====
section
/-!
SUPPORT. Sys2Proof/Laws/TouchImage.lean: what the functions for the image store, the codec, DRAM, temperature, positions, nozzles and screening touch: one lemma per function, with the mask of the parts of the state that it can change (Laws/Via.lean).
-/
namespace Sys2Proof.Machine

open Sys2Proof

set_option linter.all false

/-! ### Pairing -/

theorem via_pairRecord {A : Nat} {s0 : State} (hA : Sub 7305 A) {s : State} (h : Via A s0 s) (a1 : Nat) (a2 : Nat) (a3 : Nat) (a4 : Nat) (a5 : List Sys2Proof.Byte) : Via A s0 (State.pairRecord s a1 a2 a3 a4 a5) := by
  unfold State.pairRecord
  exact (via_putRecord (hA.of rfl) h _ _)

theorem via_webSwitch {A : Nat} {s0 : State} (hA : Sub 256 A) {s : State} (h : Via A s0 s) : Via A s0 (State.webSwitch s) := by
  unfold State.webSwitch
  refine via_modFire (hA.of rfl) _ (fun _ h => by first | simpa [Fire.sized] using h | simp_all [Fire.sized]) ?_
  exact h

theorem via_setRole {A : Nat} {s0 : State} (hA : Sub 73097 A) {s : State} (h : Via A s0 s) (a1 : Role) (a2 : Nat) (a3 : Nat) : Via A s0 (State.setRole s a1 a2 a3) := by
  unfold State.setRole
  extract_lets x0 x1 x2 x3 x4 x5 x6 x7 x8 x9
  try clear_value x0
  try clear_value x1
  have hx2 : Via A s0 x2 := by
    exact (via_mirror (hA.of rfl) (via_put (hA.of rfl) h _ _))
  try clear_value x2
  have hx3 : Via A s0 x3 := by
    unfold x3
    refine via_ite ?_ ?_
    · exact (via_put (hA.of rfl) hx2 _ _)
    · exact (via_put (hA.of rfl) hx2 _ _)
  try clear_value x3
  have hx4 : Via A s0 x4 := by
    exact (via_put64 (hA.of rfl) hx3 _ _)
  try clear_value x4
  have hx5 : Via A s0 x5 := by
    unfold x5
    refine via_ite ?_ ?_
    · exact (via_setPad (hA.of rfl) hx4 _ _)
    · exact (via_put (hA.of rfl) (via_setPad (hA.of rfl) hx4 _ _) _ _)
  try clear_value x5
  have hx6 : Via A s0 x6 := by
    unfold x6
    refine via_ite ?_ ?_
    · exact (via_put64 (hA.of rfl) hx5 _ _)
    · exact hx5
  try clear_value x6
  have hx7 : Via A s0 x7 := by
    unfold x7
    refine via_ite ?_ ?_
    · exact hx6
    · exact (via_webSwitch (hA.of rfl) hx6)
  try clear_value x7
  have hx8 : Via A s0 x8 := by
    exact (via_padsUpdate (hA.of rfl) (via_setReg (hA.of rfl) hx7 _ _))
  try clear_value x8
  try clear_value x9
  refine via_ite ?_ ?_
  · exact h
  · exact (via_pairRecord (hA.of rfl) (via_raise (hA.of rfl) hx8 _) _ _ _ _ _)

theorem via_diverge {A : Nat} {s0 : State} (hA : Sub 73097 A) {s : State} (h : Via A s0 s) (a1 : DigKey) (a2 : Nat) (a3 : Nat) : Via A s0 (State.diverge s a1 a2 a3) := by
  unfold State.diverge
  extract_lets x0 x1 x2 x3 x4 x5 x6 x7
  try clear_value x0
  try clear_value x1
  try clear_value x2
  try clear_value x3
  have hx4 : Via A s0 x4 := by
    exact (via_satAdd (hA.of rfl) h _ _)
  try clear_value x4
  have hx5 : Via A s0 x5 := by
    exact (via_raise (hA.of rfl) hx4 _)
  try clear_value x5
  have hx6 : Via A s0 x6 := by
    exact (via_pairRecord (hA.of rfl) hx5 _ _ _ _ _)
  try clear_value x6
  have hx7 : Via A s0 x7 := by
    exact (via_sendPair (hA.of rfl) hx6 _)
  try clear_value x7
  refine via_ite ?_ ?_
  · exact (via_setRole (hA.of rfl) hx7 _ _ _)
  · exact hx7

theorem via_ownDigest {A : Nat} {s0 : State} (hA : Sub 73097 A) {s : State} (h : Via A s0 s) (a1 : DigKey) (a2 : Nat) : Via A s0 (State.ownDigest s a1 a2) := by
  unfold State.ownDigest
  extract_lets x0
  have hx0 : Via A s0 x0 := by
    unfold x0
    split
    · exact (via_sendPair (hA.of rfl) h _)
    · exact (via_sendPair (hA.of rfl) h _)
  try clear_value x0
  split
  · extract_lets x1
    have hx1 : Via A s0 x1 := by
      exact (via_modPlk (hA.of rfl) hx0 _)
    try clear_value x1
    refine via_ite ?_ ?_
    · exact hx1
    · exact (via_diverge (hA.of rfl) hx1 _ _ _)
  · exact (via_modPlk (hA.of rfl) hx0 _)

theorem via_peerDigest {A : Nat} {s0 : State} (hA : Sub 73097 A) {s : State} (h : Via A s0 s) (a1 : DigKey) (a2 : Nat) : Via A s0 (State.peerDigest s a1 a2) := by
  unfold State.peerDigest
  split
  · extract_lets x0
    have hx0 : Via A s0 x0 := by
      exact (via_modPlk (hA.of rfl) h _)
    try clear_value x0
    refine via_ite ?_ ?_
    · exact hx0
    · exact (via_diverge (hA.of rfl) hx0 _ _ _)
  · exact (via_modPlk (hA.of rfl) h _)

theorem via_digestMissing {A : Nat} {s0 : State} (hA : Sub 73097 A) {s : State} (h : Via A s0 s) (a1 : Bool) (a2 : DigWait) : Via A s0 (State.digestMissing s a1 a2) := by
  unfold State.digestMissing
  refine via_ite ?_ ?_
  · exact (via_diverge (hA.of rfl) (via_modPlk (hA.of rfl) h _) _ _ _)
  · exact (via_diverge (hA.of rfl) (via_modPlk (hA.of rfl) h _) _ _ _)

theorem via_tileDigest {A : Nat} {s0 : State} (hA : Sub 73097 A) {s : State} (h : Via A s0 s) (a1 : Nat) (a2 : Nat) (a3 : Nat) (a4 : List Sys2Proof.Byte) : Via A s0 (State.tileDigest s a1 a2 a3 a4) := by
  unfold State.tileDigest
  refine via_ite ?_ ?_
  · exact (via_ownDigest (hA.of rfl) h _ _)
  · exact h

theorem via_lineDigest {A : Nat} {s0 : State} (hA : Sub 73097 A) {s : State} (h : Via A s0 s) (a1 : Nat) (a2 : Nat) (a3 : List Sys2Proof.Byte) : Via A s0 (State.lineDigest s a1 a2 a3) := by
  unfold State.lineDigest
  refine via_ite ?_ ?_
  · exact (via_ownDigest (hA.of rfl) h _ _)
  · exact h

/-! ### Tiles -/

theorem via_modImg {A : Nat} {s0 : State} (hA : Sub 131200 A) {s : State} (h : Via A s0 s) (a1 : Nat) (a2 : TileRing → TileRing) : Via A s0 (State.modImg s a1 a2) := by
  unfold State.modImg
  refine via_modPix (hA.of rfl) _ (.inr fun _ => rfl) (.inl (hA.of rfl)) (.inr fun _ => by unfold Pix.jobState; rfl) (.inr fun _ => rfl) (fun _ h => by first | simpa [Pix.sized, Img.sized] using h | simp_all [Pix.sized, Img.sized]) ?_
  exact h

theorem via_modPlane {A : Nat} {s0 : State} (hA : Sub 131200 A) {s : State} (h : Via A s0 s) (a1 : Nat) (a2 : Nat) (a3 : Plane → Plane) : Via A s0 (State.modPlane s a1 a2 a3) := by
  unfold State.modPlane
  refine via_modPix (hA.of rfl) _ (.inr fun _ => rfl) (.inl (hA.of rfl)) (.inr fun _ => by unfold Pix.jobState; rfl) (.inr fun _ => rfl) (fun _ h => by first | simpa [Pix.sized, Img.sized] using h | simp_all [Pix.sized, Img.sized]) ?_
  exact h

theorem via_evictOne {A : Nat} {s0 : State} (hA : Sub 138377 A) {s : State} (h : Via A s0 s) : Via A s0 (State.evictOne s).1 := by
  unfold State.evictOne
  split
  · refine via_mk_fst ?_
    exact h
  · extract_lets x0 x1
    have hx0 : Via A s0 x0 := by
      exact (via_modPlane (hA.of rfl) h _ _ _)
    try clear_value x0
    have hx1 : Via A s0 x1 := by
      exact (via_satAdd (hA.of rfl) hx0 _ _)
    try clear_value x1
    refine via_mk_fst ?_
    exact (via_raise (hA.of rfl) hx1 _)

theorem via_makeRoom {A : Nat} {s0 : State} (hA : Sub 138377 A) {s : State} (h : Via A s0 s) (a0 : Nat) (a2 : Nat) (a3 : Nat) : Via A s0 (State.makeRoom a0 s a2 a3) := by
  induction a0 generalizing s a2 a3 with
  | zero =>
    unfold Sys2Proof.Machine.State.makeRoom
    exact h
  | succ k ih =>
    unfold Sys2Proof.Machine.State.makeRoom
    extract_lets x0
    have hx0 : Via A s0 x0.1 := by
      exact (via_evictOne (hA.of rfl) h)
    try clear_value x0
    refine via_ite ?_ ?_
    · exact h
    · refine via_ite ?_ ?_
      · refine ih ?_ _ _
        exact hx0
      · exact h

theorem via_tileInvalid {A : Nat} {s0 : State} (hA : Sub 7305 A) {s : State} (h : Via A s0 s) (a1 : Nat) (a2 : Nat) (a3 : Nat) (a4 : Nat) (a5 : Nat) : Via A s0 (State.tileInvalid s a1 a2 a3 a4 a5) := by
  unfold State.tileInvalid
  refine via_ite ?_ ?_
  · exact h
  · exact (via_ringStop (hA.of rfl) (via_descDone (hA.of rfl) h _ _ _) _ _)

theorem via_startFetch {A : Nat} {s0 : State} (hA : Sub 137344 A) {s : State} (h : Via A s0 s) (a1 : Nat) (a2 : Desc) (a3 : Bool) : Via A s0 (State.startFetch s a1 a2 a3) := by
  unfold State.startFetch
  extract_lets x0 x1 x2 x3 x4 x5
  try clear_value x0
  try clear_value x1
  try clear_value x2
  have hx3 : Via A s0 x3 := by
    exact (via_modImg (hA.of rfl) (via_takeDesc (hA.of rfl) h _ _) _ _)
  try clear_value x3
  have hx4 : Via A s0 x4 := by
    unfold x4
    refine via_ite ?_ ?_
    · exact hx3
    · exact (via_modPlane (hA.of rfl) hx3 _ _ _)
  try clear_value x4
  try clear_value x5
  refine via_ite ?_ ?_
  · exact hx4
  · exact (via_emit (hA.of rfl) hx4 _)

theorem via_tileLoad {A : Nat} {s0 : State} (hA : Sub 138377 A) {s : State} (h : Via A s0 s) (a1 : Nat) : Via A s0 (State.tileLoad s a1) := by
  unfold State.tileLoad
  refine via_ite ?_ ?_
  · exact h
  · split
    · exact h
    · refine via_ite ?_ ?_
      · exact h
      · refine via_ite ?_ ?_
        · exact (via_tileInvalid (hA.of rfl) (via_takeDesc (hA.of rfl) h _ _) _ _ _ _ _)
        · refine via_ite ?_ ?_
          · exact h
          · exact (via_startFetch (hA.of rfl) h _ _ _)

theorem via_tileStream {A : Nat} {s0 : State} (hA : Sub 138377 A) {s : State} (h : Via A s0 s) (a1 : Nat) : Via A s0 (State.tileStream s a1) := by
  unfold State.tileStream
  refine via_ite ?_ ?_
  · exact h
  · split
    · exact h
    · refine via_ite ?_ ?_
      · exact h
      · refine via_ite ?_ ?_
        · exact (via_tileInvalid (hA.of rfl) (via_takeDesc (hA.of rfl) h _ _) _ _ _ _ _)
        · exact (via_startFetch (hA.of rfl) h _ _ _)

theorem via_refetchNext {A : Nat} {s0 : State} (hA : Sub 135296 A) {s : State} (h : Via A s0 s) (a1 : Nat) : Via A s0 (State.refetchNext s a1) := by
  unfold State.refetchNext
  refine via_ite ?_ ?_
  · exact h
  · split
    · exact h
    · extract_lets x0 x1 x2 x3 x4
      try clear_value x0
      try clear_value x1
      have hx2 : Via A s0 x2 := by
        unfold x2
        refine via_modPix (hA.of rfl) _ (.inr fun _ => rfl) (.inl (hA.of rfl)) (.inr fun _ => by unfold Pix.jobState; rfl) (.inr fun _ => rfl) (fun _ h => by first | simpa [Pix.sized, Img.sized] using h | simp_all [Pix.sized, Img.sized]) ?_
        exact h
      try clear_value x2
      have hx3 : Via A s0 x3 := by
        exact (via_modImg (hA.of rfl) hx2 _ _)
      try clear_value x3
      have hx4 : Via A s0 x4 := by
        exact (via_modPlane (hA.of rfl) hx3 _ _ _)
      try clear_value x4
      refine via_ite ?_ ?_
      · exact hx4
      · exact (via_emit (hA.of rfl) hx4 _)

theorem via_refetchEnd {A : Nat} {s0 : State} (hA : Sub 135296 A) {s : State} (h : Via A s0 s) (a1 : Nat) (a2 : Bool) : Via A s0 (State.refetchEnd s a1 a2) := by
  unfold State.refetchEnd
  refine via_ite ?_ ?_
  · refine via_modPix (hA.of rfl) _ (.inr fun _ => rfl) (.inl (hA.of rfl)) (.inr fun _ => by unfold Pix.jobState; rfl) (.inr fun _ => rfl) (fun _ h => by first | simpa [Pix.sized, Img.sized] using h | simp_all [Pix.sized, Img.sized]) ?_
    exact h
  · exact (via_refetchNext (hA.of rfl) h _)

theorem via_endFetch {A : Nat} {s0 : State} (hA : Sub 138377 A) {s : State} (h : Via A s0 s) (a1 : Nat) (a2 : Fetch) (a3 : Bool) : Via A s0 (State.endFetch s a1 a2 a3) := by
  unfold State.endFetch
  extract_lets x0 x1
  have hx0 : Via A s0 x0 := by
    exact (via_modImg (hA.of rfl) h _ _)
  try clear_value x0
  have hx1 : Via A s0 x1 := by
    unfold x1
    refine via_ite ?_ ?_
    · exact hx0
    · exact (via_modPlane (hA.of rfl) hx0 _ _ _)
  try clear_value x1
  refine via_ite ?_ ?_
  · exact (via_refetchEnd (hA.of rfl) hx1 _ _)
  · refine via_ite ?_ ?_
    · exact (via_tileInvalid (hA.of rfl) hx1 _ _ _ _ _)
    · refine via_ite ?_ ?_
      · exact (via_descDone (hA.of rfl) hx1 _ _ _)
      · exact (via_descDone (hA.of rfl) hx1 _ _ _)

theorem via_tileErr {A : Nat} {s0 : State} (hA : Sub 7305 A) {s : State} (h : Via A s0 s) (a1 : Nat) (a2 : Nat) (a3 : Nat) (a4 : Nat) : Via A s0 (State.tileErr s a1 a2 a3 a4) := by
  unfold State.tileErr
  exact (via_raise (hA.of rfl) (via_satAdd (hA.of rfl) h _ _) _)

theorem via_loadRead {A : Nat} {s0 : State} (hA : Sub 204169 A) {s : State} (h : Via A s0 s) (a1 : Nat) (a2 : List Sys2Proof.Byte) : Via A s0 (State.loadRead s a1 a2) := by
  unfold State.loadRead
  refine via_ite ?_ ?_
  · exact h
  · split
    · exact h
    · extract_lets x0
      try clear_value x0
      refine via_ite ?_ ?_
      · exact h
      · refine via_ite ?_ ?_
        · exact h
        · split
          · exact (via_endFetch (hA.of rfl) h _ _ _)
          · extract_lets x1 x2 x3 x4 x5 x6 x7 x8 x9 x10 x11
            try clear_value x1
            try clear_value x2
            try clear_value x3
            have hx4 : Via A s0 x4 := by
              exact (via_makeRoom (hA.of rfl) h _ _ _)
            try clear_value x4
            have hx5 : Via A s0 x5 := by
              exact (via_modImg (hA.of rfl) hx4 _ _)
            try clear_value x5
            have hx6 : Via A s0 x6 := by
              exact (via_tileDigest (hA.of rfl) hx4 _ _ _ _)
            try clear_value x6
            have hx7 : Via A s0 x7 := by
              unfold x7
              refine via_ite ?_ ?_
              · exact (via_modImg (hA.of rfl) hx6 _ _)
              · exact (via_modPlane (hA.of rfl) hx6 _ _ _)
            try clear_value x7
            try clear_value x8
            have hx9 : Via A s0 x9 := by
              unfold x9
              split
              · exact (via_tileErr (hA.of rfl) hx7 _ _ _ _)
              · exact hx7
            try clear_value x9
            try clear_value x10
            try clear_value x11
            refine via_ite ?_ ?_
            · exact (via_endFetch (hA.of rfl) h _ _ _)
            · refine via_ite ?_ ?_
              · exact h
              · refine via_ite ?_ ?_
                · refine via_ite ?_ ?_
                  · exact hx4
                  · exact (via_raise (hA.of rfl) hx5 _)
                · refine via_ite ?_ ?_
                  · exact (via_modImg (hA.of rfl) hx9 _ _)
                  · refine via_ite ?_ ?_
                    · exact (via_endFetch (hA.of rfl) hx9 _ _ _)
                    · refine via_ite ?_ ?_
                      · exact (via_endFetch (hA.of rfl) hx9 _ _ _)
                      · exact (via_modImg (hA.of rfl) hx9 _ _)

theorem via_writeTile {A : Nat} {s0 : State} (hA : Sub 1091 A) {s : State} (h : Via A s0 s) (a1 : Nat) (a2 : Nat) (a3 : Tile) (a4 : List Sys2Proof.Byte) : Via A s0 (State.writeTile s a1 a2 a3 a4) := by
  unfold State.writeTile
  extract_lets x0
  try clear_value x0
  refine via_foldS ?_ ?_ _
  · intro a1 x2 hx2
    exact (via_setDram (hA.of rfl) hx2 _ _)
  · exact h

theorem via_bandYield {A : Nat} {s0 : State} (hA : Sub 7305 A) {s : State} (h : Via A s0 s) (a1 : Nat) (a2 : Band) : Via A s0 (State.bandYield s a1 a2) := by
  unfold State.bandYield
  extract_lets x0 x1
  try clear_value x0
  have hx1 : Via A s0 x1 := by
    exact (via_put (hA.of rfl) h _ _)
  try clear_value x1
  refine via_ite ?_ ?_
  · exact h
  · refine via_ite ?_ ?_
    · exact (via_raise (hA.of rfl) (via_satAdd (hA.of rfl) hx1 _ _) _)
    · exact hx1

theorem via_bandsDone {A : Nat} {s0 : State} (hA : Sub 138377 A) {s : State} (h : Via A s0 s) (a0 : Nat) (a2 : Nat) : Via A s0 (State.bandsDone a0 s a2) := by
  induction a0 generalizing s a2 with
  | zero =>
    unfold Sys2Proof.Machine.State.bandsDone
    exact h
  | succ k ih =>
    unfold Sys2Proof.Machine.State.bandsDone
    split
    · exact h
    · extract_lets x0 x1
      have hx0 : Via A s0 x0 := by
        exact (via_modImg (hA.of rfl) h _ _)
      try clear_value x0
      have hx1 : Via A s0 x1 := by
        exact (via_setReg (hA.of rfl) hx0 _ _)
      try clear_value x1
      refine via_ite ?_ ?_
      · refine ih ?_ _
        exact (via_bandYield (hA.of rfl) hx1 _ _)
      · exact h

theorem via_columnDone {A : Nat} {s0 : State} (hA : Sub 138377 A) {s : State} (h : Via A s0 s) (a1 : Nat) (a2 : Nat) (a3 : Nat) (a4 : Nat) (a5 : Nat) : Via A s0 (State.columnDone s a1 a2 a3 a4 a5) := by
  unfold State.columnDone
  exact (via_bandsDone (hA.of rfl) (via_modImg (hA.of rfl) h _ _) _ _)

theorem via_openBand {A : Nat} {s0 : State} (hA : Sub 131200 A) {s : State} (h : Via A s0 s) (a1 : Nat) (a2 : Nat) : Via A s0 (State.openBand s a1 a2) := by
  unfold State.openBand
  exact (via_modImg (hA.of rfl) h _ _)

theorem via_closeBand {A : Nat} {s0 : State} (hA : Sub 138443 A) {s : State} (h : Via A s0 s) (a1 : Nat) : Via A s0 (State.closeBand s a1) := by
  unfold State.closeBand
  split
  · exact h
  · extract_lets x0 x1 x2 x3
    try clear_value x0
    have hx1 : Via A s0 x1 := by
      unfold x1
      refine via_foldS ?_ ?_ _
      · intro a4 x5 hx5
        exact (via_writeTile (hA.of rfl) hx5 _ _ _ _)
      · exact h
    try clear_value x1
    have hx2 : Via A s0 x2 := by
      exact (via_modImg (hA.of rfl) hx1 _ _)
    try clear_value x2
    have hx3 : Via A s0 x3 := by
      unfold x3
      refine via_foldS ?_ ?_ _
      · intro a6 x7 hx7
        exact (via_columnDone (hA.of rfl) hx7 _ _ _ _ _)
      · exact hx2
    try clear_value x3
    exact (via_tileErr (hA.of rfl) hx3 _ _ _ _)

theorem via_tilePrint {A : Nat} {s0 : State} (hA : Sub 138443 A) {s : State} (h : Via A s0 s) (a1 : Nat) : Via A s0 (State.tilePrint s a1) := by
  unfold State.tilePrint
  refine via_ite ?_ ?_
  · exact h
  · split
    · exact h
    · extract_lets x0 x1
      have hx0 : Via A s0 x0 := by
        exact (via_closeBand (hA.of rfl) (via_takeDesc (hA.of rfl) h _ _) _)
      try clear_value x0
      try clear_value x1
      refine via_ite ?_ ?_
      · exact h
      · refine via_ite ?_ ?_
        · exact h
        · refine via_ite ?_ ?_
          · exact h
          · refine via_ite ?_ ?_
            · exact (via_tileInvalid (hA.of rfl) hx0 _ _ _ _ _)
            · exact (via_modImg (hA.of rfl) hx0 _ _)

theorem via_nextTile {A : Nat} {s0 : State} (hA : Sub 138377 A) {s : State} (h : Via A s0 s) (a1 : Nat) : Via A s0 (State.nextTile s a1).2 := by
  unfold State.nextTile
  extract_lets x0
  try clear_value x0
  split
  · extract_lets x1 x2 x3 x4 x5
    try clear_value x1
    try clear_value x2
    have hx3 : Via A s0 x3 := by
      unfold x3
      refine via_ite ?_ ?_
      · exact (via_openBand (hA.of rfl) h _ _)
      · exact h
    try clear_value x3
    try clear_value x4
    have hx5 : Via A s0 x5 := by
      exact (via_modImg (hA.of rfl) hx3 _ _)
    try clear_value x5
    refine via_ite_snd ?_ ?_
    · refine via_mk_snd ?_
      exact h
    · refine via_ite_snd ?_ ?_
      · refine via_mk_snd ?_
        exact h
      · split
        · refine via_mk_snd ?_
          exact h
        · refine via_mk_snd ?_
          exact hx5
  · split
    · refine via_mk_snd ?_
      exact h
    · extract_lets x6 x7 x8 x9
      try clear_value x6
      try clear_value x7
      have hx8 : Via A s0 x8 := by
        unfold x8
        refine via_ite ?_ ?_
        · exact (via_openBand (hA.of rfl) h _ _)
        · exact h
      try clear_value x8
      have hx9 : Via A s0 x9 := by
        exact (via_modImg (hA.of rfl) hx8 _ _)
      try clear_value x9
      refine via_ite_snd ?_ ?_
      · refine via_mk_snd ?_
        exact h
      · refine via_ite_snd ?_ ?_
        · refine via_mk_snd ?_
          exact h
        · refine via_ite_snd ?_ ?_
          · refine via_mk_snd ?_
            exact (via_tileInvalid (hA.of rfl) (via_modImg (hA.of rfl) h _ _) _ _ _ _ _)
          · refine via_ite_snd ?_ ?_
            · refine via_mk_snd ?_
              exact h
            · refine via_mk_snd ?_
              exact hx9

theorem via_tilePlaced {A : Nat} {s0 : State} (hA : Sub 138443 A) {s : State} (h : Via A s0 s) (a1 : TileJob) (a2 : Bool) : Via A s0 (State.tilePlaced s a1 a2) := by
  unfold State.tilePlaced
  extract_lets x0 x1 x2 x3 x4 x5 x6
  try clear_value x0
  try clear_value x1
  have hx2 : Via A s0 x2 := by
    exact (via_writeTile (hA.of rfl) h _ _ _ _)
  try clear_value x2
  have hx3 : Via A s0 x3 := by
    unfold x3
    split
    · exact (via_tileErr (hA.of rfl) hx2 _ _ _ _)
    · exact hx2
  try clear_value x3
  try clear_value x4
  have hx5 : Via A s0 x5 := by
    exact (via_modImg (hA.of rfl) hx3 _ _)
  try clear_value x5
  have hx6 : Via A s0 x6 := by
    exact (via_columnDone (hA.of rfl) hx5 _ _ _ _ _)
  try clear_value x6
  split
  · exact (via_descDone (hA.of rfl) hx6 _ _ _)
  · split
    · exact (via_modPlane (hA.of rfl) hx6 _ _ _)
    · exact hx6

theorem via_endPrint {A : Nat} {s0 : State} (hA : Sub 137345 A) {s : State} (h : Via A s0 s) (a1 : Nat) (a2 : Nat) (a3 : Print) : Via A s0 (State.endPrint s a1 a2 a3) := by
  unfold State.endPrint
  exact (via_descDone (hA.of rfl) (via_modImg (hA.of rfl) h _ _) _ _ _)

theorem via_passEnd {A : Nat} {s0 : State} (hA : Sub 137345 A) {s : State} (h : Via A s0 s) (a1 : Nat) : Via A s0 (State.passEnd s a1) := by
  unfold State.passEnd
  split
  · exact h
  · extract_lets x0 x1
    try clear_value x0
    try clear_value x1
    refine via_ite ?_ ?_
    · exact h
    · refine via_ite ?_ ?_
      · refine via_ite ?_ ?_
        · exact (via_endPrint (hA.of rfl) h _ _ _)
        · exact (via_modImg (hA.of rfl) h _ _)
      · refine via_ite ?_ ?_
        · exact (via_modImg (hA.of rfl) h _ _)
        · exact (via_endPrint (hA.of rfl) h _ _ _)

theorem via_tileFree {A : Nat} {s0 : State} (hA : Sub 138377 A) {s : State} (h : Via A s0 s) (a1 : Nat) : Via A s0 (State.tileFree s a1) := by
  unfold State.tileFree
  refine via_ite ?_ ?_
  · exact h
  · split
    · exact h
    · extract_lets x0 x1
      have hx0 : Via A s0 x0 := by
        exact (via_takeDesc (hA.of rfl) h _ _)
      try clear_value x0
      have hx1 : Via A s0 x1 := by
        exact (via_modPlane (hA.of rfl) hx0 _ _ _)
      try clear_value x1
      refine via_ite ?_ ?_
      · exact h
      · refine via_ite ?_ ?_
        · exact (via_tileInvalid (hA.of rfl) hx0 _ _ _ _ _)
        · refine via_ite ?_ ?_
          · exact (via_descDone (hA.of rfl) hx1 _ _ _)
          · exact (via_modPlane (hA.of rfl) hx1 _ _ _)

theorem via_planeRelease {A : Nat} {s0 : State} (hA : Sub 137345 A) {s : State} (h : Via A s0 s) (a1 : Nat) (a2 : Nat) : Via A s0 (State.planeRelease s a1 a2) := by
  unfold State.planeRelease
  refine via_ite ?_ ?_
  · exact h
  · split
    · exact (via_modPlane (hA.of rfl) h _ _ _)
    · refine via_ite ?_ ?_
      · exact h
      · exact (via_descDone (hA.of rfl) (via_modPlane (hA.of rfl) h _ _ _) _ _ _)

theorem via_modHolder {A : Nat} {s0 : State} (hA : Sub 32961 A) {s : State} (h : Via A s0 s) (a1 : Req) (a2 : Req) : Via A s0 (State.modHolder s a1 a2) := by
  unfold State.modHolder
  extract_lets x0
  try clear_value x0
  exact (via_setArb (hA.of rfl) h _ _)

theorem via_setLinger {A : Nat} {s0 : State} (hA : Sub 131200 A) {s : State} (h : Via A s0 s) (a1 : Nat) (a2 : Option Nat) : Via A s0 (State.setLinger s a1 a2) := by
  unfold State.setLinger
  refine via_modPix (hA.of rfl) _ (.inr fun _ => rfl) (.inl (hA.of rfl)) (.inr fun _ => by unfold Pix.jobState; rfl) (.inr fun _ => rfl) (fun _ h => by first | simpa [Pix.sized, Img.sized] using h | simp_all [Pix.sized, Img.sized]) ?_
  exact h

theorem via_laneEnd {A : Nat} {s0 : State} (hA : Sub 164065 A) {s : State} (h : Via A s0 s) (a1 : Req) : Via A s0 (State.laneEnd s a1) := by
  unfold State.laneEnd
  extract_lets x0
  have hx0 : Via A s0 x0 := by
    exact (via_setLinger (hA.of rfl) (via_arbDone (hA.of rfl) h _ _) _ _)
  try clear_value x0
  refine via_ite ?_ ?_
  · exact (via_setLinger (hA.of rfl) (via_caratRelease (hA.of rfl) hx0 _ _) _ _)
  · exact hx0

theorem via_tileDecoded {A : Nat} {s0 : State} (hA : Sub 171243 A) {s : State} (h : Via A s0 s) (a1 : Nat) : Via A s0 (State.tileDecoded s a1) := by
  unfold State.tileDecoded
  split
  · exact h
  · split
    · refine via_ite ?_ ?_
      · exact h
      · refine via_ite ?_ ?_
        · exact (via_tilePlaced (hA.of rfl) (via_laneEnd (hA.of rfl) h _) _ _)
        · exact (via_modHolder (hA.of rfl) h _ _)
    · exact h

theorem via_tileCopied {A : Nat} {s0 : State} (hA : Sub 138443 A) {s : State} (h : Via A s0 s) (a1 : Nat) : Via A s0 (State.tileCopied s a1) := by
  unfold State.tileCopied
  extract_lets x0
  have hx0 : ∀ b0 b1, Via A s0 b0 → Via A s0 (x0 b0 b1) := by
    intro b0 b1 hb1
    unfold x0
    refine via_ite ?_ ?_
    · refine via_tilePlaced (hA.of rfl) ?_ _ _
      refine via_modPix (hA.of rfl) _ (.inr fun _ => rfl) (.inl (hA.of rfl)) (.inr fun _ => by unfold Pix.jobState; rfl) (.inr fun _ => rfl) (fun _ h => by first | simpa [Pix.sized, Img.sized] using h | simp_all [Pix.sized, Img.sized]) ?_
      exact hb1
    · refine via_modPix (hA.of rfl) _ (.inr fun _ => rfl) (.inl (hA.of rfl)) (.inr fun _ => by unfold Pix.jobState; rfl) (.inr fun _ => rfl) (fun _ h => by first | simpa [Pix.sized, Img.sized] using h | simp_all [Pix.sized, Img.sized]) ?_
      exact hb1
  try clear_value x0
  split
  · refine via_ite ?_ ?_
    · exact (hx0 _ _ h)
    · exact h
  · split
    · rename_i y2 y3 heq4
      have hy3 : Via A s0 y3 := by
        have e := congrArg Prod.snd heq4
        dsimp only at e
        rw [← e]
        exact (via_nextTile (hA.of rfl) h _)
      refine via_ite ?_ ?_
      · exact h
      · exact (hx0 _ _ hy3)
    · rename_i y5 heq6
      have hy5 : Via A s0 y5 := by
        have e := congrArg Prod.snd heq6
        dsimp only at e
        rw [← e]
        exact (via_nextTile (hA.of rfl) h _)
      exact hy5

theorem via_stallResume {A : Nat} {s0 : State} (hA : Sub 164033 A) {s : State} (h : Via A s0 s) (a1 : Nat) : Via A s0 (State.stallResume s a1) := by
  unfold State.stallResume
  refine via_ite ?_ ?_
  · split
    · refine via_ite ?_ ?_
      · refine via_modPix (hA.of rfl) _ (.inr fun _ => rfl) (.inl (hA.of rfl)) (.inr fun _ => by unfold Pix.jobState; rfl) (.inr fun _ => rfl) (fun _ h => by first | simpa [Pix.sized, Img.sized] using h | simp_all [Pix.sized, Img.sized]) ?_
        exact h
      · exact h
    · exact h
  · split
    · split
      · refine via_ite ?_ ?_
        · exact (via_modHolder (hA.of rfl) h _ _)
        · exact h
      · exact h
    · exact h

theorem via_abandonTiles {A : Nat} {s0 : State} (hA : Sub 164033 A) {s : State} (h : Via A s0 s) (a1 : Nat) : Via A s0 (State.abandonTiles s a1) := by
  unfold State.abandonTiles
  extract_lets x0 x1 x2 x3
  try clear_value x0
  try clear_value x1
  have hx2 : Via A s0 x2 := by
    exact (via_arbWithdraw (hA.of rfl) h _ _)
  try clear_value x2
  have hx3 : Via A s0 x3 := by
    unfold x3
    refine via_foldS ?_ ?_ _
    · intro a4 x5 hx5
      exact (via_setLinger (hA.of rfl) hx5 _ _)
    · exact hx2
  try clear_value x3
  refine via_modPix (hA.of rfl) _ (.inr fun _ => rfl) (.inl (hA.of rfl)) (.inr fun _ => by unfold Pix.jobState; rfl) (.inr fun _ => rfl) (fun _ h => by first | simpa [Pix.sized, Img.sized] using h | simp_all [Pix.sized, Img.sized]) ?_
  exact hx3

theorem via_stopPlacements {A : Nat} {s0 : State} (hA : Sub 170177 A) {s : State} (h : Via A s0 s) (a1 : Nat) : Via A s0 (State.stopPlacements s a1) := by
  unfold State.stopPlacements
  extract_lets x0 x1 x2 x3
  have hx0 : Via A s0 x0 := by
    exact (via_abandonTiles (hA.of rfl) h _)
  try clear_value x0
  have hx1 : Via A s0 x1 := by
    unfold x1
    split
    · exact (via_endPrint (hA.of rfl) hx0 _ _ _)
    · exact hx0
  try clear_value x1
  try clear_value x2
  have hx3 : Via A s0 x3 := by
    exact (via_modImg (hA.of rfl) hx1 _ _)
  try clear_value x3
  refine via_foldS ?_ ?_ _
  · intro a4 x5 hx5
    exact (via_descDone (hA.of rfl) hx5 _ _ _)
  · exact hx3

theorem via_imgJobEnd {A : Nat} {s0 : State} (hA : Sub 170177 A) {s : State} (h : Via A s0 s) (a1 : Nat) : Via A s0 (State.imgJobEnd s a1) := by
  unfold State.imgJobEnd
  extract_lets x0 x1 x2 x3
  have hx0 : Via A s0 x0 := by
    exact (via_stopPlacements (hA.of rfl) h _)
  try clear_value x0
  try clear_value x1
  try clear_value x2
  have hx3 : Via A s0 x3 := by
    exact (via_modImg (hA.of rfl) hx0 _ _)
  try clear_value x3
  exact (via_setReg (hA.of rfl) hx3 _ _)

theorem via_tileRingOff {A : Nat} {s0 : State} (hA : Sub 171209 A) {s : State} (h : Via A s0 s) (a1 : Nat) : Via A s0 (State.tileRingOff s a1) := by
  unfold State.tileRingOff
  extract_lets x0 x1 x2 x3
  have hx0 : Via A s0 x0 := by
    exact (via_stopPlacements (hA.of rfl) h _)
  try clear_value x0
  have hx1 : Via A s0 x1 := by
    unfold x1
    split
    · refine via_ite ?_ ?_
      · exact (via_modImg (hA.of rfl) hx0 _ _)
      · exact (via_endFetch (hA.of rfl) hx0 _ _ _)
    · exact hx0
  try clear_value x1
  try clear_value x2
  have hx3 : Via A s0 x3 := by
    unfold x3
    refine via_foldS ?_ ?_ _
    · intro a4 x5 hx5
      exact (via_descDone (hA.of rfl) hx5 _ _ _)
    · exact hx1
  try clear_value x3
  refine via_foldS ?_ ?_ _
  · intro a6 x7 hx7
    exact (via_descDone (hA.of rfl) (via_modPlane (hA.of rfl) hx7 _ _ _) _ _ _)
  · exact hx3

theorem via_imgResume {A : Nat} {s0 : State} (hA : Sub 135296 A) {s : State} (h : Via A s0 s) : Via A s0 (State.imgResume s) := by
  unfold State.imgResume
  refine via_foldS ?_ ?_ _
  · intro a0 x1 hx1
    split
    · extract_lets x2
      have hx2 : Via A s0 x2 := by
        exact (via_modImg (hA.of rfl) hx1 _ _)
      try clear_value x2
      refine via_ite ?_ ?_
      · exact hx1
      · refine via_ite ?_ ?_
        · exact hx2
        · exact (via_emit (hA.of rfl) hx2 _)
    · exact hx1
  · exact h

theorem via_tileReset {A : Nat} {s0 : State} (hA : Sub 6145 A) {s : State} (h : Via A s0 s) (a1 : Nat) : Via A s0 (State.tileReset s a1) := by
  unfold State.tileReset
  refine via_foldS ?_ ?_ _
  · intro a0 x1 hx1
    exact (via_descDone (hA.of rfl) hx1 _ _ _)
  · exact h

/-! ### Codec -/

theorem via_modCodec {A : Nat} {s0 : State} (hA : Sub 131200 A) {s : State} (h : Via A s0 s) (a1 : Nat) (a2 : CodecRing → CodecRing) : Via A s0 (State.modCodec s a1 a2) := by
  unfold State.modCodec
  refine via_modPix (hA.of rfl) _ (.inr fun _ => rfl) (.inl (hA.of rfl)) (.inr fun _ => by unfold Pix.jobState; rfl) (.inr fun _ => rfl) (fun _ h => by first | simpa [Pix.sized, Img.sized] using h | simp_all [Pix.sized, Img.sized]) ?_
  exact h

theorem via_setParked {A : Nat} {s0 : State} (hA : Sub 131200 A) {s : State} (h : Via A s0 s) (a1 : Nat) (a2 : Nat) (a3 : Option Parked) : Via A s0 (State.setParked s a1 a2 a3) := by
  unfold State.setParked
  exact (via_modCodec (hA.of rfl) h _ _)

theorem via_freshBytes {A : Nat} {s0 : State} (hA : Sub 8192 A) {s : State} (h : Via A s0 s) (a1 : Nat) : Via A s0 (State.freshBytes s a1).2 := by
  unfold State.freshBytes
  refine via_mk_snd ?_
  refine Via.step h rfl (.inr rfl) (.inr rfl) (.inr rfl) (.inr rfl) (.inr rfl) (.inr rfl) (.inr rfl) (.inr rfl) (.inr rfl) (.inr rfl) (.inr rfl) (.inr rfl) (.inr rfl) (.inr rfl) (.inr rfl) (.inr rfl) (.inr rfl) (.inr rfl) (.inr rfl) (.inr rfl) (.inl (hA.of rfl)) (List.suffix_refl _) ?_ ?_ (.inr (Nat.le_refl _))
  · exact id
  · exact fun h => sized_of h id id id id id id

theorem via_codecTake {A : Nat} {s0 : State} (hA : Sub 137344 A) {s : State} (h : Via A s0 s) (a1 : Nat) (a2 : Nat) (a3 : List Sys2Proof.Byte) (a4 : List Sys2Proof.Byte) : Via A s0 (State.codecTake s a1 a2 a3 a4) := by
  unfold State.codecTake
  refine via_ite ?_ ?_
  · exact h
  · split
    · exact h
    · extract_lets x0 x1 x2 x3 x4 x5 x6 x7 x8
      try clear_value x0
      try clear_value x1
      try clear_value x2
      try clear_value x3
      try clear_value x4
      try clear_value x5
      try clear_value x6
      have hx7 : Via A s0 x7 := by
        exact (via_takeDesc (hA.of rfl) h _ _)
      try clear_value x7
      have hx8 : Via A s0 x8 := by
        unfold x8
        refine via_ite ?_ ?_
        · exact hx7
        · exact (via_emit (hA.of rfl) hx7 _)
      try clear_value x8
      refine via_ite ?_ ?_
      · exact h
      · exact (via_modCodec (hA.of rfl) hx8 _ _)

theorem via_writeOut {A : Nat} {s0 : State} (hA : Sub 5187 A) {s : State} (h : Via A s0 s) (a1 : Bool) (a2 : Nat) (a3 : List Sys2Proof.Byte) : Via A s0 (State.writeOut s a1 a2 a3) := by
  unfold State.writeOut
  refine via_ite ?_ ?_
  · exact h
  · refine via_ite ?_ ?_
    · exact (via_setDram (hA.of rfl) h _ _)
    · exact (via_hostWrite (hA.of rfl) h _ _)

theorem via_codecComplete {A : Nat} {s0 : State} (hA : Sub 179435 A) {s : State} (h : Via A s0 s) (a1 : Nat) : Via A s0 (State.codecComplete s a1) := by
  unfold State.codecComplete
  extract_lets x0
  try clear_value x0
  split
  · exact h
  · extract_lets x1 x2 x3 x4 x5 x6 x7 x8 x9 x10 x11 x12 x13 x14 x15
    try clear_value x1
    have hx2 : Via A s0 x2.2 := by
      exact (via_freshBytes (hA.of rfl) h _)
    try clear_value x2
    have hx3 : Via A s0 x3 := by
      exact (via_writeOut (hA.of rfl) hx2 _ _ _)
    try clear_value x3
    have hx4 : Via A s0 x4.2 := by
      exact (via_freshBytes (hA.of rfl) hx3 _)
    try clear_value x4
    have hx5 : Via A s0 x5 := by
      unfold x5
      split
      · exact (via_hostWrite (hA.of rfl) (via_setParked (hA.of rfl) hx4 _ _ _) _ _)
      · refine via_ite ?_ ?_
        · exact (via_setParked (hA.of rfl) hx3 _ _ _)
        · exact hx3
    try clear_value x5
    have hx6 : Via A s0 x6 := by
      unfold x6
      split
      · exact (via_laneEnd (hA.of rfl) hx5 _)
      · exact hx5
    try clear_value x6
    have hx7 : Via A s0 x7 := by
      exact (via_modCodec (hA.of rfl) hx6 _ _)
    try clear_value x7
    have hx8 : Via A s0 x8 := by
      exact (via_wrapAdd (hA.of rfl) hx7 _ _)
    try clear_value x8
    have hx9 : Via A s0 x9 := by
      exact (via_satAdd (hA.of rfl) hx8 _ _)
    try clear_value x9
    have hx10 : Via A s0 x10 := by
      exact (via_satAdd (hA.of rfl) hx9 _ _)
    try clear_value x10
    have hx11 : Via A s0 x11 := by
      exact (via_satAdd (hA.of rfl) hx10 _ _)
    try clear_value x11
    have hx12 : Via A s0 x12 := by
      exact (via_putRecord (hA.of rfl) hx11 _ _)
    try clear_value x12
    have hx13 : Via A s0 x13 := by
      exact (via_descDone (hA.of rfl) hx12 _ _ _)
    try clear_value x13
    try clear_value x14
    have hx15 : Via A s0 x15 := by
      unfold x15
      refine via_ite ?_ ?_
      · exact (via_raise (hA.of rfl) hx13 _)
      · refine via_ite ?_ ?_
        · exact (via_raise (hA.of rfl) hx13 _)
        · exact hx13
    try clear_value x15
    refine via_ite ?_ ?_
    · exact h
    · refine via_ite ?_ ?_
      · exact h
      · refine via_ite ?_ ?_
        · exact (via_ringStop (hA.of rfl) hx15 _ _)
        · refine via_ite ?_ ?_
          · exact (via_ringStop (hA.of rfl) hx15 _ _)
          · exact hx15

/-! ### Dram -/

theorem via_activate {A : Nat} {s0 : State} (hA : Sub 7369 A) {s : State} (h : Via A s0 s) (a1 : Nat) (a2 : Nat) : Via A s0 (State.activate s a1 a2) := by
  unfold State.activate
  extract_lets x0 x1 x2 x3 x4 x5 x6 x7 x8 x9
  try clear_value x0
  try clear_value x1
  try clear_value x2
  try clear_value x3
  try clear_value x4
  try clear_value x5
  try clear_value x6
  have hx7 : Via A s0 x7 := by
    unfold x7
    refine via_modMem (hA.of rfl) _ (fun _ h => by first | simpa [Mem.sized] using h | simp_all [Mem.sized]) ?_
    exact h
  try clear_value x7
  have hx8 : Via A s0 x8 := by
    unfold x8
    refine via_ite ?_ ?_
    · exact (via_satAdd (hA.of rfl) (via_satAdd (hA.of rfl) hx7 _ _) _ _)
    · exact hx7
  try clear_value x8
  have hx9 : Via A s0 x9 := by
    exact (via_satAdd (hA.of rfl) (via_satAdd (hA.of rfl) hx8 _ _) _ _)
  try clear_value x9
  refine via_ite ?_ ?_
  · refine via_ite ?_ ?_
    · exact hx9
    · refine via_raise (hA.of rfl) ?_ _
      refine via_modMem (hA.of rfl) _ (fun _ h => by first | simpa [Mem.sized] using h | simp_all [Mem.sized]) ?_
      exact hx9
  · exact hx8

theorem via_rdWindow {A : Nat} {s0 : State} (hA : Sub 64 A) {s : State} (h : Via A s0 s) : Via A s0 (State.rdWindow s) := by
  unfold State.rdWindow
  refine via_modMem (hA.of rfl) _ (fun _ h => by first | simpa [Mem.sized] using h | simp_all [Mem.sized]) ?_
  exact h

theorem via_setPostponed {A : Nat} {s0 : State} (hA : Sub 65 A) {s : State} (h : Via A s0 s) (a1 : Nat) (a2 : Nat) : Via A s0 (State.setPostponed s a1 a2) := by
  unfold State.setPostponed
  refine via_peak (hA.of rfl) ?_ _ _
  refine via_modMem (hA.of rfl) _ (fun _ h => by first | simpa [Mem.sized] using h | simp_all [Mem.sized]) ?_
  exact h

theorem via_forcedRefresh {A : Nat} {s0 : State} (hA : Sub 65 A) {s : State} (h : Via A s0 s) (a1 : Nat) : Via A s0 (State.forcedRefresh s a1) := by
  unfold State.forcedRefresh
  exact (via_satAdd (hA.of rfl) (via_setPostponed (hA.of rfl) h _ _) _ _)

theorem via_bankGap {A : Nat} {s0 : State} (hA : Sub 65 A) {s : State} (h : Via A s0 s) (a1 : Nat) : Via A s0 (State.bankGap s a1) := by
  unfold State.bankGap
  refine via_ite ?_ ?_
  · exact (via_forcedRefresh (hA.of rfl) h _)
  · split
    · refine via_modMem (hA.of rfl) _ (fun _ h => by first | simpa [Mem.sized] using h | simp_all [Mem.sized]) ?_
      exact h
    · refine via_ite ?_ ?_
      · exact (via_setPostponed (hA.of rfl) h _ _)
      · exact h

theorem via_refreshDue {A : Nat} {s0 : State} (hA : Sub 65 A) {s : State} (h : Via A s0 s) (a1 : Nat) : Via A s0 (State.refreshDue s a1) := by
  unfold State.refreshDue
  extract_lets x0
  have hx0 : Via A s0 x0 := by
    exact (via_setPostponed (hA.of rfl) h _ _)
  try clear_value x0
  refine via_ite ?_ ?_
  · refine via_ite ?_ ?_
    · exact (via_forcedRefresh (hA.of rfl) hx0 _)
    · exact hx0
  · exact (via_setPostponed (hA.of rfl) h _ _)

theorem via_setCache {A : Nat} {s0 : State} (hA : Sub 64 A) {s : State} (h : Via A s0 s) (a1 : Nat) (a2 : List (Nat × List Nat)) : Via A s0 (State.setCache s a1 a2) := by
  unfold State.setCache
  refine via_modMem (hA.of rfl) _ (fun _ h => by first | simpa [Mem.sized] using h | simp_all [Mem.sized]) ?_
  exact h

theorem via_cacheGroup {A : Nat} {s0 : State} (hA : Sub 7369 A) {s : State} (h : Via A s0 s) (a1 : Nat) (a2 : Nat) (a3 : Nat) : Via A s0 (State.cacheGroup s a1 a2 a3) := by
  unfold State.cacheGroup
  extract_lets x0 x1 x2
  try clear_value x0
  try clear_value x1
  have hx2 : Via A s0 x2 := by
    unfold x2
    refine via_ite ?_ ?_
    · exact h
    · exact (via_activate (hA.of rfl) h _ _)
  try clear_value x2
  refine via_ite ?_ ?_
  · exact h
  · refine via_ite ?_ ?_
    · exact (via_setCache (hA.of rfl) h _ _)
    · exact (via_setCache (hA.of rfl) hx2 _ _)

theorem via_cacheWrite {A : Nat} {s0 : State} (hA : Sub 7369 A) {s : State} (h : Via A s0 s) (a1 : Nat) (a2 : Nat) (a3 : Nat) (a4 : Nat) : Via A s0 (State.cacheWrite s a1 a2 a3 a4) := by
  unfold State.cacheWrite
  extract_lets x0 x1
  have hx0 : Via A s0 x0 := by
    exact (via_cacheGroup (hA.of rfl) h _ _ _)
  try clear_value x0
  try clear_value x1
  refine via_ite ?_ ?_
  · exact (via_activate (hA.of rfl) (via_setCache (hA.of rfl) hx0 _ _) _ _)
  · exact (via_setCache (hA.of rfl) hx0 _ _)

theorem via_eccInfo {A : Nat} {s0 : State} (hA : Sub 1 A) {s : State} (h : Via A s0 s) (a1 : Bool) (a2 : Nat) (a3 : Nat) (a4 : Nat) : Via A s0 (State.eccInfo s a1 a2 a3 a4) := by
  unfold State.eccInfo
  extract_lets x0 x1
  try clear_value x0
  have hx1 : Via A s0 x1 := by
    exact (via_put64 (hA.of rfl) h _ _)
  try clear_value x1
  exact (via_setReg (hA.of rfl) hx1 _ _)

theorem via_eccCorrected {A : Nat} {s0 : State} (hA : Sub 40137 A) {s : State} (h : Via A s0 s) (a1 : Nat) (a2 : Nat) (a3 : Nat) : Via A s0 (State.eccCorrected s a1 a2 a3) := by
  unfold State.eccCorrected
  extract_lets x0 x1
  try clear_value x0
  have hx1 : Via A s0 x1 := by
    exact (via_eccInfo (hA.of rfl) (via_satAdd (hA.of rfl) (via_satAdd (hA.of rfl) h _ _) _ _) _ _ _ _)
  try clear_value x1
  exact (via_arbRaise (hA.of rfl) (via_raise (hA.of rfl) hx1 _) _ _ _ _ _)

theorem via_eccUncorrectable {A : Nat} {s0 : State} (hA : Sub 7305 A) {s : State} (h : Via A s0 s) (a1 : Nat) (a2 : Nat) (a3 : Nat) : Via A s0 (State.eccUncorrectable s a1 a2 a3) := by
  unfold State.eccUncorrectable
  extract_lets x0 x1
  try clear_value x0
  have hx1 : Via A s0 x1 := by
    exact (via_eccInfo (hA.of rfl) (via_satAdd (hA.of rfl) (via_satAdd (hA.of rfl) h _ _) _ _) _ _ _ _)
  try clear_value x1
  exact (via_raise (hA.of rfl) hx1 _)

theorem via_markBad {A : Nat} {s0 : State} (hA : Sub 64 A) {s : State} (h : Via A s0 s) (a1 : List Nat) : Via A s0 (State.markBad s a1) := by
  unfold State.markBad
  refine via_modMem (hA.of rfl) _ (fun _ h => by first | simpa [Mem.sized] using h | simp_all [Mem.sized]) ?_
  exact h

theorem via_eccResult {A : Nat} {s0 : State} (hA : Sub 164033 A) {s : State} (h : Via A s0 s) (a1 : Nat) (a2 : Nat) (a3 : Nat) (a4 : Bool) : Via A s0 (State.eccResult s a1 a2 a3 a4) := by
  unfold State.eccResult
  refine via_ite ?_ ?_
  · refine via_ite ?_ ?_
    · exact (via_markBad (hA.of rfl) h _)
    · exact h
  · refine via_ite ?_ ?_
    · exact (via_markBad (hA.of rfl) h _)
    · refine via_ite ?_ ?_
      · split
        · exact (via_modHolder (hA.of rfl) h _ _)
        · exact h
      · refine via_ite ?_ ?_
        · exact (via_modCodec (hA.of rfl) h _ _)
        · exact h

theorem via_dramAccess {A : Nat} {s0 : State} (hA : Sub 171211 A) {s : State} (h : Via A s0 s) (a1 : Nat) (a2 : Nat) (a3 : Nat) (a4 : Nat) : Via A s0 (State.dramAccess s a1 a2 a3 a4).1 := by
  unfold State.dramAccess
  split
  · refine via_mk_fst ?_
    exact h
  · extract_lets x0
    have hx0 : Via A s0 x0 := by
      exact (via_arbDone (hA.of rfl) h _ _)
    try clear_value x0
    split
    · extract_lets x1 x2 x3 x4 x5 x6 x7 x8 x9 x10 x11 x12 x13 x14 x15 x16
      try clear_value x1
      try clear_value x2
      try clear_value x3
      try clear_value x4
      try clear_value x5
      try clear_value x6
      try clear_value x7
      try clear_value x8
      have hx9 : Via A s0 x9 := by
        unfold x9
        refine via_ite ?_ ?_
        · exact hx0
        · refine via_cacheGroup (hA.of rfl) ?_ _ _ _
          refine via_ite ?_ ?_
          · exact hx0
          · exact (via_activate (hA.of rfl) hx0 _ _)
      try clear_value x9
      have hx10 : Via A s0 x10 := by
        exact (via_activate (hA.of rfl) hx9 _ _)
      try clear_value x10
      try clear_value x11
      have hx12 : Via A s0 x12 := by
        unfold x12
        refine via_ite ?_ ?_
        · exact (via_touchDram (hA.of rfl) hx10 _ _)
        · exact (via_setDram (hA.of rfl) hx10 _ _)
      try clear_value x12
      have hx13 : Via A s0 x13 := by
        unfold x13
        refine via_ite ?_ ?_
        · exact (via_cacheWrite (hA.of rfl) hx12 _ _ _ _)
        · exact hx10
      try clear_value x13
      have hx14 : Via A s0 x14 := by
        unfold x14
        refine via_ite ?_ ?_
        · exact (via_eccCorrected (hA.of rfl) hx13 _ _ _)
        · exact hx13
      try clear_value x14
      have hx15 : Via A s0 x15 := by
        unfold x15
        refine via_ite ?_ ?_
        · exact (via_eccResult (hA.of rfl) (via_eccUncorrectable (hA.of rfl) hx14 _ _ _) _ _ _ _)
        · exact hx14
      try clear_value x15
      have hx16 : Via A s0 x16 := by
        unfold x16
        refine via_ite ?_ ?_
        · refine via_emit (hA.of rfl) ?_ _
          refine via_ite ?_ ?_
          · exact (via_satAdd (hA.of rfl) hx15 _ _)
          · exact hx15
        · exact hx15
      try clear_value x16
      refine via_mk_fst ?_
      exact (via_bankGap (hA.of rfl) hx16 _)
    · refine via_mk_fst ?_
      exact (via_arbDone (hA.of rfl) h _ _)

theorem via_initDone {A : Nat} {s0 : State} (hA : Sub 7369 A) {s : State} (h : Via A s0 s) : Via A s0 (State.initDone s) := by
  unfold State.initDone
  extract_lets x0
  have hx0 : Via A s0 x0 := by
    unfold x0
    refine via_modMem (hA.of rfl) _ (fun _ h => by first | simpa [Mem.sized] using h | simp_all [Mem.sized]) ?_
    exact h
  try clear_value x0
  refine via_ite ?_ ?_
  · exact h
  · exact (via_raise (hA.of rfl) (via_put (hA.of rfl) (via_put (hA.of rfl) hx0 _ _) _ _) _)

theorem via_trained {A : Nat} {s0 : State} (hA : Sub 7369 A) {s : State} (h : Via A s0 s) (a1 : List ChannelTrained) : Via A s0 (State.trained s a1).1 := by
  unfold State.trained
  extract_lets x0 x1 x2 x3 x4 x5 x6 x7 x8 x9
  try clear_value x0
  try clear_value x1
  try clear_value x2
  try clear_value x3
  have hx4 : Via A s0 x4 := by
    unfold x4
    refine via_foldS ?_ ?_ _
    · intro a10 x11 hx11
      split
      · extract_lets x12 x13
        have hx12 : Via A s0 x12 := by
          exact (via_setReg (hA.of rfl) hx11 _ _)
        try clear_value x12
        have hx13 : Via A s0 x13 := by
          exact (via_put (hA.of rfl) hx12 _ _)
        try clear_value x13
        refine via_ite ?_ ?_
        · exact (via_put (hA.of rfl) (via_put (hA.of rfl) hx13 _ _) _ _)
        · exact hx13
      · exact hx11
    · exact h
  try clear_value x4
  have hx5 : Via A s0 x5 := by
    exact (via_put (hA.of rfl) (via_put (hA.of rfl) hx4 _ _) _ _)
  try clear_value x5
  have hx6 : Via A s0 x6 := by
    exact (via_mirror (hA.of rfl) (via_put (hA.of rfl) hx5 _ _))
  try clear_value x6
  try clear_value x7
  have hx8 : Via A s0 x8 := by
    exact (via_put (hA.of rfl) (via_put (hA.of rfl) (via_put (hA.of rfl) hx6 _ _) _ _) _ _)
  try clear_value x8
  have hx9 : Via A s0 x9 := by
    unfold x9
    refine via_initLeft (hA.of rfl) ?_
    refine via_modMem (hA.of rfl) _ (fun _ h => by first | simpa [Mem.sized] using h | simp_all [Mem.sized]) ?_
    exact (via_mirror (hA.of rfl) (via_put (hA.of rfl) hx8 _ _))
  try clear_value x9
  refine via_ite_fst ?_ ?_
  · refine via_mk_fst ?_
    exact hx6
  · refine via_mk_fst ?_
    refine via_ite ?_ ?_
    · exact (via_raise (hA.of rfl) hx9 _)
    · exact hx9

theorem via_mr4 {A : Nat} {s0 : State} (hA : Sub 1 A) {s : State} (h : Via A s0 s) (a1 : Nat) (a2 : Nat) (a3 : Bool) : Via A s0 (State.mr4 s a1 a2 a3) := by
  unfold State.mr4
  extract_lets x0
  have hx0 : Via A s0 x0 := by
    exact (via_put (hA.of rfl) (via_put (hA.of rfl) h _ _) _ _)
  try clear_value x0
  exact (via_put (hA.of rfl) hx0 _ _)

/-! ### Thermal -/

theorem via_measureSite {A : Nat} {s0 : State} (hA : Sub 7337 A) {s : State} (h : Via A s0 s) (a1 : Nat) (a2 : Sys2Proof.SiteSample) : Via A s0 (State.measureSite s a1 a2) := by
  unfold State.measureSite
  extract_lets x0 x1 x2 x3 x4 x5 x6
  try clear_value x0
  try clear_value x1
  try clear_value x2
  have hx3 : Via A s0 x3 := by
    exact (via_modHsk (hA.of rfl) h _)
  try clear_value x3
  have hx4 : Via A s0 x4 := by
    exact (via_put (hA.of rfl) hx3 _ _)
  try clear_value x4
  have hx5 : Via A s0 x5 := by
    exact (via_put (hA.of rfl) hx4 _ _)
  try clear_value x5
  have hx6 : Via A s0 x6 := by
    exact (via_put (hA.of rfl) hx5 _ _)
  try clear_value x6
  refine via_ite ?_ ?_
  · exact (via_raise (hA.of rfl) hx6 _)
  · exact hx6

theorem via_threshold {A : Nat} {s0 : State} (hA : Sub 33 A) {s : State} (h : Via A s0 s) (a1 : Nat) (a2 : Int) : Via A s0 (State.threshold s a1 a2).1 := by
  unfold State.threshold
  extract_lets x0 x1 x2 x3 x4
  try clear_value x0
  try clear_value x1
  try clear_value x2
  try clear_value x3
  have hx4 : Via A s0 x4 := by
    exact (via_modHsk (hA.of rfl) h _)
  try clear_value x4
  refine via_ite_fst ?_ ?_
  · refine via_mk_fst ?_
    exact (via_put (hA.of rfl) hx4 _ _)
  · refine via_ite_fst ?_ ?_
    · refine via_mk_fst ?_
      exact (via_put (hA.of rfl) hx4 _ _)
    · refine via_mk_fst ?_
      exact hx4

theorem via_stepDown {A : Nat} {s0 : State} (hA : Sub 171241 A) {s : State} (h : Via A s0 s) : Via A s0 (State.stepDown s) := by
  unfold State.stepDown
  refine via_ite ?_ ?_
  · exact h
  · exact (via_effUpdate (hA.of rfl) (via_satAdd (hA.of rfl) (via_satAdd (hA.of rfl) h _ _) _ _))

theorem via_stepUp {A : Nat} {s0 : State} (hA : Sub 171241 A) {s : State} (h : Via A s0 s) : Via A s0 (State.stepUp s) := by
  unfold State.stepUp
  refine via_ite ?_ ?_
  · exact h
  · exact (via_effUpdate (hA.of rfl) (via_put (hA.of rfl) h _ _))

theorem via_throttle {A : Nat} {s0 : State} (hA : Sub 171241 A) {s : State} (h : Via A s0 s) (a1 : Int) (a2 : Option Bool) : Via A s0 (State.throttle s a1 a2) := by
  unfold State.throttle
  extract_lets x0
  try clear_value x0
  split
  · exact (via_stepDown (hA.of rfl) (via_modHsk (hA.of rfl) h _))
  · exact (via_modHsk (hA.of rfl) h _)
  · refine via_ite ?_ ?_
    · refine via_ite ?_ ?_
      · refine via_ite ?_ ?_
        · exact (via_stepDown (hA.of rfl) (via_modHsk (hA.of rfl) h _))
        · exact (via_modHsk (hA.of rfl) h _)
      · exact (via_modHsk (hA.of rfl) h _)
    · refine via_ite ?_ ?_
      · refine via_ite ?_ ?_
        · exact (via_stepUp (hA.of rfl) (via_modHsk (hA.of rfl) h _))
        · exact (via_modHsk (hA.of rfl) h _)
      · exact (via_modHsk (hA.of rfl) h _)

theorem via_latchThermal {A : Nat} {s0 : State} (hA : Sub 32 A) {s : State} (h : Via A s0 s) : Via A s0 (State.latchThermal s) := by
  unfold State.latchThermal
  exact (via_modHsk (hA.of rfl) h _)

theorem via_thermalRound {A : Nat} {s0 : State} (hA : Sub 171241 A) {s : State} (h : Via A s0 s) (a1 : List Sys2Proof.SiteSample) : Via A s0 (State.thermalRound s a1).1 := by
  unfold State.thermalRound
  extract_lets x0 x1 x2 x3 x4 x5 x6 x7 x8 x9 x10 x11 x12 x13
  have hx0 : Via A s0 x0 := by
    unfold x0
    refine via_foldS ?_ ?_ _
    · intro a14 x15 hx15
      exact (via_measureSite (hA.of rfl) hx15 _ _)
    · exact h
  try clear_value x0
  try clear_value x1
  try clear_value x2
  have hx3 : Via A s0 x3 := by
    exact (via_put (hA.of rfl) (via_put (hA.of rfl) hx0 _ _) _ _)
  try clear_value x3
  have hx4 : Via A s0 x4 := by
    unfold x4
    refine via_ite ?_ ?_
    · exact (via_put (hA.of rfl) hx3 _ _)
    · exact hx3
  try clear_value x4
  have hx5 : Via A s0 x5 := by
    exact (via_wrapAdd (hA.of rfl) hx4 _ _)
  try clear_value x5
  have hx6 : Via A s0 x6.1 := by
    exact (via_threshold (hA.of rfl) hx5 _ _)
  try clear_value x6
  have hx7 : Via A s0 x7.1 := by
    exact (via_threshold (hA.of rfl) hx6 _ _)
  try clear_value x7
  have hx8 : Via A s0 x8.1 := by
    exact (via_threshold (hA.of rfl) hx7 _ _)
  try clear_value x8
  have hx9 : Via A s0 x9 := by
    exact hx8
  try clear_value x9
  have hx10 : Via A s0 x10 := by
    unfold x10
    split
    · exact (via_raise (hA.of rfl) hx9 _)
    · exact hx9
  try clear_value x10
  have hx11 : Via A s0 x11 := by
    exact (via_throttle (hA.of rfl) hx10 _ _)
  try clear_value x11
  have hx12 : Via A s0 x12 := by
    unfold x12
    split
    · exact (via_raise (hA.of rfl) hx11 _)
    · exact hx11
  try clear_value x12
  have hx13 : Via A s0 x13 := by
    unfold x13
    split
    · exact (via_raise (hA.of rfl) hx12 _)
    · exact hx12
  try clear_value x13
  refine via_mk_fst ?_
  exact (via_latchThermal (hA.of rfl) hx13)

theorem via_lingerExpiry {A : Nat} {s0 : State} (hA : Sub 131233 A) {s : State} (h : Via A s0 s) (a1 : Nat) : Via A s0 (State.lingerExpiry s a1) := by
  unfold State.lingerExpiry
  split
  · refine via_ite ?_ ?_
    · exact (via_setLinger (hA.of rfl) (via_caratRelease (hA.of rfl) h _ _) _ _)
    · exact h
  · exact h

/-! ### Position -/

theorem via_modChan {A : Nat} {s0 : State} (hA : Sub 256 A) {s : State} (h : Via A s0 s) (a1 : Nat) (a2 : Chan → Chan) : Via A s0 (State.modChan s a1 a2) := by
  unfold State.modChan
  refine via_modFire (hA.of rfl) _ (fun _ h => by first | simpa [Fire.sized] using h | simp_all [Fire.sized]) ?_
  exact h

theorem via_setFlags {A : Nat} {s0 : State} (hA : Sub 1 A) {s : State} (h : Via A s0 s) (a1 : Nat) (a2 : Nat) : Via A s0 (State.setFlags s a1 a2) := by
  unfold State.setFlags
  exact (via_put (hA.of rfl) h _ _)

theorem via_chStill {A : Nat} {s0 : State} (hA : Sub 257 A) {s : State} (h : Via A s0 s) (a1 : Nat) : Via A s0 (State.chStill s a1) := by
  unfold State.chStill
  exact (via_modChan (hA.of rfl) (via_setFlags (hA.of rfl) (via_putInt64 (hA.of rfl) h _ _) _ _) _ _)

theorem via_chRestart {A : Nat} {s0 : State} (hA : Sub 257 A) {s : State} (h : Via A s0 s) (a1 : Nat) : Via A s0 (State.chRestart s a1) := by
  unfold State.chRestart
  extract_lets x0 x1
  have hx0 : Via A s0 x0 := by
    exact (via_put (hA.of rfl) (via_put (hA.of rfl) (via_chStill (hA.of rfl) h _) _ _) _ _)
  try clear_value x0
  have hx1 : Via A s0 x1 := by
    exact (via_put (hA.of rfl) hx0 _ _)
  try clear_value x1
  exact (via_modChan (hA.of rfl) hx1 _ _)

theorem via_chFault {A : Nat} {s0 : State} (hA : Sub 7561 A) {s : State} (h : Via A s0 s) (a1 : Nat) : Via A s0 (State.chFault s a1) := by
  unfold State.chFault
  extract_lets x0 x1
  have hx0 : Via A s0 x0 := by
    exact (via_modChan (hA.of rfl) (via_put (hA.of rfl) (via_put (hA.of rfl) (via_chStill (hA.of rfl) h _) _ _) _ _) _ _)
  try clear_value x0
  have hx1 : Via A s0 x1 := by
    exact (via_raise (hA.of rfl) hx0 _)
  try clear_value x1
  refine via_ite ?_ ?_
  · exact (via_raise (hA.of rfl) hx1 _)
  · exact hx1

theorem via_revCount {A : Nat} {s0 : State} (hA : Sub 1 A) {s : State} (h : Via A s0 s) (a1 : Nat) (a2 : Int) : Via A s0 (State.revCount s a1 a2) := by
  unfold State.revCount
  extract_lets x0 x1 x2
  try clear_value x0
  try clear_value x1
  have hx2 : Via A s0 x2 := by
    exact (via_put (hA.of rfl) h _ _)
  try clear_value x2
  refine via_ite ?_ ?_
  · exact h
  · exact (via_put (hA.of rfl) hx2 _ _)

theorem via_refMark {A : Nat} {s0 : State} (hA : Sub 7305 A) {s : State} (h : Via A s0 s) (a1 : Nat) : Via A s0 (State.refMark s a1) := by
  unfold State.refMark
  extract_lets x0 x1 x2 x3 x4
  have hx0 : Via A s0 x0 := by
    exact (via_put (hA.of rfl) h _ _)
  try clear_value x0
  try clear_value x1
  try clear_value x2
  try clear_value x3
  have hx4 : Via A s0 x4 := by
    exact (via_put (hA.of rfl) hx0 _ _)
  try clear_value x4
  refine via_ite ?_ ?_
  · exact hx0
  · refine via_ite ?_ ?_
    · refine via_ite ?_ ?_
      · exact (via_put (hA.of rfl) hx4 _ _)
      · exact hx4
    · refine via_ite ?_ ?_
      · exact (via_raise (hA.of rfl) (via_satAdd (hA.of rfl) hx0 _ _) _)
      · exact hx0

theorem via_webMove {A : Nat} {s0 : State} (hA : Sub 385 A) {s : State} (h : Via A s0 s) (a1 : Nat) (a2 : Int) : Via A s0 (State.webMove s a1 a2) := by
  unfold State.webMove
  extract_lets x0 x1 x2
  try clear_value x0
  have hx1 : Via A s0 x1 := by
    exact (via_put64 (hA.of rfl) h _ _)
  try clear_value x1
  have hx2 : Via A s0 x2 := by
    unfold x2
    refine via_ite ?_ ?_
    · refine via_modPix (hA.of rfl) _ (.inr fun _ => rfl) (.inr fun _ => rfl) (.inr fun _ => by unfold Pix.jobState; rfl) (.inr fun _ => rfl) (fun _ h => by first | simpa [Pix.sized, Img.sized] using h | simp_all [Pix.sized, Img.sized]) ?_
      exact hx1
    · exact hx1
  try clear_value x2
  refine via_ite ?_ ?_
  · refine via_modFire (hA.of rfl) _ (fun _ h => by first | simpa [Fire.sized] using h | simp_all [Fire.sized]) ?_
    exact hx2
  · exact h

theorem via_srcDiff {A : Nat} {s0 : State} (hA : Sub 1 A) {s : State} (h : Via A s0 s) (a1 : Nat) (a2 : Int) : Via A s0 (State.srcDiff s a1 a2) := by
  unfold State.srcDiff
  extract_lets x0 x1
  try clear_value x0
  try clear_value x1
  refine via_ite ?_ ?_
  · exact (via_put (hA.of rfl) h _ _)
  · exact h

theorem via_encoOut {A : Nat} {s0 : State} (hA : Sub 7561 A) {s : State} (h : Via A s0 s) (a1 : Nat) (a2 : Nat) (a3 : Int) : Via A s0 (State.encoOut s a1 a2 a3) := by
  unfold State.encoOut
  extract_lets x0
  try clear_value x0
  split
  · refine via_ite ?_ ?_
    · exact h
    · refine via_ite ?_ ?_
      · exact (via_raise (hA.of rfl) (via_modChan (hA.of rfl) h _ _) _)
      · exact (via_emit (hA.of rfl) (via_modChan (hA.of rfl) h _ _) _)
  · exact h

theorem via_putSpeed {A : Nat} {s0 : State} (hA : Sub 1 A) {s : State} (h : Via A s0 s) (a1 : Nat) (a2 : Bool) : Via A s0 (State.putSpeed s a1 a2) := by
  unfold State.putSpeed
  extract_lets x0 x1
  try clear_value x0
  try clear_value x1
  exact (via_putInt64 (hA.of rfl) h _ _)

theorem via_countEdge {A : Nat} {s0 : State} (hA : Sub 7561 A) {s : State} (h : Via A s0 s) (a1 : Nat) (a2 : Nat) (a3 : Int) (a4 : Bool) : Via A s0 (State.countEdge s a1 a2 a3 a4) := by
  unfold State.countEdge
  extract_lets x0 x1 x2 x3 x4 x5 x6 x7 x8 x9 x10
  try clear_value x0
  try clear_value x1
  try clear_value x2
  have hx3 : Via A s0 x3 := by
    exact (via_revCount (hA.of rfl) (via_putInt64 (hA.of rfl) h _ _) _ _)
  try clear_value x3
  try clear_value x4
  try clear_value x5
  have hx6 : Via A s0 x6 := by
    exact (via_modChan (hA.of rfl) hx3 _ _)
  try clear_value x6
  have hx7 : Via A s0 x7 := by
    unfold x7
    refine via_ite ?_ ?_
    · exact (via_modChan (hA.of rfl) (via_setFlags (hA.of rfl) (via_putInt64 (hA.of rfl) (via_put (hA.of rfl) hx3 _ _) _ _) _ _) _ _)
    · refine via_ite ?_ ?_
      · refine via_ite ?_ ?_
        · exact hx6
        · exact (via_putSpeed (hA.of rfl) (via_setFlags (hA.of rfl) hx6 _ _) _ _)
      · exact (via_modChan (hA.of rfl) (via_setFlags (hA.of rfl) (via_putInt64 (hA.of rfl) (via_put (hA.of rfl) hx3 _ _) _ _) _ _) _ _)
  try clear_value x7
  have hx8 : Via A s0 x8 := by
    exact (via_modChan (hA.of rfl) hx7 _ _)
  try clear_value x8
  have hx9 : Via A s0 x9 := by
    exact (via_srcDiff (hA.of rfl) hx8 _ _)
  try clear_value x9
  have hx10 : Via A s0 x10 := by
    unfold x10
    refine via_ite ?_ ?_
    · exact (via_raise (hA.of rfl) hx9 _)
    · exact hx9
  try clear_value x10
  refine via_ite ?_ ?_
  · exact (via_webMove (hA.of rfl) hx10 _ _)
  · exact hx9

theorem via_encoderEdge {A : Nat} {s0 : State} (hA : Sub 7561 A) {s : State} (h : Via A s0 s) (a1 : Nat) (a2 : Nat) (a3 : Bool) (a4 : Bool) : Via A s0 (State.encoderEdge s a1 a2 a3 a4) := by
  unfold State.encoderEdge
  extract_lets x0 x1 x2 x3 x4 x5 x6 x7 x8 x9 x10 x11 x12 x13
  try clear_value x0
  try clear_value x1
  try clear_value x2
  try clear_value x3
  have hx4 : Via A s0 x4 := by
    exact (via_encoOut (hA.of rfl) (via_countEdge (hA.of rfl) h _ _ _ _) _ _ _)
  try clear_value x4
  try clear_value x5
  try clear_value x6
  try clear_value x7
  try clear_value x8
  try clear_value x9
  try clear_value x10
  try clear_value x11
  have hx12 : Via A s0 x12 := by
    exact (via_encoOut (hA.of rfl) (via_modChan (hA.of rfl) h _ _) _ _ _)
  try clear_value x12
  have hx13 : Via A s0 x13 := by
    exact (via_encoOut (hA.of rfl) (via_countEdge (hA.of rfl) h _ _ _ _) _ _ _)
  try clear_value x13
  refine via_ite ?_ ?_
  · exact h
  · refine via_ite ?_ ?_
    · refine via_ite ?_ ?_
      · exact (via_refMark (hA.of rfl) hx4 _)
      · exact hx4
    · refine via_ite ?_ ?_
      · refine via_ite ?_ ?_
        · refine via_ite ?_ ?_
          · exact (via_refMark (hA.of rfl) hx12 _)
          · exact hx12
        · refine via_ite ?_ ?_
          · refine via_ite ?_ ?_
            · exact (via_refMark (hA.of rfl) hx13 _)
            · exact hx13
          · exact (via_encoOut (hA.of rfl) (via_countEdge (hA.of rfl) h _ _ _ _) _ _ _)
      · exact h

theorem via_adcSlew {A : Nat} {s0 : State} (hA : Sub 289 A) {s : State} (h : Via A s0 s) (a1 : Nat) : Via A s0 (State.adcSlew s a1) := by
  unfold State.adcSlew
  extract_lets x0 x1 x2 x3 x4 x5
  have hx0 : Via A s0 x0 := by
    exact (via_modHsk (hA.of rfl) h _)
  try clear_value x0
  have hx1 : Via A s0 x1 := by
    unfold x1
    refine via_ite ?_ ?_
    · exact hx0
    · exact (via_put (hA.of rfl) hx0 _ _)
  try clear_value x1
  try clear_value x2
  try clear_value x3
  try clear_value x4
  try clear_value x5
  split
  · exact h
  · extract_lets x6
    try clear_value x6
    refine via_ite ?_ ?_
    · exact h
    · exact (via_modChan (hA.of rfl) hx1 _ _)

theorem via_amplitude {A : Nat} {s0 : State} (hA : Sub 7561 A) {s : State} (h : Via A s0 s) (a1 : Nat) (a2 : Int) (a3 : Int) : Via A s0 (State.amplitude s a1 a2 a3) := by
  unfold State.amplitude
  extract_lets x0 x1 x2 x3 x4 x5
  try clear_value x0
  try clear_value x1
  have hx2 : Via A s0 x2 := by
    exact (via_put (hA.of rfl) h _ _)
  try clear_value x2
  try clear_value x3
  have hx4 : Via A s0 x4 := by
    exact (via_modChan (hA.of rfl) hx2 _ _)
  try clear_value x4
  try clear_value x5
  refine via_ite ?_ ?_
  · exact (via_raise (hA.of rfl) (via_put (hA.of rfl) hx4 _ _) _)
  · refine via_ite ?_ ?_
    · exact (via_put (hA.of rfl) hx4 _ _)
    · exact hx4

theorem via_phaseTo {A : Nat} {s0 : State} (hA : Sub 7561 A) {s : State} (h : Via A s0 s) (a1 : Nat) (a2 : Nat) (a3 : Int) : Via A s0 (State.phaseTo s a1 a2 a3) := by
  unfold State.phaseTo
  extract_lets x0 x1 x2 x3 x4 x5
  try clear_value x0
  have hx1 : Via A s0 x1 := by
    exact (via_modChan (hA.of rfl) h _ _)
  try clear_value x1
  try clear_value x2
  try clear_value x3
  try clear_value x4
  have hx5 : Via A s0 x5 := by
    exact (via_encoOut (hA.of rfl) hx1 _ _ _)
  try clear_value x5
  refine via_ite ?_ ?_
  · exact hx5
  · exact (via_countEdge (hA.of rfl) hx5 _ _ _ _)

theorem via_sincosSample {A : Nat} {s0 : State} (hA : Sub 7593 A) {s : State} (h : Via A s0 s) (a1 : Nat) (a2 : Nat) (a3 : Int) (a4 : Int) (a5 : Nat) (a6 : Bool) : Via A s0 (State.sincosSample s a1 a2 a3 a4 a5 a6) := by
  unfold State.sincosSample
  extract_lets x0 x1 x2 x3 x4 x5 x6 x7 x8 x9
  have hx0 : Via A s0 x0 := by
    exact (via_modChan (hA.of rfl) (via_amplitude (hA.of rfl) (via_adcSlew (hA.of rfl) h _) _ _ _) _ _)
  try clear_value x0
  try clear_value x1
  try clear_value x2
  try clear_value x3
  try clear_value x4
  try clear_value x5
  try clear_value x6
  try clear_value x7
  have hx8 : Via A s0 x8 := by
    unfold x8
    refine via_ite ?_ ?_
    · split
      · split
        · exact (via_phaseTo (hA.of rfl) hx0 _ _ _)
        · exact hx0
      · exact (via_modChan (hA.of rfl) (via_put (hA.of rfl) hx0 _ _) _ _)
    · split
      · extract_lets x10 x11
        try clear_value x10
        have hx11 : Via A s0 x11 := by
          exact (via_phaseTo (hA.of rfl) hx0 _ _ _)
        try clear_value x11
        exact (via_modChan (hA.of rfl) (via_put (hA.of rfl) hx11 _ _) _ _)
      · exact (via_modChan (hA.of rfl) (via_put (hA.of rfl) hx0 _ _) _ _)
      · exact (via_modChan (hA.of rfl) hx0 _ _)
      · refine via_ite ?_ ?_
        · exact (via_chFault (hA.of rfl) hx0 _)
        · exact (via_phaseTo (hA.of rfl) (via_modChan (hA.of rfl) hx0 _ _) _ _ _)
  try clear_value x8
  have hx9 : Via A s0 x9 := by
    exact (via_modChan (hA.of rfl) hx8 _ _)
  try clear_value x9
  refine via_ite ?_ ?_
  · exact h
  · refine via_ite ?_ ?_
    · exact (via_refMark (hA.of rfl) hx9 _)
    · exact hx9

theorem via_drLimit {A : Nat} {s0 : State} (hA : Sub 7561 A) {s : State} (h : Via A s0 s) (a1 : Nat) (a2 : Nat) : Via A s0 (State.drLimit s a1 a2) := by
  unfold State.drLimit
  split
  · refine via_ite ?_ ?_
    · exact (via_chFault (hA.of rfl) h _)
    · exact h
  · exact h

theorem via_zeroTimeout {A : Nat} {s0 : State} (hA : Sub 7561 A) {s : State} (h : Via A s0 s) (a1 : Nat) (a2 : Nat) : Via A s0 (State.zeroTimeout s a1 a2) := by
  unfold State.zeroTimeout
  extract_lets x0
  have hx0 : Via A s0 x0 := by
    exact (via_chStill (hA.of rfl) h _)
  try clear_value x0
  split
  · refine via_ite ?_ ?_
    · refine via_ite ?_ ?_
      · exact (via_raise (hA.of rfl) hx0 _)
      · exact hx0
    · exact h
  · exact h

theorem via_triggerEdge {A : Nat} {s0 : State} (hA : Sub 256 A) {s : State} (h : Via A s0 s) (a1 : Nat) (a2 : Nat) (a3 : Bool) : Via A s0 (State.triggerEdge s a1 a2 a3) := by
  unfold State.triggerEdge
  extract_lets x0
  try clear_value x0
  refine via_ite ?_ ?_
  · refine via_modFire (hA.of rfl) _ (fun _ h => by first | simpa [Fire.sized] using h | simp_all [Fire.sized]) ?_
    exact h
  · exact h

theorem via_triggerLatch {A : Nat} {s0 : State} (hA : Sub 7561 A) {s : State} (h : Via A s0 s) (a1 : Nat) (a2 : Nat) : Via A s0 (State.triggerLatch s a1 a2).1 := by
  unfold State.triggerLatch
  extract_lets x0
  have hx0 : Via A s0 x0 := by
    unfold x0
    refine via_modFire (hA.of rfl) _ (fun _ h => by first | simpa [Fire.sized] using h | simp_all [Fire.sized]) ?_
    exact h
  try clear_value x0
  split
  · extract_lets x1 x2 x3 x4
    try clear_value x1
    have hx2 : Via A s0 x2 := by
      exact (via_put64 (hA.of rfl) hx0 _ _)
    try clear_value x2
    have hx3 : Via A s0 x3 := by
      exact (via_put64 (hA.of rfl) (via_put (hA.of rfl) hx2 _ _) _ _)
    try clear_value x3
    have hx4 : Via A s0 x4 := by
      exact (via_wrapAdd (hA.of rfl) hx3 _ _)
    try clear_value x4
    refine via_ite_fst ?_ ?_
    · refine via_mk_fst ?_
      exact h
    · refine via_mk_fst ?_
      exact (via_raise (hA.of rfl) hx4 _)
  · refine via_mk_fst ?_
    exact h

theorem via_posEnable {A : Nat} {s0 : State} (hA : Sub 257 A) {s : State} (h : Via A s0 s) : Via A s0 (State.posEnable s) := by
  unfold State.posEnable
  refine via_foldS ?_ ?_ _
  · intro a0 x1 hx1
    exact (via_chRestart (hA.of rfl) hx1 _)
  · exact h

theorem via_posDisable {A : Nat} {s0 : State} (hA : Sub 256 A) {s : State} (h : Via A s0 s) : Via A s0 (State.posDisable s) := by
  unfold State.posDisable
  refine via_modFire (hA.of rfl) _ (fun _ h => by first | simpa [Fire.sized] using h | simp_all [Fire.sized]) ?_
  exact h

theorem via_webResume {A : Nat} {s0 : State} (hA : Sub 1 A) {s : State} (h : Via A s0 s) : Via A s0 (State.webResume s) := by
  unfold State.webResume
  exact (via_put64 (hA.of rfl) h _ _)

/-! ### Lines -/

theorem via_modClk {A : Nat} {s0 : State} (hA : Sub 256 A) {s : State} (h : Via A s0 s) (a1 : Nat) (a2 : LineClk → LineClk) : Via A s0 (State.modClk s a1 a2) := by
  unfold State.modClk
  refine via_modFire (hA.of rfl) _ (fun _ h => by first | simpa [Fire.sized] using h | simp_all [Fire.sized]) ?_
  exact h

theorem via_modFbar {A : Nat} {s0 : State} (hA : Sub 256 A) {s : State} (h : Via A s0 s) (a1 : Nat) (a2 : FireBar → FireBar) : Via A s0 (State.modFbar s a1 a2) := by
  unfold State.modFbar
  refine via_modFire (hA.of rfl) _ (fun _ h => by first | simpa [Fire.sized] using h | simp_all [Fire.sized]) ?_
  exact h

theorem via_viewDone {A : Nat} {s0 : State} (hA : Sub 128 A) {s : State} (h : Via A s0 s) (a1 : Nat) (a2 : Nat) : Via A s0 (State.viewDone s a1 a2) := by
  unfold State.viewDone
  refine via_modPix (hA.of rfl) _ (.inr fun _ => rfl) (.inr fun _ => rfl) (.inr fun _ => by unfold Pix.jobState; rfl) (.inr fun _ => rfl) (fun _ h => by first | simpa [Pix.sized, Img.sized] using h | simp_all [Pix.sized, Img.sized]) ?_
  exact h

theorem via_putCmp {A : Nat} {s0 : State} (hA : Sub 1 A) {s : State} (h : Via A s0 s) (a1 : Nat) (a2 : Nat) : Via A s0 (State.putCmp s a1 a2) := by
  unfold State.putCmp
  exact (via_setReg (hA.of rfl) (via_put64 (hA.of rfl) h _ _) _ _)

theorem via_modRun {A : Nat} {s0 : State} (hA : Sub 262272 A) {s : State} (h : Via A s0 s) (a1 : Nat) (a2 : BarRun → BarRun) : Via A s0 (State.modRun s a1 a2) := by
  unfold State.modRun
  refine via_modPix (hA.of rfl) _ (.inr fun _ => rfl) (.inr fun _ => rfl) (.inl (hA.of rfl)) (.inr fun _ => rfl) (fun _ h => by first | simpa [Pix.sized, Img.sized] using h | simp_all [Pix.sized, Img.sized]) ?_
  exact h

/-! ### Nozzle -/

theorem via_modNz {A : Nat} {s0 : State} (hA : Sub 128 A) {s : State} (h : Via A s0 s) (a1 : Nat) (a2 : NzcBar → NzcBar) : Via A s0 (State.modNz s a1 a2) := by
  unfold State.modNz
  refine via_modPix (hA.of rfl) _ (.inr fun _ => rfl) (.inr fun _ => rfl) (.inr fun _ => by unfold Pix.jobState; rfl) (.inr fun _ => rfl) (fun _ h => by first | simpa [Pix.sized, Img.sized] using h | simp_all [Pix.sized, Img.sized]) ?_
  exact h

theorem via_noteClamped {A : Nat} {s0 : State} (hA : Sub 7305 A) {s : State} (h : Via A s0 s) (a1 : Nat) (a2 : List (Nat × Bool)) : Via A s0 (State.noteClamped s a1 a2) := by
  unfold State.noteClamped
  extract_lets x0 x1 x2
  try clear_value x0
  try clear_value x1
  have hx2 : Via A s0 x2 := by
    exact (via_put (hA.of rfl) (via_modNz (hA.of rfl) h _ _) _ _)
  try clear_value x2
  split
  · exact (via_raise (hA.of rfl) hx2 _)
  · exact hx2

theorem via_nzcVisit {A : Nat} {s0 : State} (hA : Sub 7305 A) {s : State} (h : Via A s0 s) (a1 : State) (a2 : Nat) (a3 : Nat) : Via A s0 (State.nzcVisit s a1 a2 a3) := by
  unfold State.nzcVisit
  extract_lets x0 x1 x2 x3
  try clear_value x0
  try clear_value x1
  have hx2 : Via A s0 x2 := by
    exact (via_noteClamped (hA.of rfl) h _ _)
  try clear_value x2
  try clear_value x3
  refine via_ite ?_ ?_
  · exact (via_modNz (hA.of rfl) h _ _)
  · refine via_ite ?_ ?_
    · exact (via_modNz (hA.of rfl) hx2 _ _)
    · exact (via_modNz (hA.of rfl) hx2 _ _)

theorem via_nzcPass {A : Nat} {s0 : State} (hA : Sub 7305 A) {s : State} (h : Via A s0 s) (a1 : State) (a2 : Nat) : Via A s0 (State.nzcPass s a1 a2) := by
  unfold State.nzcPass
  extract_lets x0
  try clear_value x0
  refine via_ite ?_ ?_
  · exact h
  · refine via_foldS ?_ ?_ _
    · intro a1 x2 hx2
      exact (via_put (hA.of rfl) hx2 _ _)
    · exact (via_noteClamped (hA.of rfl) h _ _)

theorem via_nzcLand {A : Nat} {s0 : State} (hA : Sub 129 A) {s : State} (h : Via A s0 s) (a1 : Nat) : Via A s0 (State.nzcLand s a1) := by
  unfold State.nzcLand
  extract_lets x0 x1 x2
  try clear_value x0
  have hx1 : Via A s0 x1 := by
    unfold x1
    refine via_foldS ?_ ?_ _
    · intro a3 x4 hx4
      exact (via_put (hA.of rfl) hx4 _ _)
    · exact h
  try clear_value x1
  have hx2 : Via A s0 x2 := by
    unfold x2
    refine via_foldS ?_ ?_ _
    · intro a5 x6 hx6
      exact (via_setReg (hA.of rfl) hx6 _ _)
    · exact hx1
  try clear_value x2
  exact (via_modNz (hA.of rfl) hx2 _ _)

theorem via_nzcHold {A : Nat} {s0 : State} (hA : Sub 128 A) {s : State} (h : Via A s0 s) (a1 : Nat) (a2 : Nat) (a3 : Sys2Proof.Word) : Via A s0 (State.nzcHold s a1 a2 a3) := by
  unfold State.nzcHold
  exact (via_modNz (hA.of rfl) h _ _)

theorem via_autoMiss {A : Nat} {s0 : State} (hA : Sub 7305 A) {s : State} (h : Via A s0 s) (a1 : Nat) (a2 : Nat) (a3 : Nat) : Via A s0 (State.autoMiss s a1 a2 a3) := by
  unfold State.autoMiss
  refine via_ite ?_ ?_
  · exact h
  · exact (via_raise (hA.of rfl) (via_satAdd (hA.of rfl) (via_put (hA.of rfl) h _ _) _ _) _)

theorem via_nzcCount {A : Nat} {s0 : State} (hA : Sub 1 A) {s : State} (h : Via A s0 s) (a1 : Nat) (a2 : List (BitVec 4)) : Via A s0 (State.nzcCount s a1 a2) := by
  unfold State.nzcCount
  refine via_foldl_snd ?_ ?_ _
  · intro x1 a0 hx1
    refine via_mk_snd ?_
    refine via_ite ?_ ?_
    · exact (via_put (hA.of rfl) hx1 _ _)
    · exact hx1
  · refine via_mk_snd ?_
    exact h

theorem via_sweepNozzle {A : Nat} {s0 : State} (hA : Sub 7305 A) {s : State} (h : Via A s0 s) (a1 : State) (a2 : Nat) (a3 : Nat) (a4 : Option Dens) : Via A s0 (State.sweepNozzle s a1 a2 a3 a4).1 := by
  unfold State.sweepNozzle
  extract_lets x0 x1 x2 x3 x4 x5 x6 x7
  try clear_value x0
  try clear_value x1
  try clear_value x2
  try clear_value x3
  have hx4 : Via A s0 x4 := by
    exact (via_put (hA.of rfl) h _ _)
  try clear_value x4
  try clear_value x5
  have hx6 : Via A s0 x6 := by
    exact (via_autoMiss (hA.of rfl) hx4 _ _ _)
  try clear_value x6
  have hx7 : Via A s0 x7 := by
    unfold x7
    refine via_ite ?_ ?_
    · exact (via_modNz (hA.of rfl) hx6 _ _)
    · exact hx6
  try clear_value x7
  split
  · refine via_mk_fst ?_
    exact hx4
  · extract_lets x8
    try clear_value x8
    refine via_ite_fst ?_ ?_
    · refine via_mk_fst ?_
      exact hx7
    · refine via_mk_fst ?_
      exact hx4

theorem via_nzcSweep {A : Nat} {s0 : State} (hA : Sub 7305 A) {s : State} (h : Via A s0 s) (a1 : State) (a2 : Nat) (a3 : Nat) : Via A s0 (State.nzcSweep s a1 a2 a3) := by
  unfold State.nzcSweep
  extract_lets x0 x1 x2
  try clear_value x0
  try clear_value x1
  have hx2 : Via A s0 x2.1 := by
    unfold x2
    refine via_foldl_fst ?_ ?_ _
    · intro x4 a3 hx4
      extract_lets x5
      have hx5 : Via A s0 x5.1 := by
        exact (via_sweepNozzle (hA.of rfl) hx4 _ _ _ _)
      try clear_value x5
      refine via_mk_fst ?_
      exact hx5
    · refine via_mk_fst ?_
      exact h
  try clear_value x2
  exact (via_modNz (hA.of rfl) hx2 _ _)

theorem via_writeChunk {A : Nat} {s0 : State} (hA : Sub 1091 A) {s : State} (h : Via A s0 s) (a1 : Nat) (a2 : Sweep) : Via A s0 (State.writeChunk s a1 a2) := by
  unfold State.writeChunk
  refine via_foldS ?_ ?_ _
  · intro a0 x1 hx1
    exact (via_setDram (hA.of rfl) hx1 _ _)
  · exact h

theorem via_sweepAccess {A : Nat} {s0 : State} (hA : Sub 1219 A) {s : State} (h : Via A s0 s) (a1 : Nat) : Via A s0 (State.sweepAccess s a1) := by
  unfold State.sweepAccess
  split
  · exact h
  · extract_lets x0 x1
    try clear_value x0
    have hx1 : Via A s0 x1 := by
      unfold x1
      refine via_ite ?_ ?_
      · exact (via_writeChunk (hA.of rfl) h _ _)
      · exact h
    try clear_value x1
    exact (via_modNz (hA.of rfl) hx1 _ _)

theorem via_sweepBad {A : Nat} {s0 : State} (hA : Sub 128 A) {s : State} (h : Via A s0 s) (a1 : Nat) (a2 : Nat) : Via A s0 (State.sweepBad s a1 a2) := by
  unfold State.sweepBad
  exact (via_modNz (hA.of rfl) h _ _)

theorem via_nzcDeltas {A : Nat} {s0 : State} (hA : Sub 7305 A) {s : State} (h : Via A s0 s) (a1 : Nat) (a2 : Nat) : Via A s0 (State.nzcDeltas s a1 a2) := by
  unfold State.nzcDeltas
  refine via_foldS ?_ ?_ _
  · intro a0 x1 hx1
    extract_lets x2
    have hx2 : Via A s0 x2 := by
      exact (via_modNz (hA.of rfl) hx1 _ _)
    try clear_value x2
    refine via_ite ?_ ?_
    · refine via_foldS ?_ ?_ _
      · intro a3 x4 hx4
        exact (via_put (hA.of rfl) hx4 _ _)
      · exact hx2
    · exact (via_raise (hA.of rfl) (via_satAdd (hA.of rfl) hx2 _ _) _)
  · exact h

theorem via_takeTemps {A : Nat} {s0 : State} (hA : Sub 7305 A) {s : State} (h : Via A s0 s) (a1 : Nat) (a2 : Nat) (a3 : List (Option Int)) : Via A s0 (State.takeTemps s a1 a2 a3) := by
  unfold State.takeTemps
  extract_lets x0
  have hx0 : Via A s0 x0 := by
    unfold x0
    refine via_foldS ?_ ?_ _
    · intro a1 x2 hx2
      extract_lets x3 x4 x5 x6
      try clear_value x3
      try clear_value x4
      try clear_value x5
      have hx6 : Via A s0 x6 := by
        exact (via_put64 (hA.of rfl) hx2 _ _)
      try clear_value x6
      refine via_ite ?_ ?_
      · exact (via_raise (hA.of rfl) hx6 _)
      · exact hx6
    · exact h
  try clear_value x0
  exact (via_modNz (hA.of rfl) hx0 _ _)

theorem via_nzcTemps {A : Nat} {s0 : State} (hA : Sub 7305 A) {s : State} (h : Via A s0 s) (a1 : Nat) (a2 : Nat) : Via A s0 (State.nzcTemps s a1 a2) := by
  unfold State.nzcTemps
  extract_lets x0 x1 x2
  have hx0 : Via A s0 x0 := by
    unfold x0
    split
    · refine via_ite ?_ ?_
      · exact (via_modNz (hA.of rfl) h _ _)
      · exact h
    · exact h
  try clear_value x0
  try clear_value x1
  have hx2 : Via A s0 x2 := by
    unfold x2
    refine via_ite ?_ ?_
    · exact (via_sendPair (hA.of rfl) hx0 _)
    · exact hx0
  try clear_value x2
  refine via_ite ?_ ?_
  · exact (via_takeTemps (hA.of rfl) hx2 _ _ _)
  · exact hx0

theorem via_nzcNchk {A : Nat} {s0 : State} (hA : Sub 7305 A) {s : State} (h : Via A s0 s) (a1 : State) (a2 : Nat) (a3 : Nat) : Via A s0 (State.nzcNchk s a1 a2 a3) := by
  unfold State.nzcNchk
  extract_lets x0 x1 x2
  try clear_value x0
  have hx1 : Via A s0 x1 := by
    exact (via_modNz (hA.of rfl) h _ _)
  try clear_value x1
  have hx2 : Via A s0 x2 := by
    unfold x2
    refine via_ite ?_ ?_
    · exact (via_sendPair (hA.of rfl) hx1 _)
    · exact hx1
  try clear_value x2
  refine via_ite ?_ ?_
  · exact h
  · refine via_ite ?_ ?_
    · refine via_foldS ?_ ?_ _
      · intro a3 x4 hx4
        exact (via_autoMiss (hA.of rfl) hx4 _ _ _)
      · exact hx2
    · exact hx1

theorem via_densEnd {A : Nat} {s0 : State} (hA : Sub 7305 A) {s : State} (h : Via A s0 s) (a1 : Nat) (a2 : Nat) (a3 : Dens) (a4 : Nat) : Via A s0 (State.densEnd s a1 a2 a3 a4) := by
  unfold State.densEnd
  extract_lets x0 x1 x2
  have hx0 : Via A s0 x0 := by
    exact (via_modNz (hA.of rfl) h _ _)
  try clear_value x0
  have hx1 : Via A s0 x1 := by
    unfold x1
    refine via_ite ?_ ?_
    · exact (via_satAdd (hA.of rfl) hx0 _ _)
    · exact (via_satAdd (hA.of rfl) hx0 _ _)
  try clear_value x1
  have hx2 : Via A s0 x2 := by
    exact (via_descDone (hA.of rfl) hx1 _ _ _)
  try clear_value x2
  refine via_ite ?_ ?_
  · exact (via_raise (hA.of rfl) hx2 _)
  · exact hx2

theorem via_densityReport {A : Nat} {s0 : State} (hA : Sub 7305 A) {s : State} (h : Via A s0 s) (a1 : Nat) : Via A s0 (State.densityReport s a1) := by
  unfold State.densityReport
  refine via_ite ?_ ?_
  · exact h
  · split
    · exact h
    · extract_lets x0 x1 x2 x3 x4 x5
      try clear_value x0
      try clear_value x1
      try clear_value x2
      try clear_value x3
      try clear_value x4
      have hx5 : Via A s0 x5 := by
        exact (via_takeDesc (hA.of rfl) h _ _)
      try clear_value x5
      refine via_ite ?_ ?_
      · exact (via_ringStop (hA.of rfl) (via_densEnd (hA.of rfl) hx5 _ _ _ _) _ _)
      · refine via_ite ?_ ?_
        · exact (via_densEnd (hA.of rfl) hx5 _ _ _ _)
        · exact (via_emit (hA.of rfl) (via_modNz (hA.of rfl) hx5 _ _) _)

theorem via_densResolve {A : Nat} {s0 : State} (hA : Sub 5248 A) {s : State} (h : Via A s0 s) (a1 : Nat) : Via A s0 (State.densResolve s a1) := by
  unfold State.densResolve
  split
  · exact h
  · extract_lets x0
    try clear_value x0
    refine via_ite ?_ ?_
    · exact h
    · refine via_ite ?_ ?_
      · split
        · exact (via_modNz (hA.of rfl) h _ _)
        · exact h
      · refine via_ite ?_ ?_
        · exact h
        · split
          · exact h
          · extract_lets x1 x2
            try clear_value x1
            have hx2 : Via A s0 x2 := by
              exact (via_modNz (hA.of rfl) h _ _)
            try clear_value x2
            refine via_ite ?_ ?_
            · exact (via_sendPair (hA.of rfl) hx2 _)
            · exact hx2

theorem via_densityStaged {A : Nat} {s0 : State} (hA : Sub 5315 A) {s : State} (h : Via A s0 s) (a1 : Nat) (a2 : List Sys2Proof.Byte) : Via A s0 (State.densityStaged s a1 a2) := by
  unfold State.densityStaged
  split
  · exact h
  · extract_lets x0
    have hx0 : Via A s0 x0 := by
      exact (via_setDram (hA.of rfl) h _ _)
    try clear_value x0
    refine via_ite ?_ ?_
    · exact h
    · exact (via_densResolve (hA.of rfl) (via_modNz (hA.of rfl) hx0 _ _) _)

theorem via_nzcDens {A : Nat} {s0 : State} (hA : Sub 7305 A) {s : State} (h : Via A s0 s) (a1 : Nat) (a2 : Nat) : Via A s0 (State.nzcDens s a1 a2) := by
  unfold State.nzcDens
  extract_lets x0
  have hx0 : Via A s0 x0 := by
    exact (via_densResolve (hA.of rfl) h _)
  try clear_value x0
  split
  · exact hx0
  · split
    · exact hx0
    · refine via_ite ?_ ?_
      · refine via_ite ?_ ?_
        · exact (via_modNz (hA.of rfl) hx0 _ _)
        · exact (via_densEnd (hA.of rfl) hx0 _ _ _ _)
      · refine via_ite ?_ ?_
        · exact (via_densEnd (hA.of rfl) (via_put (hA.of rfl) (via_put64 (hA.of rfl) hx0 _ _) _ _) _ _ _ _)
        · exact hx0

theorem via_nzcTold {A : Nat} {s0 : State} (hA : Sub 7305 A) {s : State} (h : Via A s0 s) (a1 : Nat) (a2 : Nat) : Via A s0 (State.nzcTold s a1 a2) := by
  unfold State.nzcTold
  extract_lets x0 x1
  try clear_value x0
  have hx1 : Via A s0 x1 := by
    exact (via_modNz (hA.of rfl) h _ _)
  try clear_value x1
  refine via_foldS ?_ ?_ _
  · intro a2 x3 hx3
    split
    · exact (via_modNz (hA.of rfl) hx3 _ _)
    · refine via_foldS ?_ ?_ _
      · intro a4 x5 hx5
        exact (via_autoMiss (hA.of rfl) hx5 _ _ _)
      · exact hx3
    · exact (via_takeTemps (hA.of rfl) hx3 _ _ _)
    · exact hx3
  · exact hx1

theorem via_nzcBefore {A : Nat} {s0 : State} (hA : Sub 7305 A) {s : State} (h : Via A s0 s) (a1 : Nat) (a2 : Nat) : Via A s0 (State.nzcBefore s a1 a2) := by
  unfold State.nzcBefore
  extract_lets x0 x1 x2
  have hx0 : Via A s0 x0 := by
    exact (via_nzcLand (hA.of rfl) (via_nzcTold (hA.of rfl) h _ _) _)
  try clear_value x0
  have hx1 : Via A s0 x1 := by
    unfold x1
    refine via_ite ?_ ?_
    · exact (via_nzcTemps (hA.of rfl) (via_nzcDeltas (hA.of rfl) hx0 _ _) _ _)
    · exact hx0
  try clear_value x1
  have hx2 : Via A s0 x2 := by
    exact (via_nzcNchk (hA.of rfl) hx1 _ _ _)
  try clear_value x2
  refine via_ite ?_ ?_
  · exact h
  · split
    · refine via_ite ?_ ?_
      · exact (via_nzcPass (hA.of rfl) (via_modNz (hA.of rfl) hx2 _ _) _ _)
      · exact hx2
    · exact hx2

theorem via_nzcAfter {A : Nat} {s0 : State} (hA : Sub 7305 A) {s : State} (h : Via A s0 s) (a1 : Nat) (a2 : Nat) (a3 : Option (List (BitVec 4))) : Via A s0 (State.nzcAfter s a1 a2 a3) := by
  unfold State.nzcAfter
  extract_lets x0 x1
  try clear_value x0
  have hx1 : Via A s0 x1 := by
    unfold x1
    split
    · exact (via_nzcCount (hA.of rfl) h _ _)
    · exact h
  try clear_value x1
  refine via_ite ?_ ?_
  · exact h
  · refine via_ite ?_ ?_
    · exact (via_modNz (hA.of rfl) h _ _)
    · refine via_ite ?_ ?_
      · exact h
      · exact (via_nzcVisit (hA.of rfl) (via_nzcDens (hA.of rfl) (via_nzcSweep (hA.of rfl) hx1 _ _ _) _ _) _ _ _)

theorem via_nzcJobEnd {A : Nat} {s0 : State} (hA : Sub 129 A) {s : State} (h : Via A s0 s) (a1 : Nat) : Via A s0 (State.nzcJobEnd s a1) := by
  unfold State.nzcJobEnd
  extract_lets x0
  have hx0 : Via A s0 x0 := by
    unfold x0
    refine via_foldS ?_ ?_ _
    · intro a1 x2 hx2
      exact (via_setReg (hA.of rfl) hx2 _ _)
    · exact h
  try clear_value x0
  exact (via_modNz (hA.of rfl) hx0 _ _)

theorem via_nzcLoaded {A : Nat} {s0 : State} (hA : Sub 129 A) {s : State} (h : Via A s0 s) : Via A s0 (State.nzcLoaded s) := by
  unfold State.nzcLoaded
  extract_lets x0
  have hx0 : Via A s0 x0 := by
    unfold x0
    refine via_foldS ?_ ?_ _
    · intro a1 x2 hx2
      extract_lets x3
      have hx3 : Via A s0 x3 := by
        unfold x3
        refine via_foldS ?_ ?_ _
        · intro a4 x5 hx5
          extract_lets x6
          try clear_value x6
          exact (via_put (hA.of rfl) (via_put (hA.of rfl) hx5 _ _) _ _)
        · exact hx2
      try clear_value x3
      exact (via_modNz (hA.of rfl) hx3 _ _)
    · exact h
  try clear_value x0
  exact (via_put (hA.of rfl) hx0 _ _)

theorem via_nzcDrained {A : Nat} {s0 : State} (hA : Sub 7371 A) {s : State} (h : Via A s0 s) : Via A s0 (State.nzcDrained s) := by
  unfold State.nzcDrained
  refine via_foldS ?_ ?_ _
  · intro a0 x1 hx1
    extract_lets x2 x3 x4 x5 x6 x7 x8 x9 x10
    have hx2 : Via A s0 x2 := by
      unfold x2
      refine via_foldS ?_ ?_ _
      · intro a11 x12 hx12
        exact (via_writeChunk (hA.of rfl) hx12 _ _)
      · exact hx1
    try clear_value x2
    have hx3 : Via A s0 x3 := by
      exact (via_modNz (hA.of rfl) hx2 _ _)
    try clear_value x3
    try clear_value x4
    try clear_value x5
    try clear_value x6
    try clear_value x7
    try clear_value x8
    have hx9 : Via A s0 x9 := by
      unfold x9
      refine via_foldS ?_ ?_ _
      · intro a13 x14 hx14
        extract_lets x15 x16
        try clear_value x15
        have hx16 : Via A s0 x16.1 := by
          exact (via_sweepNozzle (hA.of rfl) hx14 _ _ _ _)
        try clear_value x16
        exact (via_setDram (hA.of rfl) hx16 _ _)
      · exact hx3
    try clear_value x9
    have hx10 : Via A s0 x10 := by
      unfold x10
      split
      · refine via_ite ?_ ?_
        · exact (via_densEnd (hA.of rfl) (via_put (hA.of rfl) (via_put64 (hA.of rfl) hx9 _ _) _ _) _ _ _ _)
        · refine via_ite ?_ ?_
          · exact hx9
          · exact (via_modNz (hA.of rfl) hx9 _ _)
      · exact hx9
    try clear_value x10
    exact (via_modNz (hA.of rfl) hx10 _ _)
  · exact h

/-! ### Screening -/

theorem via_modScn {A : Nat} {s0 : State} (hA : Sub 128 A) {s : State} (h : Via A s0 s) (a1 : Nat) (a2 : Scn → Scn) : Via A s0 (State.modScn s a1 a2) := by
  unfold State.modScn
  refine via_modPix (hA.of rfl) _ (.inr fun _ => rfl) (.inr fun _ => rfl) (.inr fun _ => by unfold Pix.jobState; rfl) (.inr fun _ => rfl) (fun _ h => by first | simpa [Pix.sized, Img.sized] using h | simp_all [Pix.sized, Img.sized]) ?_
  exact h

theorem via_putFifo {A : Nat} {s0 : State} (hA : Sub 128 A) {s : State} (h : Via A s0 s) (a1 : Nat) (a2 : LineBuf) : Via A s0 (State.putFifo s a1 a2) := by
  unfold State.putFifo
  exact (via_modScn (hA.of rfl) h _ _)

theorem via_screenFirst {A : Nat} {s0 : State} (hA : Sub 7305 A) {s : State} (h : Via A s0 s) (a1 : Nat) (a2 : Nat) : Via A s0 (State.screenFirst s a1 a2) := by
  unfold State.screenFirst
  extract_lets x0 x1 x2 x3 x4 x5
  try clear_value x0
  try clear_value x1
  try clear_value x2
  have hx3 : Via A s0 x3 := by
    exact (via_modScn (hA.of rfl) h _ _)
  try clear_value x3
  have hx4 : Via A s0 x4 := by
    exact (via_put (hA.of rfl) (via_put (hA.of rfl) hx3 _ _) _ _)
  try clear_value x4
  have hx5 : Via A s0 x5 := by
    exact (via_put (hA.of rfl) (via_put (hA.of rfl) (via_put (hA.of rfl) hx4 _ _) _ _) _ _)
  try clear_value x5
  split
  · exact hx5
  · exact (via_raise (hA.of rfl) (via_put (hA.of rfl) (via_modScn (hA.of rfl) hx5 _ _) _ _) _)

theorem via_screenFetch {A : Nat} {s0 : State} (hA : Sub 131200 A) {s : State} (h : Via A s0 s) (a1 : Nat) (a2 : Int) : Via A s0 (State.screenFetch s a1 a2) := by
  unfold State.screenFetch
  extract_lets x0 x1 x2 x3 x4
  try clear_value x0
  try clear_value x1
  try clear_value x2
  have hx3 : Via A s0 x3 := by
    exact (via_modImg (hA.of rfl) h _ _)
  try clear_value x3
  try clear_value x4
  exact (via_modScn (hA.of rfl) hx3 _ _)

theorem via_screenLate {A : Nat} {s0 : State} (hA : Sub 7305 A) {s : State} (h : Via A s0 s) (a1 : Nat) (a2 : Nat) : Via A s0 (State.screenLate s a1 a2) := by
  unfold State.screenLate
  extract_lets x0 x1
  have hx0 : Via A s0 x0 := by
    unfold x0
    split
    · extract_lets x2
      try clear_value x2
      refine via_ite ?_ ?_
      · exact (via_modScn (hA.of rfl) h _ _)
      · exact h
    · exact h
  try clear_value x0
  have hx1 : Via A s0 x1 := by
    exact (via_modScn (hA.of rfl) hx0 _ _)
  try clear_value x1
  exact (via_raise (hA.of rfl) (via_satAdd (hA.of rfl) (via_putFifo (hA.of rfl) hx1 _ _) _ _) _)

theorem via_screenStart {A : Nat} {s0 : State} (hA : Sub 131201 A) {s : State} (h : Via A s0 s) (a1 : State) (a2 : Nat) (a3 : Nat) (a4 : Int) (a5 : Option Nat) : Via A s0 (State.screenStart s a1 a2 a3 a4 a5) := by
  unfold State.screenStart
  extract_lets x0 x1 x2
  have hx0 : Via A s0 x0 := by
    exact (via_put64 (hA.of rfl) h _ _)
  try clear_value x0
  have hx1 : Via A s0 x1 := by
    exact (via_screenFetch (hA.of rfl) hx0 _ _)
  try clear_value x1
  try clear_value x2
  exact (via_modScn (hA.of rfl) hx1 _ _)

theorem via_screenDone {A : Nat} {s0 : State} (hA : Sub 7305 A) {s : State} (h : Via A s0 s) (a1 : Nat) : Via A s0 (State.screenDone s a1) := by
  unfold State.screenDone
  extract_lets x0
  try clear_value x0
  split
  · exact h
  · extract_lets x1 x2 x3 x4 x5 x6 x7 x8 x9 x10 x11 x12
    try clear_value x1
    try clear_value x2
    try clear_value x3
    try clear_value x4
    try clear_value x5
    try clear_value x6
    have hx7 : Via A s0 x7 := by
      exact (via_modScn (hA.of rfl) h _ _)
    try clear_value x7
    have hx8 : Via A s0 x8 := by
      exact (via_put (hA.of rfl) (via_putFifo (hA.of rfl) hx7 _ _) _ _)
    try clear_value x8
    try clear_value x9
    have hx10 : Via A s0 x10 := by
      exact (via_peak (hA.of rfl) (via_put (hA.of rfl) hx8 _ _) _ _)
    try clear_value x10
    have hx11 : Via A s0 x11 := by
      unfold x11
      refine via_ite ?_ ?_
      · exact (via_raise (hA.of rfl) (via_satAdd (hA.of rfl) hx10 _ _) _)
      · exact hx10
    try clear_value x11
    have hx12 : Via A s0 x12 := by
      exact (via_satAdd (hA.of rfl) hx11 _ _)
    try clear_value x12
    refine via_ite ?_ ?_
    · exact h
    · split
      · exact (via_raise (hA.of rfl) hx12 _)
      · exact hx12

theorem via_screenBoundary {A : Nat} {s0 : State} (hA : Sub 138377 A) {s : State} (h : Via A s0 s) (a1 : State) (a2 : Nat) (a3 : Nat) : Via A s0 (State.screenBoundary s a1 a2 a3) := by
  unfold State.screenBoundary
  extract_lets x0
  try clear_value x0
  split
  · exact h
  · extract_lets x1 x2
    have hx1 : Via A s0 x1 := by
      unfold x1
      refine via_ite ?_ ?_
      · exact (via_screenLate (hA.of rfl) h _ _)
      · exact h
    try clear_value x1
    have hx2 : Via A s0 x2 := by
      unfold x2
      refine via_ite ?_ ?_
      · exact (via_screenFirst (hA.of rfl) hx1 _ _)
      · exact hx1
    try clear_value x2
    split
    · exact hx1
    · refine via_ite ?_ ?_
      · exact (via_screenStart (hA.of rfl) hx2 _ _ _ _ _)
      · exact hx1

theorem via_maskCheck {A : Nat} {s0 : State} (hA : Sub 129 A) {s : State} (h : Via A s0 s) (a1 : Nat) : Via A s0 (State.maskCheck s a1) := by
  unfold State.maskCheck
  refine via_ite ?_ ?_
  · exact h
  · refine via_put (hA.of rfl) ?_ _ _
    refine via_modPix (hA.of rfl) _ (.inr fun _ => rfl) (.inr fun _ => rfl) (.inr fun _ => by unfold Pix.jobState; rfl) (.inr fun _ => rfl) (fun _ h => by first | simpa [Pix.sized, Img.sized] using h | simp_all [Pix.sized, Img.sized]) ?_
    exact h

theorem via_maskCheckDone {A : Nat} {s0 : State} (hA : Sub 7305 A) {s : State} (h : Via A s0 s) (a1 : Nat) : Via A s0 (State.maskCheckDone s a1) := by
  unfold State.maskCheckDone
  extract_lets x0 x1
  have hx0 : Via A s0 x0 := by
    unfold x0
    refine via_modPix (hA.of rfl) _ (.inr fun _ => rfl) (.inr fun _ => rfl) (.inr fun _ => by unfold Pix.jobState; rfl) (.inr fun _ => rfl) (fun _ h => by first | simpa [Pix.sized, Img.sized] using h | simp_all [Pix.sized, Img.sized]) ?_
    exact h
  try clear_value x0
  have hx1 : Via A s0 x1 := by
    exact (via_put (hA.of rfl) hx0 _ _)
  try clear_value x1
  refine via_ite ?_ ?_
  · exact (via_raise (hA.of rfl) (via_put (hA.of rfl) hx1 _ _) _)
  · exact h

end Sys2Proof.Machine
end

