-- ==== Sys2Proof/Laws/TouchFire.lean ====
section
/-!
SUPPORT. Sys2Proof/Laws/TouchFire.lean: what the functions for firing, the ZaroLink lanes, calibration, jobs and line clocks touch: one lemma per function, with the mask of the parts of the state that it can change (Laws/Via.lean).
-/
namespace Sys2Proof.Machine

open Sys2Proof

set_option linter.all false

/-! ### Firing -/

theorem via_declareMlp {A : Nat} {s0 : State} (hA : Sub 5377 A) {s : State} (h : Via A s0 s) (a1 : Nat) (a2 : Nat) (a3 : Nat) : Via A s0 (State.declareMlp s a1 a2 a3) := by
  unfold State.declareMlp
  extract_lets x0 x1 x2 x3
  have hx0 : Via A s0 x0 := by
    exact (via_modFbar (hA.of rfl) h _ _)
  try clear_value x0
  have hx1 : Via A s0 x1 := by
    exact (via_put (hA.of rfl) hx0 _ _)
  try clear_value x1
  try clear_value x2
  try clear_value x3
  refine via_ite ?_ ?_
  · exact h
  · refine via_ite ?_ ?_
    · refine via_ite ?_ ?_
      · exact (via_sendPair (hA.of rfl) (via_modFbar (hA.of rfl) hx1 _ _) _)
      · exact (via_modFbar (hA.of rfl) hx1 _ _)
    · exact hx1

theorem via_fitCheck {A : Nat} {s0 : State} (hA : Sub 7561 A) {s : State} (h : Via A s0 s) (a1 : State) (a2 : Nat) (a3 : Nat) : Via A s0 (State.fitCheck s a1 a2 a3) := by
  unfold State.fitCheck
  extract_lets x0 x1 x2
  try clear_value x0
  try clear_value x1
  have hx2 : Via A s0 x2 := by
    exact (via_modFbar (hA.of rfl) h _ _)
  try clear_value x2
  refine via_ite ?_ ?_
  · exact hx2
  · exact (via_raise (hA.of rfl) hx2 _)

theorem via_fireJobStart {A : Nat} {s0 : State} (hA : Sub 7561 A) {s : State} (h : Via A s0 s) (a1 : Nat) : Via A s0 (State.fireJobStart s a1) := by
  unfold State.fireJobStart
  extract_lets x0
  have hx0 : Via A s0 x0 := by
    exact (via_modFbar (hA.of rfl) (via_put (hA.of rfl) h _ _) _ _)
  try clear_value x0
  exact (via_fitCheck (hA.of rfl) hx0 _ _ _)

theorem via_headChange {A : Nat} {s0 : State} (hA : Sub 256 A) {s : State} (h : Via A s0 s) (a1 : Nat) (a2 : Nat) (a3 : Nat) (a4 : Nat) : Via A s0 (State.headChange s a1 a2 a3 a4) := by
  unfold State.headChange
  exact (via_modFbar (hA.of rfl) h _ _)

theorem via_headMeasure {A : Nat} {s0 : State} (hA : Sub 5376 A) {s : State} (h : Via A s0 s) (a1 : Nat) : Via A s0 (State.headMeasure s a1) := by
  unfold State.headMeasure
  extract_lets x0 x1
  try clear_value x0
  try clear_value x1
  refine via_ite ?_ ?_
  · exact h
  · refine via_foldS ?_ ?_ _
    · intro a2 x3 hx3
      extract_lets x4 x5 x6
      try clear_value x4
      have hx5 : Via A s0 x5 := by
        exact (via_modFbar (hA.of rfl) hx3 _ _)
      try clear_value x5
      try clear_value x6
      split
      · exact hx5
      · extract_lets x7
        have hx7 : Via A s0 x7 := by
          exact (via_headChange (hA.of rfl) hx5 _ _ _ _)
        try clear_value x7
        refine via_ite ?_ ?_
        · exact (via_sendPair (hA.of rfl) hx7 _)
        · exact hx7
    · exact h

theorem via_headsLand {A : Nat} {s0 : State} (hA : Sub 7561 A) {s : State} (h : Via A s0 s) (a1 : Nat) (a2 : Nat) : Via A s0 (State.headsLand s a1 a2) := by
  unfold State.headsLand
  refine via_foldS ?_ ?_ _
  · intro a0 x1 hx1
    extract_lets x2 x3
    try clear_value x2
    have hx3 : Via A s0 x3 := by
      exact (via_modFbar (hA.of rfl) hx1 _ _)
    try clear_value x3
    split
    · exact hx1
    · extract_lets x4 x5
      have hx4 : Via A s0 x4 := by
        exact (via_put64 (hA.of rfl) hx3 _ _)
      try clear_value x4
      have hx5 : Via A s0 x5 := by
        exact (via_put64 (hA.of rfl) hx4 _ _)
      try clear_value x5
      refine via_ite ?_ ?_
      · exact hx1
      · refine via_ite ?_ ?_
        · exact hx3
        · exact (via_raise (hA.of rfl) hx5 _)
  · exact h

theorem via_historyChange {A : Nat} {s0 : State} (hA : Sub 5376 A) {s : State} (h : Via A s0 s) (a1 : Nat) (a2 : Bool) : Via A s0 (State.historyChange s a1 a2) := by
  unfold State.historyChange
  extract_lets x0
  try clear_value x0
  refine via_ite ?_ ?_
  · exact h
  · refine via_ite ?_ ?_
    · exact (via_sendPair (hA.of rfl) (via_modFbar (hA.of rfl) h _ _) _)
    · exact (via_modFbar (hA.of rfl) h _ _)

theorem via_swapCmd {A : Nat} {s0 : State} (hA : Sub 5377 A) {s : State} (h : Via A s0 s) (a1 : Nat) : Via A s0 (State.swapCmd s a1) := by
  unfold State.swapCmd
  extract_lets x0 x1 x2
  have hx0 : Via A s0 x0 := by
    exact (via_put (hA.of rfl) h _ _)
  try clear_value x0
  try clear_value x1
  try clear_value x2
  refine via_ite ?_ ?_
  · exact hx0
  · refine via_ite ?_ ?_
    · exact (via_sendPair (hA.of rfl) (via_modClk (hA.of rfl) hx0 _ _) _)
    · exact (via_modClk (hA.of rfl) hx0 _ _)

theorem via_fireValues {A : Nat} {s0 : State} (hA : Sub 7561 A) {s : State} (h : Via A s0 s) (a1 : Nat) (a2 : Nat) : Via A s0 (State.fireValues s a1 a2) := by
  unfold State.fireValues
  extract_lets x0 x1 x2 x3 x4 x5 x6 x7 x8
  have hx0 : Via A s0 x0 := by
    unfold x0
    split
    · refine via_ite ?_ ?_
      · exact (via_modClk (hA.of rfl) (via_put (hA.of rfl) (via_put (hA.of rfl) h _ _) _ _) _ _)
      · exact h
    · exact h
  have hx1 : Via A s0 x1 := by
    unfold x1
    split
    · refine via_ite ?_ ?_
      · exact (via_modFbar (hA.of rfl) hx0 _ _)
      · exact hx0
    · exact hx0
  have hx2 : Via A s0 x2 := by
    exact (via_modFbar (hA.of rfl) hx1 _ _)
  have hx3 : Via A s0 x3 := by
    unfold x3
    split
    · refine via_ite ?_ ?_
      · refine via_ite ?_ ?_
        · exact (via_raise (hA.of rfl) (via_put (hA.of rfl) hx2 _ _) _)
        · exact hx2
      · exact hx1
    · exact hx1
  have hx4 : Via A s0 x4 := by
    exact (via_headsLand (hA.of rfl) hx3 _ _)
  have hx5 : Via A s0 x5 := by
    exact (via_modFbar (hA.of rfl) hx4 _ _)
  have hx7 : Via A s0 x7 := by
    exact (via_put (hA.of rfl) (via_put (hA.of rfl) hx5 _ _) _ _)
  have hx8 : Via A s0 x8 := by
    exact (via_put (hA.of rfl) hx7 _ _)
  refine via_ite ?_ ?_
  · exact (via_fitCheck (hA.of rfl) hx8 _ _ _)
  · exact hx8

theorem via_fireLine {A : Nat} {s0 : State} (hA : Sub 7561 A) {s : State} (h : Via A s0 s) (a1 : State) (a2 : Nat) (a3 : Nat) (a4 : Commit) (a5 : Sent) : Via A s0 (State.fireLine s a1 a2 a3 a4 a5).1 := by
  unfold State.fireLine
  extract_lets x0 x1 x2 x3 x4
  have hx0 : Via A s0 x0 := by
    exact (via_wrapAdd (hA.of rfl) h _ _)
  try clear_value x0
  have hx1 : Via A s0 x1 := by
    unfold x1
    refine via_ite ?_ ?_
    · exact hx0
    · exact (via_peak (hA.of rfl) (via_satAdd (hA.of rfl) hx0 _ _) _ _)
  try clear_value x1
  have hx2 : Via A s0 x2 := by
    unfold x2
    refine via_ite ?_ ?_
    · exact (via_raise (hA.of rfl) (via_satAdd (hA.of rfl) (via_satAdd (hA.of rfl) hx1 _ _) _ _) _)
    · exact hx1
  try clear_value x2
  have hx3 : Via A s0 x3 := by
    unfold x3
    refine via_ite ?_ ?_
    · exact (via_satAdd (hA.of rfl) hx2 _ _)
    · exact hx2
  try clear_value x3
  try clear_value x4
  refine via_ite_fst ?_ ?_
  · refine via_mk_fst ?_
    exact (via_satAdd (hA.of rfl) h _ _)
  · split
    · refine via_mk_fst ?_
      exact (via_raise (hA.of rfl) (via_satAdd (hA.of rfl) h _ _) _)
    · refine via_mk_fst ?_
      exact (via_modFbar (hA.of rfl) hx3 _ _)

theorem via_sendLine {A : Nat} {s0 : State} (hA : Sub 257 A) {s : State} (h : Via A s0 s) (a1 : Nat) (a2 : Nat) : Via A s0 (State.sendLine s a1 a2) := by
  unfold State.sendLine
  extract_lets x0
  try clear_value x0
  split
  · exact (via_modFbar (hA.of rfl) h _ _)
  · extract_lets x1 x2
    try clear_value x1
    try clear_value x2
    exact (via_modFbar (hA.of rfl) (via_satAdd (hA.of rfl) h _ _) _ _)

theorem via_fireEdge {A : Nat} {s0 : State} (hA : Sub 69897 A) {s : State} (h : Via A s0 s) (a1 : Nat) (a2 : Nat) : Via A s0 (State.fireEdge s a1 a2) := by
  unfold State.fireEdge
  extract_lets x0
  try clear_value x0
  split
  · exact h
  · refine via_ite ?_ ?_
    · exact (via_modFbar (hA.of rfl) h _ _)
    · exact (via_emit (hA.of rfl) (via_setPad (hA.of rfl) (via_modFbar (hA.of rfl) h _ _) _ _) _)

theorem via_pulseOff {A : Nat} {s0 : State} (hA : Sub 69897 A) {s : State} (h : Via A s0 s) (a1 : Pulse) (a2 : Nat) : Via A s0 (State.pulseOff s a1 a2) := by
  unfold State.pulseOff
  extract_lets x0 x1 x2
  try clear_value x0
  have hx1 : Via A s0 x1 := by
    exact (via_modFbar (hA.of rfl) h _ _)
  try clear_value x1
  have hx2 : Via A s0 x2 := by
    exact (via_emit (hA.of rfl) (via_setPad (hA.of rfl) hx1 _ _) _)
  try clear_value x2
  exact (via_padUpdate (hA.of rfl) hx2 _)

theorem via_pulseEnd {A : Nat} {s0 : State} (hA : Sub 69897 A) {s : State} (h : Via A s0 s) (a1 : Nat) (a2 : Nat) : Via A s0 (State.pulseEnd s a1 a2) := by
  unfold State.pulseEnd
  split
  · exact h
  · exact (via_pulseOff (hA.of rfl) h _ _)

theorem via_strobeCut {A : Nat} {s0 : State} (hA : Sub 73097 A) {s : State} (h : Via A s0 s) (a1 : Nat) (a2 : Nat) : Via A s0 (State.strobeCut s a1 a2) := by
  unfold State.strobeCut
  extract_lets x0
  try clear_value x0
  split
  · exact h
  · extract_lets x1 x2
    have hx1 : Via A s0 x1 := by
      exact (via_pulseOff (hA.of rfl) h _ _)
    try clear_value x1
    have hx2 : Via A s0 x2 := by
      exact (via_modFbar (hA.of rfl) (via_satAdd (hA.of rfl) (via_put (hA.of rfl) hx1 _ _) _ _) _ _)
    try clear_value x2
    exact (via_raise (hA.of rfl) hx2 _)

theorem via_captureArm {A : Nat} {s0 : State} (hA : Sub 257 A) {s : State} (h : Via A s0 s) (a1 : Nat) : Via A s0 (State.captureArm s a1) := by
  unfold State.captureArm
  extract_lets x0 x1
  have hx0 : Via A s0 x0 := by
    exact (via_put (hA.of rfl) (via_put (hA.of rfl) (via_put (hA.of rfl) h _ _) _ _) _ _)
  try clear_value x0
  try clear_value x1
  exact (via_modFbar (hA.of rfl) hx0 _ _)

theorem via_captureData {A : Nat} {s0 : State} (hA : Sub 4353 A) {s : State} (h : Via A s0 s) (a1 : Nat) (a2 : Nat) (a3 : List Sys2Proof.Byte) : Via A s0 (State.captureData s a1 a2 a3).1 := by
  unfold State.captureData
  refine via_ite_fst ?_ ?_
  · refine via_mk_fst ?_
    exact (via_hostWrite (hA.of rfl) h _ _)
  · refine via_ite_fst ?_ ?_
    · refine via_mk_fst ?_
      exact (via_modFbar (hA.of rfl) h _ _)
    · refine via_mk_fst ?_
      exact (via_put (hA.of rfl) h _ _)

theorem via_captureFlush {A : Nat} {s0 : State} (hA : Sub 4352 A) {s : State} (h : Via A s0 s) (a1 : Nat) : Via A s0 (State.captureFlush s a1) := by
  unfold State.captureFlush
  refine via_ite ?_ ?_
  · refine via_foldS ?_ ?_ _
    · intro a0 x1 hx1
      exact (via_hostWrite (hA.of rfl) hx1 _ _)
    · exact (via_modFbar (hA.of rfl) h _ _)
  · exact h

theorem via_captureSeg {A : Nat} {s0 : State} (hA : Sub 7561 A) {s : State} (h : Via A s0 s) (a1 : Nat) (a2 : Nat) (a3 : Nat) (a4 : Commit) (a5 : Sent) (a6 : Bool) : Via A s0 (State.captureSeg s a1 a2 a3 a4 a5 a6) := by
  unfold State.captureSeg
  extract_lets x0 x1 x2
  try clear_value x0
  have hx1 : Via A s0 x1.1 := by
    exact (via_captureData (hA.of rfl) h _ _ _)
  try clear_value x1
  try clear_value x2
  exact (via_putRecord (hA.of rfl) hx1 _ _)

theorem via_captureLine {A : Nat} {s0 : State} (hA : Sub 7561 A) {s : State} (h : Via A s0 s) (a1 : Nat) (a2 : Commit) (a3 : Sent) (a4 : Bool) : Via A s0 (State.captureLine s a1 a2 a3 a4) := by
  unfold State.captureLine
  split
  · exact h
  · extract_lets x0 x1 x2 x3 x4
    try clear_value x0
    try clear_value x1
    have hx2 : Via A s0 x2 := by
      unfold x2
      refine via_foldS ?_ ?_ _
      · intro a5 x6 hx6
        exact (via_captureSeg (hA.of rfl) hx6 _ _ _ _ _ _)
      · exact h
    try clear_value x2
    try clear_value x3
    have hx4 : Via A s0 x4 := by
      exact (via_put (hA.of rfl) hx2 _ _)
    try clear_value x4
    refine via_ite ?_ ?_
    · exact h
    · refine via_ite ?_ ?_
      · exact (via_raise (hA.of rfl) (via_modFbar (hA.of rfl) (via_put (hA.of rfl) hx4 _ _) _ _) _)
      · exact (via_modFbar (hA.of rfl) hx4 _ _)

/-! ### ZlFrames -/

theorem via_modLane {A : Nat} {s0 : State} (hA : Sub 512 A) {s : State} (h : Via A s0 s) (a1 : Nat) (a2 : ZLane → ZLane) : Via A s0 (State.modLane s a1 a2) := by
  unfold State.modLane
  refine via_modZl (hA.of rfl) _ (fun _ h => by first | simpa [Zl.sized] using h | simp_all [Zl.sized]) ?_
  exact h

theorem via_lanesActive {A : Nat} {s0 : State} (hA : Sub 1 A) {s : State} (h : Via A s0 s) : Via A s0 (State.lanesActive s) := by
  unfold State.lanesActive
  exact (via_put (hA.of rfl) h _ _)

theorem via_setLaneState {A : Nat} {s0 : State} (hA : Sub 1 A) {s : State} (h : Via A s0 s) (a1 : Nat) (a2 : Nat) : Via A s0 (State.setLaneState s a1 a2) := by
  unfold State.setLaneState
  exact (via_lanesActive (hA.of rfl) (via_put (hA.of rfl) h _ _))

theorem via_laneEvent {A : Nat} {s0 : State} (hA : Sub 7305 A) {s : State} (h : Via A s0 s) (a1 : Nat) (a2 : Nat) (a3 : Option Nat) (a4 : List Sys2Proof.Byte) : Via A s0 (State.laneEvent s a1 a2 a3 a4) := by
  unfold State.laneEvent
  exact (via_raise (hA.of rfl) h _)

theorem via_sendHeader {A : Nat} {s0 : State} (hA : Sub 4608 A) {s : State} (h : Via A s0 s) (a1 : Nat) (a2 : Nat) (a3 : ZFrame) : Via A s0 (State.sendHeader s a1 a2 a3) := by
  unfold State.sendHeader
  extract_lets x0
  try clear_value x0
  exact (via_emit (hA.of rfl) (via_modLane (hA.of rfl) h _ _) _)

theorem via_sendReplay {A : Nat} {s0 : State} (hA : Sub 4609 A) {s : State} (h : Via A s0 s) (a1 : Nat) (a2 : Nat) (a3 : Nat) (a4 : ZFrame) : Via A s0 (State.sendReplay s a1 a2 a3 a4) := by
  unfold State.sendReplay
  extract_lets x0
  try clear_value x0
  exact (via_emit (hA.of rfl) (via_satAdd (hA.of rfl) (via_modLane (hA.of rfl) h _ _) _ _) _)

theorem via_sendControl {A : Nat} {s0 : State} (hA : Sub 4608 A) {s : State} (h : Via A s0 s) (a1 : Nat) (a2 : Nat) (a3 : ZCtl) : Via A s0 (State.sendControl s a1 a2 a3) := by
  unfold State.sendControl
  extract_lets x0 x1
  try clear_value x0
  try clear_value x1
  exact (via_emit (hA.of rfl) (via_modLane (hA.of rfl) h _ _) _)

theorem via_zlNext {A : Nat} {s0 : State} (hA : Sub 4609 A) {s : State} (h : Via A s0 s) (a1 : Nat) : Via A s0 (State.zlNext s a1) := by
  unfold State.zlNext
  extract_lets x0 x1
  try clear_value x0
  have hx1 : ∀ b0, Via A s0 (x1 b0) := by
    intro b0
    unfold x1
    split
    · extract_lets x3
      try clear_value x3
      refine via_ite ?_ ?_
      · exact (via_sendControl (hA.of rfl) h _ _ _)
      · exact h
    · exact h
  try clear_value x1
  refine via_ite ?_ ?_
  · split
    · exact (via_sendControl (hA.of rfl) h _ _ _)
    · exact h
  · refine via_ite ?_ ?_
    · exact h
    · split
      · exact (hx1 _)
      · refine via_ite ?_ ?_
        · exact (via_sendHeader (hA.of rfl) h _ _ _)
        · refine via_ite ?_ ?_
          · exact (hx1 _)
          · split
            · extract_lets x4
              try clear_value x4
              refine via_ite ?_ ?_
              · exact (via_sendHeader (hA.of rfl) (via_satAdd (hA.of rfl) h _ _) _ _ _)
              · exact (hx1 _)
            · split
              · extract_lets x5 x6
                try clear_value x5
                try clear_value x6
                refine via_ite ?_ ?_
                · exact (via_sendReplay (hA.of rfl) h _ _ _ _)
                · exact (hx1 _)
              · exact (hx1 _)

theorem via_queueControl {A : Nat} {s0 : State} (hA : Sub 4609 A) {s : State} (h : Via A s0 s) (a1 : Nat) (a2 : Nat) (a3 : List Sys2Proof.Byte) (a4 : Bool) : Via A s0 (State.queueControl s a1 a2 a3 a4) := by
  unfold State.queueControl
  extract_lets x0
  try clear_value x0
  exact (via_zlNext (hA.of rfl) (via_modLane (hA.of rfl) h _ _) _)

theorem via_telemCfg {A : Nat} {s0 : State} (hA : Sub 4609 A) {s : State} (h : Via A s0 s) (a1 : Nat) : Via A s0 (State.telemCfg s a1) := by
  unfold State.telemCfg
  exact (via_queueControl (hA.of rfl) h _ _ _ _)

theorem via_zlCut {A : Nat} {s0 : State} (hA : Sub 4609 A) {s : State} (h : Via A s0 s) (a1 : Nat) (a2 : Nat) : Via A s0 (State.zlCut s a1 a2) := by
  unfold State.zlCut
  refine via_foldS ?_ ?_ _
  · intro a0 x1 hx1
    exact (via_queueControl (hA.of rfl) hx1 _ _ _ _)
  · exact h

theorem via_zlDropped {A : Nat} {s0 : State} (hA : Sub 512 A) {s : State} (h : Via A s0 s) (a1 : Nat) (a2 : Nat) : Via A s0 (State.zlDropped s a1 a2) := by
  unfold State.zlDropped
  refine via_foldS ?_ ?_ _
  · intro a0 x1 hx1
    exact (via_modLane (hA.of rfl) hx1 _ _)
  · exact h

theorem via_freshCrcs {A : Nat} {s0 : State} (hA : Sub 8192 A) {s : State} (h : Via A s0 s) : Via A s0 (State.freshCrcs s).2 := by
  unfold State.freshCrcs
  refine via_foldl_snd ?_ ?_ _
  · intro x1 a0 hx1
    extract_lets x2
    have hx2 : Via A s0 x2.2 := by
      exact (via_freshWord (hA.of rfl) hx1)
    try clear_value x2
    refine via_mk_snd ?_
    exact hx2
  · refine via_mk_snd ?_
    exact h

theorem via_zlFrame {A : Nat} {s0 : State} (hA : Sub 12801 A) {s : State} (h : Via A s0 s) (a1 : State) (a2 : Nat) (a3 : Nat) (a4 : Nat) (a5 : Sent) (a6 : Bool) (a7 : Bool) : Via A s0 (State.zlFrame s a1 a2 a3 a4 a5 a6 a7) := by
  unfold State.zlFrame
  extract_lets x0 x1 x2 x3 x4 x5 x6 x7 x8 x9
  try clear_value x0
  try clear_value x1
  try clear_value x2
  have hx3 : Via A s0 x3 := by
    exact (via_modLane (hA.of rfl) h _ _)
  try clear_value x3
  try clear_value x4
  try clear_value x5
  have hx6 : Via A s0 x6.2 := by
    exact (via_freshCrcs (hA.of rfl) hx3)
  try clear_value x6
  try clear_value x7
  try clear_value x8
  try clear_value x9
  refine via_ite ?_ ?_
  · exact (via_modLane (hA.of rfl) (via_satAdd (hA.of rfl) hx6 _ _) _ _)
  · exact (via_emit (hA.of rfl) (via_emit (hA.of rfl) (via_modLane (hA.of rfl) hx3 _ _) _) _)

theorem via_spareTurn {A : Nat} {s0 : State} (hA : Sub 512 A) {s : State} (h : Via A s0 s) (a1 : Nat) (a2 : Nat) : Via A s0 (State.spareTurn s a1 a2) := by
  unfold State.spareTurn
  extract_lets x0
  try clear_value x0
  refine via_ite ?_ ?_
  · refine via_modZl (hA.of rfl) _ (fun _ h => by first | simpa [Zl.sized] using h | simp_all [Zl.sized]) ?_
    exact h
  · exact h

theorem via_zlIdle {A : Nat} {s0 : State} (hA : Sub 4609 A) {s : State} (h : Via A s0 s) (a1 : Nat) : Via A s0 (State.zlIdle s a1) := by
  unfold State.zlIdle
  exact (via_zlNext (hA.of rfl) (via_modLane (hA.of rfl) h _ _) _)

theorem via_zlTransmit {A : Nat} {s0 : State} (hA : Sub 12801 A) {s : State} (h : Via A s0 s) (a1 : State) (a2 : Nat) (a3 : Nat) (a4 : Sent) (a5 : Bool) (a6 : Bool) : Via A s0 (State.zlTransmit s a1 a2 a3 a4 a5 a6) := by
  unfold State.zlTransmit
  extract_lets x0
  have hx0 : Via A s0 x0 := by
    exact (via_spareTurn (hA.of rfl) h _ _)
  try clear_value x0
  refine via_foldS ?_ ?_ _
  · intro a1 x2 hx2
    extract_lets x3
    try clear_value x3
    refine via_ite ?_ ?_
    · exact (via_satAdd (hA.of rfl) hx2 _ _)
    · refine via_ite ?_ ?_
      · exact (via_zlFrame (hA.of rfl) hx2 _ _ _ _ _ _ _)
      · exact (via_satAdd (hA.of rfl) hx2 _ _)
  · exact hx0

/-! ### Calibration -/

theorem via_putPend {A : Nat} {s0 : State} (hA : Sub 1 A) {s : State} (h : Via A s0 s) (a1 : Nat) (a2 : Nat) (a3 : Bool) : Via A s0 (State.putPend s a1 a2 a3) := by
  unfold State.putPend
  exact (via_setBit (hA.of rfl) h _ _ _)

theorem via_calOverdueFlag {A : Nat} {s0 : State} (hA : Sub 1 A) {s : State} (h : Via A s0 s) (a1 : Nat) : Via A s0 (State.calOverdueFlag s a1) := by
  unfold State.calOverdueFlag
  exact (via_put (hA.of rfl) h _ _)

theorem via_calPend {A : Nat} {s0 : State} (hA : Sub 33 A) {s : State} (h : Via A s0 s) (a1 : Nat) (a2 : Nat) (a3 : Nat) : Via A s0 (State.calPend s a1 a2 a3) := by
  unfold State.calPend
  refine via_ite ?_ ?_
  · exact (via_modHsk (hA.of rfl) h _)
  · refine via_ite ?_ ?_
    · exact h
    · exact (via_modHsk (hA.of rfl) (via_put (hA.of rfl) (via_putPend (hA.of rfl) h _ _ _) _ _) _)

theorem via_calUnpend {A : Nat} {s0 : State} (hA : Sub 33 A) {s : State} (h : Via A s0 s) (a1 : Nat) (a2 : Nat) : Via A s0 (State.calUnpend s a1 a2) := by
  unfold State.calUnpend
  exact (via_calOverdueFlag (hA.of rfl) (via_modHsk (hA.of rfl) (via_putPend (hA.of rfl) h _ _ _) _) _)

theorem via_calReleased {A : Nat} {s0 : State} (hA : Sub 32 A) {s : State} (h : Via A s0 s) : Via A s0 (State.calReleased s) := by
  unfold State.calReleased
  exact (via_modHsk (hA.of rfl) h _)

theorem via_calInit {A : Nat} {s0 : State} (hA : Sub 33 A) {s : State} (h : Via A s0 s) (a1 : Nat) : Via A s0 (State.calInit s a1) := by
  unfold State.calInit
  extract_lets x0
  have hx0 : ∀ b0 b1, Via A s0 b1 → Via A s0 (x0 b0 b1) := by
    intro b0 b1 hb1
    unfold x0
    refine via_foldS ?_ ?_ _
    · intro a2 x3 hx3
      exact (via_calPend (hA.of rfl) hx3 _ _ _)
    · exact hb1
  try clear_value x0
  refine via_ite ?_ ?_
  · exact h
  · refine via_ite ?_ ?_
    · exact (hx0 _ _ (hx0 _ _ h))
    · refine via_ite ?_ ?_
      · exact (hx0 _ _ h)
      · exact h

theorem via_calLane {A : Nat} {s0 : State} (hA : Sub 33 A) {s : State} (h : Via A s0 s) (a1 : Nat) : Via A s0 (State.calLane s a1) := by
  unfold State.calLane
  refine via_ite ?_ ?_
  · exact (via_calPend (hA.of rfl) h _ _ _)
  · exact h

theorem via_calTemp {A : Nat} {s0 : State} (hA : Sub 33 A) {s : State} (h : Via A s0 s) : Via A s0 (State.calTemp s) := by
  unfold State.calTemp
  refine via_foldS ?_ ?_ _
  · intro a0 x1 hx1
    extract_lets x2
    try clear_value x2
    refine via_ite ?_ ?_
    · refine via_foldS ?_ ?_ _
      · intro a3 x4 hx4
        exact (via_calPend (hA.of rfl) hx4 _ _ _)
      · exact hx1
    · exact hx1
  · exact h

theorem via_calBegin {A : Nat} {s0 : State} (hA : Sub 33 A) {s : State} (h : Via A s0 s) (a1 : CalRun) : Via A s0 (State.calBegin s a1) := by
  unfold State.calBegin
  exact (via_modHsk (hA.of rfl) (via_setBit (hA.of rfl) (via_calUnpend (hA.of rfl) h _ _) _ _ _) _)

theorem via_calUnitStart {A : Nat} {s0 : State} (hA : Sub 33 A) {s : State} (h : Via A s0 s) (a1 : Nat) (a2 : Nat) : Via A s0 (State.calUnitStart s a1 a2) := by
  unfold State.calUnitStart
  refine via_ite ?_ ?_
  · exact h
  · split
    · refine via_ite ?_ ?_
      · exact (via_modHsk (hA.of rfl) h _)
      · exact h
    · refine via_ite ?_ ?_
      · exact h
      · refine via_ite ?_ ?_
        · split
          · exact (via_calBegin (hA.of rfl) h _)
          · exact h
        · exact (via_calBegin (hA.of rfl) h _)

theorem via_adcFitDone {A : Nat} {s0 : State} (hA : Sub 32 A) {s : State} (h : Via A s0 s) (a1 : Nat) : Via A s0 (State.adcFitDone s a1) := by
  unfold State.adcFitDone
  split
  · refine via_ite ?_ ?_
    · exact (via_modHsk (hA.of rfl) h _)
    · exact h
  · exact h

theorem via_calForcedAt {A : Nat} {s0 : State} (hA : Sub 288 A) {s : State} (h : Via A s0 s) (a1 : Nat) (a2 : Nat) (a3 : Nat) : Via A s0 (State.calForcedAt s a1 a2 a3) := by
  unfold State.calForcedAt
  exact (via_modHsk (hA.of rfl) (via_modClk (hA.of rfl) h _ _) _)

theorem via_calForceUnit {A : Nat} {s0 : State} (hA : Sub 5409 A) {s : State} (h : Via A s0 s) (a1 : Nat) (a2 : Nat) : Via A s0 (State.calForceUnit s a1 a2) := by
  unfold State.calForceUnit
  extract_lets x0 x1 x2 x3 x4
  have hx0 : Via A s0 x0 := by
    exact (via_calBegin (hA.of rfl) h _)
  try clear_value x0
  try clear_value x1
  try clear_value x2
  try clear_value x3
  try clear_value x4
  split
  · refine via_ite ?_ ?_
    · exact (via_modHsk (hA.of rfl) h _)
    · refine via_ite ?_ ?_
      · exact (via_modHsk (hA.of rfl) h _)
      · exact h
  · refine via_ite ?_ ?_
    · exact (via_calPend (hA.of rfl) h _ _ _)
    · refine via_ite ?_ ?_
      · refine via_ite ?_ ?_
        · exact (via_calForcedAt (hA.of rfl) hx0 _ _ _)
        · refine via_ite ?_ ?_
          · exact (via_sendPair (hA.of rfl) (via_calForcedAt (hA.of rfl) hx0 _ _ _) _)
          · exact hx0
      · exact (via_calBegin (hA.of rfl) h _)

theorem via_calCmd {A : Nat} {s0 : State} (hA : Sub 5409 A) {s : State} (h : Via A s0 s) (a1 : Nat) (a2 : Nat) (a3 : Bool) (a4 : Bool) (a5 : Bool) : Via A s0 (State.calCmd s a1 a2 a3 a4 a5) := by
  unfold State.calCmd
  extract_lets x0 x1 x2
  try clear_value x0
  have hx1 : Via A s0 x1 := by
    unfold x1
    refine via_ite ?_ ?_
    · refine via_foldS ?_ ?_ _
      · intro a3 x4 hx4
        exact (via_calUnpend (hA.of rfl) hx4 _ _)
      · exact h
    · exact h
  try clear_value x1
  have hx2 : Via A s0 x2 := by
    unfold x2
    refine via_ite ?_ ?_
    · refine via_foldS ?_ ?_ _
      · intro a5 x6 hx6
        exact (via_calForceUnit (hA.of rfl) hx6 _ _)
      · exact hx1
    · exact hx1
  try clear_value x2
  refine via_ite ?_ ?_
  · refine via_foldS ?_ ?_ _
    · intro a7 x8 hx8
      exact (via_calPend (hA.of rfl) hx8 _ _ _)
    · exact hx2
  · exact hx2

theorem via_calForcedStart {A : Nat} {s0 : State} (hA : Sub 32 A) {s : State} (h : Via A s0 s) (a1 : Nat) (a2 : Nat) (a3 : Nat) : Via A s0 (State.calForcedStart s a1 a2 a3) := by
  unfold State.calForcedStart
  exact (via_modHsk (hA.of rfl) h _)

theorem via_calHeldFlag {A : Nat} {s0 : State} (hA : Sub 1 A) {s : State} (h : Via A s0 s) (a1 : Nat) : Via A s0 (State.calHeldFlag s a1) := by
  unfold State.calHeldFlag
  exact (via_put (hA.of rfl) h _ _)

theorem via_calApply {A : Nat} {s0 : State} (hA : Sub 289 A) {s : State} (h : Via A s0 s) (a1 : Nat) (a2 : Nat) (a3 : List (Nat × Sys2Proof.Word)) (a4 : Option Nat) : Via A s0 (State.calApply s a1 a2 a3 a4) := by
  unfold State.calApply
  extract_lets x0 x1 x2 x3 x4 x5 x6
  try clear_value x0
  try clear_value x1
  try clear_value x2
  have hx3 : Via A s0 x3 := by
    unfold x3
    refine via_foldS ?_ ?_ _
    · intro a7 x8 hx8
      exact (via_setReg (hA.of rfl) hx8 _ _)
    · exact h
  try clear_value x3
  try clear_value x4
  have hx5 : Via A s0 x5 := by
    exact (via_modChan (hA.of rfl) hx3 _ _)
  try clear_value x5
  try clear_value x6
  refine via_ite ?_ ?_
  · refine via_ite ?_ ?_
    · exact (via_calHeldFlag (hA.of rfl) (via_modHsk (hA.of rfl) hx3 _) _)
    · exact hx3
  · refine via_ite ?_ ?_
    · refine via_ite ?_ ?_
      · exact (via_calHeldFlag (hA.of rfl) (via_modHsk (hA.of rfl) hx5 _) _)
      · exact hx5
    · exact hx3

theorem via_calItemDone {A : Nat} {s0 : State} (hA : Sub 7337 A) {s : State} (h : Via A s0 s) (a1 : Nat) : Via A s0 (State.calItemDone s a1) := by
  unfold State.calItemDone
  extract_lets x0 x1 x2
  try clear_value x0
  have hx1 : Via A s0 x1 := by
    exact (via_wrapAdd (hA.of rfl) h _ _)
  try clear_value x1
  have hx2 : Via A s0 x2 := by
    exact (via_put (hA.of rfl) (via_put64 (hA.of rfl) hx1 _ _) _ _)
  try clear_value x2
  refine via_ite ?_ ?_
  · exact (via_raise (hA.of rfl) (via_modHsk (hA.of rfl) hx2 _) _)
  · exact h

theorem via_calEnd {A : Nat} {s0 : State} (hA : Sub 33 A) {s : State} (h : Via A s0 s) (a1 : CalRun) : Via A s0 (State.calEnd s a1) := by
  unfold State.calEnd
  extract_lets x0 x1
  try clear_value x0
  have hx1 : Via A s0 x1 := by
    exact (via_modHsk (hA.of rfl) (via_setBit (hA.of rfl) h _ _ _) _)
  try clear_value x1
  split
  · exact (via_calPend (hA.of rfl) hx1 _ _ _)
  · exact hx1

theorem via_calAbandon {A : Nat} {s0 : State} (hA : Sub 33 A) {s : State} (h : Via A s0 s) (a1 : CalRun) : Via A s0 (State.calAbandon s a1) := by
  unfold State.calAbandon
  extract_lets x0 x1
  try clear_value x0
  have hx1 : Via A s0 x1 := by
    exact (via_modHsk (hA.of rfl) (via_setBit (hA.of rfl) h _ _ _) _)
  try clear_value x1
  exact (via_calPend (hA.of rfl) hx1 _ _ _)

theorem via_calJobStart {A : Nat} {s0 : State} (hA : Sub 33 A) {s : State} (h : Via A s0 s) (a1 : List Nat) : Via A s0 (State.calJobStart s a1) := by
  unfold State.calJobStart
  refine via_foldS ?_ ?_ _
  · intro a0 x1 hx1
    exact (via_calAbandon (hA.of rfl) hx1 _)
  · exact h

theorem via_calIslandReset {A : Nat} {s0 : State} (hA : Sub 33 A) {s : State} (h : Via A s0 s) (a1 : Nat) : Via A s0 (State.calIslandReset s a1) := by
  unfold State.calIslandReset
  extract_lets x0 x1 x2 x3
  try clear_value x0
  have hx1 : Via A s0 x1 := by
    unfold x1
    refine via_foldS ?_ ?_ _
    · intro a4 x5 hx5
      exact (via_calAbandon (hA.of rfl) hx5 _)
    · exact h
  try clear_value x1
  have hx2 : Via A s0 x2 := by
    exact (via_modHsk (hA.of rfl) hx1 _)
  try clear_value x2
  have hx3 : Via A s0 x3 := by
    exact (via_calHeldFlag (hA.of rfl) (via_calHeldFlag (hA.of rfl) hx2 _) _)
  try clear_value x3
  refine via_ite ?_ ?_
  · exact h
  · exact (via_clearRegs (hA.of rfl) hx3 _)

theorem via_trackLost {A : Nat} {s0 : State} (hA : Sub 7305 A) {s : State} (h : Via A s0 s) (a1 : Nat) : Via A s0 (State.trackLost s a1) := by
  unfold State.trackLost
  refine via_ite ?_ ?_
  · exact h
  · exact (via_raise (hA.of rfl) (via_put (hA.of rfl) h _ _) _)

theorem via_trackResults {A : Nat} {s0 : State} (hA : Sub 7305 A) {s : State} (h : Via A s0 s) (a1 : Bool) (a2 : List (Nat × Sys2Proof.Word)) : Via A s0 (State.trackResults s a1 a2) := by
  unfold State.trackResults
  refine via_ite ?_ ?_
  · refine via_foldS ?_ ?_ _
    · intro a0 x1 hx1
      extract_lets x2
      have hx2 : Via A s0 x2 := by
        exact (via_put (hA.of rfl) hx1 _ _)
      try clear_value x2
      refine via_ite ?_ ?_
      · exact (via_setReg (hA.of rfl) hx2 _ _)
      · exact (via_trackLost (hA.of rfl) hx2 _)
    · exact h
  · refine via_foldS ?_ ?_ _
    · intro a3 x4 hx4
      exact (via_trackLost (hA.of rfl) hx4 _)
    · exact h

theorem via_calUnitComplete {A : Nat} {s0 : State} (hA : Sub 15785 A) {s : State} (h : Via A s0 s) (a1 : Nat) (a2 : Nat) (a3 : Bool) (a4 : List Sys2Proof.Word) : Via A s0 (State.calUnitComplete s a1 a2 a3 a4) := by
  unfold State.calUnitComplete
  extract_lets x0 x1 x2 x3 x4 x5
  try clear_value x0
  try clear_value x1
  try clear_value x2
  have hx3 : Via A s0 x3 := by
    exact (via_modHsk (hA.of rfl) h _)
  try clear_value x3
  have hx4 : Via A s0 x4 := by
    unfold x4
    refine via_ite ?_ ?_
    · exact (via_trackResults (hA.of rfl) hx3 _ _)
    · exact hx3
  try clear_value x4
  have hx5 : Via A s0 x5.2 := by
    exact (via_freshBytes (hA.of rfl) hx4 _)
  try clear_value x5
  split
  · exact h
  · extract_lets x6 x7
    try clear_value x6
    have hx7 : Via A s0 x7 := by
      unfold x7
      refine via_ite ?_ ?_
      · exact (via_calApply (hA.of rfl) (via_setBit (hA.of rfl) hx4 _ _ _) _ _ _ _)
      · exact (via_raise (hA.of rfl) (via_setBit (hA.of rfl) hx5 _ _ _) _)
    try clear_value x7
    refine via_ite ?_ ?_
    · exact h
    · refine via_ite ?_ ?_
      · exact h
      · exact (via_calItemDone (hA.of rfl) (via_calEnd (hA.of rfl) hx7 _) _)

theorem via_calOverdue {A : Nat} {s0 : State} (hA : Sub 7337 A) {s : State} (h : Via A s0 s) (a1 : Nat) (a2 : Nat) : Via A s0 (State.calOverdue s a1 a2) := by
  unfold State.calOverdue
  split
  · refine via_ite ?_ ?_
    · exact (via_raise (hA.of rfl) (via_calOverdueFlag (hA.of rfl) (via_modHsk (hA.of rfl) h _) _) _)
    · exact h
  · exact h

theorem via_calWrite {A : Nat} {s0 : State} (hA : Sub 289 A) {s : State} (h : Via A s0 s) (a1 : Nat) (a2 : Sys2Proof.Word) : Via A s0 (State.calWrite s a1 a2).1 := by
  unfold State.calWrite
  split
  · refine via_mk_fst ?_
    exact h
  · refine via_ite_fst ?_ ?_
    · refine via_mk_fst ?_
      exact h
    · refine via_ite_fst ?_ ?_
      · refine via_mk_fst ?_
        exact h
      · refine via_mk_fst ?_
        exact (via_calApply (hA.of rfl) h _ _ _ _)

theorem via_calBoundary {A : Nat} {s0 : State} (hA : Sub 33 A) {s : State} (h : Via A s0 s) (a1 : Bool) (a2 : Nat) (a3 : Nat) : Via A s0 (State.calBoundary s a1 a2 a3) := by
  unfold State.calBoundary
  extract_lets x0 x1
  try clear_value x0
  try clear_value x1
  refine via_ite ?_ ?_
  · exact (via_calHeldFlag (hA.of rfl) (via_modHsk (hA.of rfl) h _) _)
  · exact h

/-! ### Jobs -/

theorem via_jobDone {A : Nat} {s0 : State} (hA : Sub 6145 A) {s : State} (h : Via A s0 s) (a1 : Nat) (a2 : Nat) (a3 : Nat) (a4 : Nat) : Via A s0 (State.jobDone s a1 a2 a3 a4) := by
  unfold State.jobDone
  exact (via_descDone (hA.of rfl) h _ _ _)

theorem via_jobInvalid {A : Nat} {s0 : State} (hA : Sub 7305 A) {s : State} (h : Via A s0 s) (a1 : Nat) (a2 : Desc) : Via A s0 (State.jobInvalid s a1 a2) := by
  unfold State.jobInvalid
  exact (via_ringStop (hA.of rfl) (via_jobDone (hA.of rfl) (via_takeDesc (hA.of rfl) h _ _) _ _ _ _) _ _)

theorem via_modJob {A : Nat} {s0 : State} (hA : Sub 262272 A) {s : State} (h : Via A s0 s) (a1 : Nat) (a2 : Job → Job) : Via A s0 (State.modJob s a1 a2) := by
  unfold State.modJob
  refine via_modPix (hA.of rfl) _ (.inr fun _ => rfl) (.inr fun _ => rfl) (.inl (hA.of rfl)) (.inr fun _ => rfl) (fun _ h => by first | simpa [Pix.sized, Img.sized] using h | simp_all [Pix.sized, Img.sized]) ?_
  exact h

theorem via_devJobStep {A : Nat} {s0 : State} (hA : Sub 69897 A) {s : State} (h : Via A s0 s) : Via A s0 (State.devJobStep s) := by
  unfold State.devJobStep
  extract_lets x0
  have hx0 : Via A s0 x0 := by
    unfold x0
    refine via_ite ?_ ?_
    · refine via_modAux (hA.of rfl) _ (.inr fun _ => by unfold Aux.power; rfl) (.inr fun _ => by unfold Aux.waits; rfl) (.inr fun _ => rfl) (.inr fun _ => rfl) (fun _ h => by first | simpa [Aux.sized] using h | simp_all [Aux.sized]) ?_
      exact (via_setReg (hA.of rfl) (via_setReg (hA.of rfl) h _ _) _ _)
    · exact h
  try clear_value x0
  split
  · refine via_ite ?_ ?_
    · exact h
    · exact (via_enterDev (hA.of rfl) h _)
  · refine via_ite ?_ ?_
    · exact (via_enterDev (hA.of rfl) h _)
    · refine via_ite ?_ ?_
      · exact (via_enterDev (hA.of rfl) h _)
      · exact h
  · refine via_ite ?_ ?_
    · exact (via_enterDev (hA.of rfl) h _)
    · exact h
  · refine via_ite ?_ ?_
    · exact (via_enterDev (hA.of rfl) hx0 _)
    · exact h
  · exact h

theorem via_devJobs {A : Nat} {s0 : State} (hA : Sub 69897 A) {s : State} (h : Via A s0 s) : Via A s0 (State.devJobs s) := by
  unfold State.devJobs
  exact (via_devJobStep (hA.of rfl) (via_devJobStep (hA.of rfl) h))

theorem via_compareBehind {A : Nat} {s0 : State} (hA : Sub 7305 A) {s : State} (h : Via A s0 s) (a1 : Nat) (a2 : Nat) (a3 : Nat) : Via A s0 (State.compareBehind s a1 a2 a3) := by
  unfold State.compareBehind
  exact (via_raise (hA.of rfl) (via_satAdd (hA.of rfl) h _ _) _)

theorem via_setFirst {A : Nat} {s0 : State} (hA : Sub 269449 A) {s : State} (h : Via A s0 s) (a1 : Nat) (a2 : Nat) : Via A s0 (State.setFirst s a1 a2) := by
  unfold State.setFirst
  split
  · exact h
  · extract_lets x0 x1 x2
    try clear_value x0
    try clear_value x1
    have hx2 : Via A s0 x2 := by
      exact (via_modRun (hA.of rfl) h _ _)
    try clear_value x2
    refine via_ite ?_ ?_
    · exact hx2
    · exact (via_compareBehind (hA.of rfl) hx2 _ _ _)

theorem via_resolveFirst {A : Nat} {s0 : State} (hA : Sub 269449 A) {s : State} (h : Via A s0 s) (a1 : Nat) : Via A s0 (State.resolveFirst s a1) := by
  unfold State.resolveFirst
  split
  · exact h
  · extract_lets x0 x1 x2 x3
    try clear_value x0
    try clear_value x1
    try clear_value x2
    have hx3 : Via A s0 x3 := by
      exact (via_setFirst (hA.of rfl) h _ _)
    try clear_value x3
    refine via_ite ?_ ?_
    · exact h
    · refine via_ite ?_ ?_
      · exact (via_sendPair (hA.of rfl) hx3 _)
      · exact hx3

theorem via_resolveEnd {A : Nat} {s0 : State} (hA : Sub 262272 A) {s : State} (h : Via A s0 s) (a1 : Nat) : Via A s0 (State.resolveEnd s a1) := by
  unfold State.resolveEnd
  split
  · exact h
  · split
    · extract_lets x0
      try clear_value x0
      refine via_ite ?_ ?_
      · exact (via_modRun (hA.of rfl) h _ _)
      · exact h
    · exact h

theorem via_jobFinish {A : Nat} {s0 : State} (hA : Sub 334217 A) {s : State} (h : Via A s0 s) (a1 : Nat) (a2 : Option Nat) : Via A s0 (State.jobFinish s a1 a2) := by
  unfold State.jobFinish
  extract_lets x0
  have hx0 : Via A s0 x0 := by
    unfold x0
    refine via_modPix (hA.of rfl) _ (.inr fun _ => rfl) (.inr fun _ => rfl) (.inl (hA.of rfl)) (.inr fun _ => rfl) (fun _ h => by first | simpa [Pix.sized, Img.sized] using h | simp_all [Pix.sized, Img.sized]) ?_
    exact h
  try clear_value x0
  split
  · exact h
  · extract_lets x1 x2 x3 x4 x5
    try clear_value x1
    have hx2 : Via A s0 x2 := by
      unfold x2
      refine via_ite ?_ ?_
      · refine via_modHost (hA.of rfl) _ (fun _ h => by first | simpa [HostIf.sized] using h | simp_all [HostIf.sized]) ?_
        exact hx0
      · exact hx0
    try clear_value x2
    have hx3 : Via A s0 x3 := by
      unfold x3
      split
      · exact (via_jobDone (hA.of rfl) hx2 _ _ _ _)
      · exact hx2
    try clear_value x3
    have hx4 : Via A s0 x4 := by
      unfold x4
      split
      · exact (via_jobDone (hA.of rfl) hx3 _ _ _ _)
      · exact hx3
    try clear_value x4
    have hx5 : Via A s0 x5 := by
      unfold x5
      split
      · exact (via_jobDone (hA.of rfl) hx4 _ _ _ _)
      · exact hx4
    try clear_value x5
    exact (via_devJobs (hA.of rfl) hx5)

theorem via_screenRelease {A : Nat} {s0 : State} (hA : Sub 33 A) {s : State} (h : Via A s0 s) (a1 : Nat) : Via A s0 (State.screenRelease s a1) := by
  unfold State.screenRelease
  refine via_ite ?_ ?_
  · exact (via_caratWithdraw (hA.of rfl) h _)
  · exact h

theorem via_endBar {A : Nat} {s0 : State} (hA : Sub 498153 A) {s : State} (h : Via A s0 s) (a1 : Nat) (a2 : Bool) : Via A s0 (State.endBar s a1 a2) := by
  unfold State.endBar
  split
  · exact h
  · extract_lets x0 x1 x2 x3 x4 x5
    try clear_value x0
    have hx1 : Via A s0 x1 := by
      exact (via_modJob (hA.of rfl) h _ _)
    try clear_value x1
    have hx2 : Via A s0 x2 := by
      exact (via_screenRelease (hA.of rfl) (via_nzcJobEnd (hA.of rfl) (via_imgJobEnd (hA.of rfl) hx1 _) _) _)
    try clear_value x2
    have hx3 : Via A s0 x3 := by
      exact (via_modScn (hA.of rfl) hx2 _ _)
    try clear_value x3
    have hx4 : Via A s0 x4 := by
      exact (via_modFbar (hA.of rfl) hx3 _ _)
    try clear_value x4
    have hx5 : Via A s0 x5 := by
      unfold x5
      refine via_modPix (hA.of rfl) _ (.inr fun _ => rfl) (.inr fun _ => rfl) (.inl (hA.of rfl)) (.inr fun _ => rfl) (fun _ h => by first | simpa [Pix.sized, Img.sized] using h | simp_all [Pix.sized, Img.sized]) ?_
      exact hx4
    try clear_value x5
    refine via_ite ?_ ?_
    · exact (via_jobFinish (hA.of rfl) hx5 _ _)
    · exact hx5

theorem via_endJob {A : Nat} {s0 : State} (hA : Sub 498153 A) {s : State} (h : Via A s0 s) (a1 : Nat) (a2 : Option Nat) : Via A s0 (State.endJob s a1 a2) := by
  unfold State.endJob
  extract_lets x0
  have hx0 : Via A s0 x0 := by
    unfold x0
    refine via_foldS ?_ ?_ _
    · intro a1 x2 hx2
      extract_lets x3 x4 x5
      have hx3 : Via A s0 x3 := by
        exact (via_screenRelease (hA.of rfl) (via_nzcJobEnd (hA.of rfl) (via_imgJobEnd (hA.of rfl) hx2 _) _) _)
      try clear_value x3
      have hx4 : Via A s0 x4 := by
        exact (via_modScn (hA.of rfl) hx3 _ _)
      try clear_value x4
      have hx5 : Via A s0 x5 := by
        exact (via_modFbar (hA.of rfl) hx4 _ _)
      try clear_value x5
      refine via_modPix (hA.of rfl) _ (.inr fun _ => rfl) (.inr fun _ => rfl) (.inl (hA.of rfl)) (.inr fun _ => rfl) (fun _ h => by first | simpa [Pix.sized, Img.sized] using h | simp_all [Pix.sized, Img.sized]) ?_
      exact hx5
    · exact h
  try clear_value x0
  exact (via_jobFinish (hA.of rfl) hx0 _ _)

theorem via_stopJob {A : Nat} {s0 : State} (hA : Sub 498153 A) {s : State} (h : Via A s0 s) (a1 : Nat) : Via A s0 (State.stopJob s a1) := by
  unfold State.stopJob
  split
  · exact h
  · refine via_ite ?_ ?_
    · exact (via_endJob (hA.of rfl) h _ _)
    · refine via_foldS ?_ ?_ _
      · intro a0 x1 hx1
        refine via_ite ?_ ?_
        · exact (via_modRun (hA.of rfl) hx1 _ _)
        · exact (via_endBar (hA.of rfl) hx1 _ _)
      · exact h

theorem via_stopAll {A : Nat} {s0 : State} (hA : Sub 498153 A) {s : State} (h : Via A s0 s) : Via A s0 (State.stopAll s) := by
  unfold State.stopAll
  extract_lets x0 x1
  have hx0 : Via A s0 x0 := by
    unfold x0
    refine via_foldS ?_ ?_ _
    · intro a2 x3 hx3
      exact (via_stopJob (hA.of rfl) (via_modJob (hA.of rfl) hx3 _ _) _)
    · exact h
  try clear_value x0
  have hx1 : Via A s0 x1 := by
    exact (via_devJobs (hA.of rfl) hx0)
  try clear_value x1
  refine via_ite ?_ ?_
  · exact (via_enterDev (hA.of rfl) hx1 _)
  · exact hx1

theorem via_stopBarAt {A : Nat} {s0 : State} (hA : Sub 498153 A) {s : State} (h : Via A s0 s) (a1 : Nat) (a2 : Nat) : Via A s0 (State.stopBarAt s a1 a2) := by
  unfold State.stopBarAt
  split
  · exact h
  · extract_lets x0 x1 x2
    have hx0 : Via A s0 x0 := by
      exact (via_modJob (hA.of rfl) h _ _)
    try clear_value x0
    have hx1 : Via A s0 x1 := by
      unfold x1
      split
      · refine via_ite ?_ ?_
        · exact (via_endJob (hA.of rfl) hx0 _ _)
        · refine via_ite ?_ ?_
          · exact (via_modRun (hA.of rfl) hx0 _ _)
          · exact (via_endBar (hA.of rfl) hx0 _ _)
      · exact hx0
    try clear_value x1
    have hx2 : Via A s0 x2 := by
      exact (via_devJobs (hA.of rfl) hx1)
    try clear_value x2
    refine via_ite ?_ ?_
    · exact (via_enterDev (hA.of rfl) hx2 _)
    · exact hx2

theorem via_jobsReset {A : Nat} {s0 : State} (hA : Sub 498153 A) {s : State} (h : Via A s0 s) : Via A s0 (State.jobsReset s) := by
  unfold State.jobsReset
  refine via_foldS ?_ ?_ _
  · intro a0 x1 hx1
    split
    · exact hx1
    · extract_lets x2
      try clear_value x2
      exact (via_endJob (hA.of rfl) (via_modJob (hA.of rfl) hx1 _ _) _ _)
  · exact h

theorem via_jobRingOff {A : Nat} {s0 : State} (hA : Sub 498153 A) {s : State} (h : Via A s0 s) (a1 : Nat) : Via A s0 (State.jobRingOff s a1) := by
  unfold State.jobRingOff
  extract_lets x0
  have hx0 : Via A s0 x0 := by
    unfold x0
    split
    · refine via_ite ?_ ?_
      · exact h
      · exact (via_endJob (hA.of rfl) h _ _)
    · exact h
  try clear_value x0
  refine via_foldS ?_ ?_ _
  · intro a1 x2 hx2
    exact (via_jobDone (hA.of rfl) hx2 _ _ _ _)
  · exact hx0

theorem via_startConsume {A : Nat} {s0 : State} (hA : Sub 335273 A) {s : State} (h : Via A s0 s) (a1 : Nat) (a2 : Desc) : Via A s0 (State.startConsume s a1 a2) := by
  unfold State.startConsume
  extract_lets x0 x1 x2 x3 x4 x5
  have hx0 : Via A s0 x0 := by
    exact (via_takeDesc (hA.of rfl) h _ _)
  try clear_value x0
  have hx1 : Via A s0 x1 := by
    unfold x1
    refine via_modHost (hA.of rfl) _ (fun _ h => by first | simpa [HostIf.sized] using h | simp_all [HostIf.sized]) ?_
    exact hx0
  try clear_value x1
  try clear_value x2
  try clear_value x3
  have hx4 : Via A s0 x4 := by
    unfold x4
    refine via_calJobStart (hA.of rfl) ?_ _
    refine via_modPix (hA.of rfl) _ (.inr fun _ => rfl) (.inr fun _ => rfl) (.inl (hA.of rfl)) (.inr fun _ => rfl) (fun _ h => by first | simpa [Pix.sized, Img.sized] using h | simp_all [Pix.sized, Img.sized]) ?_
    exact hx1
  try clear_value x4
  have hx5 : Via A s0 x5 := by
    unfold x5
    refine via_foldS ?_ ?_ _
    · intro a6 x7 hx7
      extract_lets x8 x9 x10 x11
      try clear_value x8
      have hx9 : Via A s0 x9 := by
        unfold x9
        refine via_modPix (hA.of rfl) _ (.inr fun _ => rfl) (.inr fun _ => rfl) (.inl (hA.of rfl)) (.inr fun _ => rfl) (fun _ h => by first | simpa [Pix.sized, Img.sized] using h | simp_all [Pix.sized, Img.sized]) ?_
        exact hx7
      try clear_value x9
      have hx10 : Via A s0 x10 := by
        exact (via_fireJobStart (hA.of rfl) hx9 _)
      try clear_value x10
      have hx11 : Via A s0 x11 := by
        exact (via_modNz (hA.of rfl) hx10 _ _)
      try clear_value x11
      exact (via_resolveFirst (hA.of rfl) (via_caratRequest (hA.of rfl) hx11 _ _ _ _) _)
    · exact hx4
  try clear_value x5
  exact (via_devJobs (hA.of rfl) hx5)

theorem via_jobStart {A : Nat} {s0 : State} (hA : Sub 335273 A) {s : State} (h : Via A s0 s) (a1 : Nat) (a2 : Bool) : Via A s0 (State.jobStart s a1 a2).1 := by
  unfold State.jobStart
  split
  · refine via_mk_fst ?_
    exact h
  · refine via_ite_fst ?_ ?_
    · refine via_mk_fst ?_
      exact (via_jobInvalid (hA.of rfl) h _ _)
    · refine via_ite_fst ?_ ?_
      · refine via_mk_fst ?_
        exact h
      · refine via_ite_fst ?_ ?_
        · refine via_mk_fst ?_
          exact (via_jobInvalid (hA.of rfl) h _ _)
        · refine via_ite_fst ?_ ?_
          · refine via_mk_fst ?_
            refine via_ite ?_ ?_
            · exact (via_startConsume (hA.of rfl) h _ _)
            · exact h
          · refine via_mk_fst ?_
            exact h

theorem via_endPassed {A : Nat} {s0 : State} (hA : Sub 498153 A) {s : State} (h : Via A s0 s) (a1 : Nat) : Via A s0 (State.endPassed s a1) := by
  unfold State.endPassed
  split
  · exact h
  · split
    · refine via_ite ?_ ?_
      · exact (via_endBar (hA.of rfl) h _ _)
      · exact h
    · exact h

theorem via_jobEnd {A : Nat} {s0 : State} (hA : Sub 499177 A) {s : State} (h : Via A s0 s) (a1 : Nat) : Via A s0 (State.jobEnd s a1) := by
  unfold State.jobEnd
  split
  · exact h
  · extract_lets x0
    have hx0 : Via A s0 x0 := by
      exact (via_modJob (hA.of rfl) (via_takeDesc (hA.of rfl) h _ _) _ _)
    try clear_value x0
    refine via_ite ?_ ?_
    · exact (via_jobInvalid (hA.of rfl) h _ _)
    · refine via_ite ?_ ?_
      · exact h
      · split
        · exact (via_jobDone (hA.of rfl) (via_takeDesc (hA.of rfl) h _ _) _ _ _ _)
        · refine via_ite ?_ ?_
          · exact (via_jobInvalid (hA.of rfl) h _ _)
          · refine via_foldS ?_ ?_ _
            · intro a1 x2 hx2
              extract_lets x3 x4
              have hx3 : Via A s0 x3 := by
                exact (via_modRun (hA.of rfl) hx2 _ _)
              try clear_value x3
              have hx4 : Via A s0 x4 := by
                exact (via_resolveEnd (hA.of rfl) hx3 _)
              try clear_value x4
              refine via_ite ?_ ?_
              · exact hx4
              · exact (via_endPassed (hA.of rfl) hx4 _)
            · exact hx0

theorem via_jobStop {A : Nat} {s0 : State} (hA : Sub 499177 A) {s : State} (h : Via A s0 s) (a1 : Nat) : Via A s0 (State.jobStop s a1) := by
  unfold State.jobStop
  split
  · exact h
  · refine via_ite ?_ ?_
    · exact (via_jobInvalid (hA.of rfl) h _ _)
    · refine via_ite ?_ ?_
      · exact h
      · split
        · exact (via_jobDone (hA.of rfl) (via_takeDesc (hA.of rfl) h _ _) _ _ _ _)
        · refine via_ite ?_ ?_
          · exact (via_jobInvalid (hA.of rfl) h _ _)
          · exact (via_stopJob (hA.of rfl) (via_modJob (hA.of rfl) (via_takeDesc (hA.of rfl) h _ _) _ _) _)

theorem via_jobLineBegin {A : Nat} {s0 : State} (hA : Sub 335241 A) {s : State} (h : Via A s0 s) (a1 : Nat) (a2 : Nat) : Via A s0 (State.jobLineBegin s a1 a2) := by
  unfold State.jobLineBegin
  extract_lets x0 x1
  have hx0 : Via A s0 x0 := by
    unfold x0
    refine via_ite ?_ ?_
    · refine via_devJobs (hA.of rfl) ?_
      refine via_modPix (hA.of rfl) _ (.inr fun _ => rfl) (.inr fun _ => rfl) (.inl (hA.of rfl)) (.inr fun _ => rfl) (fun _ h => by first | simpa [Pix.sized, Img.sized] using h | simp_all [Pix.sized, Img.sized]) ?_
      exact h
    · exact h
  try clear_value x0
  have hx1 : Via A s0 x1 := by
    exact (via_resolveEnd (hA.of rfl) (via_resolveFirst (hA.of rfl) hx0 _) _)
  try clear_value x1
  split
  · exact hx1
  · extract_lets x2 x3
    have hx2 : Via A s0 x2 := by
      unfold x2
      refine via_ite ?_ ?_
      · exact (via_modRun (hA.of rfl) hx1 _ _)
      · exact hx1
    try clear_value x2
    have hx3 : Via A s0 x3 := by
      exact (via_devJobs (hA.of rfl) (via_modJob (hA.of rfl) hx2 _ _))
    try clear_value x3
    split
    · refine via_ite ?_ ?_
      · split
        · refine via_ite ?_ ?_
          · split
            · exact (via_jobDone (hA.of rfl) (via_modJob (hA.of rfl) hx3 _ _) _ _ _ _)
            · exact hx3
          · exact hx3
        · exact hx3
      · exact hx2
    · exact hx2

theorem via_jobLineEnd {A : Nat} {s0 : State} (hA : Sub 498153 A) {s : State} (h : Via A s0 s) (a1 : Nat) (a2 : Nat) (a3 : Bool) : Via A s0 (State.jobLineEnd s a1 a2 a3) := by
  unfold State.jobLineEnd
  extract_lets x0
  have hx0 : Via A s0 x0 := by
    unfold x0
    refine via_ite ?_ ?_
    · exact (via_modRun (hA.of rfl) h _ _)
    · exact h
  try clear_value x0
  split
  · exact hx0
  · refine via_ite ?_ ?_
    · exact (via_endBar (hA.of rfl) hx0 _ _)
    · split
      · refine via_ite ?_ ?_
        · exact (via_endBar (hA.of rfl) hx0 _ _)
        · exact hx0
      · exact hx0

theorem via_cutNow {A : Nat} {s0 : State} (hA : Sub 4865 A) {s : State} (h : Via A s0 s) (a1 : Nat) : Via A s0 (State.cutNow s a1) := by
  unfold State.cutNow
  split
  · refine via_ite ?_ ?_
    · exact (via_zlCut (hA.of rfl) (via_modFbar (hA.of rfl) h _ _) _ _)
    · exact h
  · exact h

/-! ### ZaroLink -/

theorem via_mailboxDone {A : Nat} {s0 : State} (hA : Sub 7305 A) {s : State} (h : Via A s0 s) (a1 : Nat) (a2 : Nat) (a3 : Nat) : Via A s0 (State.mailboxDone s a1 a2 a3) := by
  unfold State.mailboxDone
  extract_lets x0 x1
  try clear_value x0
  have hx1 : Via A s0 x1 := by
    exact (via_put (hA.of rfl) (via_put (hA.of rfl) (via_put (hA.of rfl) h _ _) _ _) _ _)
  try clear_value x1
  exact (via_laneEvent (hA.of rfl) hx1 _ _ _ _)

theorem via_mailboxGo {A : Nat} {s0 : State} (hA : Sub 7817 A) {s : State} (h : Via A s0 s) (a1 : Nat) : Via A s0 (State.mailboxGo s a1) := by
  unfold State.mailboxGo
  extract_lets x0 x1 x2
  try clear_value x0
  try clear_value x1
  have hx2 : Via A s0 x2 := by
    exact (via_put (hA.of rfl) (via_put (hA.of rfl) (via_put (hA.of rfl) h _ _) _ _) _ _)
  try clear_value x2
  refine via_ite ?_ ?_
  · exact (via_queueControl (hA.of rfl) hx2 _ _ _ _)
  · exact (via_mailboxDone (hA.of rfl) h _ _ _)

theorem via_spareTake {A : Nat} {s0 : State} (hA : Sub 7817 A) {s : State} (h : Via A s0 s) (a1 : Nat) : Via A s0 (State.spareTake s a1) := by
  unfold State.spareTake
  extract_lets x0 x1 x2
  try clear_value x0
  have hx1 : Via A s0 x1 := by
    exact (via_satAdd (hA.of rfl) (via_put (hA.of rfl) (via_put (hA.of rfl) h _ _) _ _) _ _)
  try clear_value x1
  have hx2 : Via A s0 x2 := by
    unfold x2
    refine via_modZl (hA.of rfl) _ (fun _ h => by first | simpa [Zl.sized] using h | simp_all [Zl.sized]) ?_
    exact hx1
  try clear_value x2
  exact (via_laneEvent (hA.of rfl) hx2 _ _ _ _)

theorem via_spareTakeCmd {A : Nat} {s0 : State} (hA : Sub 7817 A) {s : State} (h : Via A s0 s) (a1 : Nat) : Via A s0 (State.spareTakeCmd s a1) := by
  unfold State.spareTakeCmd
  refine via_ite ?_ ?_
  · exact (via_spareTake (hA.of rfl) h _)
  · exact h

theorem via_spareRelease {A : Nat} {s0 : State} (hA : Sub 513 A) {s : State} (h : Via A s0 s) (a1 : Nat) : Via A s0 (State.spareRelease s a1) := by
  unfold State.spareRelease
  extract_lets x0
  try clear_value x0
  refine via_ite ?_ ?_
  · refine via_modZl (hA.of rfl) _ (fun _ h => by first | simpa [Zl.sized] using h | simp_all [Zl.sized]) ?_
    exact (via_put (hA.of rfl) h _ _)
  · exact h

theorem via_segLost {A : Nat} {s0 : State} (hA : Sub 499689 A) {s : State} (h : Via A s0 s) (a1 : Nat) (a2 : Nat) : Via A s0 (State.segLost s a1 a2) := by
  unfold State.segLost
  extract_lets x0
  have hx0 : Via A s0 x0 := by
    unfold x0
    refine via_laneEvent (hA.of rfl) ?_ _ _ _ _
    refine via_modZl (hA.of rfl) _ (fun _ h => by first | simpa [Zl.sized] using h | simp_all [Zl.sized]) ?_
    exact h
  try clear_value x0
  refine via_ite ?_ ?_
  · exact h
  · refine via_ite ?_ ?_
    · split
      · exact (via_stopJob (hA.of rfl) (via_modJob (hA.of rfl) hx0 _ _) _)
      · exact hx0
    · exact hx0

theorem via_laneDown {A : Nat} {s0 : State} (hA : Sub 499689 A) {s : State} (h : Via A s0 s) (a1 : Nat) (a2 : Nat) : Via A s0 (State.laneDown s a1 a2) := by
  unfold State.laneDown
  extract_lets x0 x1 x2 x3 x4 x5 x6
  try clear_value x0
  try clear_value x1
  try clear_value x2
  have hx3 : Via A s0 x3 := by
    exact (via_modLane (hA.of rfl) h _ _)
  try clear_value x3
  have hx4 : Via A s0 x4 := by
    exact (via_put (hA.of rfl) (via_put (hA.of rfl) (via_setLaneState (hA.of rfl) hx3 _ _) _ _) _ _)
  try clear_value x4
  have hx5 : Via A s0 x5 := by
    exact (via_laneEvent (hA.of rfl) hx4 _ _ _ _)
  try clear_value x5
  have hx6 : Via A s0 x6 := by
    unfold x6
    refine via_foldS ?_ ?_ _
    · intro a7 x8 hx8
      exact (via_mailboxDone (hA.of rfl) hx8 _ _ _)
    · exact hx5
  try clear_value x6
  refine via_ite ?_ ?_
  · refine via_ite ?_ ?_
    · exact (via_segLost (hA.of rfl) hx6 _ _)
    · exact hx6
  · refine via_ite ?_ ?_
    · exact hx6
    · refine via_ite ?_ ?_
      · exact (via_spareTake (hA.of rfl) hx6 _)
      · exact (via_segLost (hA.of rfl) hx6 _ _)

theorem via_tryPreset {A : Nat} {s0 : State} (hA : Sub 4609 A) {s : State} (h : Via A s0 s) (a1 : Nat) : Via A s0 (State.tryPreset s a1).1 := by
  unfold State.tryPreset
  split
  · refine via_mk_fst ?_
    exact h
  · extract_lets x0 x1
    have hx0 : Via A s0 x0 := by
      exact (via_modLane (hA.of rfl) h _ _)
    try clear_value x0
    have hx1 : Via A s0 x1 := by
      exact (via_put (hA.of rfl) (via_setLaneState (hA.of rfl) hx0 _ _) _ _)
    try clear_value x1
    refine via_mk_fst ?_
    exact (via_emit (hA.of rfl) hx1 _)

theorem via_trainFull {A : Nat} {s0 : State} (hA : Sub 4609 A) {s : State} (h : Via A s0 s) (a1 : Nat) : Via A s0 (State.trainFull s a1) := by
  unfold State.trainFull
  extract_lets x0 x1 x2 x3 x4
  try clear_value x0
  try clear_value x1
  try clear_value x2
  try clear_value x3
  have hx4 : Via A s0 x4 := by
    unfold x4
    refine via_ite ?_ ?_
    · exact (via_satAdd (hA.of rfl) h _ _)
    · exact h
  try clear_value x4
  exact (via_tryPreset (hA.of rfl) (via_modLane (hA.of rfl) hx4 _ _) _)

theorem via_trainFailed {A : Nat} {s0 : State} (hA : Sub 499689 A) {s : State} (h : Via A s0 s) (a1 : Nat) (a2 : Nat) : Via A s0 (State.trainFailed s a1 a2) := by
  unfold State.trainFailed
  extract_lets x0
  try clear_value x0
  refine via_ite ?_ ?_
  · exact (via_trainFull (hA.of rfl) (via_modLane (hA.of rfl) h _ _) _)
  · exact (via_laneDown (hA.of rfl) h _ _)

theorem via_presetFailed {A : Nat} {s0 : State} (hA : Sub 499689 A) {s : State} (h : Via A s0 s) (a1 : Nat) : Via A s0 (State.presetFailed s a1) := by
  unfold State.presetFailed
  extract_lets x0
  have hx0 : Via A s0 x0.1 := by
    exact (via_tryPreset (hA.of rfl) h _)
  try clear_value x0
  refine via_ite ?_ ?_
  · exact hx0
  · exact (via_trainFailed (hA.of rfl) h _ _)

theorem via_ldown {A : Nat} {s0 : State} (hA : Sub 4096 A) {s : State} (h : Via A s0 s) (a1 : Nat) : Via A s0 (State.ldown s a1) := by
  unfold State.ldown
  extract_lets x0 x1
  try clear_value x0
  try clear_value x1
  refine via_foldS ?_ ?_ _
  · intro a2 x3 hx3
    exact (via_emit (hA.of rfl) hx3 _)
  · exact h

theorem via_retrain {A : Nat} {s0 : State} (hA : Sub 499689 A) {s : State} (h : Via A s0 s) (a1 : Nat) (a2 : Nat) : Via A s0 (State.retrain s a1 a2) := by
  unfold State.retrain
  extract_lets x0 x1 x2 x3 x4 x5 x6
  try clear_value x0
  try clear_value x1
  have hx2 : Via A s0 x2 := by
    unfold x2
    refine via_ite ?_ ?_
    · exact (via_put (hA.of rfl) h _ _)
    · exact h
  try clear_value x2
  have hx3 : Via A s0 x3 := by
    exact (via_raise (hA.of rfl) (via_ldown (hA.of rfl) hx2 _) _)
  try clear_value x3
  have hx4 : Via A s0 x4 := by
    exact (via_satAdd (hA.of rfl) hx3 _ _)
  try clear_value x4
  have hx5 : Via A s0 x5 := by
    exact (via_modLane (hA.of rfl) hx4 _ _)
  try clear_value x5
  have hx6 : Via A s0 x6 := by
    exact (via_tryPreset (hA.of rfl) hx5 _)
  try clear_value x6
  refine via_ite ?_ ?_
  · exact h
  · refine via_ite ?_ ?_
    · exact (via_laneDown (hA.of rfl) hx3 _ _)
    · refine via_ite ?_ ?_
      · exact (via_spareTake (hA.of rfl) hx6 _)
      · exact hx6

theorem via_laneEnable {A : Nat} {s0 : State} (hA : Sub 4609 A) {s : State} (h : Via A s0 s) (a1 : Nat) : Via A s0 (State.laneEnable s a1) := by
  unfold State.laneEnable
  extract_lets x0
  have hx0 : Via A s0 x0 := by
    unfold x0
    refine via_ite ?_ ?_
    · exact (via_ldown (hA.of rfl) h _)
    · exact h
  try clear_value x0
  exact (via_trainFull (hA.of rfl) (via_modLane (hA.of rfl) hx0 _ _) _)

theorem via_laneDisable {A : Nat} {s0 : State} (hA : Sub 499689 A) {s : State} (h : Via A s0 s) (a1 : Nat) : Via A s0 (State.laneDisable s a1) := by
  unfold State.laneDisable
  extract_lets x0
  try clear_value x0
  refine via_ite ?_ ?_
  · exact h
  · refine via_ite ?_ ?_
    · split
      · refine via_ite ?_ ?_
        · exact (via_laneDown (hA.of rfl) (via_ldown (hA.of rfl) h _) _ _)
        · exact (via_modLane (hA.of rfl) h _ _)
      · exact (via_laneDown (hA.of rfl) (via_ldown (hA.of rfl) h _) _ _)
    · exact (via_laneDown (hA.of rfl) h _ _)

theorem via_ping {A : Nat} {s0 : State} (hA : Sub 4609 A) {s : State} (h : Via A s0 s) (a1 : Nat) : Via A s0 (State.ping s a1) := by
  unfold State.ping
  exact (via_queueControl (hA.of rfl) h _ _ _ _)

theorem via_trsReceived {A : Nat} {s0 : State} (hA : Sub 499689 A) {s : State} (h : Via A s0 s) (a1 : Nat) (a2 : Nat) (a3 : Bool) (a4 : Nat) (a5 : Nat) : Via A s0 (State.trsReceived s a1 a2 a3 a4 a5) := by
  unfold State.trsReceived
  extract_lets x0 x1
  try clear_value x0
  try clear_value x1
  refine via_ite ?_ ?_
  · exact (via_emit (hA.of rfl) (via_modLane (hA.of rfl) (via_setLaneState (hA.of rfl) h _ _) _ _) _)
  · refine via_ite ?_ ?_
    · refine via_ite ?_ ?_
      · exact (via_ping (hA.of rfl) (via_modLane (hA.of rfl) (via_setLaneState (hA.of rfl) h _ _) _ _) _)
      · exact (via_presetFailed (hA.of rfl) h _)
    · exact h

theorem via_trainTimeout {A : Nat} {s0 : State} (hA : Sub 499689 A) {s : State} (h : Via A s0 s) (a1 : Nat) : Via A s0 (State.trainTimeout s a1) := by
  unfold State.trainTimeout
  extract_lets x0 x1
  try clear_value x0
  try clear_value x1
  refine via_ite ?_ ?_
  · exact h
  · refine via_ite ?_ ?_
    · exact (via_presetFailed (hA.of rfl) h _)
    · refine via_ite ?_ ?_
      · exact (via_trainFailed (hA.of rfl) h _ _)
      · exact h

theorem via_pingAck {A : Nat} {s0 : State} (hA : Sub 499689 A) {s : State} (h : Via A s0 s) (a1 : Nat) (a2 : ZCtl) : Via A s0 (State.pingAck s a1 a2) := by
  unfold State.pingAck
  extract_lets x0 x1 x2 x3
  try clear_value x0
  have hx1 : Via A s0 x1 := by
    exact (via_modLane (hA.of rfl) h _ _)
  try clear_value x1
  try clear_value x2
  have hx3 : Via A s0 x3 := by
    exact (via_put (hA.of rfl) hx1 _ _)
  try clear_value x3
  refine via_ite ?_ ?_
  · exact (via_ping (hA.of rfl) hx1 _)
  · refine via_ite ?_ ?_
    · exact (via_trainFailed (hA.of rfl) hx3 _ _)
    · exact (via_modLane (hA.of rfl) hx3 _ _)

theorem via_trainedEq {A : Nat} {s0 : State} (hA : Sub 8193 A) {s : State} (h : Via A s0 s) (a1 : Nat) : Via A s0 (State.trainedEq s a1) := by
  unfold State.trainedEq
  extract_lets x0
  have hx0 : Via A s0 x0.2 := by
    exact (via_freshWord (hA.of rfl) h)
  try clear_value x0
  refine via_ite ?_ ?_
  · exact (via_setReg (hA.of rfl) hx0 _ _)
  · exact h

theorem via_laneUp {A : Nat} {s0 : State} (hA : Sub 16041 A) {s : State} (h : Via A s0 s) (a1 : Nat) : Via A s0 (State.laneUp s a1) := by
  unfold State.laneUp
  extract_lets x0 x1 x2 x3
  try clear_value x0
  try clear_value x1
  have hx2 : Via A s0 x2 := by
    exact (via_modLane (hA.of rfl) h _ _)
  try clear_value x2
  have hx3 : Via A s0 x3 := by
    unfold x3
    refine via_modZl (hA.of rfl) _ (fun _ h => by first | simpa [Zl.sized] using h | simp_all [Zl.sized]) ?_
    exact hx2
  try clear_value x3
  exact (via_telemCfg (hA.of rfl) (via_laneEvent (hA.of rfl) (via_calLane (hA.of rfl) (via_trainedEq (hA.of rfl) (via_setLaneState (hA.of rfl) hx3 _ _) _) _) _ _ _ _) _)

theorem via_noteGood {A : Nat} {s0 : State} (hA : Sub 1 A) {s : State} (h : Via A s0 s) (a1 : Nat) (a2 : Nat) : Via A s0 (State.noteGood s a1 a2) := by
  unfold State.noteGood
  split
  · refine via_ite ?_ ?_
    · exact (via_put (hA.of rfl) h _ _)
    · exact h
  · exact h

theorem via_chunkLost {A : Nat} {s0 : State} (hA : Sub 7817 A) {s : State} (h : Via A s0 s) (a1 : Nat) (a2 : Nat) (a3 : Nat) : Via A s0 (State.chunkLost s a1 a2 a3) := by
  unfold State.chunkLost
  exact (via_laneEvent (hA.of rfl) (via_satAdd (hA.of rfl) (via_modLane (hA.of rfl) h _ _) _ _) _ _ _ _)

theorem via_windowEnd {A : Nat} {s0 : State} (hA : Sub 499689 A) {s : State} (h : Via A s0 s) (a1 : Nat) : Via A s0 (State.windowEnd s a1) := by
  unfold State.windowEnd
  split
  · exact h
  · extract_lets x0 x1 x2 x3 x4 x5
    try clear_value x0
    have hx1 : Via A s0 x1 := by
      exact (via_modLane (hA.of rfl) h _ _)
    try clear_value x1
    have hx2 : Via A s0 x2 := by
      unfold x2
      refine via_foldS ?_ ?_ _
      · intro a6 x7 hx7
        exact (via_chunkLost (hA.of rfl) hx7 _ _ _)
      · exact hx1
    try clear_value x2
    have hx3 : Via A s0 x3 := by
      unfold x3
      refine via_ite ?_ ?_
      · exact hx2
      · exact (via_modLane (hA.of rfl) hx2 _ _)
    try clear_value x3
    try clear_value x4
    have hx5 : Via A s0 x5 := by
      exact (via_modLane (hA.of rfl) hx3 _ _)
    try clear_value x5
    refine via_ite ?_ ?_
    · exact h
    · refine via_ite ?_ ?_
      · exact (via_laneDown (hA.of rfl) (via_ldown (hA.of rfl) hx5 _) _ _)
      · refine via_ite ?_ ?_
        · exact (via_retrain (hA.of rfl) hx5 _ _)
        · exact hx5

theorem via_replayEnd {A : Nat} {s0 : State} (hA : Sub 499689 A) {s : State} (h : Via A s0 s) (a1 : Nat) : Via A s0 (State.replayEnd s a1) := by
  unfold State.replayEnd
  refine via_ite ?_ ?_
  · exact h
  · split
    · refine via_ite ?_ ?_
      · exact (via_windowEnd (hA.of rfl) h _)
      · exact h
    · exact h

theorem via_headerDeadline {A : Nat} {s0 : State} (hA : Sub 499689 A) {s : State} (h : Via A s0 s) (a1 : Nat) : Via A s0 (State.headerDeadline s a1) := by
  unfold State.headerDeadline
  refine via_ite ?_ ?_
  · exact h
  · split
    · refine via_ite ?_ ?_
      · exact (via_retrain (hA.of rfl) (via_modLane (hA.of rfl) h _ _) _ _)
      · exact h
    · exact h

theorem via_itemBad {A : Nat} {s0 : State} (hA : Sub 7817 A) {s : State} (h : Via A s0 s) (a1 : Nat) (a2 : Nat) (a3 : Nat) (a4 : Nat) (a5 : Nat) : Via A s0 (State.itemBad s a1 a2 a3 a4 a5) := by
  unfold State.itemBad
  refine via_ite ?_ ?_
  · split
    · exact h
    · refine via_ite ?_ ?_
      · exact (via_mailboxDone (hA.of rfl) (via_modLane (hA.of rfl) h _ _) _ _ _)
      · exact (via_zlNext (hA.of rfl) (via_modLane (hA.of rfl) h _ _) _)
  · split
    · exact h
    · extract_lets x0
      try clear_value x0
      refine via_ite ?_ ?_
      · refine via_ite ?_ ?_
        · exact h
        · exact (via_zlNext (hA.of rfl) (via_modLane (hA.of rfl) h _ _) _)
      · refine via_ite ?_ ?_
        · exact h
        · refine via_ite ?_ ?_
          · exact (via_chunkLost (hA.of rfl) h _ _ _)
          · exact (via_zlNext (hA.of rfl) (via_modLane (hA.of rfl) h _ _) _)

theorem via_itemGood {A : Nat} {s0 : State} (hA : Sub 7817 A) {s : State} (h : Via A s0 s) (a1 : Nat) (a2 : Nat) (a3 : Nat) (a4 : Nat) : Via A s0 (State.itemGood s a1 a2 a3 a4) := by
  unfold State.itemGood
  refine via_ite ?_ ?_
  · split
    · exact h
    · extract_lets x0
      have hx0 : Via A s0 x0 := by
        exact (via_modLane (hA.of rfl) h _ _)
      try clear_value x0
      refine via_zlNext (hA.of rfl) ?_ _
      refine via_ite ?_ ?_
      · exact (via_mailboxDone (hA.of rfl) hx0 _ _ _)
      · exact hx0
  · split
    · exact h
    · refine via_ite ?_ ?_
      · exact (via_noteGood (hA.of rfl) (via_modLane (hA.of rfl) h _ _) _ _)
      · refine via_ite ?_ ?_
        · exact h
        · exact (via_noteGood (hA.of rfl) (via_modLane (hA.of rfl) h _ _) _ _)

theorem via_zlAck {A : Nat} {s0 : State} (hA : Sub 499689 A) {s : State} (h : Via A s0 s) (a1 : Nat) (a2 : Nat) (a3 : Nat) (a4 : Nat) (a5 : Nat) : Via A s0 (State.zlAck s a1 a2 a3 a4 a5) := by
  unfold State.zlAck
  refine via_ite ?_ ?_
  · split
    · refine via_ite ?_ ?_
      · exact (via_pingAck (hA.of rfl) h _ _)
      · refine via_ite ?_ ?_
        · exact (via_itemBad (hA.of rfl) h _ _ _ _ _)
        · exact h
    · exact h
  · refine via_ite ?_ ?_
    · exact h
    · refine via_ite ?_ ?_
      · exact (via_itemGood (hA.of rfl) h _ _ _ _)
      · refine via_ite ?_ ?_
        · exact (via_itemBad (hA.of rfl) h _ _ _ _ _)
        · refine via_ite ?_ ?_
          · split
            · refine via_ite ?_ ?_
              · exact (via_modLane (hA.of rfl) h _ _)
              · exact h
            · exact h
          · refine via_ite ?_ ?_
            · split
              · extract_lets x0
                have hx0 : Via A s0 x0 := by
                  exact (via_modLane (hA.of rfl) h _ _)
                try clear_value x0
                refine via_zlNext (hA.of rfl) ?_ _
                refine via_ite ?_ ?_
                · exact (via_mailboxDone (hA.of rfl) hx0 _ _ _)
                · exact hx0
              · exact h
            · exact h

theorem via_ackTimeout {A : Nat} {s0 : State} (hA : Sub 7817 A) {s : State} (h : Via A s0 s) (a1 : Nat) (a2 : Nat) (a3 : Nat) (a4 : Nat) : Via A s0 (State.ackTimeout s a1 a2 a3 a4) := by
  unfold State.ackTimeout
  extract_lets x0
  try clear_value x0
  split
  · refine via_ite ?_ ?_
    · exact (via_itemBad (hA.of rfl) h _ _ _ _ _)
    · exact h
  · exact h

theorem via_txEnd {A : Nat} {s0 : State} (hA : Sub 4609 A) {s : State} (h : Via A s0 s) (a1 : Nat) : Via A s0 (State.txEnd s a1) := by
  unfold State.txEnd
  split
  · exact h
  · extract_lets x0
    have hx0 : Via A s0 x0 := by
      exact (via_modLane (hA.of rfl) h _ _)
    try clear_value x0
    refine via_ite ?_ ?_
    · exact h
    · exact (via_zlNext (hA.of rfl) hx0 _)

theorem via_zlSend {A : Nat} {s0 : State} (hA : Sub 507881 A) {s : State} (h : Via A s0 s) (a1 : State) (a2 : Nat) (a3 : Nat) (a4 : Option Sent) (a5 : Bool) (a6 : Bool) : Via A s0 (State.zlSend s a1 a2 a3 a4 a5 a6) := by
  unfold State.zlSend
  extract_lets x0
  have hx0 : Via A s0 x0 := by
    unfold x0
    refine via_foldS ?_ ?_ _
    · intro a1 x2 hx2
      extract_lets x3
      try clear_value x3
      split
      · refine via_ite ?_ ?_
        · exact hx2
        · exact (via_windowEnd (hA.of rfl) hx2 _)
      · exact (via_windowEnd (hA.of rfl) hx2 _)
    · exact h
  try clear_value x0
  split
  · extract_lets x4
    have hx4 : Via A s0 x4 := by
      exact (via_zlTransmit (hA.of rfl) hx0 _ _ _ _ _ _)
    try clear_value x4
    refine via_foldS ?_ ?_ _
    · intro a5 x6 hx6
      refine via_ite ?_ ?_
      · exact hx6
      · exact (via_zlIdle (hA.of rfl) hx6 _)
    · exact hx4
  · refine via_foldS ?_ ?_ _
    · intro a7 x8 hx8
      exact (via_zlIdle (hA.of rfl) hx8 _)
    · exact hx0

theorem via_telemForward {A : Nat} {s0 : State} (hA : Sub 7305 A) {s : State} (h : Via A s0 s) (a1 : Nat) (a2 : Nat) (a3 : Nat) (a4 : List Sys2Proof.Byte) : Via A s0 (State.telemForward s a1 a2 a3 a4) := by
  unfold State.telemForward
  refine via_ite ?_ ?_
  · refine via_foldS ?_ ?_ _
    · intro a0 x1 hx1
      exact (via_putRecord (hA.of rfl) hx1 _ _)
    · exact h
  · exact h

theorem via_telemBad {A : Nat} {s0 : State} (hA : Sub 7305 A) {s : State} (h : Via A s0 s) (a1 : Nat) (a2 : Bool) : Via A s0 (State.telemBad s a1 a2) := by
  unfold State.telemBad
  extract_lets x0
  have hx0 : Via A s0 x0 := by
    unfold x0
    refine via_ite ?_ ?_
    · exact (via_satAdd (hA.of rfl) h _ _)
    · exact h
  try clear_value x0
  exact (via_raise (hA.of rfl) (via_satAdd (hA.of rfl) hx0 _ _) _)

theorem via_headTempMsg {A : Nat} {s0 : State} (hA : Sub 7817 A) {s : State} (h : Via A s0 s) (a1 : Nat) (a2 : Nat) (a3 : List Sys2Proof.Byte) : Via A s0 (State.headTempMsg s a1 a2 a3) := by
  unfold State.headTempMsg
  extract_lets x0 x1
  try clear_value x0
  have hx1 : Via A s0 x1 := by
    unfold x1
    refine via_foldS ?_ ?_ _
    · intro a2 x3 hx3
      refine via_modZl (hA.of rfl) _ (fun _ h => by first | simpa [Zl.sized] using h | simp_all [Zl.sized]) ?_
      exact hx3
    · exact h
  try clear_value x1
  exact (via_telemForward (hA.of rfl) hx1 _ _ _ _)

theorem via_nchkMsg {A : Nat} {s0 : State} (hA : Sub 7305 A) {s : State} (h : Via A s0 s) (a1 : Nat) (a2 : Nat) (a3 : List Sys2Proof.Byte) : Via A s0 (State.nchkMsg s a1 a2 a3) := by
  unfold State.nchkMsg
  extract_lets x0 x1 x2 x3
  try clear_value x0
  try clear_value x1
  try clear_value x2
  have hx3 : Via A s0 x3 := by
    unfold x3
    refine via_ite ?_ ?_
    · exact (via_modNz (hA.of rfl) h _ _)
    · exact h
  try clear_value x3
  exact (via_telemForward (hA.of rfl) hx3 _ _ _ _)

theorem via_hibStatusMsg {A : Nat} {s0 : State} (hA : Sub 507881 A) {s : State} (h : Via A s0 s) (a1 : Nat) (a2 : Nat) (a3 : Nat) (a4 : List Sys2Proof.Byte) : Via A s0 (State.hibStatusMsg s a1 a2 a3 a4) := by
  unfold State.hibStatusMsg
  extract_lets x0 x1 x2 x3 x4 x5 x6 x7 x8
  try clear_value x0
  try clear_value x1
  try clear_value x2
  have hx3 : Via A s0 x3 := by
    unfold x3
    refine via_ite ?_ ?_
    · exact (via_laneUp (hA.of rfl) h _)
    · exact h
  try clear_value x3
  have hx4 : Via A s0 x4 := by
    exact (via_declareMlp (hA.of rfl) hx3 _ _ _)
  try clear_value x4
  have hx5 : Via A s0 x5 := by
    unfold x5
    refine via_ite ?_ ?_
    · exact (via_laneEvent (hA.of rfl) hx4 _ _ _ _)
    · exact hx4
  try clear_value x5
  have hx6 : Via A s0 x6 := by
    exact (via_modLane (hA.of rfl) hx5 _ _)
  try clear_value x6
  have hx7 : Via A s0 x7 := by
    exact (via_telemForward (hA.of rfl) hx6 _ _ _ _)
  try clear_value x7
  have hx8 : Via A s0 x8 := by
    exact (via_put (hA.of rfl) hx7 _ _)
  try clear_value x8
  refine via_ite ?_ ?_
  · refine via_ite ?_ ?_
    · exact hx8
    · exact (via_retrain (hA.of rfl) hx8 _ _)
  · exact hx7

theorem via_hibEventMsg {A : Nat} {s0 : State} (hA : Sub 7305 A) {s : State} (h : Via A s0 s) (a1 : Nat) (a2 : Nat) (a3 : Nat) (a4 : List Sys2Proof.Byte) : Via A s0 (State.hibEventMsg s a1 a2 a3 a4) := by
  unfold State.hibEventMsg
  refine via_ite ?_ ?_
  · exact (via_telemForward (hA.of rfl) h _ _ _ _)
  · exact (via_telemBad (hA.of rfl) h _ _)

theorem via_telemPer {A : Nat} {s0 : State} (hA : Sub 4609 A) {s : State} (h : Via A s0 s) : Via A s0 (State.telemPer s) := by
  unfold State.telemPer
  refine via_foldS ?_ ?_ _
  · intro a0 x1 hx1
    exact (via_telemCfg (hA.of rfl) hx1 _)
  · exact h

/-! ### LineClock -/

theorem via_trigLate {A : Nat} {s0 : State} (hA : Sub 7305 A) {s : State} (h : Via A s0 s) (a1 : Nat) (a2 : Nat) : Via A s0 (State.trigLate s a1 a2) := by
  unfold State.trigLate
  exact (via_raise (hA.of rfl) (via_satAdd (hA.of rfl) h _ _) _)

theorem via_rephase {A : Nat} {s0 : State} (hA : Sub 7561 A) {s : State} (h : Via A s0 s) (a0 : Nat) (a1 : Nat) : Via A s0 (State.rephase a0 a1 s) := by
  induction a1 generalizing a0 s with
  | zero =>
    unfold Sys2Proof.Machine.State.rephase
    exact h
  | succ k ih =>
    unfold Sys2Proof.Machine.State.rephase
    split
    · exact h
    · refine via_ite ?_ ?_
      · refine ih ?_ _
        exact (via_trigLate (hA.of rfl) (via_modClk (hA.of rfl) h _ _) _ _)
      · refine via_ite ?_ ?_
        · exact (via_putCmp (hA.of rfl) (via_modClk (hA.of rfl) h _ _) _ _)
        · exact h

theorem via_skipLines {A : Nat} {s0 : State} (hA : Sub 7561 A) {s : State} (h : Via A s0 s) (a1 : Nat) (a2 : Nat) (a3 : Nat) : Via A s0 (State.skipLines s a1 a2 a3) := by
  unfold State.skipLines
  extract_lets x0 x1
  try clear_value x0
  have hx1 : Via A s0 x1 := by
    exact (via_modClk (hA.of rfl) (via_setReg (hA.of rfl) h _ _) _ _)
  try clear_value x1
  refine via_ite ?_ ?_
  · exact h
  · exact (via_compareBehind (hA.of rfl) hx1 _ _ _)

theorem via_skipTo {A : Nat} {s0 : State} (hA : Sub 7561 A) {s : State} (h : Via A s0 s) (a1 : Nat) (a2 : Nat) : Via A s0 (State.skipTo s a1 a2) := by
  unfold State.skipTo
  extract_lets x0 x1
  try clear_value x0
  try clear_value x1
  refine via_ite ?_ ?_
  · exact h
  · exact (via_rephase (hA.of rfl) (via_skipLines (hA.of rfl) (via_putCmp (hA.of rfl) h _ _) _ _ _) _ _)

theorem via_watchBar {A : Nat} {s0 : State} (hA : Sub 7561 A) {s : State} (h : Via A s0 s) (a1 : Nat) : Via A s0 (State.watchBar s a1) := by
  unfold State.watchBar
  extract_lets x0 x1 x2
  try clear_value x0
  have hx1 : Via A s0 x1 := by
    exact (via_modClk (hA.of rfl) h _ _)
  try clear_value x1
  try clear_value x2
  refine via_ite ?_ ?_
  · exact (via_modClk (hA.of rfl) h _ _)
  · refine via_ite ?_ ?_
    · exact h
    · refine via_ite ?_ ?_
      · refine via_ite ?_ ?_
        · exact (via_skipTo (hA.of rfl) hx1 _ _)
        · exact hx1
      · refine via_ite ?_ ?_
        · refine via_ite ?_ ?_
          · exact (via_skipTo (hA.of rfl) hx1 _ _)
          · exact hx1
        · exact h

theorem via_watchLines {A : Nat} {s0 : State} (hA : Sub 7561 A) {s : State} (h : Via A s0 s) : Via A s0 (State.watchLines s) := by
  unfold State.watchLines
  refine via_foldS ?_ ?_ _
  · intro a0 x1 hx1
    exact (via_watchBar (hA.of rfl) hx1 _)
  · exact h

theorem via_phaseQueue {A : Nat} {s0 : State} (hA : Sub 7561 A) {s : State} (h : Via A s0 s) (a1 : Nat) (a2 : Nat) (a3 : Nat) : Via A s0 (State.phaseQueue s a1 a2 a3) := by
  unfold State.phaseQueue
  exact (via_rephase (hA.of rfl) (via_modClk (hA.of rfl) h _ _) _ _)

theorem via_lineLatch {A : Nat} {s0 : State} (hA : Sub 256 A) {s : State} (h : Via A s0 s) (a1 : Nat) : Via A s0 (State.lineLatch s a1) := by
  unfold State.lineLatch
  split
  · refine via_ite ?_ ?_
    · exact (via_modClk (hA.of rfl) h _ _)
    · exact h
  · exact h

theorem via_lineCommit {A : Nat} {s0 : State} (hA : Sub 8073 A) {s : State} (h : Via A s0 s) (a1 : Nat) : Via A s0 (State.lineCommit s a1) := by
  unfold State.lineCommit
  extract_lets x0 x1
  have hx0 : Via A s0 x0 := by
    exact (via_lineLatch (hA.of rfl) h _)
  try clear_value x0
  try clear_value x1
  split
  · extract_lets x2
    try clear_value x2
    refine via_ite ?_ ?_
    · exact (via_lineLatch (hA.of rfl) h _)
    · split
      · exact hx0
      · extract_lets x3 x4 x5 x6 x7 x8
        try clear_value x3
        try clear_value x4
        try clear_value x5
        have hx6 : Via A s0 x6 := by
          unfold x6
          refine via_ite ?_ ?_
          · exact (via_raise (hA.of rfl) (via_satAdd (hA.of rfl) hx0 _ _) _)
          · exact hx0
        try clear_value x6
        try clear_value x7
        have hx8 : Via A s0 x8 := by
          exact (via_modClk (hA.of rfl) hx6 _ _)
        try clear_value x8
        refine via_ite ?_ ?_
        · exact hx0
        · refine via_ite ?_ ?_
          · exact (via_zlDropped (hA.of rfl) hx8 _ _)
          · exact hx8
  · exact h

theorem via_cmpLand {A : Nat} {s0 : State} (hA : Sub 257 A) {s : State} (h : Via A s0 s) (a1 : Nat) : Via A s0 (State.cmpLand s a1) := by
  unfold State.cmpLand
  split
  · extract_lets x0 x1
    have hx0 : Via A s0 x0 := by
      exact (via_putCmp (hA.of rfl) (via_modClk (hA.of rfl) h _ _) _ _)
    try clear_value x0
    try clear_value x1
    refine via_ite ?_ ?_
    · exact hx0
    · exact (via_modClk (hA.of rfl) (via_setReg (hA.of rfl) hx0 _ _) _ _)
  · exact h

theorem via_line64 {A : Nat} {s0 : State} (hA : Sub 7305 A) {s : State} (h : Via A s0 s) (a1 : Nat) (a2 : Nat) (a3 : Nat) : Via A s0 (State.line64 s a1 a2 a3) := by
  unfold State.line64
  extract_lets x0 x1
  try clear_value x0
  have hx1 : Via A s0 x1 := by
    exact (via_put64 (hA.of rfl) (via_setReg (hA.of rfl) h _ _) _ _)
  try clear_value x1
  refine via_ite ?_ ?_
  · exact h
  · refine via_ite ?_ ?_
    · exact (via_raise (hA.of rfl) (via_setReg (hA.of rfl) hx1 _ _) _)
    · exact hx1

theorem via_advance {A : Nat} {s0 : State} (hA : Sub 7561 A) {s : State} (h : Via A s0 s) (a1 : Nat) (a2 : Commit) : Via A s0 (State.advance s a1 a2) := by
  unfold State.advance
  extract_lets x0 x1 x2 x3 x4
  try clear_value x0
  have hx1 : Via A s0 x1 := by
    exact (via_line64 (hA.of rfl) h _ _ _)
  try clear_value x1
  try clear_value x2
  have hx3 : Via A s0 x3 := by
    exact (via_put64 (hA.of rfl) (via_setReg (hA.of rfl) hx1 _ _) _ _)
  try clear_value x3
  have hx4 : Via A s0 x4 := by
    exact (via_modClk (hA.of rfl) (via_putCmp (hA.of rfl) hx3 _ _) _ _)
  try clear_value x4
  exact (via_rephase (hA.of rfl) (via_cmpLand (hA.of rfl) hx4 _) _ _)

end Sys2Proof.Machine
end

