-- ==== Sys2Proof/Laws/TouchPair.lean ====
section
/-!
SUPPORT. Sys2Proof/Laws/TouchPair.lean: what the functions for clasps, the pair, line boundaries, blocks and the host interface touch: one lemma per function, with the mask of the parts of the state that it can change (Laws/Via.lean).
-/
namespace Sys2Proof.Machine

open Sys2Proof

set_option linter.all false

/-! ### Clasp -/

theorem via_modSlot {A : Nat} {s0 : State} (hA : Sub 524416 A) {s : State} (h : Via A s0 s) (a1 : Nat) (a2 : Slot → Slot) : Via A s0 (State.modSlot s a1 a2) := by
  unfold State.modSlot
  refine via_modPix (hA.of rfl) _ (.inr fun _ => rfl) (.inr fun _ => rfl) (.inr fun _ => by unfold Pix.jobState; rfl) (.inl (hA.of rfl)) (fun _ h => by first | simpa [Pix.sized, Img.sized] using h | simp_all [Pix.sized, Img.sized]) ?_
  exact h

theorem via_slotEvent {A : Nat} {s0 : State} (hA : Sub 7305 A) {s : State} (h : Via A s0 s) (a1 : Nat) (a2 : Nat) : Via A s0 (State.slotEvent s a1 a2) := by
  unfold State.slotEvent
  exact (via_raise (hA.of rfl) h _)

theorem via_batchEnd {A : Nat} {s0 : State} (hA : Sub 530561 A) {s : State} (h : Via A s0 s) (a1 : Nat) : Via A s0 (State.batchEnd s a1) := by
  unfold State.batchEnd
  extract_lets x0
  try clear_value x0
  split
  · exact (via_descDone (hA.of rfl) (via_put (hA.of rfl) (via_modSlot (hA.of rfl) h _ _) _ _) _ _ _)
  · exact h

theorem via_claspAbort {A : Nat} {s0 : State} (hA : Sub 531593 A) {s : State} (h : Via A s0 s) (a1 : Nat) (a2 : Nat) (a3 : Nat) (a4 : Nat) : Via A s0 (State.claspAbort s a1 a2 a3 a4) := by
  unfold State.claspAbort
  extract_lets x0 x1
  have hx0 : Via A s0 x0 := by
    exact (via_put (hA.of rfl) (via_put (hA.of rfl) h _ _) _ _)
  try clear_value x0
  have hx1 : Via A s0 x1 := by
    exact (via_put (hA.of rfl) (via_put (hA.of rfl) hx0 _ _) _ _)
  try clear_value x1
  exact (via_batchEnd (hA.of rfl) (via_slotEvent (hA.of rfl) (via_satAdd (hA.of rfl) hx1 _ _) _ _) _)

theorem via_claspOpen {A : Nat} {s0 : State} (hA : Sub 524417 A) {s : State} (h : Via A s0 s) (a1 : Nat) : Via A s0 (State.claspOpen s a1) := by
  unfold State.claspOpen
  extract_lets x0 x1
  try clear_value x0
  have hx1 : Via A s0 x1 := by
    exact (via_setReg (hA.of rfl) (via_modSlot (hA.of rfl) h _ _) _ _)
  try clear_value x1
  exact (via_put (hA.of rfl) (via_setReg (hA.of rfl) hx1 _ _) _ _)

theorem via_claspStage {A : Nat} {s0 : State} (hA : Sub 531593 A) {s : State} (h : Via A s0 s) (a1 : Nat) (a2 : Nat) (a3 : Sys2Proof.Word) : Via A s0 (State.claspStage s a1 a2 a3) := by
  unfold State.claspStage
  extract_lets x0
  try clear_value x0
  refine via_ite ?_ ?_
  · exact (via_claspAbort (hA.of rfl) h _ _ _ _)
  · refine via_ite ?_ ?_
    · exact (via_modSlot (hA.of rfl) h _ _)
    · refine via_ite ?_ ?_
      · exact (via_claspAbort (hA.of rfl) h _ _ _ _)
      · refine via_ite ?_ ?_
        · exact (via_claspAbort (hA.of rfl) h _ _ _ _)
        · exact (via_put (hA.of rfl) (via_modSlot (hA.of rfl) h _ _) _ _)

theorem via_claspLate {A : Nat} {s0 : State} (hA : Sub 7305 A) {s : State} (h : Via A s0 s) (a1 : Nat) : Via A s0 (State.claspLate s a1) := by
  unfold State.claspLate
  refine via_ite ?_ ?_
  · exact h
  · exact (via_slotEvent (hA.of rfl) (via_satAdd (hA.of rfl) (via_put (hA.of rfl) h _ _) _ _) _ _)

theorem via_claspCommit {A : Nat} {s0 : State} (hA : Sub 531593 A) {s : State} (h : Via A s0 s) (a1 : Nat) : Via A s0 (State.claspCommit s a1) := by
  unfold State.claspCommit
  extract_lets x0 x1 x2 x3 x4 x5
  try clear_value x0
  try clear_value x1
  try clear_value x2
  try clear_value x3
  try clear_value x4
  have hx5 : Via A s0 x5 := by
    exact (via_modSlot (hA.of rfl) (via_put (hA.of rfl) h _ _) _ _)
  try clear_value x5
  refine via_ite ?_ ?_
  · refine via_ite ?_ ?_
    · exact (via_claspAbort (hA.of rfl) hx5 _ _ _ _)
    · exact (via_claspLate (hA.of rfl) hx5 _)
  · exact hx5

theorem via_claspWrite {A : Nat} {s0 : State} (hA : Sub 7305 A) {s : State} (h : Via A s0 s) (a1 : Nat) (a2 : Sys2Proof.Word) : Via A s0 (State.claspWrite s a1 a2) := by
  unfold State.claspWrite
  split
  · extract_lets x0
    try clear_value x0
    split
    · exact (via_refuse (hA.of rfl) h _ _ _)
    · exact (via_setReg (hA.of rfl) h _ _)
  · exact h

theorem via_cmpApply {A : Nat} {s0 : State} (hA : Sub 7561 A) {s : State} (h : Via A s0 s) (a1 : Nat) (a2 : Nat) (a3 : Nat) (a4 : Nat) : Via A s0 (State.cmpApply s a1 a2 a3 a4) := by
  unfold State.cmpApply
  extract_lets x0 x1 x2 x3 x4 x5
  try clear_value x0
  try clear_value x1
  try clear_value x2
  have hx3 : Via A s0 x3 := by
    unfold x3
    refine via_ite ?_ ?_
    · exact (via_sendPair (hA.of rfl) h _)
    · exact h
  try clear_value x3
  have hx4 : Via A s0 x4 := by
    exact (via_putCmp (hA.of rfl) hx3 _ _)
  try clear_value x4
  have hx5 : Via A s0 x5 := by
    exact (via_modClk (hA.of rfl) hx3 _ _)
  try clear_value x5
  refine via_ite ?_ ?_
  · exact (via_rephase (hA.of rfl) (via_skipLines (hA.of rfl) hx4 _ _ _) _ _)
  · refine via_ite ?_ ?_
    · exact hx5
    · exact (via_compareBehind (hA.of rfl) hx5 _ _ _)

theorem via_claspWrites {A : Nat} {s0 : State} (hA : Sub 171497 A) {s : State} (h : Via A s0 s) (a1 : Nat) (a2 : List (Nat × Nat)) : Via A s0 (State.claspWrites s a1 a2) := by
  unfold State.claspWrites
  extract_lets x0 x1 x2 x3 x4 x5 x6 x7 x8
  try clear_value x0
  try clear_value x1
  try clear_value x2
  try clear_value x3
  have hx4 : Via A s0 x4 := by
    unfold x4
    refine via_foldS ?_ ?_ _
    · intro a9 x10 hx10
      exact (via_claspWrite (hA.of rfl) hx10 _ _)
    · exact h
  try clear_value x4
  have hx5 : Via A s0 x5 := by
    unfold x5
    refine via_modPix (hA.of rfl) _ (.inr fun _ => rfl) (.inr fun _ => rfl) (.inr fun _ => by unfold Pix.jobState; rfl) (.inr fun _ => rfl) (fun _ h => by first | simpa [Pix.sized, Img.sized] using h | simp_all [Pix.sized, Img.sized]) ?_
    exact hx4
  try clear_value x5
  have hx6 : Via A s0 x6 := by
    unfold x6
    refine via_foldS ?_ ?_ _
    · intro a11 x12 hx12
      refine via_ite ?_ ?_
      · exact (via_cmpApply (hA.of rfl) hx12 _ _ _ _)
      · exact hx12
    · exact hx5
  try clear_value x6
  have hx7 : Via A s0 x7 := by
    unfold x7
    refine via_foldS ?_ ?_ _
    · intro a13 x14 hx14
      refine via_ite ?_ ?_
      · exact (via_modClk (hA.of rfl) (via_put (hA.of rfl) hx14 _ _) _ _)
      · exact hx14
    · exact hx6
  try clear_value x7
  have hx8 : Via A s0 x8 := by
    unfold x8
    refine via_ite ?_ ?_
    · exact (via_effUpdate (hA.of rfl) hx7)
    · exact hx7
  try clear_value x8
  refine via_ite ?_ ?_
  · exact (via_watchLines (hA.of rfl) hx8)
  · exact hx8

theorem via_claspStart {A : Nat} {s0 : State} (hA : Sub 695785 A) {s : State} (h : Via A s0 s) (a1 : Nat) (a2 : Nat) : Via A s0 (State.claspStart s a1 a2) := by
  unfold State.claspStart
  extract_lets x0 x1 x2 x3 x4 x5 x6 x7 x8 x9 x10
  try clear_value x0
  try clear_value x1
  have hx2 : Via A s0 x2 := by
    unfold x2
    refine via_ite ?_ ?_
    · exact (via_claspLate (hA.of rfl) h _)
    · exact h
  try clear_value x2
  have hx3 : Via A s0 x3 := by
    unfold x3
    refine via_foldS ?_ ?_ _
    · intro a11 x12 hx12
      split
      · exact (via_claspAbort (hA.of rfl) hx12 _ _ _ _)
      · exact hx12
    · exact hx2
  try clear_value x3
  try clear_value x4
  try clear_value x5
  try clear_value x6
  have hx7 : Via A s0 x7 := by
    unfold x7
    refine via_ite ?_ ?_
    · exact hx3
    · exact (via_claspLate (hA.of rfl) hx3 _)
  try clear_value x7
  have hx8 : Via A s0 x8 := by
    unfold x8
    refine via_ite ?_ ?_
    · exact (via_sendPair (hA.of rfl) hx7 _)
    · exact hx7
  try clear_value x8
  try clear_value x9
  have hx10 : Via A s0 x10 := by
    exact (via_modSlot (hA.of rfl) (via_put (hA.of rfl) hx8 _ _) _ _)
  try clear_value x10
  split
  · exact (via_claspAbort (hA.of rfl) h _ _ _ _)
  · refine via_ite ?_ ?_
    · exact (via_claspAbort (hA.of rfl) h _ _ _ _)
    · exact (via_claspWrites (hA.of rfl) hx10 _ _)

theorem via_claspPoint {A : Nat} {s0 : State} (hA : Sub 695785 A) {s : State} (h : Via A s0 s) (a1 : Nat) : Via A s0 (State.claspPoint s a1) := by
  unfold State.claspPoint
  extract_lets x0
  try clear_value x0
  refine via_ite ?_ ?_
  · exact h
  · split
    · exact h
    · split
      · exact (via_claspStart (hA.of rfl) h _ _)
      · exact h

theorem via_claspDone {A : Nat} {s0 : State} (hA : Sub 531593 A) {s : State} (h : Via A s0 s) (a1 : Nat) : Via A s0 (State.claspDone s a1) := by
  unfold State.claspDone
  extract_lets x0 x1 x2 x3 x4
  try clear_value x0
  try clear_value x1
  have hx2 : Via A s0 x2 := by
    unfold x2
    refine via_foldS ?_ ?_ _
    · intro a5 x6 hx6
      exact (via_setReg (hA.of rfl) hx6 _ _)
    · exact h
  try clear_value x2
  have hx3 : Via A s0 x3 := by
    exact (via_setReg (hA.of rfl) (via_put64 (hA.of rfl) hx2 _ _) _ _)
  try clear_value x3
  have hx4 : Via A s0 x4 := by
    exact (via_satAdd (hA.of rfl) (via_peak (hA.of rfl) hx3 _ _) _ _)
  try clear_value x4
  exact (via_batchEnd (hA.of rfl) (via_slotEvent (hA.of rfl) (via_put (hA.of rfl) hx4 _ _) _ _) _)

theorem via_batchStart {A : Nat} {s0 : State} (hA : Sub 531593 A) {s : State} (h : Via A s0 s) (a1 : Nat) : Via A s0 (State.batchStart s a1) := by
  unfold State.batchStart
  extract_lets x0
  try clear_value x0
  split
  · extract_lets x1 x2
    have hx1 : Via A s0 x1 := by
      exact (via_modSlot (hA.of rfl) (via_claspOpen (hA.of rfl) (via_takeDesc (hA.of rfl) h _ _) _) _ _)
    try clear_value x1
    have hx2 : Via A s0 x2 := by
      exact (via_put64 (hA.of rfl) (via_setReg (hA.of rfl) hx1 _ _) _ _)
    try clear_value x2
    refine via_ite ?_ ?_
    · exact h
    · refine via_ite ?_ ?_
      · exact (via_claspAbort (hA.of rfl) hx2 _ _ _ _)
      · exact (via_emit (hA.of rfl) hx2 _)
  · exact h

theorem via_batchStage {A : Nat} {s0 : State} (hA : Sub 531593 A) {s : State} (h : Via A s0 s) (a0 : Nat) (a2 : Nat) (a3 : List Sys2Proof.Byte) : Via A s0 (State.batchStage a0 s a2 a3) := by
  induction a0 generalizing s a2 a3 with
  | zero =>
    unfold Sys2Proof.Machine.State.batchStage
    exact h
  | succ k ih =>
    unfold Sys2Proof.Machine.State.batchStage
    refine via_ite ?_ ?_
    · refine ih ?_ _ _
      exact (via_claspStage (hA.of rfl) h _ _ _)
    · exact h

theorem via_batchFetched {A : Nat} {s0 : State} (hA : Sub 531593 A) {s : State} (h : Via A s0 s) (a1 : Nat) (a2 : Option (List Sys2Proof.Byte)) : Via A s0 (State.batchFetched s a1 a2) := by
  unfold State.batchFetched
  extract_lets x0 x1
  try clear_value x0
  try clear_value x1
  refine via_ite ?_ ?_
  · exact h
  · split
    · exact (via_claspAbort (hA.of rfl) h _ _ _ _)
    · extract_lets x2
      have hx2 : Via A s0 x2 := by
        exact (via_batchStage (hA.of rfl) (via_modSlot (hA.of rfl) h _ _) _ _ _)
      try clear_value x2
      refine via_ite ?_ ?_
      · exact (via_claspCommit (hA.of rfl) hx2 _)
      · exact hx2

theorem via_batchOff {A : Nat} {s0 : State} (hA : Sub 531593 A) {s : State} (h : Via A s0 s) (a1 : Nat) : Via A s0 (State.batchOff s a1) := by
  unfold State.batchOff
  extract_lets x0
  try clear_value x0
  refine via_ite ?_ ?_
  · exact (via_claspAbort (hA.of rfl) h _ _ _ _)
  · exact h

theorem via_claspsFree {A : Nat} {s0 : State} (hA : Sub 530561 A) {s : State} (h : Via A s0 s) : Via A s0 (State.claspsFree s) := by
  unfold State.claspsFree
  refine via_foldS ?_ ?_ _
  · intro a0 x1 hx1
    extract_lets x2 x3 x4 x5 x6
    try clear_value x2
    try clear_value x3
    have hx4 : Via A s0 x4 := by
      unfold x4
      refine via_ite ?_ ?_
      · exact (via_setReg (hA.of rfl) hx1 _ _)
      · exact hx1
    try clear_value x4
    try clear_value x5
    have hx6 : Via A s0 x6 := by
      unfold x6
      split
      · exact (via_descDone (hA.of rfl) (via_modSlot (hA.of rfl) hx4 _ _) _ _ _)
      · exact (via_modSlot (hA.of rfl) hx1 _ _)
    try clear_value x6
    exact (via_setReg (hA.of rfl) hx6 _ _)
  · exact h

/-! ### Pair -/

theorem via_frameIn {A : Nat} {s0 : State} (hA : Sub 5120 A) {s : State} (h : Via A s0 s) (a1 : PairHdr) : Via A s0 (State.frameIn s a1).1 := by
  unfold State.frameIn
  extract_lets x0 x1 x2
  try clear_value x0
  try clear_value x1
  have hx2 : Via A s0 x2 := by
    exact (via_modPlk (hA.of rfl) h _)
  try clear_value x2
  refine via_ite_fst ?_ ?_
  · refine via_mk_fst ?_
    exact h
  · refine via_mk_fst ?_
    exact (via_sendPair (hA.of rfl) hx2 _)

theorem via_locketOff {A : Nat} {s0 : State} (hA : Sub 132321 A) {s : State} (h : Via A s0 s) : Via A s0 (State.locketOff s) := by
  unfold State.locketOff
  extract_lets x0 x1 x2
  have hx0 : Via A s0 x0 := by
    exact (via_modPlk (hA.of rfl) (via_put (hA.of rfl) h _ _) _)
  try clear_value x0
  have hx1 : Via A s0 x1 := by
    unfold x1
    refine via_modPix (hA.of rfl) _ (.inr fun _ => rfl) (.inl (hA.of rfl)) (.inr fun _ => by unfold Pix.jobState; rfl) (.inr fun _ => rfl) (fun _ h => by first | simpa [Pix.sized, Img.sized] using h | simp_all [Pix.sized, Img.sized]) ?_
    exact hx0
  try clear_value x1
  have hx2 : Via A s0 x2 := by
    unfold x2
    refine via_modMem (hA.of rfl) _ (fun _ h => by first | simpa [Mem.sized] using h | simp_all [Mem.sized]) ?_
    exact hx1
  try clear_value x2
  refine via_ite ?_ ?_
  · exact (via_caratWithdraw (hA.of rfl) hx2 _)
  · exact hx2

theorem via_locketFail {A : Nat} {s0 : State} (hA : Sub 146665 A) {s : State} (h : Via A s0 s) (a1 : Nat) : Via A s0 (State.locketFail s a1) := by
  unfold State.locketFail
  extract_lets x0 x1 x2 x3
  have hx0 : Via A s0 x0.2 := by
    exact (via_freshWord (hA.of rfl) h)
  try clear_value x0
  have hx1 : Via A s0 x1 := by
    exact hx0
  try clear_value x1
  try clear_value x2
  try clear_value x3
  split
  · exact h
  · extract_lets x4 x5 x6 x7
    have hx4 : Via A s0 x4 := by
      exact (via_sendPair (hA.of rfl) hx1 _)
    try clear_value x4
    have hx5 : Via A s0 x5 := by
      exact (via_locketOff (hA.of rfl) hx4)
    try clear_value x5
    have hx6 : Via A s0 x6 := by
      unfold x6
      refine via_ite ?_ ?_
      · exact hx5
      · exact (via_put (hA.of rfl) hx5 _ _)
    try clear_value x6
    have hx7 : Via A s0 x7 := by
      exact (via_raise (hA.of rfl) hx6 _)
    try clear_value x7
    exact (via_pairRecord (hA.of rfl) hx7 _ _ _ _ _)

theorem via_linkLost {A : Nat} {s0 : State} (hA : Sub 146665 A) {s : State} (h : Via A s0 s) : Via A s0 (State.linkLost s) := by
  unfold State.linkLost
  extract_lets x0 x1 x2 x3
  have hx0 : Via A s0 x0 := by
    exact (via_put (hA.of rfl) (via_put (hA.of rfl) (via_put (hA.of rfl) h _ _) _ _) _ _)
  try clear_value x0
  have hx1 : Via A s0 x1 := by
    exact (via_satAdd (hA.of rfl) hx0 _ _)
  try clear_value x1
  have hx2 : Via A s0 x2 := by
    exact (via_modPlk (hA.of rfl) hx1 _)
  try clear_value x2
  have hx3 : Via A s0 x3 := by
    exact (via_locketFail (hA.of rfl) hx2 _)
  try clear_value x3
  refine via_ite ?_ ?_
  · exact h
  · split
    · exact (via_pairRecord (hA.of rfl) (via_raise (hA.of rfl) hx3 _) _ _ _ _ _)
    · exact (via_modPlk (hA.of rfl) hx3 _)
    · exact hx3

theorem via_graceOver {A : Nat} {s0 : State} (hA : Sub 73097 A) {s : State} (h : Via A s0 s) : Via A s0 (State.graceOver s) := by
  unfold State.graceOver
  extract_lets x0
  have hx0 : Via A s0 x0 := by
    exact (via_setRole (hA.of rfl) (via_modPlk (hA.of rfl) h _) _ _ _)
  try clear_value x0
  split
  · refine via_ite ?_ ?_
    · exact (via_pairRecord (hA.of rfl) (via_raise (hA.of rfl) hx0 _) _ _ _ _ _)
    · exact h
  · exact h

theorem via_linkTrained {A : Nat} {s0 : State} (hA : Sub 9249 A) {s : State} (h : Via A s0 s) (a1 : List Nat) (a2 : Nat) : Via A s0 (State.linkTrained s a1 a2) := by
  unfold State.linkTrained
  extract_lets x0 x1 x2 x3
  try clear_value x0
  have hx1 : Via A s0 x1 := by
    unfold x1
    refine via_foldS ?_ ?_ _
    · intro a4 x5 hx5
      exact (via_trainedEq (hA.of rfl) hx5 _)
    · exact h
  try clear_value x1
  have hx2 : Via A s0 x2 := by
    exact (via_put (hA.of rfl) (via_put (hA.of rfl) (via_put (hA.of rfl) hx1 _ _) _ _) _ _)
  try clear_value x2
  have hx3 : Via A s0 x3 := by
    exact (via_modPlk (hA.of rfl) (via_put (hA.of rfl) hx2 _ _) _)
  try clear_value x3
  refine via_ite ?_ ?_
  · exact h
  · refine via_ite ?_ ?_
    · exact hx1
    · exact (via_calLane (hA.of rfl) hx3 _)

theorem via_frameAck {A : Nat} {s0 : State} (hA : Sub 1024 A) {s : State} (h : Via A s0 s) (a1 : Nat) : Via A s0 (State.frameAck s a1) := by
  unfold State.frameAck
  exact (via_modPlk (hA.of rfl) h _)

theorem via_frameAgain {A : Nat} {s0 : State} (hA : Sub 146665 A) {s : State} (h : Via A s0 s) (a1 : Nat) : Via A s0 (State.frameAgain s a1) := by
  unfold State.frameAgain
  split
  · exact h
  · extract_lets x0
    have hx0 : Via A s0 x0 := by
      exact (via_emit (hA.of rfl) h _)
    try clear_value x0
    refine via_ite ?_ ?_
    · exact (via_linkLost (hA.of rfl) h)
    · exact (via_modPlk (hA.of rfl) (via_satAdd (hA.of rfl) hx0 _ _) _)

theorem via_queueAction {A : Nat} {s0 : State} (hA : Sub 1024 A) {s : State} (h : Via A s0 s) (a1 : QAction) : Via A s0 (State.queueAction s a1) := by
  unfold State.queueAction
  exact (via_modPlk (hA.of rfl) h _)

theorem via_stampAction {A : Nat} {s0 : State} (hA : Sub 5120 A) {s : State} (h : Via A s0 s) (a1 : PairAct) : Via A s0 (State.stampAction s a1) := by
  unfold State.stampAction
  extract_lets x0 x1 x2 x3
  try clear_value x0
  try clear_value x1
  try clear_value x2
  have hx3 : Via A s0 x3 := by
    exact (via_sendPair (hA.of rfl) h _)
  try clear_value x3
  exact (via_queueAction (hA.of rfl) hx3 _)

theorem via_actionIn {A : Nat} {s0 : State} (hA : Sub 73097 A) {s : State} (h : Via A s0 s) (a1 : Int) (a2 : PairAct) : Via A s0 (State.actionIn s a1 a2) := by
  unfold State.actionIn
  extract_lets x0
  try clear_value x0
  refine via_ite ?_ ?_
  · refine via_ite ?_ ?_
    · exact (via_raise (hA.of rfl) (via_put (hA.of rfl) (via_setRole (hA.of rfl) h _ _ _) _ _) _)
    · exact (via_queueAction (hA.of rfl) h _)
  · exact h

theorem via_resolveIn {A : Nat} {s0 : State} (hA : Sub 1023465 A) {s : State} (h : Via A s0 s) (a1 : Resolve) : Via A s0 (State.resolveIn s a1) := by
  unfold State.resolveIn
  extract_lets x0
  have hx0 : ∀ b0, Via A s0 (x0 b0) := by
    intro b0
    unfold x0
    refine via_ite ?_ ?_
    · exact (via_modNz (hA.of rfl) h _ _)
    · exact h
  try clear_value x0
  refine via_ite ?_ ?_
  · exact h
  · split
    · refine via_modPix (hA.of rfl) _ (.inr fun _ => rfl) (.inr fun _ => rfl) (.inr fun _ => by unfold Pix.jobState; rfl) (.inl (hA.of rfl)) (fun _ h => by first | simpa [Pix.sized, Img.sized] using h | simp_all [Pix.sized, Img.sized]) ?_
      exact h
    · exact (via_modClk (hA.of rfl) h _ _)
    · exact (via_modClk (hA.of rfl) h _ _)
    · exact (via_modFbar (hA.of rfl) h _ _)
    · exact (via_modFbar (hA.of rfl) h _ _)
    · exact (via_modFbar (hA.of rfl) h _ _)
    · exact (hx0 _)
    · exact (hx0 _)
    · exact (hx0 _)
    · exact (hx0 _)
    · exact (via_stopBarAt (hA.of rfl) h _ _)
    · exact (via_calForcedAt (hA.of rfl) h _ _ _)
    · exact (via_setFirst (hA.of rfl) h _ _)

theorem via_giveUp {A : Nat} {s0 : State} (hA : Sub 507369 A) {s : State} (h : Via A s0 s) : Via A s0 (State.giveUp s) := by
  unfold State.giveUp
  extract_lets x0 x1
  try clear_value x0
  have hx1 : Via A s0 x1 := by
    exact (via_setRole (hA.of rfl) (via_locketFail (hA.of rfl) h _) _ _ _)
  try clear_value x1
  split
  · refine via_ite ?_ ?_
    · exact hx1
    · exact (via_stopAll (hA.of rfl) hx1)
  · exact (via_setRole (hA.of rfl) h _ _ _)
  · exact (via_locketFail (hA.of rfl) h _)
  · exact h

theorem via_takeControl {A : Nat} {s0 : State} (hA : Sub 73097 A) {s : State} (h : Via A s0 s) : Via A s0 (State.takeControl s) := by
  unfold State.takeControl
  extract_lets x0 x1 x2 x3
  try clear_value x0
  try clear_value x1
  have hx2 : Via A s0 x2 := by
    unfold x2
    refine via_ite ?_ ?_
    · exact (via_satAdd (hA.of rfl) h _ _)
    · exact (via_satAdd (hA.of rfl) h _ _)
  try clear_value x2
  have hx3 : Via A s0 x3 := by
    exact (via_modPlk (hA.of rfl) (via_put (hA.of rfl) hx2 _ _) _)
  try clear_value x3
  exact (via_setRole (hA.of rfl) hx3 _ _ _)

theorem via_gapLine {A : Nat} {s0 : State} (hA : Sub 1025 A) {s : State} (h : Via A s0 s) (a1 : Nat) : Via A s0 (State.gapLine s a1) := by
  unfold State.gapLine
  extract_lets x0
  have hx0 : Via A s0 x0 := by
    exact (via_modPlk (hA.of rfl) h _)
  try clear_value x0
  exact (via_peak (hA.of rfl) hx0 _ _)

theorem via_holdFall {A : Nat} {s0 : State} (hA : Sub 146665 A) {s : State} (h : Via A s0 s) : Via A s0 (State.holdFall s) := by
  unfold State.holdFall
  extract_lets x0
  have hx0 : Via A s0 x0 := by
    exact (via_modPlk (hA.of rfl) (via_put (hA.of rfl) h _ _) _)
  try clear_value x0
  refine via_ite ?_ ?_
  · exact h
  · exact (via_locketFail (hA.of rfl) hx0 _)

theorem via_holdRise {A : Nat} {s0 : State} (hA : Sub 1025 A) {s : State} (h : Via A s0 s) : Via A s0 (State.holdRise s) := by
  unfold State.holdRise
  refine via_ite ?_ ?_
  · exact h
  · exact (via_modPlk (hA.of rfl) (via_put (hA.of rfl) h _ _) _)

theorem via_takeover {A : Nat} {s0 : State} (hA : Sub 499177 A) {s : State} (h : Via A s0 s) : Via A s0 (State.takeover s) := by
  unfold State.takeover
  extract_lets x0 x1 x2 x3 x4 x5
  try clear_value x0
  have hx1 : Via A s0 x1 := by
    exact (via_modPlk (hA.of rfl) h _)
  try clear_value x1
  try clear_value x2
  try clear_value x3
  have hx4 : Via A s0 x4 := by
    unfold x4
    refine via_ite ?_ ?_
    · refine via_modAux (hA.of rfl) _ (.inr fun _ => by unfold Aux.power; rfl) (.inr fun _ => by unfold Aux.waits; rfl) (.inr fun _ => rfl) (.inr fun _ => rfl) (fun _ h => by first | simpa [Aux.sized] using h | simp_all [Aux.sized]) ?_
      exact (via_stopAll (hA.of rfl) hx1)
    · exact hx1
  try clear_value x4
  have hx5 : Via A s0 x5 := by
    exact (via_raise (hA.of rfl) hx4 _)
  try clear_value x5
  split
  · exact h
  · extract_lets x6
    try clear_value x6
    refine via_ite ?_ ?_
    · exact h
    · split
      · refine via_ite ?_ ?_
        · exact (via_pairRecord (hA.of rfl) (via_raise (hA.of rfl) (via_setRole (hA.of rfl) hx1 _ _ _) _) _ _ _ _ _)
        · exact (via_takeControl (hA.of rfl) hx1)
      · refine via_ite ?_ ?_
        · exact hx1
        · exact (via_pairRecord (hA.of rfl) hx5 _ _ _ _ _)
      · exact hx1

theorem via_handoverAt {A : Nat} {s0 : State} (hA : Sub 212457 A) {s : State} (h : Via A s0 s) : Via A s0 (State.handoverAt s) := by
  unfold State.handoverAt
  split
  · exact (via_setRole (hA.of rfl) (via_satAdd (hA.of rfl) (via_locketFail (hA.of rfl) h _) _ _) _ _ _)
  · exact (via_modPlk (hA.of rfl) h _)
  · exact h

theorem via_handoverCmd {A : Nat} {s0 : State} (hA : Sub 5120 A) {s : State} (h : Via A s0 s) : Via A s0 (State.handoverCmd s).1 := by
  unfold State.handoverCmd
  refine via_ite_fst ?_ ?_
  · refine via_mk_fst ?_
    exact (via_stampAction (hA.of rfl) h _)
  · refine via_mk_fst ?_
    exact h

theorem via_claimFail {A : Nat} {s0 : State} (hA : Sub 7305 A) {s : State} (h : Via A s0 s) : Via A s0 (State.claimFail s) := by
  unfold State.claimFail
  exact (via_raise (hA.of rfl) (via_put (hA.of rfl) (via_modPlk (hA.of rfl) h _) _ _) _)

theorem via_claimGo {A : Nat} {s0 : State} (hA : Sub 73097 A) {s : State} (h : Via A s0 s) : Via A s0 (State.claimGo s) := by
  unfold State.claimGo
  extract_lets x0 x1 x2
  try clear_value x0
  try clear_value x1
  have hx2 : Via A s0 x2 := by
    unfold x2
    refine via_ite ?_ ?_
    · exact (via_sendPair (hA.of rfl) h _)
    · exact h
  try clear_value x2
  refine via_ite ?_ ?_
  · exact (via_claimFail (hA.of rfl) h)
  · split
    · refine via_ite ?_ ?_
      · exact (via_claimFail (hA.of rfl) hx2)
      · exact (via_setRole (hA.of rfl) (via_put (hA.of rfl) (via_modPlk (hA.of rfl) hx2 _) _ _) _ _ _)
    · exact (via_setRole (hA.of rfl) (via_put (hA.of rfl) (via_modPlk (hA.of rfl) hx2 _) _ _) _ _ _)

theorem via_claimStart {A : Nat} {s0 : State} (hA : Sub 73097 A) {s : State} (h : Via A s0 s) : Via A s0 (State.claimStart s) := by
  unfold State.claimStart
  exact (via_claimGo (hA.of rfl) (via_modPlk (hA.of rfl) h _))

theorem via_claimIn {A : Nat} {s0 : State} (hA : Sub 73097 A) {s : State} (h : Via A s0 s) (a1 : Bool) (a2 : Nat) : Via A s0 (State.claimIn s a1 a2) := by
  unfold State.claimIn
  extract_lets x0 x1
  have hx0 : Via A s0 x0 := by
    exact (via_modPlk (hA.of rfl) h _)
  try clear_value x0
  have hx1 : Via A s0 x1 := by
    unfold x1
    refine via_ite ?_ ?_
    · exact (via_setRole (hA.of rfl) hx0 _ _ _)
    · exact hx0
  try clear_value x1
  split
  · exact hx0
  · refine via_ite ?_ ?_
    · exact (via_claimFail (hA.of rfl) hx1)
    · exact hx0

theorem via_claimCheck {A : Nat} {s0 : State} (hA : Sub 73097 A) {s : State} (h : Via A s0 s) : Via A s0 (State.claimCheck s) := by
  unfold State.claimCheck
  extract_lets x0 x1 x2
  try clear_value x0
  have hx1 : Via A s0 x1 := by
    exact (via_setRole (hA.of rfl) h _ _ _)
  try clear_value x1
  try clear_value x2
  split
  · refine via_ite ?_ ?_
    · exact h
    · refine via_ite ?_ ?_
      · refine via_ite ?_ ?_
        · exact (via_claimFail (hA.of rfl) hx1)
        · exact (via_modPlk (hA.of rfl) hx1 _)
      · exact (via_put (hA.of rfl) (via_modPlk (hA.of rfl) h _) _ _)
  · exact h

theorem via_claimRetry {A : Nat} {s0 : State} (hA : Sub 73097 A) {s : State} (h : Via A s0 s) : Via A s0 (State.claimRetry s) := by
  unfold State.claimRetry
  split
  · refine via_ite ?_ ?_
    · exact h
    · exact (via_claimGo (hA.of rfl) h)
  · exact h

theorem via_locketShow {A : Nat} {s0 : State} (hA : Sub 1 A) {s : State} (h : Via A s0 s) (a1 : Nat) (a2 : Nat) : Via A s0 (State.locketShow s a1 a2) := by
  unfold State.locketShow
  exact (via_put (hA.of rfl) (via_put (hA.of rfl) (via_put (hA.of rfl) h _ _) _ _) _ _)

theorem via_locketMoved {A : Nat} {s0 : State} (hA : Sub 1 A) {s : State} (h : Via A s0 s) (a1 : Nat) : Via A s0 (State.locketMoved s a1) := by
  unfold State.locketMoved
  exact (via_put64 (hA.of rfl) h _ _)

theorem via_locketBegin {A : Nat} {s0 : State} (hA : Sub 132257 A) {s : State} (h : Via A s0 s) (a1 : Nat) (a2 : Bool) : Via A s0 (State.locketBegin s a1 a2) := by
  unfold State.locketBegin
  extract_lets x0 x1 x2
  have hx0 : Via A s0 x0 := by
    exact (via_put64 (hA.of rfl) (via_locketShow (hA.of rfl) h _ _) _ _)
  try clear_value x0
  have hx1 : Via A s0 x1 := by
    exact (via_modPlk (hA.of rfl) (via_put (hA.of rfl) hx0 _ _) _)
  try clear_value x1
  have hx2 : Via A s0 x2 := by
    unfold x2
    refine via_modPix (hA.of rfl) _ (.inr fun _ => rfl) (.inl (hA.of rfl)) (.inr fun _ => by unfold Pix.jobState; rfl) (.inr fun _ => rfl) (fun _ h => by first | simpa [Pix.sized, Img.sized] using h | simp_all [Pix.sized, Img.sized]) ?_
    exact hx1
  try clear_value x2
  refine via_ite ?_ ?_
  · exact (via_caratRequest (hA.of rfl) hx2 _ _ _ _)
  · exact hx2

theorem via_resyncIn {A : Nat} {s0 : State} (hA : Sub 136353 A) {s : State} (h : Via A s0 s) : Via A s0 (State.resyncIn s) := by
  unfold State.resyncIn
  extract_lets x0
  try clear_value x0
  refine via_ite ?_ ?_
  · exact (via_sendPair (hA.of rfl) (via_locketBegin (hA.of rfl) h _ _) _)
  · exact h

theorem via_resyncTry {A : Nat} {s0 : State} (hA : Sub 5120 A) {s : State} (h : Via A s0 s) : Via A s0 (State.resyncTry s) := by
  unfold State.resyncTry
  refine via_ite ?_ ?_
  · exact (via_sendPair (hA.of rfl) (via_modPlk (hA.of rfl) h _) _)
  · exact h

theorem via_sealNext {A : Nat} {s0 : State} (hA : Sub 5121 A) {s : State} (h : Via A s0 s) : Via A s0 (State.sealNext s) := by
  unfold State.sealNext
  split
  · exact h
  · refine via_ite ?_ ?_
    · exact h
    · split
      · exact h
      · extract_lets x0 x1 x2 x3
        try clear_value x0
        try clear_value x1
        try clear_value x2
        have hx3 : Via A s0 x3 := by
          exact (via_modPlk (hA.of rfl) h _)
        try clear_value x3
        refine via_ite ?_ ?_
        · exact h
        · exact (via_sendPair (hA.of rfl) (via_put (hA.of rfl) hx3 _ _) _)

theorem via_sealChunk {A : Nat} {s0 : State} (hA : Sub 5121 A) {s : State} (h : Via A s0 s) (a1 : Nat) (a2 : Nat) : Via A s0 (State.sealChunk s a1 a2) := by
  unfold State.sealChunk
  split
  · refine via_ite ?_ ?_
    · exact h
    · split
      · refine via_ite ?_ ?_
        · exact (via_locketMoved (hA.of rfl) (via_sendPair (hA.of rfl) h _) _)
        · exact h
      · exact h
  · exact h

theorem via_locketComplete {A : Nat} {s0 : State} (hA : Sub 204265 A) {s : State} (h : Via A s0 s) (a1 : Locket) : Via A s0 (State.locketComplete s a1) := by
  unfold State.locketComplete
  extract_lets x0 x1 x2
  have hx0 : Via A s0 x0 := by
    exact (via_locketOff (hA.of rfl) (via_locketShow (hA.of rfl) h _ _))
  try clear_value x0
  have hx1 : Via A s0 x1 := by
    unfold x1
    refine via_ite ?_ ?_
    · exact hx0
    · exact (via_setRole (hA.of rfl) hx0 _ _ _)
  try clear_value x1
  have hx2 : Via A s0 x2 := by
    exact (via_raise (hA.of rfl) hx1 _)
  try clear_value x2
  exact (via_pairRecord (hA.of rfl) hx2 _ _ _ _ _)

theorem via_locketTo {A : Nat} {s0 : State} (hA : Sub 204265 A) {s : State} (h : Via A s0 s) (a1 : Locket) (a2 : Nat) : Via A s0 (State.locketTo s a1 a2) := by
  unfold State.locketTo
  extract_lets x0
  have hx0 : Via A s0 x0 := by
    exact (via_modPlk (hA.of rfl) (via_locketShow (hA.of rfl) h _ _) _)
  try clear_value x0
  refine via_ite ?_ ?_
  · exact (via_locketComplete (hA.of rfl) h _)
  · exact (via_sealNext (hA.of rfl) hx0)

theorem via_locketPhaseEnd {A : Nat} {s0 : State} (hA : Sub 204265 A) {s : State} (h : Via A s0 s) (a1 : Nat) : Via A s0 (State.locketPhaseEnd s a1) := by
  unfold State.locketPhaseEnd
  extract_lets x0
  have hx0 : Via A s0 x0 := by
    exact (via_locketMoved (hA.of rfl) h _)
  try clear_value x0
  split
  · exact h
  · extract_lets x1
    have hx1 : Via A s0 x1 := by
      unfold x1
      refine via_ite ?_ ?_
      · exact (via_sendPair (hA.of rfl) hx0 _)
      · exact hx0
    try clear_value x1
    refine via_ite ?_ ?_
    · exact h
    · exact (via_locketTo (hA.of rfl) hx1 _ _)

theorem via_locketMax {A : Nat} {s0 : State} (hA : Sub 146665 A) {s : State} (h : Via A s0 s) : Via A s0 (State.locketMax s) := by
  unfold State.locketMax
  split
  · refine via_ite ?_ ?_
    · exact (via_locketFail (hA.of rfl) h _)
    · exact h
  · exact h

theorem via_locketRead {A : Nat} {s0 : State} (hA : Sub 5121 A) {s : State} (h : Via A s0 s) (a1 : Nat) : Via A s0 (State.locketRead s a1) := by
  unfold State.locketRead
  extract_lets x0
  try clear_value x0
  split
  · extract_lets x1
    try clear_value x1
    refine via_ite ?_ ?_
    · exact (via_locketMoved (hA.of rfl) (via_sendPair (hA.of rfl) (via_modPlk (hA.of rfl) h _) _) _)
    · exact h
  · exact h

theorem via_loadPosition {A : Nat} {s0 : State} (hA : Sub 463241 A) {s : State} (h : Via A s0 s) (a1 : LocketPos) : Via A s0 (State.loadPosition s a1) := by
  unfold State.loadPosition
  extract_lets x0 x1 x2 x3
  have hx0 : Via A s0 x0 := by
    unfold x0
    refine via_foldS ?_ ?_ _
    · intro a4 x5 hx5
      exact (via_setReg (hA.of rfl) hx5 _ _)
    · exact h
  try clear_value x0
  have hx1 : Via A s0 x1 := by
    unfold x1
    refine via_modFire (hA.of rfl) _ (fun _ h => by first | simpa [Fire.sized] using h | simp_all [Fire.sized]) ?_
    exact hx0
  try clear_value x1
  have hx2 : Via A s0 x2 := by
    unfold x2
    refine via_modPix (hA.of rfl) _ (.inr fun _ => rfl) (.inr fun _ => rfl) (.inl (hA.of rfl)) (.inr fun _ => rfl) (fun _ h => by first | simpa [Pix.sized, Img.sized] using h | simp_all [Pix.sized, Img.sized]) ?_
    exact hx1
  try clear_value x2
  have hx3 : Via A s0 x3 := by
    unfold x3
    refine via_foldS ?_ ?_ _
    · intro a6 x7 hx7
      split
      · exact (via_modImg (hA.of rfl) hx7 _ _)
      · exact hx7
    · exact hx2
  try clear_value x3
  exact (via_devJobs (hA.of rfl) hx3)

theorem via_installChunk {A : Nat} {s0 : State} (hA : Sub 1091 A) {s : State} (h : Via A s0 s) (a1 : Nat) (a2 : Nat) (a3 : List Sys2Proof.Byte) (a4 : List (Nat × Sys2Proof.Word)) : Via A s0 (State.installChunk s a1 a2 a3 a4) := by
  unfold State.installChunk
  extract_lets x0 x1
  have hx0 : Via A s0 x0 := by
    exact (via_setDram (hA.of rfl) h _ _)
  try clear_value x0
  have hx1 : Via A s0 x1 := by
    unfold x1
    refine via_foldS ?_ ?_ _
    · intro a2 x3 hx3
      exact (via_setReg (hA.of rfl) hx3 _ _)
    · exact hx0
  try clear_value x1
  refine via_foldS ?_ ?_ _
  · intro a4 x5 hx5
    exact (via_put (hA.of rfl) hx5 _ _)
  · exact hx1

theorem via_locketIn {A : Nat} {s0 : State} (hA : Sub 466411 A) {s : State} (h : Via A s0 s) (a1 : Nat) (a2 : Nat) (a3 : LocketPart) : Via A s0 (State.locketIn s a1 a2 a3) := by
  unfold State.locketIn
  extract_lets x0
  have hx0 : Via A s0 x0 := by
    exact (via_locketMoved (hA.of rfl) h _)
  try clear_value x0
  split
  · refine via_ite ?_ ?_
    · exact (via_locketBegin (hA.of rfl) h _ _)
    · exact h
  · exact h
  · refine via_ite ?_ ?_
    · exact h
    · split
      · exact hx0
      · refine via_ite ?_ ?_
        · exact (via_locketTo (hA.of rfl) hx0 _ _)
        · exact hx0
      · refine via_foldS ?_ ?_ _
        · intro a1 x2 hx2
          exact (via_setReg (hA.of rfl) hx2 _ _)
        · exact hx0
      · refine via_ite ?_ ?_
        · exact (via_setDram (hA.of rfl) hx0 _ _)
        · exact hx0
      · extract_lets x3
        have hx3 : Via A s0 x3 := by
          exact (via_modPlane (hA.of rfl) hx0 _ _ _)
        try clear_value x3
        refine via_refetchNext (hA.of rfl) ?_ _
        refine via_modPix (hA.of rfl) _ (.inr fun _ => rfl) (.inl (hA.of rfl)) (.inr fun _ => by unfold Pix.jobState; rfl) (.inr fun _ => rfl) (fun _ h => by first | simpa [Pix.sized, Img.sized] using h | simp_all [Pix.sized, Img.sized]) ?_
        exact hx3
      · exact (via_loadPosition (hA.of rfl) hx0 _)
      · exact (via_put (hA.of rfl) (via_modPlk (hA.of rfl) hx0 _) _ _)
      · exact (via_installChunk (hA.of rfl) hx0 _ _ _ _)

theorem via_refetchCheck {A : Nat} {s0 : State} (hA : Sub 146665 A) {s : State} (h : Via A s0 s) : Via A s0 (State.refetchCheck s) := by
  unfold State.refetchCheck
  refine via_ite ?_ ?_
  · exact (via_locketFail (hA.of rfl) h _)
  · exact h

theorem via_align {A : Nat} {s0 : State} (hA : Sub 1029 A) {s : State} (h : Via A s0 s) (a1 : Int) : Via A s0 (State.align s a1) := by
  unfold State.align
  extract_lets x0 x1
  have hx0 : Via A s0 x0 := by
    exact (via_setReg (hA.of rfl) h _ _)
  try clear_value x0
  have hx1 : Via A s0 x1 := by
    exact (via_modPlk (hA.of rfl) hx0 _)
  try clear_value x1
  refine via_ite ?_ ?_
  · exact (via_modPlk (hA.of rfl) hx0 _)
  · refine via_ite ?_ ?_
    · refine Via.step hx1 rfl (.inr rfl) (.inr rfl) (.inl (hA.of rfl)) (.inr rfl) (.inr rfl) (.inr rfl) (.inr rfl) (.inr rfl) (.inr rfl) (.inr rfl) (.inr rfl) (.inr rfl) (.inr rfl) (.inr rfl) (.inr rfl) (.inr rfl) (.inr rfl) (.inr rfl) (.inr rfl) (.inr rfl) (.inr rfl) (List.suffix_refl _) ?_ ?_ (.inr (Nat.le_add_right _ _))
      · exact id
      · exact fun h => sized_of h id id id id id id
    · refine via_ite ?_ ?_
      · exact (via_putInt64 (hA.of rfl) hx1 _ _)
      · exact (via_modPlk (hA.of rfl) hx1 _)

theorem via_tickSlewed {A : Nat} {s0 : State} (hA : Sub 1028 A) {s : State} (h : Via A s0 s) : Via A s0 (State.tickSlewed s) := by
  unfold State.tickSlewed
  refine via_ite ?_ ?_
  · refine Via.step h rfl (.inr rfl) (.inr rfl) (.inl (hA.of rfl)) (.inr rfl) (.inr rfl) (.inr rfl) (.inr rfl) (.inr rfl) (.inr rfl) (.inr rfl) (.inr rfl) (.inr rfl) (.inr rfl) (.inr rfl) (.inr rfl) (.inr rfl) (.inr rfl) (.inr rfl) (.inr rfl) (.inr rfl) (.inr rfl) (List.suffix_refl _) ?_ ?_ (.inr (Nat.le_add_right _ _))
    · exact id
    · exact fun h => sized_of h id id id id id id
  · refine via_ite ?_ ?_
    · exact (via_modPlk (hA.of rfl) h _)
    · exact (via_atTime (hA.of rfl) (via_modPlk (hA.of rfl) h _) _)

theorem via_encDelay {A : Nat} {s0 : State} (hA : Sub 1025 A) {s : State} (h : Via A s0 s) (a1 : Int) (a2 : Int) : Via A s0 (State.encDelay s a1 a2) := by
  unfold State.encDelay
  extract_lets x0
  try clear_value x0
  refine via_ite ?_ ?_
  · exact h
  · split
    · exact h
    · extract_lets x1 x2
      try clear_value x1
      try clear_value x2
      refine via_ite ?_ ?_
      · exact (via_modPlk (hA.of rfl) h _)
      · exact (via_put (hA.of rfl) (via_modPlk (hA.of rfl) h _) _ _)

theorem via_heartbeat {A : Nat} {s0 : State} (hA : Sub 7309 A) {s : State} (h : Via A s0 s) (a1 : Heartbeat) : Via A s0 (State.heartbeat s a1) := by
  unfold State.heartbeat
  extract_lets x0 x1 x2
  have hx0 : Via A s0 x0 := by
    exact (via_put (hA.of rfl) (via_put (hA.of rfl) (via_put (hA.of rfl) h _ _) _ _) _ _)
  try clear_value x0
  have hx1 : Via A s0 x1 := by
    exact (via_modPlk (hA.of rfl) hx0 _)
  try clear_value x1
  have hx2 : Via A s0 x2 := by
    unfold x2
    refine via_ite ?_ ?_
    · exact (via_raise (hA.of rfl) hx1 _)
    · exact hx1
  try clear_value x2
  refine via_ite ?_ ?_
  · exact (via_resyncTry (hA.of rfl) (via_encDelay (hA.of rfl) (via_align (hA.of rfl) hx2 _) _ _))
  · exact hx2

theorem via_sendHeartbeat {A : Nat} {s0 : State} (hA : Sub 5120 A) {s : State} (h : Via A s0 s) : Via A s0 (State.sendHeartbeat s) := by
  unfold State.sendHeartbeat
  extract_lets x0 x1
  try clear_value x0
  try clear_value x1
  exact (via_sendPair (hA.of rfl) h _)

theorem via_divergedIn {A : Nat} {s0 : State} (hA : Sub 73097 A) {s : State} (h : Via A s0 s) (a1 : DigKey) : Via A s0 (State.divergedIn s a1) := by
  unfold State.divergedIn
  split
  · exact (via_digestMissing (hA.of rfl) h _ _)
  · split
    · exact (via_digestMissing (hA.of rfl) h _ _)
    · exact h

theorem via_digestIn {A : Nat} {s0 : State} (hA : Sub 212457 A) {s : State} (h : Via A s0 s) (a1 : DigKey) (a2 : Nat) : Via A s0 (State.digestIn s a1 a2) := by
  unfold State.digestIn
  extract_lets x0 x1
  try clear_value x0
  have hx1 : Via A s0 x1 := by
    exact (via_peerDigest (hA.of rfl) h _ _)
  try clear_value x1
  refine via_ite ?_ ?_
  · exact h
  · split
    · refine via_ite ?_ ?_
      · exact (via_locketFail (hA.of rfl) hx1 _)
      · exact hx1
    · exact hx1

theorem via_digestExpiry {A : Nat} {s0 : State} (hA : Sub 73097 A) {s : State} (h : Via A s0 s) : Via A s0 (State.digestExpiry s) := by
  unfold State.digestExpiry
  extract_lets x0
  try clear_value x0
  split
  · exact (via_digestMissing (hA.of rfl) h _ _)
  · split
    · exact (via_digestMissing (hA.of rfl) h _ _)
    · exact h

theorem via_recordIn {A : Nat} {s0 : State} (hA : Sub 7305 A) {s : State} (h : Via A s0 s) (a1 : Rec) : Via A s0 (State.recordIn s a1) := by
  unfold State.recordIn
  refine via_ite ?_ ?_
  · exact h
  · exact (via_deliver (hA.of rfl) (via_routeRec (hA.of rfl) h _ _ _))

theorem via_controlIn {A : Nat} {s0 : State} (hA : Sub 212457 A) {s : State} (h : Via A s0 s) (a1 : PairControl) : Via A s0 (State.controlIn s a1) := by
  unfold State.controlIn
  split
  · exact (via_claimIn (hA.of rfl) h _ _)
  · exact (via_resyncIn (hA.of rfl) h)
  · exact (via_handoverCmd (hA.of rfl) h)
  · refine via_ite ?_ ?_
    · exact (via_divergedIn (hA.of rfl) h _)
    · exact h
  · split
    · refine via_ite ?_ ?_
      · exact (via_locketFail (hA.of rfl) h _)
      · exact h
    · exact h
  · exact (via_recordIn (hA.of rfl) h _)

/-! ### Boundary -/

theorem via_putStats {A : Nat} {s0 : State} (hA : Sub 128 A) {s : State} (h : Via A s0 s) (a1 : Nat) (a2 : List Nat) : Via A s0 (State.putStats s a1 a2) := by
  unfold State.putStats
  refine via_modPix (hA.of rfl) _ (.inr fun _ => rfl) (.inr fun _ => rfl) (.inr fun _ => by unfold Pix.jobState; rfl) (.inr fun _ => rfl) (fun _ h => by first | simpa [Pix.sized, Img.sized] using h | simp_all [Pix.sized, Img.sized]) ?_
  exact h

theorem via_statsLine {A : Nat} {s0 : State} (hA : Sub 128 A) {s : State} (h : Via A s0 s) (a1 : Nat) (a2 : Nat) (a3 : Nat) (a4 : LineFate) (a5 : Bool) (a6 : List (List Nat)) : Via A s0 (State.statsLine s a1 a2 a3 a4 a5 a6) := by
  unfold State.statsLine
  extract_lets x0 x1 x2
  try clear_value x0
  try clear_value x1
  try clear_value x2
  refine via_ite ?_ ?_
  · exact h
  · exact (via_putStats (hA.of rfl) h _ _)

theorem via_statsClose {A : Nat} {s0 : State} (hA : Sub 7305 A) {s : State} (h : Via A s0 s) (a1 : Nat) : Via A s0 (State.statsClose s a1) := by
  unfold State.statsClose
  extract_lets x0 x1
  try clear_value x0
  have hx1 : Via A s0 x1 := by
    exact (via_putStats (hA.of rfl) h _ _)
  try clear_value x1
  refine via_ite ?_ ?_
  · refine via_foldS ?_ ?_ _
    · intro a2 x3 hx3
      exact (via_putRecord (hA.of rfl) hx3 _ _)
    · exact hx1
  · exact hx1

theorem via_gapNote {A : Nat} {s0 : State} (hA : Sub 1025 A) {s : State} (h : Via A s0 s) (a1 : Nat) (a2 : Bool) : Via A s0 (State.gapNote s a1 a2) := by
  unfold State.gapNote
  split
  · exact (via_modPlk (hA.of rfl) h _)
  · refine via_ite ?_ ?_
    · exact h
    · exact (via_gapLine (hA.of rfl) h _)
  · exact h

theorem via_lineFire {A : Nat} {s0 : State} (hA : Sub 7561 A) {s : State} (h : Via A s0 s) (a1 : State) (a2 : Nat) (a3 : Nat) (a4 : Commit) : Via A s0 (State.lineFire s a1 a2 a3 a4).1 := by
  unfold State.lineFire
  split
  · extract_lets x0 x1 x2 x3
    have hx0 : Via A s0 x0.1 := by
      exact (via_fireLine (hA.of rfl) h _ _ _ _ _)
    try clear_value x0
    try clear_value x1
    try clear_value x2
    have hx3 : Via A s0 x3 := by
      exact (via_statsLine (hA.of rfl) (via_captureLine (hA.of rfl) hx0 _ _ _ _) _ _ _ _ _ _)
    try clear_value x3
    refine via_ite_fst ?_ ?_
    · refine via_mk_fst ?_
      exact (via_gapNote (hA.of rfl) hx3 _ _)
    · refine via_mk_fst ?_
      exact (via_gapNote (hA.of rfl) (via_statsLine (hA.of rfl) (via_satAdd (hA.of rfl) h _ _) _ _ _ _ _ _) _ _)
  · refine via_mk_fst ?_
    exact (via_gapNote (hA.of rfl) (via_statsLine (hA.of rfl) (via_satAdd (hA.of rfl) h _ _) _ _ _ _ _ _) _ _)

theorem via_lineSend {A : Nat} {s0 : State} (hA : Sub 507881 A) {s : State} (h : Via A s0 s) (a1 : State) (a2 : Nat) (a3 : Nat) (a4 : Commit) : Via A s0 (State.lineSend s a1 a2 a3 a4) := by
  unfold State.lineSend
  extract_lets x0 x1 x2 x3 x4
  try clear_value x0
  try clear_value x1
  have hx2 : Via A s0 x2 := by
    unfold x2
    refine via_ite ?_ ?_
    · exact (via_sendLine (hA.of rfl) h _ _)
    · exact (via_modFbar (hA.of rfl) h _ _)
  try clear_value x2
  try clear_value x3
  have hx4 : Via A s0 x4 := by
    unfold x4
    split
    · refine via_ite ?_ ?_
      · exact (via_lineDigest (hA.of rfl) hx2 _ _ _)
      · exact hx2
    · exact hx2
  try clear_value x4
  refine via_ite ?_ ?_
  · exact (via_zlSend (hA.of rfl) hx4 _ _ _ _ _ _)
  · exact hx4

theorem via_sealStart {A : Nat} {s0 : State} (hA : Sub 7305 A) {s : State} (h : Via A s0 s) (a1 : Nat) (a2 : Nat) : Via A s0 (State.sealStart s a1 a2) := by
  unfold State.sealStart
  split
  · refine via_ite ?_ ?_
    · exact (via_putFifo (hA.of rfl) (via_screenFirst (hA.of rfl) h _ _) _ _)
    · exact h
  · exact h

theorem via_lineBoundary {A : Nat} {s0 : State} (hA : Sub 507881 A) {s : State} (h : Via A s0 s) (a1 : Nat) : Via A s0 (State.lineBoundary s a1) := by
  unfold State.lineBoundary
  split
  · exact h
  · extract_lets x0 x1 x2 x3 x4 x5 x6 x7 x8 x9 x10 x11 x12 x13 x14 x15
    try clear_value x0
    have hx1 : Via A s0 x1 := by
      exact (via_viewDone (hA.of rfl) (via_advance (hA.of rfl) h _ _) _ _)
    try clear_value x1
    have hx2 : Via A s0 x2 := by
      exact (via_sealStart (hA.of rfl) hx1 _ _)
    try clear_value x2
    have hx3 : Via A s0 x3 := by
      unfold x3
      split
      · refine via_ite ?_ ?_
        · exact (via_putStats (hA.of rfl) hx2 _ _)
        · exact hx2
      · exact hx2
    try clear_value x3
    have hx4 : Via A s0 x4 := by
      exact (via_fireValues (hA.of rfl) (via_nzcBefore (hA.of rfl) hx3 _ _) _ _)
    try clear_value x4
    try clear_value x5
    have hx6 : Via A s0 x6 := by
      exact (via_calForcedStart (hA.of rfl) (via_calBoundary (hA.of rfl) hx4 _ _ _) _ _ _)
    try clear_value x6
    have hx7 : Via A s0 x7 := by
      exact (via_jobLineBegin (hA.of rfl) hx6 _ _)
    try clear_value x7
    have hx8 : Via A s0 x8.1 := by
      unfold x8
      refine via_ite_fst ?_ ?_
      · exact (via_lineFire (hA.of rfl) hx7 _ _ _ _)
      · refine via_mk_fst ?_
        exact hx7
    try clear_value x8
    have hx9 : Via A s0 x9 := by
      unfold x9
      refine via_ite ?_ ?_
      · exact (via_screenBoundary (hA.of rfl) hx8 _ _ _)
      · exact hx8
    try clear_value x9
    have hx10 : Via A s0 x10 := by
      exact (via_lineSend (hA.of rfl) hx9 _ _ _ _)
    try clear_value x10
    have hx11 : Via A s0 x11 := by
      exact (via_sealChunk (hA.of rfl) (via_nzcAfter (hA.of rfl) hx10 _ _ _) _ _)
    try clear_value x11
    have hx12 : Via A s0 x12 := by
      unfold x12
      refine via_ite ?_ ?_
      · exact (via_statsClose (hA.of rfl) hx11 _)
      · exact hx11
    try clear_value x12
    try clear_value x13
    have hx14 : Via A s0 x14 := by
      exact (via_cutNow (hA.of rfl) (via_jobLineEnd (hA.of rfl) hx12 _ _ _) _)
    try clear_value x14
    have hx15 : Via A s0 x15 := by
      unfold x15
      refine via_ite ?_ ?_
      · exact (via_statsClose (hA.of rfl) hx14 _)
      · exact hx14
    try clear_value x15
    refine via_ite ?_ ?_
    · exact h
    · refine via_ite ?_ ?_
      · exact (via_sealNext (hA.of rfl) hx1)
      · exact (via_sealNext (hA.of rfl) hx15)

/-! ### Blocks -/

theorem via_blockStart {A : Nat} {s0 : State} (hA : Sub 204169 A) {s : State} (h : Via A s0 s) (a1 : Nat) : Via A s0 (State.blockStart s a1) := by
  unfold State.blockStart
  refine via_ite ?_ ?_
  · refine via_ite ?_ ?_
    · exact (via_setRole (hA.of rfl) h _ _ _)
    · exact h
  · refine via_ite ?_ ?_
    · exact (via_posEnable (hA.of rfl) h)
    · refine via_ite ?_ ?_
      · exact (via_watchLines (hA.of rfl) h)
      · refine via_ite ?_ ?_
        · exact (via_put (hA.of rfl) h _ _)
        · refine via_ite ?_ ?_
          · exact (via_imgResume (hA.of rfl) h)
          · exact h

theorem via_blockRun {A : Nat} {s0 : State} (hA : Sub 204169 A) {s : State} (h : Via A s0 s) (a1 : Nat) : Via A s0 (State.blockRun s a1) := by
  unfold State.blockRun
  exact (via_blockStart (hA.of rfl) (via_put (hA.of rfl) (via_put (hA.of rfl) (via_put (hA.of rfl) h _ _) _ _) _ _) _)

theorem via_blockEnable {A : Nat} {s0 : State} (hA : Sub 204169 A) {s : State} (h : Via A s0 s) (a1 : Nat) : Via A s0 (State.blockEnable s a1).1 := by
  unfold State.blockEnable
  refine via_ite_fst ?_ ?_
  · refine via_mk_fst ?_
    exact h
  · refine via_ite_fst ?_ ?_
    · refine via_mk_fst ?_
      exact (via_put (hA.of rfl) (via_put (hA.of rfl) h _ _) _ _)
    · refine via_ite_fst ?_ ?_
      · refine via_mk_fst ?_
        exact (via_blockRun (hA.of rfl) h _)
      · refine via_mk_fst ?_
        exact h

theorem via_blockDisable {A : Nat} {s0 : State} (hA : Sub 212457 A) {s : State} (h : Via A s0 s) (a1 : Nat) : Via A s0 (State.blockDisable s a1).1 := by
  unfold State.blockDisable
  extract_lets x0
  have hx0 : Via A s0 x0 := by
    exact (via_put (hA.of rfl) (via_put (hA.of rfl) h _ _) _ _)
  try clear_value x0
  refine via_ite_fst ?_ ?_
  · refine via_mk_fst ?_
    exact h
  · refine via_ite_fst ?_ ?_
    · refine via_mk_fst ?_
      exact (via_put (hA.of rfl) (via_put (hA.of rfl) h _ _) _ _)
    · refine via_ite_fst ?_ ?_
      · refine via_mk_fst ?_
        exact h
      · refine via_mk_fst ?_
        refine via_ite ?_ ?_
        · exact (via_setRole (hA.of rfl) (via_locketFail (hA.of rfl) hx0 _) _ _ _)
        · refine via_ite ?_ ?_
          · exact (via_posDisable (hA.of rfl) hx0)
          · exact hx0

theorem via_blockDrained {A : Nat} {s0 : State} (hA : Sub 204235 A) {s : State} (h : Via A s0 s) (a1 : Nat) : Via A s0 (State.blockDrained s a1) := by
  unfold State.blockDrained
  extract_lets x0 x1
  have hx0 : Via A s0 x0 := by
    unfold x0
    refine via_ite ?_ ?_
    · exact (via_put (hA.of rfl) (via_nzcDrained (hA.of rfl) h) _ _)
    · exact h
  try clear_value x0
  have hx1 : Via A s0 x1 := by
    unfold x1
    refine via_ite ?_ ?_
    · exact (via_blockRun (hA.of rfl) (via_put (hA.of rfl) hx0 _ _) _)
    · exact (via_put (hA.of rfl) (via_put (hA.of rfl) hx0 _ _) _ _)
  try clear_value x1
  refine via_ite ?_ ?_
  · exact h
  · exact (via_raise (hA.of rfl) hx1 _)

theorem via_ringForget {A : Nat} {s0 : State} (hA : Sub 917632 A) {s : State} (h : Via A s0 s) (a1 : Nat) : Via A s0 (State.ringForget s a1) := by
  unfold State.ringForget
  extract_lets x0 x1 x2
  try clear_value x0
  try clear_value x1
  have hx2 : Via A s0 x2 := by
    exact (via_modImg (hA.of rfl) h _ _)
  try clear_value x2
  refine via_ite ?_ ?_
  · refine via_modPix (hA.of rfl) _ (.inr fun _ => rfl) (.inl (hA.of rfl)) (.inr fun _ => by unfold Pix.jobState; rfl) (.inr fun _ => rfl) (fun _ h => by first | simpa [Pix.sized, Img.sized] using h | simp_all [Pix.sized, Img.sized]) ?_
    exact hx2
  · refine via_ite ?_ ?_
    · exact (via_modCodec (hA.of rfl) h _ _)
    · refine via_ite ?_ ?_
      · exact (via_modNz (hA.of rfl) h _ _)
      · refine via_ite ?_ ?_
        · exact (via_modSlot (hA.of rfl) h _ _)
        · refine via_ite ?_ ?_
          · exact (via_modJob (hA.of rfl) h _ _)
          · refine via_ite ?_ ?_
            · refine via_modPix (hA.of rfl) _ (.inr fun _ => rfl) (.inr fun _ => rfl) (.inr fun _ => by unfold Pix.jobState; rfl) (.inr fun _ => rfl) (fun _ h => by first | simpa [Pix.sized, Img.sized] using h | simp_all [Pix.sized, Img.sized]) ?_
              exact h
            · exact h

theorem via_ringsDrop {A : Nat} {s0 : State} (hA : Sub 1023465 A) {s : State} (h : Via A s0 s) : Via A s0 (State.ringsDrop s) := by
  unfold State.ringsDrop
  extract_lets x0 x1 x2
  have hx0 : Via A s0 x0 := by
    unfold x0
    refine via_foldS ?_ ?_ _
    · intro a3 x4 hx4
      split
      · refine via_ite ?_ ?_
        · refine via_ite ?_ ?_
          · exact hx4
          · exact (via_endFetch (hA.of rfl) hx4 _ _ _)
        · exact (via_endFetch (hA.of rfl) hx4 _ _ _)
      · exact hx4
    · exact h
  try clear_value x0
  have hx1 : Via A s0 x1 := by
    unfold x1
    refine via_foldS ?_ ?_ _
    · intro a5 x6 hx6
      extract_lets x7
      have hx7 : Via A s0 x7 := by
        unfold x7
        split
        · exact (via_laneEnd (hA.of rfl) hx6 _)
        · exact hx6
      try clear_value x7
      exact (via_jobRingOff (hA.of rfl) (via_batchOff (hA.of rfl) (via_modCodec (hA.of rfl) hx7 _ _) _) _)
    · exact hx0
  try clear_value x1
  have hx2 : Via A s0 x2 := by
    unfold x2
    refine via_foldS ?_ ?_ _
    · intro a8 x9 hx9
      exact (via_modNz (hA.of rfl) hx9 _ _)
    · exact hx1
  try clear_value x2
  refine via_foldS ?_ ?_ _
  · intro a10 x11 hx11
    exact (via_ringForget (hA.of rfl) hx11 _)
  · exact hx2

theorem via_blockWithdraw {A : Nat} {s0 : State} (hA : Sub 32961 A) {s : State} (h : Via A s0 s) (a1 : Nat) : Via A s0 (State.blockWithdraw s a1) := by
  unfold State.blockWithdraw
  extract_lets x0
  have hx0 : Via A s0 x0 := by
    unfold x0
    refine via_ite ?_ ?_
    · exact (via_arbWithdraw (hA.of rfl) h _ _)
    · exact h
  try clear_value x0
  refine via_ite ?_ ?_
  · exact (via_arbWithdraw (hA.of rfl) hx0 _ _)
  · refine via_ite ?_ ?_
    · exact (via_arbWithdraw (hA.of rfl) hx0 _ _)
    · exact hx0

theorem via_imgReset {A : Nat} {s0 : State} (hA : Sub 137345 A) {s : State} (h : Via A s0 s) : Via A s0 (State.imgReset s) := by
  unfold State.imgReset
  refine via_modPix (hA.of rfl) _ (.inr fun _ => rfl) (.inl (hA.of rfl)) (.inr fun _ => by unfold Pix.jobState; rfl) (.inr fun _ => rfl) (fun _ h => by first | simpa [Pix.sized, Img.sized] using h | simp_all [Pix.sized, Img.sized]) ?_
  refine via_foldS ?_ ?_ _
  · intro a0 x1 hx1
    exact (via_tileReset (hA.of rfl) hx1 _)
  · exact h

theorem via_blockClear {A : Nat} {s0 : State} (hA : Sub 1023977 A) {s : State} (h : Via A s0 s) (a1 : Nat) : Via A s0 (State.blockClear s a1) := by
  unfold State.blockClear
  extract_lets x0
  have hx0 : Via A s0 x0 := by
    exact (via_blockWithdraw (hA.of rfl) h _)
  try clear_value x0
  refine via_ite ?_ ?_
  · exact (via_claspsFree (hA.of rfl) hx0)
  · refine via_ite ?_ ?_
    · refine via_modPix (hA.of rfl) _ (.inr fun _ => rfl) (.inr fun _ => rfl) (.inr fun _ => by unfold Pix.jobState; rfl) (.inr fun _ => rfl) (fun _ h => by first | simpa [Pix.sized, Img.sized] using h | simp_all [Pix.sized, Img.sized]) ?_
      exact hx0
    · refine via_ite ?_ ?_
      · refine via_modHost (hA.of rfl) _ (fun _ h => by first | simpa [HostIf.sized] using h | simp_all [HostIf.sized]) ?_
        exact (via_ringsDrop (hA.of rfl) hx0)
      · refine via_ite ?_ ?_
        · refine via_foldS ?_ ?_ _
          · intro a1 x2 hx2
            exact (via_modCodec (hA.of rfl) hx2 _ _)
          · exact hx0
        · refine via_ite ?_ ?_
          · exact (via_imgReset (hA.of rfl) hx0)
          · refine via_ite ?_ ?_
            · refine via_modPix (hA.of rfl) _ (.inr fun _ => rfl) (.inr fun _ => rfl) (.inr fun _ => by unfold Pix.jobState; rfl) (.inr fun _ => rfl) (fun _ h => by first | simpa [Pix.sized, Img.sized] using h | simp_all [Pix.sized, Img.sized]) ?_
              exact hx0
            · refine via_ite ?_ ?_
              · refine via_modFire (hA.of rfl) _ (fun _ h => by first | simpa [Fire.sized] using h | simp_all [Fire.sized]) ?_
                exact hx0
              · refine via_ite ?_ ?_
                · refine via_modFire (hA.of rfl) _ (fun _ h => by first | simpa [Fire.sized] using h | simp_all [Fire.sized]) ?_
                  exact hx0
                · refine via_ite ?_ ?_
                  · refine via_modPix (hA.of rfl) _ (.inr fun _ => rfl) (.inr fun _ => rfl) (.inr fun _ => by unfold Pix.jobState; rfl) (.inr fun _ => rfl) (fun _ h => by first | simpa [Pix.sized, Img.sized] using h | simp_all [Pix.sized, Img.sized]) ?_
                    exact hx0
                  · refine via_ite ?_ ?_
                    · exact (via_modScn (hA.of rfl) hx0 _ _)
                    · refine via_ite ?_ ?_
                      · exact (via_modFbar (hA.of rfl) hx0 _ _)
                      · refine via_ite ?_ ?_
                        · refine via_foldS ?_ ?_ _
                          · intro a3 x4 hx4
                            exact (via_modLane (hA.of rfl) hx4 _ _)
                          · exact hx0
                        · refine via_ite ?_ ?_
                          · exact (via_modHsk (hA.of rfl) hx0 _)
                          · refine via_ite ?_ ?_
                            · refine via_modAux (hA.of rfl) _ (.inr fun _ => by unfold Aux.power; rfl) (.inr fun _ => by unfold Aux.waits; rfl) (.inr fun _ => rfl) (.inr fun _ => rfl) (fun _ h => by first | simpa [Aux.sized] using h | simp_all [Aux.sized]) ?_
                              exact hx0
                            · exact hx0

theorem via_dropHeld {A : Nat} {s0 : State} (hA : Sub 8 A) {s : State} (h : Via A s0 s) (a1 : Nat → Bool) : Via A s0 (State.dropHeld s a1) := by
  unfold State.dropHeld
  refine via_modAux (hA.of rfl) _ (.inr fun _ => by unfold Aux.power; rfl) (.inr fun _ => by unfold Aux.waits; rfl) (.inr fun _ => rfl) (.inr fun _ => rfl) (fun _ h => by first | simpa [Aux.sized] using h | simp_all [Aux.sized]) ?_
  exact h

theorem via_blockReset {A : Nat} {s0 : State} (hA : Sub 1023977 A) {s : State} (h : Via A s0 s) (a1 : Nat) : Via A s0 (State.blockReset s a1).1 := by
  unfold State.blockReset
  extract_lets x0 x1 x2 x3 x4
  have hx0 : Via A s0 x0 := by
    exact (via_blockClear (hA.of rfl) h _)
  try clear_value x0
  have hx1 : Via A s0 x1 := by
    exact (via_clearRegs (hA.of rfl) hx0 _)
  try clear_value x1
  have hx2 : Via A s0 x2 := by
    exact (via_dropHeld (hA.of rfl) hx1 _)
  try clear_value x2
  have hx3 : Via A s0 x3 := by
    exact (via_put (hA.of rfl) (via_setReg (hA.of rfl) (via_setReg (hA.of rfl) hx2 _ _) _ _) _ _)
  try clear_value x3
  have hx4 : Via A s0 x4 := by
    unfold x4
    refine via_ite ?_ ?_
    · exact (via_padsUpdate (hA.of rfl) hx3)
    · refine via_ite ?_ ?_
      · exact (via_calReleased (hA.of rfl) hx3)
      · refine via_ite ?_ ?_
        · exact (via_effUpdate (hA.of rfl) (via_caratCounts (hA.of rfl) hx3))
        · refine via_ite ?_ ?_
          · exact (via_mirror (hA.of rfl) (via_put (hA.of rfl) hx3 _ _))
          · exact hx3
  try clear_value x4
  refine via_ite_fst ?_ ?_
  · refine via_mk_fst ?_
    exact h
  · refine via_mk_fst ?_
    exact (via_raise (hA.of rfl) hx4 _)

theorem via_ctrlBlock {A : Nat} {s0 : State} (hA : Sub 5377 A) {s : State} (h : Via A s0 s) (a1 : Nat) (a2 : Sys2Proof.Word) : Via A s0 (State.ctrlBlock s a1 a2) := by
  unfold State.ctrlBlock
  extract_lets x0
  try clear_value x0
  refine via_ite ?_ ?_
  · refine via_ite ?_ ?_
    · exact h
    · exact (via_historyChange (hA.of rfl) (via_put (hA.of rfl) h _ _) _ _)
  · exact h

theorem via_writeCtrl {A : Nat} {s0 : State} (hA : Sub 1032169 A) {s : State} (h : Via A s0 s) (a1 : Nat) (a2 : Sys2Proof.Word) : Via A s0 (State.writeCtrl s a1 a2).1 := by
  unfold State.writeCtrl
  extract_lets x0
  have hx0 : Via A s0 x0.1 := by
    unfold x0
    refine via_ite_fst ?_ ?_
    · exact (via_blockReset (hA.of rfl) h _)
    · refine via_ite_fst ?_ ?_
      · exact (via_blockEnable (hA.of rfl) h _)
      · exact (via_blockDisable (hA.of rfl) h _)
  try clear_value x0
  split
  · refine via_mk_fst ?_
    exact h
  · refine via_mk_fst ?_
    exact (via_ctrlBlock (hA.of rfl) hx0 _ _)

theorem via_applyRecorded {A : Nat} {s0 : State} (hA : Sub 1032169 A) {s : State} (h : Via A s0 s) (a1 : Nat) : Via A s0 (State.applyRecorded s a1) := by
  unfold State.applyRecorded
  extract_lets x0
  have hx0 : Via A s0 x0 := by
    unfold x0
    refine via_modAux (hA.of rfl) _ (.inr fun _ => by unfold Aux.power; rfl) (.inr fun _ => by unfold Aux.waits; rfl) (.inr fun _ => rfl) (.inr fun _ => rfl) (fun _ h => by first | simpa [Aux.sized] using h | simp_all [Aux.sized]) ?_
    exact h
  try clear_value x0
  split
  · exact (via_writeCtrl (hA.of rfl) hx0 _ _)
  · exact h

theorem via_pagesOut {A : Nat} {s0 : State} (hA : Sub 1 A) {s : State} (h : Via A s0 s) (a1 : Nat) : Via A s0 (State.pagesOut s a1) := by
  unfold State.pagesOut
  refine via_foldS ?_ ?_ _
  · intro a0 x1 hx1
    exact (via_setReg (hA.of rfl) hx1 _ _)
  · exact h

theorem via_pagesStart {A : Nat} {s0 : State} (hA : Sub 1032169 A) {s : State} (h : Via A s0 s) (a1 : Nat) : Via A s0 (State.pagesStart s a1) := by
  unfold State.pagesStart
  extract_lets x0
  have hx0 : Via A s0 x0 := by
    unfold x0
    refine via_foldS ?_ ?_ _
    · intro a1 x2 hx2
      exact (via_applyRecorded (hA.of rfl) hx2 _)
    · exact h
  try clear_value x0
  refine via_foldS ?_ ?_ _
  · intro a3 x4 hx4
    exact (via_raise (hA.of rfl) hx4 _)
  · exact hx0

/-! ### HostRings -/

theorem via_ringEnable {A : Nat} {s0 : State} (hA : Sub 924809 A) {s : State} (h : Via A s0 s) (a1 : Nat) : Via A s0 (State.ringEnable s a1) := by
  unfold State.ringEnable
  extract_lets x0 x1 x2 x3 x4
  have hx0 : Via A s0 x0 := by
    exact (via_ringForget (hA.of rfl) h _)
  try clear_value x0
  have hx1 : Via A s0 x1 := by
    exact (via_modRt (hA.of rfl) hx0 _ _)
  try clear_value x1
  have hx2 : Via A s0 x2 := by
    exact (via_setReg (hA.of rfl) (via_setReg (hA.of rfl) (via_setReg (hA.of rfl) (via_setReg (hA.of rfl) hx1 _ _) _ _) _ _) _ _)
  try clear_value x2
  have hx3 : Via A s0 x3 := by
    unfold x3
    refine via_ite ?_ ?_
    · refine via_modHost (hA.of rfl) _ (fun _ h => by first | simpa [HostIf.sized] using h | simp_all [HostIf.sized]) ?_
      exact hx2
    · exact hx2
  try clear_value x3
  try clear_value x4
  refine via_ite ?_ ?_
  · exact (via_ringStop (hA.of rfl) hx3 _ _)
  · exact (via_statusWrite (hA.of rfl) (via_put (hA.of rfl) hx3 _ _) _)

theorem via_ringDisable {A : Nat} {s0 : State} (hA : Sub 1023465 A) {s : State} (h : Via A s0 s) (a1 : Nat) : Via A s0 (State.ringDisable s a1) := by
  unfold State.ringDisable
  extract_lets x0 x1
  have hx0 : Via A s0 x0 := by
    exact (via_modRt (hA.of rfl) h _ _)
  try clear_value x0
  have hx1 : Via A s0 x1 := by
    unfold x1
    refine via_ite ?_ ?_
    · exact (via_tileRingOff (hA.of rfl) hx0 _)
    · refine via_ite ?_ ?_
      · split
        · refine via_ite ?_ ?_
          · exact (via_densEnd (hA.of rfl) hx0 _ _ _ _)
          · exact hx0
        · exact hx0
      · refine via_ite ?_ ?_
        · exact (via_batchOff (hA.of rfl) hx0 _)
        · refine via_ite ?_ ?_
          · exact (via_jobRingOff (hA.of rfl) hx0 _)
          · exact hx0
  try clear_value x1
  refine via_ite ?_ ?_
  · exact (via_ringComplete (hA.of rfl) hx1 _ _)
  · exact (via_statusWrite (hA.of rfl) (via_put (hA.of rfl) (via_modRt (hA.of rfl) h _ _) _ _) _)

theorem via_doorbell {A : Nat} {s0 : State} (hA : Sub 7305 A) {s : State} (h : Via A s0 s) (a1 : Nat) (a2 : Sys2Proof.Word) : Via A s0 (State.doorbell s a1 a2) := by
  unfold State.doorbell
  refine via_ite ?_ ?_
  · exact h
  · refine via_ite ?_ ?_
    · exact (via_ringStop (hA.of rfl) h _ _)
    · exact (via_statusWrite (hA.of rfl) (via_setReg (hA.of rfl) h _ _) _)

theorem via_consWrite {A : Nat} {s0 : State} (hA : Sub 6145 A) {s : State} (h : Via A s0 s) (a1 : Nat) (a2 : Sys2Proof.Word) : Via A s0 (State.consWrite s a1 a2) := by
  unfold State.consWrite
  extract_lets x0 x1 x2 x3
  try clear_value x0
  try clear_value x1
  have hx2 : Via A s0 x2 := by
    exact (via_setReg (hA.of rfl) h _ _)
  try clear_value x2
  have hx3 : Via A s0 x3 := by
    unfold x3
    refine via_ite ?_ ?_
    · exact (via_modRt (hA.of rfl) hx2 _ _)
    · exact hx2
  try clear_value x3
  exact (via_ringFlush (hA.of rfl) (via_statusWrite (hA.of rfl) (via_ringFullFlag (hA.of rfl) hx3 _) _) _ _)

theorem via_popRead {A : Nat} {s0 : State} (hA : Sub 2048 A) {s : State} (h : Via A s0 s) (a1 : Nat) : Via A s0 (State.popRead s a1).2 := by
  unfold State.popRead
  extract_lets x0
  try clear_value x0
  refine via_ite_snd ?_ ?_
  · refine via_mk_snd ?_
    exact h
  · refine via_mk_snd ?_
    exact (via_modRt (hA.of rfl) h _ _)

theorem via_descriptorFetched {A : Nat} {s0 : State} (hA : Sub 6145 A) {s : State} (h : Via A s0 s) (a1 : Nat) (a2 : List Sys2Proof.Byte) : Via A s0 (State.descriptorFetched s a1 a2) := by
  unfold State.descriptorFetched
  extract_lets x0 x1 x2
  try clear_value x0
  have hx1 : Via A s0 x1 := by
    exact (via_emit (hA.of rfl) h _)
  try clear_value x1
  have hx2 : Via A s0 x2 := by
    exact (via_modRt (hA.of rfl) hx1 _ _)
  try clear_value x2
  refine via_ite ?_ ?_
  · exact (via_statusWrite (hA.of rfl) (via_setReg (hA.of rfl) hx2 _ _) _)
  · exact h

theorem via_dmaReadError {A : Nat} {s0 : State} (hA : Sub 670953 A) {s : State} (h : Via A s0 s) (a1 : Nat) (a2 : Nat) (a3 : ReadError) : Via A s0 (State.dmaReadError s a1 a2 a3) := by
  unfold State.dmaReadError
  extract_lets x0
  have hx0 : ∀ b0, Via A s0 b0 → Via A s0 (x0 b0) := by
    intro b0 hb1
    unfold x0
    refine via_modHost (hA.of rfl) _ (fun _ h => by first | simpa [HostIf.sized] using h | simp_all [HostIf.sized]) ?_
    exact hb1
  try clear_value x0
  refine via_ite ?_ ?_
  · exact h
  · refine via_ite ?_ ?_
    · refine via_ite ?_ ?_
      · exact (via_batchFetched (hA.of rfl) (hx0 _ h) _ _)
      · exact h
    · refine via_ite ?_ ?_
      · refine via_ite ?_ ?_
        · exact (via_ringStop (hA.of rfl) (hx0 _ h) _ _)
        · exact h
      · refine via_ite ?_ ?_
        · split
          · refine via_ite ?_ ?_
            · exact h
            · refine via_ite ?_ ?_
              · exact (via_refetchCheck (hA.of rfl) (via_endFetch (hA.of rfl) (hx0 _ h) _ _ _))
              · exact (via_ringStop (hA.of rfl) (via_modImg (hA.of rfl) (hx0 _ h) _ _) _ _)
          · exact h
        · refine via_ite ?_ ?_
          · split
            · exact (via_modCodec (hA.of rfl) (hx0 _ h) _ _)
            · exact h
          · refine via_ite ?_ ?_
            · split
              · refine via_ite ?_ ?_
                · exact h
                · exact (via_ringStop (hA.of rfl) (hx0 _ h) _ _)
              · exact h
            · exact h

theorem via_coalesce {A : Nat} {s0 : State} (hA : Sub 6145 A) {s : State} (h : Via A s0 s) (a1 : Nat) : Via A s0 (State.coalesce s a1) := by
  unfold State.coalesce
  extract_lets x0 x1
  try clear_value x0
  try clear_value x1
  refine via_ite ?_ ?_
  · exact (via_sendMsix (hA.of rfl) (via_modRt (hA.of rfl) h _ _) _)
  · exact h

theorem via_ringWrite {A : Nat} {s0 : State} (hA : Sub 6145 A) {s : State} (h : Via A s0 s) (a1 : Nat) : Via A s0 (State.ringWrite s a1) := by
  unfold State.ringWrite
  exact (via_ringFlush (hA.of rfl) (via_ringComplete (hA.of rfl) h _ _) _ _)

theorem via_dmaStart {A : Nat} {s0 : State} (hA : Sub 6401 A) {s : State} (h : Via A s0 s) : Via A s0 (State.dmaStart s) := by
  unfold State.dmaStart
  refine via_ite ?_ ?_
  · refine via_foldS ?_ ?_ _
    · intro a0 x1 hx1
      exact (via_captureFlush (hA.of rfl) hx1 _)
    · exact (via_dmaResume (hA.of rfl) h)
  · exact h

theorem via_pcieUp {A : Nat} {s0 : State} (hA : Sub 4097 A) {s : State} (h : Via A s0 s) (a1 : Bool) : Via A s0 (State.pcieUp s a1) := by
  unfold State.pcieUp
  exact (via_mirror (hA.of rfl) (via_put (hA.of rfl) h _ _))

theorem via_hostStart {A : Nat} {s0 : State} (hA : Sub 1032169 A) {s : State} (h : Via A s0 s) : Via A s0 (State.hostStart s) := by
  unfold State.hostStart
  exact (via_pagesStart (hA.of rfl) (via_mirror (hA.of rfl) (via_pagesOut (hA.of rfl) h _)) _)

theorem via_hostReset {A : Nat} {s0 : State} (hA : Sub 1031657 A) {s : State} (h : Via A s0 s) (a1 : Bool) : Via A s0 (State.hostReset s a1) := by
  unfold State.hostReset
  extract_lets x0 x1 x2 x3 x4
  have hx0 : Via A s0 x0 := by
    unfold x0
    refine via_modHost (hA.of rfl) _ (fun _ h => by first | simpa [HostIf.sized] using h | simp_all [HostIf.sized]) ?_
    exact h
  try clear_value x0
  have hx1 : Via A s0 x1 := by
    exact (via_ringsDrop (hA.of rfl) hx0)
  try clear_value x1
  try clear_value x2
  have hx3 : Via A s0 x3 := by
    unfold x3
    refine Via.step hx1 rfl (.inr rfl) (.inr rfl) (.inr rfl) (.inr rfl) (.inr rfl) (.inr rfl) (.inr rfl) (.inr rfl) (.inr rfl) (.inr rfl) (.inr rfl) (.inr rfl) (.inr rfl) (.inr rfl) (.inr rfl) (.inr rfl) (.inr rfl) (.inr rfl) (.inl (hA.of rfl)) (.inr rfl) (.inr rfl) (List.suffix_refl _) ?_ ?_ (.inr (Nat.le_refl _))
    · exact id
    · exact fun h => sized_of h id id id id id (fun h => by first | simpa [HostIf.sized] using h | simp_all [HostIf.sized])
  try clear_value x3
  have hx4 : Via A s0 x4 := by
    exact (via_dropHeld (hA.of rfl) (via_clearRegs (hA.of rfl) hx3 _) _)
  try clear_value x4
  exact (via_refetchCheck (hA.of rfl) (via_pcieUp (hA.of rfl) hx4 _))

theorem via_hotReset {A : Nat} {s0 : State} (hA : Sub 1031657 A) {s : State} (h : Via A s0 s) : Via A s0 (State.hotReset s) := by
  unfold State.hotReset
  refine via_ite ?_ ?_
  · exact (via_hostReset (hA.of rfl) h _)
  · exact h

theorem via_linkUpHost {A : Nat} {s0 : State} (hA : Sub 1032169 A) {s : State} (h : Via A s0 s) (a1 : Bool) (a2 : Nat) (a3 : Nat) : Via A s0 (State.linkUpHost s a1 a2 a3) := by
  unfold State.linkUpHost
  extract_lets x0 x1 x2 x3
  try clear_value x0
  have hx1 : Via A s0 x1 := by
    unfold x1
    refine via_modHost (hA.of rfl) _ (fun _ h => by first | simpa [HostIf.sized] using h | simp_all [HostIf.sized]) ?_
    exact h
  try clear_value x1
  have hx2 : Via A s0 x2 := by
    unfold x2
    refine via_ite ?_ ?_
    · exact (via_hostStart (hA.of rfl) hx1)
    · exact hx1
  try clear_value x2
  have hx3 : Via A s0 x3 := by
    exact (via_put (hA.of rfl) (via_put (hA.of rfl) (via_put (hA.of rfl) (via_put (hA.of rfl) hx2 _ _) _ _) _ _) _ _)
  try clear_value x3
  refine via_ite ?_ ?_
  · exact h
  · refine via_ite ?_ ?_
    · refine via_ite ?_ ?_
      · refine via_modHost (hA.of rfl) _ (fun _ h => by first | simpa [HostIf.sized] using h | simp_all [HostIf.sized]) ?_
        exact h
      · exact h
    · refine via_ite ?_ ?_
      · exact h
      · exact (via_dmaStart (hA.of rfl) (via_pcieUp (hA.of rfl) hx3 _))

theorem via_linkRecovery {A : Nat} {s0 : State} (hA : Sub 6401 A) {s : State} (h : Via A s0 s) (a1 : Bool) (a2 : Nat) (a3 : Nat) : Via A s0 (State.linkRecovery s a1 a2 a3) := by
  unfold State.linkRecovery
  extract_lets x0
  have hx0 : Via A s0 x0 := by
    unfold x0
    refine via_modHost (hA.of rfl) _ (fun _ h => by first | simpa [HostIf.sized] using h | simp_all [HostIf.sized]) ?_
    exact h
  try clear_value x0
  refine via_ite ?_ ?_
  · exact h
  · split
    · refine via_pcieUp (hA.of rfl) ?_ _
      refine via_satAdd (hA.of rfl) ?_ _ _
      refine via_modHost (hA.of rfl) _ (fun _ h => by first | simpa [HostIf.sized] using h | simp_all [HostIf.sized]) ?_
      exact h
    · exact (via_dmaStart (hA.of rfl) (via_pcieUp (hA.of rfl) (via_put (hA.of rfl) (via_put (hA.of rfl) hx0 _ _) _ _) _))
    · exact h

theorem via_configWrite {A : Nat} {s0 : State} (hA : Sub 6401 A) {s : State} (h : Via A s0 s) (a1 : Bool) (a2 : Bool) (a3 : Bool) : Via A s0 (State.configWrite s a1 a2 a3) := by
  unfold State.configWrite
  refine via_ite ?_ ?_
  · refine via_dmaStart (hA.of rfl) ?_
    refine via_modHost (hA.of rfl) _ (fun _ h => by first | simpa [HostIf.sized] using h | simp_all [HostIf.sized]) ?_
    exact h
  · exact h

theorem via_bar2Write {A : Nat} {s0 : State} (hA : Sub 32961 A) {s : State} (h : Via A s0 s) (a1 : Nat) (a2 : List (Option Sys2Proof.Byte)) : Via A s0 (State.bar2Write s a1 a2) := by
  unfold State.bar2Write
  extract_lets x0
  try clear_value x0
  refine via_ite ?_ ?_
  · exact h
  · refine via_ite ?_ ?_
    · exact (via_satAdd (hA.of rfl) h _ _)
    · refine via_ite ?_ ?_
      · exact h
      · refine via_foldS ?_ ?_ _
        · intro a1 x2 hx2
          exact (via_arbRaise (hA.of rfl) hx2 _ _ _ _ _)
        · exact h

end Sys2Proof.Machine
end

