-- ==== Sys2Proof/Laws/TouchBus.lean ====
section
/-!
SUPPORT. Sys2Proof/Laws/TouchBus.lean: what the functions for resets, register accesses, the side-band and the JTAG port touch: one lemma per function, with the mask of the parts of the state that it can change (Laws/Via.lean).
-/
namespace Sys2Proof.Machine

open Sys2Proof

set_option linter.all false

/-! ### Reset -/

theorem via_pixGone {A : Nat} {s0 : State} (hA : Sub 1022441 A) {s : State} (h : Via A s0 s) (a1 : Bool) : Via A s0 (State.pixGone s a1) := by
  unfold State.pixGone
  extract_lets x0 x1
  have hx0 : Via A s0 x0 := by
    exact (via_jobsReset (hA.of rfl) h)
  try clear_value x0
  have hx1 : Via A s0 x1 := by
    unfold x1
    refine via_claspsFree (hA.of rfl) ?_
    refine via_foldS ?_ ?_ _
    · intro a2 x3 hx3
      exact (via_tileReset (hA.of rfl) hx3 _)
    · exact hx0
  try clear_value x1
  refine via_ite ?_ ?_
  · refine via_modHost (hA.of rfl) _ (fun _ h => by first | simpa [HostIf.sized] using h | simp_all [HostIf.sized]) ?_
    exact hx1
  · exact hx0

theorem via_unitsClear {A : Nat} {s0 : State} (hA : Sub 33001 A) {s : State} (h : Via A s0 s) (a1 : Nat) : Via A s0 (State.unitsClear s a1) := by
  unfold State.unitsClear
  extract_lets x0 x1 x2
  have hx0 : Via A s0 x0 := by
    exact (via_calIslandReset (hA.of rfl) h _)
  try clear_value x0
  have hx1 : Via A s0 x1 := by
    unfold x1
    refine via_ite ?_ ?_
    · exact (via_caratWithdraw (hA.of rfl) hx0 _)
    · exact hx0
  try clear_value x1
  have hx2 : Via A s0 x2 := by
    unfold x2
    refine via_ite ?_ ?_
    · exact (via_arbWithdraw (hA.of rfl) hx1 _ _)
    · exact hx1
  try clear_value x2
  refine via_modAux (hA.of rfl) _ (.inr fun _ => by unfold Aux.power; rfl) (.inr fun _ => by unfold Aux.waits; rfl) (.inr fun _ => rfl) (.inr fun _ => rfl) (fun _ h => by first | simpa [Aux.sized] using h | simp_all [Aux.sized]) ?_
  exact (via_dropHeld (hA.of rfl) (via_clearRegs (hA.of rfl) hx2 _) _)

theorem via_islandDown {A : Nat} {s0 : State} (hA : Sub 24 A) {s : State} (h : Via A s0 s) (a1 : Nat) : Via A s0 (State.islandDown s a1) := by
  unfold State.islandDown
  refine via_modAux (hA.of rfl) _ (.inl (hA.of rfl)) (.inr fun _ => by unfold Aux.waits; rfl) (.inr fun _ => rfl) (.inr fun _ => rfl) (fun _ h => by first | simpa [Aux.sized] using h | simp_all [Aux.sized]) ?_
  exact h

theorem via_memClear {A : Nat} {s0 : State} (hA : Sub 67 A) {s : State} (h : Via A s0 s) : Via A s0 (State.memClear s) := by
  unfold State.memClear
  refine via_put (hA.of rfl) ?_ _ _
  refine via_put (hA.of rfl) ?_ _ _
  refine Via.step h rfl (.inr rfl) (.inl (hA.of rfl)) (.inr rfl) (.inr rfl) (.inr rfl) (.inr rfl) (.inr rfl) (.inr rfl) (.inr rfl) (.inl (hA.of rfl)) (.inr rfl) (.inr rfl) (.inr rfl) (.inr rfl) (.inr rfl) (.inr rfl) (.inr rfl) (.inr rfl) (.inr rfl) (.inr rfl) (.inr rfl) (List.suffix_refl _) ?_ ?_ (.inr (Nat.le_refl _))
  · exact fun h => ⟨h.1, Memory.wf_nil _⟩
  · exact fun h => sized_of h id (fun _ => sized_newMem) id id id id

theorem via_restClear {A : Nat} {s0 : State} (hA : Sub 1023913 A) {s : State} (h : Via A s0 s) (a1 : Nat) : Via A s0 (State.restClear s a1) := by
  unfold State.restClear
  extract_lets x0
  have hx0 : Via A s0 x0 := by
    unfold x0
    refine via_ite ?_ ?_
    · refine via_modPix (hA.of rfl) _ (.inr fun _ => rfl) (.inr fun _ => rfl) (.inl (hA.of rfl)) (.inr fun _ => rfl) (fun _ h => by first | simpa [Pix.sized, Img.sized] using h | simp_all [Pix.sized, Img.sized]) ?_
      exact h
    · exact h
  try clear_value x0
  refine via_ite ?_ ?_
  · refine Via.step h rfl (.inr rfl) (.inr rfl) (.inr rfl) (.inr rfl) (.inr rfl) (.inr rfl) (.inr rfl) (.inr rfl) (.inl (hA.of rfl)) (.inr rfl) (.inr rfl) (.inr rfl) (.inr rfl) (.inr rfl) (.inr rfl) (.inr rfl) (.inr rfl) (.inr rfl) (.inr rfl) (.inr rfl) (.inr rfl) (List.suffix_refl _) ?_ ?_ (.inr (Nat.le_refl _))
    · exact id
    · exact fun h => sized_of h id id id id id id
  · refine via_ite ?_ ?_
    · refine Via.step h rfl (.inr rfl) (.inr rfl) (.inr rfl) (.inr rfl) (.inr rfl) (.inr rfl) (.inr rfl) (.inr rfl) (.inr rfl) (.inr rfl) (.inl (hA.of rfl)) (.inl (hA.of rfl)) (.inl (hA.of rfl)) (.inl (hA.of rfl)) (.inl (hA.of rfl)) (.inr rfl) (.inr rfl) (.inr rfl) (.inr rfl) (.inr rfl) (.inr rfl) (List.suffix_refl _) ?_ ?_ (.inr (Nat.le_refl _))
      · exact id
      · exact fun h => sized_of h id id (fun _ => sized_newPix) id id id
    · refine via_ite ?_ ?_
      · refine Via.step hx0 rfl (.inr rfl) (.inr rfl) (.inr rfl) (.inr rfl) (.inr rfl) (.inr rfl) (.inr rfl) (.inr rfl) (.inr rfl) (.inr rfl) (.inr rfl) (.inr rfl) (.inr rfl) (.inr rfl) (.inr rfl) (.inl (hA.of rfl)) (.inr rfl) (.inr rfl) (.inr rfl) (.inr rfl) (.inr rfl) (List.suffix_refl _) ?_ ?_ (.inr (Nat.le_refl _))
        · exact id
        · exact fun h => sized_of h id id id (fun _ => sized_newFire) id id
      · refine via_ite ?_ ?_
        · refine Via.step h rfl (.inr rfl) (.inr rfl) (.inr rfl) (.inr rfl) (.inr rfl) (.inr rfl) (.inr rfl) (.inr rfl) (.inr rfl) (.inr rfl) (.inr rfl) (.inr rfl) (.inr rfl) (.inr rfl) (.inr rfl) (.inr rfl) (.inl (hA.of rfl)) (.inr rfl) (.inr rfl) (.inr rfl) (.inr rfl) (List.suffix_refl _) ?_ ?_ (.inr (Nat.le_refl _))
          · exact id
          · exact fun h => sized_of h id id id id (fun _ => sized_newZl) id
        · refine via_ite ?_ ?_
          · refine via_mirror (hA.of rfl) ?_
            refine via_setPad (hA.of rfl) ?_ _ _
            refine via_put (hA.of rfl) ?_ _ _
            refine Via.step h rfl (.inr rfl) (.inr rfl) (.inr rfl) (.inr rfl) (.inr rfl) (.inr rfl) (.inr rfl) (.inr rfl) (.inr rfl) (.inr rfl) (.inr rfl) (.inr rfl) (.inr rfl) (.inr rfl) (.inr rfl) (.inr rfl) (.inr rfl) (.inl (hA.of rfl)) (.inr rfl) (.inr rfl) (.inr rfl) (List.suffix_refl _) ?_ ?_ (.inr (Nat.le_refl _))
            · exact id
            · exact fun h => sized_of h id id id id id id
          · refine via_ite ?_ ?_
            · refine via_put (hA.of rfl) ?_ _ _
              refine Via.step h rfl (.inr rfl) (.inr rfl) (.inr rfl) (.inr rfl) (.inr rfl) (.inr rfl) (.inr rfl) (.inr rfl) (.inr rfl) (.inr rfl) (.inr rfl) (.inr rfl) (.inr rfl) (.inr rfl) (.inr rfl) (.inr rfl) (.inr rfl) (.inr rfl) (.inl (hA.of rfl)) (.inr rfl) (.inr rfl) (List.suffix_refl _) ?_ ?_ (.inr (Nat.le_refl _))
              · exact id
              · exact fun h => sized_of h id id id id id (fun _ => sized_newHost)
            · exact h

theorem via_partClear {A : Nat} {s0 : State} (hA : Sub 1023979 A) {s : State} (h : Via A s0 s) (a1 : Nat) : Via A s0 (State.partClear s a1) := by
  unfold State.partClear
  extract_lets x0
  have hx0 : Via A s0 x0 := by
    exact (via_put (hA.of rfl) (via_put (hA.of rfl) (via_put (hA.of rfl) h _ _) _ _) _ _)
  try clear_value x0
  refine via_ite ?_ ?_
  · exact (via_memClear (hA.of rfl) hx0)
  · exact (via_restClear (hA.of rfl) hx0 _)

theorem via_clearIsland {A : Nat} {s0 : State} (hA : Sub 1023995 A) {s : State} (h : Via A s0 s) (a1 : Nat) : Via A s0 (State.clearIsland s a1) := by
  unfold State.clearIsland
  exact (via_partClear (hA.of rfl) (via_islandDown (hA.of rfl) (via_unitsClear (hA.of rfl) h _) _) _)

theorem via_clearIslands {A : Nat} {s0 : State} (hA : Sub 1023995 A) {s : State} (h : Via A s0 s) (a1 : List Nat) : Via A s0 (State.clearIslands s a1) := by
  unfold State.clearIslands
  extract_lets x0 x1
  have hx0 : Via A s0 x0 := by
    unfold x0
    refine via_ite ?_ ?_
    · exact (via_pixGone (hA.of rfl) h _)
    · exact h
  try clear_value x0
  have hx1 : Via A s0 x1 := by
    unfold x1
    refine via_foldS ?_ ?_ _
    · intro a2 x3 hx3
      exact (via_clearIsland (hA.of rfl) hx3 _)
    · exact hx0
  try clear_value x1
  refine via_ite ?_ ?_
  · refine via_foldS ?_ ?_ _
    · intro a4 x5 hx5
      exact (via_setPad (hA.of rfl) hx5 _ _)
    · exact hx1
  · exact hx1

theorem via_resetCause {A : Nat} {s0 : State} (hA : Sub 1055881 A) {s : State} (h : Via A s0 s) (a1 : Nat) (a2 : Bool) : Via A s0 (State.resetCause s a1 a2) := by
  unfold State.resetCause
  extract_lets x0 x1
  try clear_value x0
  have hx1 : Via A s0 x1 := by
    exact (via_satAdd (hA.of rfl) (via_put (hA.of rfl) h _ _) _ _)
  try clear_value x1
  exact (via_logRec (hA.of rfl) hx1 _ _ _ _)

theorem via_startLoad {A : Nat} {s0 : State} (hA : Sub 69913 A) {s : State} (h : Via A s0 s) : Via A s0 (State.startLoad s) := by
  unfold State.startLoad
  extract_lets x0 x1 x2
  have hx0 : Via A s0 x0 := by
    unfold x0
    refine via_ite ?_ ?_
    · exact (via_put (hA.of rfl) h _ _)
    · exact h
  try clear_value x0
  have hx1 : Via A s0 x1 := by
    unfold x1
    refine via_modAux (hA.of rfl) _ (.inl (hA.of rfl)) (.inr fun _ => by unfold Aux.waits; rfl) (.inr fun _ => rfl) (.inr fun _ => rfl) (fun _ h => by first | simpa [Aux.sized] using h | simp_all [Aux.sized]) ?_
    exact (via_put (hA.of rfl) hx0 _ _)
  try clear_value x1
  have hx2 : Via A s0 x2 := by
    exact (via_put (hA.of rfl) (via_put (hA.of rfl) hx1 _ _) _ _)
  try clear_value x2
  exact (via_enterDev (hA.of rfl) hx2 _)

theorem via_addTodo {A : Nat} {s0 : State} (hA : Sub 24 A) {s : State} (h : Via A s0 s) (a1 : List Nat) : Via A s0 (State.addTodo s a1) := by
  unfold State.addTodo
  refine via_modAux (hA.of rfl) _ (.inl (hA.of rfl)) (.inr fun _ => by unfold Aux.waits; rfl) (.inr fun _ => rfl) (.inr fun _ => rfl) (fun _ h => by first | simpa [Aux.sized] using h | simp_all [Aux.sized]) ?_
  exact h

theorem via_resetBy {A : Nat} {s0 : State} (hA : Sub 2072571 A) {s : State} (h : Via A s0 s) (a1 : Nat) (a2 : List Nat) : Via A s0 (State.resetBy s a1 a2) := by
  unfold State.resetBy
  extract_lets x0 x1 x2
  have hx0 : Via A s0 x0 := by
    exact (via_resetCause (hA.of rfl) h _ _)
  try clear_value x0
  have hx1 : Via A s0 x1 := by
    exact (via_logRec (hA.of rfl) hx0 _ _ _ _)
  try clear_value x1
  have hx2 : Via A s0 x2 := by
    unfold x2
    refine via_modAux (hA.of rfl) _ (.inr fun _ => by unfold Aux.power; rfl) (.inr fun _ => by unfold Aux.waits; rfl) (.inr fun _ => rfl) (.inr fun _ => rfl) (fun _ h => by first | simpa [Aux.sized] using h | simp_all [Aux.sized]) ?_
    exact hx1
  try clear_value x2
  refine via_ite ?_ ?_
  · refine via_ite ?_ ?_
    · exact (via_startLoad (hA.of rfl) (via_addTodo (hA.of rfl) (via_clearIslands (hA.of rfl) hx2 _) _))
    · exact hx0
  · exact (via_startLoad (hA.of rfl) (via_addTodo (hA.of rfl) (via_clearIslands (hA.of rfl) hx0 _) _))

theorem via_railsOff {A : Nat} {s0 : State} (hA : Sub 2072571 A) {s : State} (h : Via A s0 s) (a1 : Nat) : Via A s0 (State.railsOff s a1) := by
  unfold State.railsOff
  extract_lets x0 x1 x2 x3 x4
  have hx0 : Via A s0 x0 := by
    exact (via_setReg (hA.of rfl) (via_put (hA.of rfl) h _ _) _ _)
  try clear_value x0
  have hx1 : Via A s0 x1 := by
    exact (via_resetCause (hA.of rfl) hx0 _ _)
  try clear_value x1
  have hx2 : Via A s0 x2 := by
    exact (via_addTodo (hA.of rfl) (via_clearIslands (hA.of rfl) hx1 _) _)
  try clear_value x2
  have hx3 : Via A s0 x3 := by
    unfold x3
    refine via_modAux (hA.of rfl) _ (.inl (hA.of rfl)) (.inr fun _ => by unfold Aux.waits; rfl) (.inr fun _ => rfl) (.inr fun _ => rfl) (fun _ h => by first | simpa [Aux.sized] using h | simp_all [Aux.sized]) ?_
    exact hx2
  try clear_value x3
  have hx4 : Via A s0 x4 := by
    exact (via_put (hA.of rfl) (via_put (hA.of rfl) hx3 _ _) _ _)
  try clear_value x4
  refine via_ite ?_ ?_
  · exact hx4
  · exact (via_enterDev (hA.of rfl) hx4 _)

theorem via_islandUp {A : Nat} {s0 : State} (hA : Sub 24 A) {s : State} (h : Via A s0 s) (a1 : Nat) : Via A s0 (State.islandUp s a1) := by
  unfold State.islandUp
  refine via_modAux (hA.of rfl) _ (.inl (hA.of rfl)) (.inr fun _ => by unfold Aux.waits; rfl) (.inr fun _ => rfl) (.inr fun _ => rfl) (fun _ h => by first | simpa [Aux.sized] using h | simp_all [Aux.sized]) ?_
  exact h

theorem via_islandStart {A : Nat} {s0 : State} (hA : Sub 1032169 A) {s : State} (h : Via A s0 s) (a1 : Nat) (a2 : Bool) : Via A s0 (State.islandStart s a1 a2) := by
  unfold State.islandStart
  extract_lets x0 x1 x2 x3 x4 x5
  have hx0 : Via A s0 x0 := by
    exact (via_put (hA.of rfl) (via_put (hA.of rfl) (via_put (hA.of rfl) h _ _) _ _) _ _)
  try clear_value x0
  have hx1 : Via A s0 x1 := by
    unfold x1
    refine via_ite ?_ ?_
    · exact hx0
    · exact (via_pagesOut (hA.of rfl) hx0 _)
  try clear_value x1
  have hx2 : Via A s0 x2 := by
    exact (via_mirror (hA.of rfl) (via_put (hA.of rfl) hx1 _ _))
  try clear_value x2
  try clear_value x3
  have hx4 : Via A s0 x4 := by
    unfold x4
    refine via_ite ?_ ?_
    · exact (via_calReleased (hA.of rfl) (via_setReg (hA.of rfl) hx1 _ _))
    · refine via_ite ?_ ?_
      · refine via_calInit (hA.of rfl) ?_ _
        refine via_ite ?_ ?_
        · refine via_foldS ?_ ?_ _
          · intro a6 x7 hx7
            exact (via_caratRequest (hA.of rfl) hx7 _ _ _ _)
          · exact hx1
        · exact hx1
      · refine via_ite ?_ ?_
        · refine via_calInit (hA.of rfl) ?_ _
          refine via_ite ?_ ?_
          · exact hx1
          · exact (via_webResume (hA.of rfl) hx1)
        · refine via_ite ?_ ?_
          · refine via_ite ?_ ?_
            · exact (via_caratRequest (hA.of rfl) hx2 _ _ _ _)
            · exact hx2
          · refine via_ite ?_ ?_
            · exact (via_mirror (hA.of rfl) (via_put (hA.of rfl) hx1 _ _))
            · exact hx1
  try clear_value x4
  have hx5 : Via A s0 x5 := by
    unfold x5
    refine via_ite ?_ ?_
    · exact hx4
    · exact (via_pagesStart (hA.of rfl) hx4 _)
  try clear_value x5
  refine via_ite ?_ ?_
  · exact (via_padsUpdate (hA.of rfl) hx5)
  · exact hx5

theorem via_releaseIsland {A : Nat} {s0 : State} (hA : Sub 1032185 A) {s : State} (h : Via A s0 s) (a1 : Nat) (a2 : Bool) : Via A s0 (State.releaseIsland s a1 a2) := by
  unfold State.releaseIsland
  exact (via_islandStart (hA.of rfl) (via_islandUp (hA.of rfl) h _) _ _)

theorem via_seqNext {A : Nat} {s0 : State} (hA : Sub 1121689 A) {s : State} (h : Via A s0 s) (a0 : Nat) : Via A s0 (State.seqNext a0 s) := by
  induction a0 generalizing s with
  | zero =>
    unfold Sys2Proof.Machine.State.seqNext
    exact h
  | succ k ih =>
    unfold Sys2Proof.Machine.State.seqNext
    extract_lets x0
    have hx0 : Via A s0 x0 := by
      unfold x0
      refine via_modAux (hA.of rfl) _ (.inl (hA.of rfl)) (.inr fun _ => by unfold Aux.waits; rfl) (.inr fun _ => rfl) (.inr fun _ => rfl) (fun _ h => by first | simpa [Aux.sized] using h | simp_all [Aux.sized]) ?_
      exact h
    try clear_value x0
    split
    · refine via_ite ?_ ?_
      · exact (via_enterDev (hA.of rfl) hx0 _)
      · exact hx0
    · extract_lets x1
      have hx1 : Via A s0 x1 := by
        unfold x1
        refine via_ite ?_ ?_
        · exact (via_enterDev (hA.of rfl) h _)
        · exact h
      try clear_value x1
      refine via_ite ?_ ?_
      · refine ih ?_
        refine via_modAux (hA.of rfl) _ (.inl (hA.of rfl)) (.inr fun _ => by unfold Aux.waits; rfl) (.inr fun _ => rfl) (.inr fun _ => rfl) (fun _ h => by first | simpa [Aux.sized] using h | simp_all [Aux.sized]) ?_
        exact h
      · refine via_ite ?_ ?_
        · refine via_ite ?_ ?_
          · exact hx0
          · exact (via_logRec (hA.of rfl) (via_enterDev (hA.of rfl) hx0 _) _ _ _ _)
        · refine via_ite ?_ ?_
          · refine via_put (hA.of rfl) ?_ _ _
            refine via_put (hA.of rfl) ?_ _ _
            refine via_modAux (hA.of rfl) _ (.inl (hA.of rfl)) (.inr fun _ => by unfold Aux.waits; rfl) (.inr fun _ => rfl) (.inr fun _ => rfl) (fun _ h => by first | simpa [Aux.sized] using h | simp_all [Aux.sized]) ?_
            exact h
          · refine via_modAux (hA.of rfl) _ (.inl (hA.of rfl)) (.inr fun _ => by unfold Aux.waits; rfl) (.inr fun _ => rfl) (.inr fun _ => rfl) (fun _ h => by first | simpa [Aux.sized] using h | simp_all [Aux.sized]) ?_
            exact hx1

theorem via_bootContinue {A : Nat} {s0 : State} (hA : Sub 1121689 A) {s : State} (h : Via A s0 s) : Via A s0 (State.bootContinue s) := by
  unfold State.bootContinue
  extract_lets x0
  have hx0 : Via A s0 x0 := by
    exact (via_put (hA.of rfl) (via_put (hA.of rfl) h _ _) _ _)
  try clear_value x0
  split
  · refine via_seqNext (hA.of rfl) ?_ _
    refine via_modAux (hA.of rfl) _ (.inr fun _ => by unfold Aux.power; rfl) (.inr fun _ => by unfold Aux.waits; rfl) (.inr fun _ => rfl) (.inr fun _ => rfl) (fun _ h => by first | simpa [Aux.sized] using h | simp_all [Aux.sized]) ?_
    exact hx0
  · exact h

theorem via_clockQualified {A : Nat} {s0 : State} (hA : Sub 2080761 A) {s : State} (h : Via A s0 s) (a1 : Nat) (a2 : Bool) : Via A s0 (State.clockQualified s a1 a2) := by
  unfold State.clockQualified
  extract_lets x0
  have hx0 : Via A s0 x0 := by
    exact (via_releaseIsland (hA.of rfl) h _ _)
  try clear_value x0
  refine via_ite ?_ ?_
  · refine via_ite ?_ ?_
    · refine via_modAux (hA.of rfl) _ (.inl (hA.of rfl)) (.inr fun _ => by unfold Aux.waits; rfl) (.inr fun _ => rfl) (.inr fun _ => rfl) (fun _ h => by first | simpa [Aux.sized] using h | simp_all [Aux.sized]) ?_
      exact hx0
    · exact (via_seqNext (hA.of rfl) hx0 _)
  · refine via_ite ?_ ?_
    · exact (via_releaseIsland (hA.of rfl) h _ _)
    · exact h

theorem via_trimLoaded {A : Nat} {s0 : State} (hA : Sub 1121689 A) {s : State} (h : Via A s0 s) (a1 : Bool) (a2 : Sys2Proof.Word) (a3 : List (List Sys2Proof.PadSample)) : Via A s0 (State.trimLoaded s a1 a2 a3) := by
  unfold State.trimLoaded
  extract_lets x0 x1 x2 x3 x4 x5 x6 x7 x8 x9 x10 x11 x12 x13 x14 x15
  try clear_value x0
  try clear_value x1
  try clear_value x2
  try clear_value x3
  have hx4 : Via A s0 x4 := by
    exact (via_setReg (hA.of rfl) h _ _)
  try clear_value x4
  have hx5 : Via A s0 x5 := by
    unfold x5
    refine via_ite ?_ ?_
    · refine via_modAux (hA.of rfl) _ (.inr fun _ => by unfold Aux.power; rfl) (.inr fun _ => by unfold Aux.waits; rfl) (.inr fun _ => rfl) (.inr fun _ => rfl) (fun _ h => by first | simpa [Aux.sized] using h | simp_all [Aux.sized]) ?_
      exact (via_put (hA.of rfl) hx4 _ _)
    · exact hx4
  try clear_value x5
  have hx6 : Via A s0 x6 := by
    exact (via_satAdd (hA.of rfl) hx5 _ _)
  try clear_value x6
  have hx7 : Via A s0 x7 := by
    exact (via_setReg (hA.of rfl) (via_setReg (hA.of rfl) hx6 _ _) _ _)
  try clear_value x7
  have hx8 : Via A s0 x8 := by
    exact (via_put (hA.of rfl) (via_put (hA.of rfl) (via_put (hA.of rfl) hx7 _ _) _ _) _ _)
  try clear_value x8
  have hx9 : Via A s0 x9 := by
    exact (via_put (hA.of rfl) hx8 _ _)
  try clear_value x9
  have hx10 : Via A s0 x10 := by
    unfold x10
    refine via_modAux (hA.of rfl) _ (.inr fun _ => by unfold Aux.power; rfl) (.inr fun _ => by unfold Aux.waits; rfl) (.inr fun _ => rfl) (.inr fun _ => rfl) (fun _ h => by first | simpa [Aux.sized] using h | simp_all [Aux.sized]) ?_
    exact hx9
  try clear_value x10
  have hx11 : Via A s0 x11 := by
    exact (via_enterDev (hA.of rfl) hx10 _)
  try clear_value x11
  try clear_value x12
  have hx13 : Via A s0 x13 := by
    exact (via_put (hA.of rfl) (via_put (hA.of rfl) hx7 _ _) _ _)
  try clear_value x13
  have hx14 : Via A s0 x14 := by
    exact (via_logRec (hA.of rfl) hx13 _ _ _ _)
  try clear_value x14
  have hx15 : Via A s0 x15 := by
    unfold x15
    refine via_enterDev (hA.of rfl) ?_ _
    refine via_modAux (hA.of rfl) _ (.inl (hA.of rfl)) (.inr fun _ => by unfold Aux.waits; rfl) (.inr fun _ => rfl) (.inr fun _ => rfl) (fun _ h => by first | simpa [Aux.sized] using h | simp_all [Aux.sized]) ?_
    exact (via_put (hA.of rfl) hx14 _ _)
  try clear_value x15
  refine via_ite ?_ ?_
  · exact h
  · refine via_ite ?_ ?_
    · refine via_ite ?_ ?_
      · refine via_ite ?_ ?_
        · exact (via_seqNext (hA.of rfl) hx11 _)
        · refine via_modAux (hA.of rfl) _ (.inl (hA.of rfl)) (.inr fun _ => by unfold Aux.waits; rfl) (.inr fun _ => rfl) (.inr fun _ => rfl) (fun _ h => by first | simpa [Aux.sized] using h | simp_all [Aux.sized]) ?_
          exact hx11
      · refine via_enterDev (hA.of rfl) ?_ _
        refine via_modAux (hA.of rfl) _ (.inl (hA.of rfl)) (.inr fun _ => by unfold Aux.waits; rfl) (.inr fun _ => rfl) (.inr fun _ => rfl) (fun _ h => by first | simpa [Aux.sized] using h | simp_all [Aux.sized]) ?_
        exact hx10
    · refine via_ite ?_ ?_
      · exact (via_logRec (hA.of rfl) hx15 _ _ _ _)
      · exact hx14

theorem via_railsReady {A : Nat} {s0 : State} (hA : Sub 1121689 A) {s : State} (h : Via A s0 s) : Via A s0 (State.railsReady s) := by
  unfold State.railsReady
  refine via_ite ?_ ?_
  · exact h
  · refine via_ite ?_ ?_
    · refine via_modAux (hA.of rfl) _ (.inl (hA.of rfl)) (.inr fun _ => by unfold Aux.waits; rfl) (.inr fun _ => rfl) (.inr fun _ => rfl) (fun _ h => by first | simpa [Aux.sized] using h | simp_all [Aux.sized]) ?_
      exact (via_setReg (hA.of rfl) h _ _)
    · refine via_seqNext (hA.of rfl) ?_ _
      refine via_modAux (hA.of rfl) _ (.inl (hA.of rfl)) (.inr fun _ => by unfold Aux.waits; rfl) (.inr fun _ => rfl) (.inr fun _ => rfl) (fun _ h => by first | simpa [Aux.sized] using h | simp_all [Aux.sized]) ?_
      exact (via_mirror (hA.of rfl) (via_put (hA.of rfl) (via_setReg (hA.of rfl) h _ _) _ _))

theorem via_trainingEnd {A : Nat} {s0 : State} (hA : Sub 1121753 A) {s : State} (h : Via A s0 s) (a1 : List ChannelTrained) : Via A s0 (State.trainingEnd s a1) := by
  unfold State.trainingEnd
  extract_lets x0
  have hx0 : Via A s0 x0.1 := by
    exact (via_trained (hA.of rfl) h _)
  try clear_value x0
  refine via_ite ?_ ?_
  · exact h
  · refine via_ite ?_ ?_
    · exact (via_seqNext (hA.of rfl) hx0 _)
    · refine via_enterDev (hA.of rfl) ?_ _
      refine via_modAux (hA.of rfl) _ (.inl (hA.of rfl)) (.inr fun _ => by unfold Aux.waits; rfl) (.inr fun _ => rfl) (.inr fun _ => rfl) (fun _ h => by first | simpa [Aux.sized] using h | simp_all [Aux.sized]) ?_
      exact hx0

theorem via_auxClear {A : Nat} {s0 : State} (hA : Sub 2088955 A) {s : State} (h : Via A s0 s) (a1 : Bool) : Via A s0 (State.auxClear s a1) := by
  unfold State.auxClear
  extract_lets x0 x1
  have hx0 : Via A s0 x0 := by
    exact (via_clearIsland (hA.of rfl) h _)
  try clear_value x0
  have hx1 : Via A s0 x1 := by
    unfold x1
    refine via_modAux (hA.of rfl) _ (.inl (hA.of rfl)) (.inl (hA.of rfl)) (.inl (hA.of rfl)) (.inl (hA.of rfl)) (fun _ h => by first | simpa [Aux.sized] using h | simp_all [Aux.sized]) ?_
    exact hx0
  try clear_value x1
  refine via_foldS ?_ ?_ _
  · intro a2 x3 hx3
    exact (via_setReg (hA.of rfl) hx3 _ _)
  · exact hx1

theorem via_vauxPowerOn {A : Nat} {s0 : State} (hA : Sub 4186111 A) {s : State} (h : Via A s0 s) : Via A s0 (State.vauxPowerOn s) := by
  unfold State.vauxPowerOn
  extract_lets x0 x1 x2 x3 x4 x5
  have hx0 : Via A s0 x0 := by
    exact (via_clearIslands (hA.of rfl) h _)
  try clear_value x0
  have hx1 : Via A s0 x1 := by
    unfold x1
    refine via_clearRegs (hA.of rfl) ?_ _
    refine Via.step hx0 rfl (.inr rfl) (.inr rfl) (.inl (hA.of rfl)) (.inr rfl) (.inr rfl) (.inr rfl) (.inr rfl) (.inr rfl) (.inr rfl) (.inr rfl) (.inr rfl) (.inr rfl) (.inr rfl) (.inr rfl) (.inr rfl) (.inr rfl) (.inr rfl) (.inr rfl) (.inr rfl) (.inr rfl) (.inr rfl) (List.suffix_refl _) ?_ ?_ (.inl (hA.of rfl))
    · exact id
    · exact fun h => sized_of h id id id id id id
  try clear_value x1
  have hx2 : Via A s0 x2 := by
    exact (via_auxClear (hA.of rfl) hx1 _)
  try clear_value x2
  have hx3 : Via A s0 x3 := by
    unfold x3
    refine via_modAux (hA.of rfl) _ (.inl (hA.of rfl)) (.inr fun _ => by unfold Aux.waits; rfl) (.inr fun _ => rfl) (.inr fun _ => rfl) (fun _ h => by first | simpa [Aux.sized] using h | simp_all [Aux.sized]) ?_
    exact hx2
  try clear_value x3
  have hx4 : Via A s0 x4 := by
    exact (via_put (hA.of rfl) (via_put (hA.of rfl) hx3 _ _) _ _)
  try clear_value x4
  have hx5 : Via A s0 x5 := by
    exact (via_logRec (hA.of rfl) hx4 _ _ _ _)
  try clear_value x5
  refine via_ite ?_ ?_
  · exact hx5
  · exact (via_startLoad (hA.of rfl) hx5)

theorem via_vauxBrownOut {A : Nat} {s0 : State} (hA : Sub 1023995 A) {s : State} (h : Via A s0 s) : Via A s0 (State.vauxBrownOut s) := by
  unfold State.vauxBrownOut
  extract_lets x0 x1 x2 x3
  have hx0 : Via A s0 x0 := by
    exact (via_clearIslands (hA.of rfl) h _)
  try clear_value x0
  have hx1 : Via A s0 x1 := by
    exact (via_forceRest (hA.of rfl) hx0)
  try clear_value x1
  have hx2 : Via A s0 x2 := by
    exact (via_put (hA.of rfl) (via_setReg (hA.of rfl) hx1 _ _) _ _)
  try clear_value x2
  have hx3 : Via A s0 x3 := by
    exact (via_clearIsland (hA.of rfl) hx2 _)
  try clear_value x3
  refine via_modAux (hA.of rfl) _ (.inl (hA.of rfl)) (.inr fun _ => by unfold Aux.waits; rfl) (.inr fun _ => rfl) (.inr fun _ => rfl) (fun _ h => by first | simpa [Aux.sized] using h | simp_all [Aux.sized]) ?_
  exact hx3

theorem via_vauxReturn {A : Nat} {s0 : State} (hA : Sub 4186111 A) {s : State} (h : Via A s0 s) : Via A s0 (State.vauxReturn s) := by
  unfold State.vauxReturn
  extract_lets x0 x1 x2 x3 x4
  have hx0 : Via A s0 x0 := by
    unfold x0
    refine Via.step h rfl (.inr rfl) (.inr rfl) (.inl (hA.of rfl)) (.inr rfl) (.inr rfl) (.inr rfl) (.inr rfl) (.inr rfl) (.inr rfl) (.inr rfl) (.inr rfl) (.inr rfl) (.inr rfl) (.inr rfl) (.inr rfl) (.inr rfl) (.inr rfl) (.inr rfl) (.inr rfl) (.inr rfl) (.inr rfl) (List.suffix_refl _) ?_ ?_ (.inl (hA.of rfl))
    · exact id
    · exact fun h => sized_of h id id id id id id
  try clear_value x0
  have hx1 : Via A s0 x1 := by
    exact (via_auxClear (hA.of rfl) hx0 _)
  try clear_value x1
  have hx2 : Via A s0 x2 := by
    exact (via_put (hA.of rfl) hx1 _ _)
  try clear_value x2
  have hx3 : Via A s0 x3 := by
    unfold x3
    refine via_modAux (hA.of rfl) _ (.inl (hA.of rfl)) (.inr fun _ => by unfold Aux.waits; rfl) (.inr fun _ => rfl) (.inr fun _ => rfl) (fun _ h => by first | simpa [Aux.sized] using h | simp_all [Aux.sized]) ?_
    exact hx2
  try clear_value x3
  have hx4 : Via A s0 x4 := by
    exact (via_resetCause (hA.of rfl) hx3 _ _)
  try clear_value x4
  refine via_ite ?_ ?_
  · exact h
  · refine via_ite ?_ ?_
    · exact hx4
    · exact (via_startLoad (hA.of rfl) hx4)

theorem via_vinValid {A : Nat} {s0 : State} (hA : Sub 69913 A) {s : State} (h : Via A s0 s) : Via A s0 (State.vinValid s) := by
  unfold State.vinValid
  extract_lets x0
  have hx0 : Via A s0 x0 := by
    unfold x0
    refine via_modAux (hA.of rfl) _ (.inl (hA.of rfl)) (.inr fun _ => by unfold Aux.waits; rfl) (.inr fun _ => rfl) (.inr fun _ => rfl) (fun _ h => by first | simpa [Aux.sized] using h | simp_all [Aux.sized]) ?_
    exact (via_put (hA.of rfl) h _ _)
  try clear_value x0
  refine via_ite ?_ ?_
  · exact h
  · refine via_ite ?_ ?_
    · refine via_modAux (hA.of rfl) _ (.inl (hA.of rfl)) (.inr fun _ => by unfold Aux.waits; rfl) (.inr fun _ => rfl) (.inr fun _ => rfl) (fun _ h => by first | simpa [Aux.sized] using h | simp_all [Aux.sized]) ?_
      exact h
    · refine via_ite ?_ ?_
      · exact (via_startLoad (hA.of rfl) hx0)
      · refine via_ite ?_ ?_
        · refine via_modAux (hA.of rfl) _ (.inl (hA.of rfl)) (.inr fun _ => by unfold Aux.waits; rfl) (.inr fun _ => rfl) (.inr fun _ => rfl) (fun _ h => by first | simpa [Aux.sized] using h | simp_all [Aux.sized]) ?_
          exact hx0
        · exact hx0

theorem via_vinBrownOut {A : Nat} {s0 : State} (hA : Sub 2072571 A) {s : State} (h : Via A s0 s) : Via A s0 (State.vinBrownOut s) := by
  unfold State.vinBrownOut
  extract_lets x0
  have hx0 : Via A s0 x0 := by
    unfold x0
    refine via_modAux (hA.of rfl) _ (.inl (hA.of rfl)) (.inr fun _ => by unfold Aux.waits; rfl) (.inr fun _ => rfl) (.inr fun _ => rfl) (fun _ h => by first | simpa [Aux.sized] using h | simp_all [Aux.sized]) ?_
    exact h
  try clear_value x0
  refine via_ite ?_ ?_
  · exact h
  · refine via_ite ?_ ?_
    · exact hx0
    · refine via_ite ?_ ?_
      · exact (via_addTodo (hA.of rfl) (via_resetCause (hA.of rfl) hx0 _ _) _)
      · exact (via_railsOff (hA.of rfl) hx0 _)

theorem via_regulatorFault {A : Nat} {s0 : State} (hA : Sub 2072571 A) {s : State} (h : Via A s0 s) (a1 : List Nat) (a2 : Bool) : Via A s0 (State.regulatorFault s a1 a2) := by
  unfold State.regulatorFault
  extract_lets x0 x1 x2 x3 x4
  try clear_value x0
  have hx1 : Via A s0 x1 := by
    exact (via_put (hA.of rfl) (via_put (hA.of rfl) h _ _) _ _)
  try clear_value x1
  try clear_value x2
  have hx3 : Via A s0 x3 := by
    exact (via_put (hA.of rfl) (via_put (hA.of rfl) hx1 _ _) _ _)
  try clear_value x3
  have hx4 : Via A s0 x4 := by
    exact (via_logRec (hA.of rfl) hx3 _ _ _ _)
  try clear_value x4
  refine via_ite ?_ ?_
  · exact h
  · refine via_modAux (hA.of rfl) _ (.inr fun _ => by unfold Aux.power; rfl) (.inr fun _ => by unfold Aux.waits; rfl) (.inr fun _ => rfl) (.inr fun _ => rfl) (fun _ h => by first | simpa [Aux.sized] using h | simp_all [Aux.sized]) ?_
    exact (via_railsOff (hA.of rfl) hx4 _)

theorem via_regulatorRestart {A : Nat} {s0 : State} (hA : Sub 69913 A) {s : State} (h : Via A s0 s) : Via A s0 (State.regulatorRestart s) := by
  unfold State.regulatorRestart
  extract_lets x0
  have hx0 : Via A s0 x0 := by
    unfold x0
    refine via_modAux (hA.of rfl) _ (.inr fun _ => by unfold Aux.power; rfl) (.inr fun _ => by unfold Aux.waits; rfl) (.inr fun _ => rfl) (.inr fun _ => rfl) (fun _ h => by first | simpa [Aux.sized] using h | simp_all [Aux.sized]) ?_
    exact h
  try clear_value x0
  refine via_ite ?_ ?_
  · refine via_ite ?_ ?_
    · exact (via_startLoad (hA.of rfl) hx0)
    · refine via_ite ?_ ?_
      · refine via_modAux (hA.of rfl) _ (.inl (hA.of rfl)) (.inr fun _ => by unfold Aux.waits; rfl) (.inr fun _ => rfl) (.inr fun _ => rfl) (fun _ h => by first | simpa [Aux.sized] using h | simp_all [Aux.sized]) ?_
        exact hx0
      · exact hx0
  · exact h

theorem via_resetNLow {A : Nat} {s0 : State} (hA : Sub 2088955 A) {s : State} (h : Via A s0 s) : Via A s0 (State.resetNLow s) := by
  unfold State.resetNLow
  extract_lets x0 x1 x2 x3 x4 x5
  have hx0 : Via A s0 x0 := by
    exact (via_resetCause (hA.of rfl) h _ _)
  try clear_value x0
  try clear_value x1
  have hx2 : Via A s0 x2 := by
    unfold x2
    refine via_ite ?_ ?_
    · refine via_modAux (hA.of rfl) _ (.inr fun _ => by unfold Aux.power; rfl) (.inr fun _ => by unfold Aux.waits; rfl) (.inr fun _ => rfl) (.inr fun _ => rfl) (fun _ h => by first | simpa [Aux.sized] using h | simp_all [Aux.sized]) ?_
      exact (via_logRec (hA.of rfl) hx0 _ _ _ _)
    · exact hx0
  try clear_value x2
  have hx3 : Via A s0 x3 := by
    unfold x3
    refine via_modAux (hA.of rfl) _ (.inr fun _ => by unfold Aux.power; rfl) (.inr fun _ => by unfold Aux.waits; rfl) (.inr fun _ => rfl) (.inr fun _ => rfl) (fun _ h => by first | simpa [Aux.sized] using h | simp_all [Aux.sized]) ?_
    exact (via_put (hA.of rfl) hx2 _ _)
  try clear_value x3
  have hx4 : Via A s0 x4 := by
    exact (via_auxClear (hA.of rfl) (via_forceRest (hA.of rfl) (via_clearIslands (hA.of rfl) hx3 _)) _)
  try clear_value x4
  have hx5 : Via A s0 x5 := by
    unfold x5
    refine via_ite ?_ ?_
    · exact hx0
    · exact (via_putDev (hA.of rfl) (via_put (hA.of rfl) hx4 _ _) _)
  try clear_value x5
  refine via_ite ?_ ?_
  · refine via_modAux (hA.of rfl) _ (.inl (hA.of rfl)) (.inr fun _ => by unfold Aux.waits; rfl) (.inr fun _ => rfl) (.inr fun _ => rfl) (fun _ h => by first | simpa [Aux.sized] using h | simp_all [Aux.sized]) ?_
    exact h
  · refine via_modAux (hA.of rfl) _ (.inl (hA.of rfl)) (.inr fun _ => by unfold Aux.waits; rfl) (.inr fun _ => rfl) (.inr fun _ => rfl) (fun _ h => by first | simpa [Aux.sized] using h | simp_all [Aux.sized]) ?_
    exact hx5

theorem via_resetNHigh {A : Nat} {s0 : State} (hA : Sub 69913 A) {s : State} (h : Via A s0 s) : Via A s0 (State.resetNHigh s) := by
  unfold State.resetNHigh
  extract_lets x0
  have hx0 : Via A s0 x0 := by
    unfold x0
    refine via_modAux (hA.of rfl) _ (.inl (hA.of rfl)) (.inr fun _ => by unfold Aux.waits; rfl) (.inr fun _ => rfl) (.inr fun _ => rfl) (fun _ h => by first | simpa [Aux.sized] using h | simp_all [Aux.sized]) ?_
    exact h
  try clear_value x0
  refine via_ite ?_ ?_
  · exact h
  · refine via_ite ?_ ?_
    · exact hx0
    · exact (via_startLoad (hA.of rfl) hx0)

theorem via_perstAssert {A : Nat} {s0 : State} (hA : Sub 2080249 A) {s : State} (h : Via A s0 s) : Via A s0 (State.perstAssert s) := by
  unfold State.perstAssert
  extract_lets x0
  have hx0 : Via A s0 x0 := by
    unfold x0
    refine via_ite ?_ ?_
    · exact (via_hostReset (hA.of rfl) h _)
    · exact h
  try clear_value x0
  refine via_ite ?_ ?_
  · exact h
  · refine via_ite ?_ ?_
    · refine via_modAux (hA.of rfl) _ (.inl (hA.of rfl)) (.inr fun _ => by unfold Aux.waits; rfl) (.inr fun _ => rfl) (.inr fun _ => rfl) (fun _ h => by first | simpa [Aux.sized] using h | simp_all [Aux.sized]) ?_
      exact h
    · refine via_logRec (hA.of rfl) ?_ _ _ _ _
      refine via_modAux (hA.of rfl) _ (.inl (hA.of rfl)) (.inr fun _ => by unfold Aux.waits; rfl) (.inr fun _ => rfl) (.inr fun _ => rfl) (fun _ h => by first | simpa [Aux.sized] using h | simp_all [Aux.sized]) ?_
      exact hx0

theorem via_perstDeassert {A : Nat} {s0 : State} (hA : Sub 1032185 A) {s : State} (h : Via A s0 s) : Via A s0 (State.perstDeassert s) := by
  unfold State.perstDeassert
  extract_lets x0
  have hx0 : Via A s0 x0 := by
    unfold x0
    refine via_modAux (hA.of rfl) _ (.inl (hA.of rfl)) (.inr fun _ => by unfold Aux.waits; rfl) (.inr fun _ => rfl) (.inr fun _ => rfl) (fun _ h => by first | simpa [Aux.sized] using h | simp_all [Aux.sized]) ?_
    exact h
  try clear_value x0
  refine via_ite ?_ ?_
  · exact h
  · refine via_ite ?_ ?_
    · exact (via_hostStart (hA.of rfl) hx0)
    · exact hx0

theorem via_clockFailure {A : Nat} {s0 : State} (hA : Sub 2072571 A) {s : State} (h : Via A s0 s) (a1 : List (Nat × Int)) : Via A s0 (State.clockFailure s a1) := by
  unfold State.clockFailure
  extract_lets x0 x1 x2 x3
  try clear_value x0
  have hx1 : Via A s0 x1 := by
    unfold x1
    refine via_foldS ?_ ?_ _
    · intro a4 x5 hx5
      extract_lets x6
      have hx6 : Via A s0 x6 := by
        exact (via_put (hA.of rfl) (via_put (hA.of rfl) hx5 _ _) _ _)
      try clear_value x6
      exact (via_logRec (hA.of rfl) hx6 _ _ _ _)
    · exact h
  try clear_value x1
  try clear_value x2
  have hx3 : Via A s0 x3 := by
    unfold x3
    refine via_ite ?_ ?_
    · exact hx1
    · exact (via_put (hA.of rfl) hx1 _ _)
  try clear_value x3
  split
  · exact h
  · exact (via_resetBy (hA.of rfl) hx3 _ _)

theorem via_oscFailure {A : Nat} {s0 : State} (hA : Sub 2072571 A) {s : State} (h : Via A s0 s) (a1 : Int) : Via A s0 (State.oscFailure s a1) := by
  unfold State.oscFailure
  extract_lets x0 x1 x2 x3
  have hx0 : Via A s0 x0 := by
    exact (via_put (hA.of rfl) (via_put (hA.of rfl) h _ _) _ _)
  try clear_value x0
  have hx1 : Via A s0 x1 := by
    exact (via_logRec (hA.of rfl) hx0 _ _ _ _)
  try clear_value x1
  have hx2 : Via A s0 x2 := by
    exact (via_resetCause (hA.of rfl) (via_put (hA.of rfl) hx1 _ _) _ _)
  try clear_value x2
  have hx3 : Via A s0 x3 := by
    exact (via_forceRest (hA.of rfl) (via_addTodo (hA.of rfl) (via_clearIslands (hA.of rfl) hx2 _) _))
  try clear_value x3
  refine via_ite ?_ ?_
  · exact h
  · refine via_modAux (hA.of rfl) _ (.inl (hA.of rfl)) (.inr fun _ => by unfold Aux.waits; rfl) (.inr fun _ => rfl) (.inr fun _ => rfl) (fun _ h => by first | simpa [Aux.sized] using h | simp_all [Aux.sized]) ?_
    exact hx3

theorem via_oscReturn {A : Nat} {s0 : State} (hA : Sub 1121689 A) {s : State} (h : Via A s0 s) : Via A s0 (State.oscReturn s) := by
  unfold State.oscReturn
  extract_lets x0
  have hx0 : Via A s0 x0 := by
    unfold x0
    refine via_modAux (hA.of rfl) _ (.inl (hA.of rfl)) (.inr fun _ => by unfold Aux.waits; rfl) (.inr fun _ => rfl) (.inr fun _ => rfl) (fun _ h => by first | simpa [Aux.sized] using h | simp_all [Aux.sized]) ?_
    exact h
  try clear_value x0
  refine via_ite ?_ ?_
  · exact h
  · refine via_ite ?_ ?_
    · exact (via_seqNext (hA.of rfl) hx0 _)
    · exact (via_startLoad (hA.of rfl) hx0)

theorem via_lockUp {A : Nat} {s0 : State} (hA : Sub 2072571 A) {s : State} (h : Via A s0 s) (a1 : Nat) (a2 : Nat) : Via A s0 (State.lockUp s a1 a2) := by
  unfold State.lockUp
  extract_lets x0 x1
  have hx0 : Via A s0 x0 := by
    unfold x0
    refine via_ite ?_ ?_
    · refine via_foldS ?_ ?_ _
      · intro a2 x3 hx3
        exact (via_emit (hA.of rfl) hx3 _)
      · exact h
    · exact h
  try clear_value x0
  have hx1 : Via A s0 x1 := by
    unfold x1
    refine via_ite ?_ ?_
    · exact hx0
    · exact (via_put (hA.of rfl) hx0 _ _)
  try clear_value x1
  refine via_ite ?_ ?_
  · exact h
  · exact (via_resetBy (hA.of rfl) hx1 _ _)

theorem via_softReset {A : Nat} {s0 : State} (hA : Sub 2072571 A) {s : State} (h : Via A s0 s) (a1 : Nat) (a2 : Bool) : Via A s0 (State.softReset s a1 a2) := by
  unfold State.softReset
  extract_lets x0 x1 x2 x3
  have hx0 : Via A s0 x0 := by
    exact (via_put (hA.of rfl) h _ _)
  try clear_value x0
  have hx1 : Via A s0 x1 := by
    unfold x1
    refine via_ite ?_ ?_
    · exact (via_put (hA.of rfl) hx0 _ _)
    · exact hx0
  try clear_value x1
  try clear_value x2
  have hx3 : Via A s0 x3 := by
    unfold x3
    refine via_ite ?_ ?_
    · refine via_modAux (hA.of rfl) _ (.inr fun _ => by unfold Aux.power; rfl) (.inr fun _ => by unfold Aux.waits; rfl) (.inr fun _ => rfl) (.inr fun _ => rfl) (fun _ h => by first | simpa [Aux.sized] using h | simp_all [Aux.sized]) ?_
      exact hx1
    · exact hx1
  try clear_value x3
  refine via_ite ?_ ?_
  · exact h
  · exact (via_resetBy (hA.of rfl) hx3 _ _)

theorem via_resetAll {A : Nat} {s0 : State} (hA : Sub 2072571 A) {s : State} (h : Via A s0 s) (a1 : Nat) : Via A s0 (State.resetAll s a1) := by
  unfold State.resetAll
  exact (via_resetBy (hA.of rfl) h _ _)

theorem via_critical {A : Nat} {s0 : State} (hA : Sub 2072571 A) {s : State} (h : Via A s0 s) : Via A s0 (State.critical s) := by
  unfold State.critical
  extract_lets x0 x1 x2
  have hx0 : Via A s0 x0 := by
    exact (via_logRec (hA.of rfl) h _ _ _ _)
  try clear_value x0
  have hx1 : Via A s0 x1 := by
    exact (via_resetCause (hA.of rfl) hx0 _ _)
  try clear_value x1
  have hx2 : Via A s0 x2 := by
    exact (via_addTodo (hA.of rfl) (via_clearIslands (hA.of rfl) hx1 _) _)
  try clear_value x2
  refine via_enterDev (hA.of rfl) ?_ _
  refine via_modAux (hA.of rfl) _ (.inl (hA.of rfl)) (.inr fun _ => by unfold Aux.waits; rfl) (.inr fun _ => rfl) (.inr fun _ => rfl) (fun _ h => by first | simpa [Aux.sized] using h | simp_all [Aux.sized]) ?_
  exact hx2

theorem via_islHold {A : Nat} {s0 : State} (hA : Sub 1023995 A) {s : State} (h : Via A s0 s) (a1 : Sys2Proof.Word) : Via A s0 (State.islHold s a1).1 := by
  unfold State.islHold
  extract_lets x0 x1 x2 x3 x4 x5 x6
  try clear_value x0
  try clear_value x1
  try clear_value x2
  try clear_value x3
  have hx4 : Via A s0 x4 := by
    exact (via_setReg (hA.of rfl) h _ _)
  try clear_value x4
  have hx5 : Via A s0 x5 := by
    exact (via_clearIslands (hA.of rfl) hx4 _)
  try clear_value x5
  have hx6 : Via A s0 x6 := by
    unfold x6
    refine via_foldS ?_ ?_ _
    · intro a7 x8 hx8
      refine via_ite ?_ ?_
      · exact hx8
      · refine via_ite ?_ ?_
        · refine via_modAux (hA.of rfl) _ (.inl (hA.of rfl)) (.inr fun _ => by unfold Aux.waits; rfl) (.inr fun _ => rfl) (.inr fun _ => rfl) (fun _ h => by first | simpa [Aux.sized] using h | simp_all [Aux.sized]) ?_
          exact hx8
        · exact (via_addTodo (hA.of rfl) hx8 _)
    · exact hx5
  try clear_value x6
  refine via_ite_fst ?_ ?_
  · refine via_mk_fst ?_
    exact h
  · refine via_mk_fst ?_
    exact hx6

/-! ### Live -/

theorem via_peek {A : Nat} {s0 : State} (hA : Sub 8192 A) {s : State} (h : Via A s0 s) (a1 : Nat) : Via A s0 (State.peek s a1).2 := by
  unfold State.peek
  extract_lets x0 x1 x2 x3
  try clear_value x0
  try clear_value x1
  have hx2 : Via A s0 x2.2 := by
    exact (via_freshWord (hA.of rfl) h)
  try clear_value x2
  try clear_value x3
  refine via_ite_snd ?_ ?_
  · refine via_mk_snd ?_
    exact h
  · refine via_mk_snd ?_
    exact hx2

theorem via_capture {A : Nat} {s0 : State} (hA : Sub 8 A) {s : State} (h : Via A s0 s) (a1 : Sys2Proof.Master) (a2 : Nat) (a3 : Sys2Proof.Word) : Via A s0 (State.capture s a1 a2 a3) := by
  unfold State.capture
  refine via_modAux (hA.of rfl) _ (.inr fun _ => by unfold Aux.power; rfl) (.inr fun _ => by unfold Aux.waits; rfl) (.inr fun _ => rfl) (.inr fun _ => rfl) (fun _ h => by first | simpa [Aux.sized] using h | simp_all [Aux.sized]) ?_
  exact h

theorem via_uncapture {A : Nat} {s0 : State} (hA : Sub 8 A) {s : State} (h : Via A s0 s) (a1 : Sys2Proof.Master) (a2 : Nat) : Via A s0 (State.uncapture s a1 a2) := by
  unfold State.uncapture
  refine via_modAux (hA.of rfl) _ (.inr fun _ => by unfold Aux.power; rfl) (.inr fun _ => by unfold Aux.waits; rfl) (.inr fun _ => rfl) (.inr fun _ => rfl) (fun _ h => by first | simpa [Aux.sized] using h | simp_all [Aux.sized]) ?_
  exact h

theorem via_readPage {A : Nat} {s0 : State} (hA : Sub 10376 A) {s : State} (h : Via A s0 s) (a1 : Sys2Proof.Master) (a2 : Nat) (a3 : RegRow) : Via A s0 (State.readPage s a1 a2 a3).2 := by
  unfold State.readPage
  extract_lets x0 x1
  have hx0 : Via A s0 x0 := by
    unfold x0
    refine via_foldS ?_ ?_ _
    · intro a2 x3 hx3
      exact (via_capture (hA.of rfl) hx3 _ _ _)
    · exact h
  try clear_value x0
  have hx1 : Via A s0 x1 := by
    unfold x1
    refine via_ite ?_ ?_
    · exact (via_capture (hA.of rfl) h _ _ _)
    · exact h
  try clear_value x1
  refine via_ite_snd ?_ ?_
  · refine via_mk_snd ?_
    exact (via_capture (hA.of rfl) hx0 _ _ _)
  · split
    · split
      · refine via_ite_snd ?_ ?_
        · refine via_mk_snd ?_
          exact h
        · refine via_mk_snd ?_
          exact (via_uncapture (hA.of rfl) h _ _)
      · refine via_mk_snd ?_
        exact (via_uncapture (hA.of rfl) h _ _)
    · refine via_ite_snd ?_ ?_
      · refine via_mk_snd ?_
        refine via_modPix (hA.of rfl) _ (.inr fun _ => rfl) (.inr fun _ => rfl) (.inr fun _ => by unfold Pix.jobState; rfl) (.inr fun _ => rfl) (fun _ h => by first | simpa [Pix.sized, Img.sized] using h | simp_all [Pix.sized, Img.sized]) ?_
        exact hx1
      · refine via_ite_snd ?_ ?_
        · exact (via_popRead (hA.of rfl) hx1 _)
        · exact (via_peek (hA.of rfl) hx1 _)

theorem via_readReg {A : Nat} {s0 : State} (hA : Sub 10376 A) {s : State} (h : Via A s0 s) (a1 : Sys2Proof.Master) (a2 : Nat) : Via A s0 (State.readReg s a1 a2).2 := by
  unfold State.readReg
  extract_lets x0
  try clear_value x0
  refine via_ite_snd ?_ ?_
  · refine via_mk_snd ?_
    exact h
  · split
    · refine via_mk_snd ?_
      exact h
    · split
      · exact (via_readPage (hA.of rfl) h _ _ _)
      · refine via_mk_snd ?_
        exact h
    · refine via_mk_snd ?_
      exact h

/-! ### Diag -/

theorem via_diagEnd {A : Nat} {s0 : State} (hA : Sub 7305 A) {s : State} (h : Via A s0 s) (a1 : Desc) (a2 : Nat) (a3 : Nat) (a4 : Nat) : Via A s0 (State.diagEnd s a1 a2 a3 a4) := by
  unfold State.diagEnd
  extract_lets x0 x1
  have hx0 : Via A s0 x0 := by
    exact (via_putRecord (hA.of rfl) h _ _)
  try clear_value x0
  have hx1 : Via A s0 x1 := by
    exact (via_descDone (hA.of rfl) hx0 _ _ _)
  try clear_value x1
  refine via_ite ?_ ?_
  · exact (via_ringStop (hA.of rfl) hx1 _ _)
  · exact hx1

theorem via_freshValue {A : Nat} {s0 : State} (hA : Sub 8192 A) {s : State} (h : Via A s0 s) : Via A s0 (State.freshValue s).2 := by
  unfold State.freshValue
  extract_lets x0
  have hx0 : Via A s0 x0.2 := by
    exact (via_freshBytes (hA.of rfl) h _)
  try clear_value x0
  refine via_mk_snd ?_
  exact hx0

theorem via_prbsStart {A : Nat} {s0 : State} (hA : Sub 4225 A) {s : State} (h : Via A s0 s) (a1 : Nat) (a2 : Nat) (a3 : Nat) (a4 : Bool) (a5 : Option Nat) : Via A s0 (State.prbsStart s a1 a2 a3 a4 a5) := by
  unfold State.prbsStart
  extract_lets x0 x1
  have hx0 : Via A s0 x0 := by
    exact (via_put (hA.of rfl) (via_put (hA.of rfl) (via_put (hA.of rfl) h _ _) _ _) _ _)
  try clear_value x0
  have hx1 : Via A s0 x1 := by
    unfold x1
    refine via_modPix (hA.of rfl) _ (.inr fun _ => rfl) (.inr fun _ => rfl) (.inr fun _ => by unfold Pix.jobState; rfl) (.inr fun _ => rfl) (fun _ h => by first | simpa [Pix.sized, Img.sized] using h | simp_all [Pix.sized, Img.sized]) ?_
    exact hx0
  try clear_value x1
  refine via_ite ?_ ?_
  · exact (via_emit (hA.of rfl) hx1 _)
  · exact hx1

theorem via_prbsOver {A : Nat} {s0 : State} (hA : Sub 7305 A) {s : State} (h : Via A s0 s) (a1 : Prbs) (a2 : Nat) (a3 : Nat) : Via A s0 (State.prbsOver s a1 a2 a3) := by
  unfold State.prbsOver
  extract_lets x0 x1 x2
  have hx0 : Via A s0 x0 := by
    exact (via_setReg (hA.of rfl) (via_put (hA.of rfl) h _ _) _ _)
  try clear_value x0
  have hx1 : Via A s0 x1 := by
    unfold x1
    refine via_modPix (hA.of rfl) _ (.inr fun _ => rfl) (.inr fun _ => rfl) (.inr fun _ => by unfold Pix.jobState; rfl) (.inr fun _ => rfl) (fun _ h => by first | simpa [Pix.sized, Img.sized] using h | simp_all [Pix.sized, Img.sized]) ?_
    exact hx0
  try clear_value x1
  have hx2 : Via A s0 x2 := by
    exact (via_raise (hA.of rfl) hx1 _)
  try clear_value x2
  split
  · split
    · exact (via_diagEnd (hA.of rfl) hx2 _ _ _ _)
    · exact hx2
  · exact hx2

theorem via_prbsEnd {A : Nat} {s0 : State} (hA : Sub 7305 A) {s : State} (h : Via A s0 s) (a1 : Nat) (a2 : Bool) : Via A s0 (State.prbsEnd s a1 a2) := by
  unfold State.prbsEnd
  split
  · extract_lets x0
    try clear_value x0
    refine via_ite ?_ ?_
    · exact h
    · exact (via_prbsOver (hA.of rfl) (via_put (hA.of rfl) h _ _) _ _ _)
  · exact h

theorem via_prbsAbort {A : Nat} {s0 : State} (hA : Sub 15497 A) {s : State} (h : Via A s0 s) (a1 : Nat) : Via A s0 (State.prbsAbort s a1) := by
  unfold State.prbsAbort
  extract_lets x0
  have hx0 : Via A s0 x0.2 := by
    exact (via_freshWord (hA.of rfl) h)
  try clear_value x0
  split
  · refine via_ite ?_ ?_
    · exact (via_prbsOver (hA.of rfl) (via_put (hA.of rfl) hx0 _ _) _ _ _)
    · exact h
  · exact h

theorem via_diagRun {A : Nat} {s0 : State} (hA : Sub 15497 A) {s : State} (h : Via A s0 s) (a1 : Nat) (a2 : List Sys2Proof.Byte) : Via A s0 (State.diagRun s a1 a2) := by
  unfold State.diagRun
  split
  · exact h
  · extract_lets x0 x1 x2 x3
    have hx0 : Via A s0 x0 := by
      exact (via_takeDesc (hA.of rfl) h _ _)
    try clear_value x0
    try clear_value x1
    have hx2 : Via A s0 x2 := by
      exact (via_hostWrite (hA.of rfl) hx0 _ _)
    try clear_value x2
    have hx3 : Via A s0 x3.2 := by
      exact (via_freshValue (hA.of rfl) hx2)
    try clear_value x3
    refine via_ite ?_ ?_
    · exact h
    · refine via_ite ?_ ?_
      · exact (via_diagEnd (hA.of rfl) (via_takeDesc (hA.of rfl) h _ _) _ _ _ _)
      · refine via_ite ?_ ?_
        · exact h
        · refine via_ite ?_ ?_
          · refine via_ite ?_ ?_
            · exact (via_diagEnd (hA.of rfl) hx0 _ _ _ _)
            · exact (via_prbsStart (hA.of rfl) hx0 _ _ _ _ _)
          · exact (via_diagEnd (hA.of rfl) hx3 _ _ _ _)

/-! ### Writes -/

theorem via_parCmd {A : Nat} {s0 : State} (hA : Sub 212457 A) {s : State} (h : Via A s0 s) (a1 : Nat) : Via A s0 (State.parCmd s a1).1 := by
  unfold State.parCmd
  extract_lets x0
  have hx0 : Via A s0 x0.1 := by
    exact (via_handoverCmd (hA.of rfl) h)
  try clear_value x0
  refine via_ite_fst ?_ ?_
  · refine via_mk_fst ?_
    exact h
  · refine via_ite_fst ?_ ?_
    · refine via_ite_fst ?_ ?_
      · refine via_mk_fst ?_
        exact (via_claimStart (hA.of rfl) h)
      · refine via_mk_fst ?_
        exact h
    · refine via_ite_fst ?_ ?_
      · split
        · refine via_ite_fst ?_ ?_
          · refine via_mk_fst ?_
            exact hx0
          · refine via_mk_fst ?_
            exact h
        · refine via_mk_fst ?_
          exact (via_sendPair (hA.of rfl) h _)
        · refine via_mk_fst ?_
          exact h
      · refine via_ite_fst ?_ ?_
        · refine via_ite_fst ?_ ?_
          · refine via_mk_fst ?_
            exact (via_resyncTry (hA.of rfl) (via_modPlk (hA.of rfl) h _))
          · refine via_mk_fst ?_
            exact h
        · refine via_ite_fst ?_ ?_
          · refine via_ite_fst ?_ ?_
            · refine via_mk_fst ?_
              exact (via_setRole (hA.of rfl) h _ _ _)
            · refine via_mk_fst ?_
              exact h
          · refine via_ite_fst ?_ ?_
            · refine via_mk_fst ?_
              exact (via_locketFail (hA.of rfl) h _)
            · refine via_mk_fst ?_
              exact h

theorem via_claspCmd {A : Nat} {s0 : State} (hA : Sub 531593 A) {s : State} (h : Via A s0 s) (a1 : Nat) (a2 : Nat) : Via A s0 (State.claspCmd s a1 a2).1 := by
  unfold State.claspCmd
  extract_lets x0
  try clear_value x0
  refine via_ite_fst ?_ ?_
  · refine via_ite_fst ?_ ?_
    · refine via_mk_fst ?_
      exact (via_claspOpen (hA.of rfl) h _)
    · refine via_mk_fst ?_
      exact h
  · refine via_ite_fst ?_ ?_
    · refine via_ite_fst ?_ ?_
      · refine via_mk_fst ?_
        exact (via_claspCommit (hA.of rfl) h _)
      · refine via_mk_fst ?_
        exact h
    · refine via_ite_fst ?_ ?_
      · refine via_ite_fst ?_ ?_
        · refine via_mk_fst ?_
          exact (via_claspAbort (hA.of rfl) h _ _ _ _)
        · refine via_mk_fst ?_
          exact h
      · refine via_ite_fst ?_ ?_
        · refine via_ite_fst ?_ ?_
          · refine via_mk_fst ?_
            exact (via_put (hA.of rfl) (via_modSlot (hA.of rfl) h _ _) _ _)
          · refine via_mk_fst ?_
            exact h
        · refine via_mk_fst ?_
          exact h

theorem via_gpioWrite {A : Nat} {s0 : State} (hA : Sub 65801 A) {s : State} (h : Via A s0 s) (a1 : Sys2Proof.Word) (a2 : Sys2Proof.Word) : Via A s0 (State.gpioWrite s a1 a2) := by
  unfold State.gpioWrite
  refine via_foldS ?_ ?_ _
  · intro a0 x1 hx1
    split
    · exact (via_setPad (hA.of rfl) hx1 _ _)
    · exact (via_setBit (hA.of rfl) (via_setPad (hA.of rfl) hx1 _ _) _ _ _)
    · exact hx1
  · exact h

theorem via_wdtCtrl {A : Nat} {s0 : State} (hA : Sub 9 A) {s : State} (h : Via A s0 s) (a1 : Sys2Proof.Word) : Via A s0 (State.wdtCtrl s a1) := by
  unfold State.wdtCtrl
  refine via_ite ?_ ?_
  · refine via_modAux (hA.of rfl) _ (.inr fun _ => by unfold Aux.power; rfl) (.inr fun _ => by unfold Aux.waits; rfl) (.inr fun _ => rfl) (.inr fun _ => rfl) (fun _ h => by first | simpa [Aux.sized] using h | simp_all [Aux.sized]) ?_
    exact (via_put (hA.of rfl) h _ _)
  · exact h

theorem via_wdtKick {A : Nat} {s0 : State} (hA : Sub 9 A) {s : State} (h : Via A s0 s) : Via A s0 (State.wdtKick s) := by
  unfold State.wdtKick
  refine via_ite ?_ ?_
  · refine via_modAux (hA.of rfl) _ (.inr fun _ => by unfold Aux.power; rfl) (.inr fun _ => by unfold Aux.waits; rfl) (.inr fun _ => rfl) (.inr fun _ => rfl) (fun _ h => by first | simpa [Aux.sized] using h | simp_all [Aux.sized]) ?_
    exact (via_put (hA.of rfl) h _ _)
  · exact h

theorem via_logFrom {A : Nat} {s0 : State} (hA : Sub 7305 A) {s : State} (h : Via A s0 s) (a1 : Nat) : Via A s0 (State.logFrom s a1) := by
  unfold State.logFrom
  extract_lets x0 x1 x2 x3
  try clear_value x0
  try clear_value x1
  try clear_value x2
  try clear_value x3
  refine via_foldS ?_ ?_ _
  · intro a4 x5 hx5
    exact (via_putRecord (hA.of rfl) hx5 _ _)
  · exact h

theorem via_laneEn {A : Nat} {s0 : State} (hA : Sub 507881 A) {s : State} (h : Via A s0 s) (a1 : Nat) (a2 : Sys2Proof.Word) (a3 : Sys2Proof.Word) : Via A s0 (State.laneEn s a1 a2 a3) := by
  unfold State.laneEn
  refine via_foldS ?_ ?_ _
  · intro a0 x1 hx1
    extract_lets x2
    try clear_value x2
    refine via_ite ?_ ?_
    · exact (via_laneEnable (hA.of rfl) (via_prbsAbort (hA.of rfl) hx1 _) _)
    · refine via_ite ?_ ?_
      · exact (via_laneDisable (hA.of rfl) hx1 _)
      · exact hx1
  · exact h

theorem via_ringCfg {A : Nat} {s0 : State} (hA : Sub 1023465 A) {s : State} (h : Via A s0 s) (a1 : Nat) (a2 : Sys2Proof.Word) (a3 : Sys2Proof.Word) : Via A s0 (State.ringCfg s a1 a2 a3) := by
  unfold State.ringCfg
  refine via_ite ?_ ?_
  · exact (via_ringEnable (hA.of rfl) h _)
  · refine via_ite ?_ ?_
    · exact (via_ringDisable (hA.of rfl) h _)
    · exact h

theorem via_itemCmd {A : Nat} {s0 : State} (hA : Sub 5409 A) {s : State} (h : Via A s0 s) (a1 : Nat) (a2 : Sys2Proof.Word) : Via A s0 (State.itemCmd s a1 a2) := by
  unfold State.itemCmd
  exact (via_calCmd (hA.of rfl) h _ _ _ _ _)

theorem via_evtForce {A : Nat} {s0 : State} (hA : Sub 7305 A) {s : State} (h : Via A s0 s) (a1 : Nat) (a2 : Sys2Proof.Word) : Via A s0 (State.evtForce s a1 a2) := by
  unfold State.evtForce
  refine via_foldS ?_ ?_ _
  · intro a0 x1 hx1
    exact (via_raise (hA.of rfl) hx1 _)
  · exact h

theorem via_evtClear {A : Nat} {s0 : State} (hA : Sub 1 A) {s : State} (h : Via A s0 s) (a1 : Nat) (a2 : Sys2Proof.Word) : Via A s0 (State.evtClear s a1 a2) := by
  unfold State.evtClear
  extract_lets x0
  have hx0 : Via A s0 x0 := by
    exact (via_setReg (hA.of rfl) (via_setReg (hA.of rfl) h _ _) _ _)
  try clear_value x0
  refine via_ite ?_ ?_
  · exact (via_setReg (hA.of rfl) hx0 _ _)
  · exact hx0

theorem via_writeActs {A : Nat} {s0 : State} (hA : Sub 2080763 A) {s : State} (h : Via A s0 s) (a1 : Sys2Proof.Master) (a2 : Nat) (a3 : Nat) (a4 : Nat) (a5 : Sys2Proof.Word) (a6 : Sys2Proof.Word) : Via A s0 (State.writeActs s a1 a2 a3 a4 a5 a6).1 := by
  unfold State.writeActs
  extract_lets x0 x1 x2 x3 x4
  try clear_value x0
  have hx1 : ∀ b0, Via A s0 b0 → Via A s0 (x1 b0).1 := by
    intro b0 hb5
    unfold x1
    refine via_mk_fst ?_
    exact hb5
  try clear_value x1
  try clear_value x2
  try clear_value x3
  have hx4 : Via A s0 x4 := by
    unfold x4
    refine via_ite ?_ ?_
    · exact (via_spareTakeCmd (hA.of rfl) h _)
    · exact h
  try clear_value x4
  refine via_ite_fst ?_ ?_
  · refine via_ite_fst ?_ ?_
    · exact (hx1 _ (via_padsUpdate (hA.of rfl) h))
    · refine via_ite_fst ?_ ?_
      · exact (hx1 _ (via_gpioWrite (hA.of rfl) h _ _))
      · refine via_ite_fst ?_ ?_
        · exact (hx1 _ (via_wdtCtrl (hA.of rfl) h _))
        · refine via_ite_fst ?_ ?_
          · exact (hx1 _ (via_wdtKick (hA.of rfl) h))
          · exact (hx1 _ h)
  · refine via_ite_fst ?_ ?_
    · refine via_ite_fst ?_ ?_
      · exact (hx1 _ (via_softReset (hA.of rfl) h _ _))
      · refine via_ite_fst ?_ ?_
        · refine hx1 _ ?_
          refine via_ite ?_ ?_
          · exact (via_bootContinue (hA.of rfl) h)
          · exact h
        · refine via_ite_fst ?_ ?_
          · exact (via_islHold (hA.of rfl) (via_setReg (hA.of rfl) h _ _) _)
          · refine via_ite_fst ?_ ?_
            · refine hx1 _ ?_
              refine via_ite ?_ ?_
              · exact (via_put (hA.of rfl) (via_put (hA.of rfl) h _ _) _ _)
              · exact h
            · exact (hx1 _ h)
    · refine via_ite_fst ?_ ?_
      · refine via_ite_fst ?_ ?_
        · exact (via_claspCmd (hA.of rfl) h _ _)
        · refine via_ite_fst ?_ ?_
          · exact (hx1 _ (via_claspStage (hA.of rfl) h _ _ _))
          · exact (hx1 _ h)
      · refine via_ite_fst ?_ ?_
        · refine via_ite_fst ?_ ?_
          · exact (hx1 _ (via_logFrom (hA.of rfl) h _))
          · exact (hx1 _ h)
        · refine via_ite_fst ?_ ?_
          · refine via_ite_fst ?_ ?_
            · exact (hx1 _ (via_ringCfg (hA.of rfl) h _ _ _))
            · refine via_ite_fst ?_ ?_
              · exact (hx1 _ (via_doorbell (hA.of rfl) (via_setReg (hA.of rfl) h _ _) _ _))
              · refine via_ite_fst ?_ ?_
                · exact (hx1 _ (via_consWrite (hA.of rfl) (via_setReg (hA.of rfl) h _ _) _ _))
                · exact (hx1 _ h)
          · refine via_ite_fst ?_ ?_
            · refine via_ite_fst ?_ ?_
              · refine hx1 _ ?_
                refine via_foldS ?_ ?_ _
                · intro a6 x7 hx7
                  exact (via_maskCheck (hA.of rfl) hx7 _)
                · exact h
              · exact (hx1 _ h)
            · refine via_ite_fst ?_ ?_
              · refine via_ite_fst ?_ ?_
                · refine hx1 _ ?_
                  refine via_foldS ?_ ?_ _
                  · intro a8 x9 hx9
                    exact (via_nzcPass (hA.of rfl) hx9 _ _)
                  · exact h
                · exact (hx1 _ h)
              · refine via_ite_fst ?_ ?_
                · refine via_ite_fst ?_ ?_
                  · refine hx1 _ ?_
                    refine via_ite ?_ ?_
                    · exact h
                    · exact (via_webSwitch (hA.of rfl) h)
                  · refine via_ite_fst ?_ ?_
                    · refine hx1 _ ?_
                      refine via_ite ?_ ?_
                      · exact h
                      · exact (via_chRestart (hA.of rfl) h _)
                    · refine via_ite_fst ?_ ?_
                      · refine hx1 _ ?_
                        refine via_ite ?_ ?_
                        · exact (via_chRestart (hA.of rfl) h _)
                        · exact h
                      · exact (hx1 _ h)
                · refine via_ite_fst ?_ ?_
                  · refine via_ite_fst ?_ ?_
                    · exact (hx1 _ (via_watchLines (hA.of rfl) h))
                    · exact (hx1 _ h)
                  · refine via_ite_fst ?_ ?_
                    · refine via_ite_fst ?_ ?_
                      · refine hx1 _ ?_
                        refine via_ite ?_ ?_
                        · exact (via_swapCmd (hA.of rfl) h _)
                        · exact h
                      · refine via_ite_fst ?_ ?_
                        · refine hx1 _ ?_
                          refine via_ite ?_ ?_
                          · exact (via_captureArm (hA.of rfl) h _)
                          · exact h
                        · exact (hx1 _ h)
                    · refine via_ite_fst ?_ ?_
                      · refine via_ite_fst ?_ ?_
                        · refine hx1 _ ?_
                          refine via_ite ?_ ?_
                          · exact h
                          · exact (via_telemPer (hA.of rfl) h)
                        · exact (hx1 _ h)
                      · refine via_ite_fst ?_ ?_
                        · refine via_ite_fst ?_ ?_
                          · exact (hx1 _ (via_laneEn (hA.of rfl) h _ _ _))
                          · refine via_ite_fst ?_ ?_
                            · refine hx1 _ ?_
                              refine via_ite ?_ ?_
                              · exact (via_spareRelease (hA.of rfl) hx4 _)
                              · exact hx4
                            · refine via_ite_fst ?_ ?_
                              · refine hx1 _ ?_
                                refine via_ite ?_ ?_
                                · exact (via_mailboxGo (hA.of rfl) h _)
                                · exact h
                              · exact (hx1 _ h)
                        · refine via_ite_fst ?_ ?_
                          · refine via_ite_fst ?_ ?_
                            · exact (hx1 _ (via_effUpdate (hA.of rfl) h))
                            · exact (hx1 _ h)
                          · refine via_ite_fst ?_ ?_
                            · refine via_ite_fst ?_ ?_
                              · refine hx1 _ ?_
                                refine via_modAux (hA.of rfl) _ (.inr fun _ => by unfold Aux.power; rfl) (.inr fun _ => by unfold Aux.waits; rfl) (.inr fun _ => rfl) (.inr fun _ => rfl) (fun _ h => by first | simpa [Aux.sized] using h | simp_all [Aux.sized]) ?_
                                exact h
                              · exact (hx1 _ h)
                            · refine via_ite_fst ?_ ?_
                              · refine via_ite_fst ?_ ?_
                                · exact (hx1 _ (via_itemCmd (hA.of rfl) h _ _))
                                · exact (hx1 _ h)
                              · refine via_ite_fst ?_ ?_
                                · refine via_ite_fst ?_ ?_
                                  · exact (via_parCmd (hA.of rfl) h _)
                                  · exact (hx1 _ h)
                                · refine via_ite_fst ?_ ?_
                                  · refine via_ite_fst ?_ ?_
                                    · refine hx1 _ ?_
                                      refine via_ite ?_ ?_
                                      · exact (via_prbsStart (hA.of rfl) h _ _ _ _ _)
                                      · exact h
                                    · refine via_ite_fst ?_ ?_
                                      · refine hx1 _ ?_
                                        refine via_ite ?_ ?_
                                        · refine via_modAux (hA.of rfl) _ (.inr fun _ => by unfold Aux.power; rfl) (.inr fun _ => by unfold Aux.waits; rfl) (.inr fun _ => rfl) (.inr fun _ => rfl) (fun _ h => by first | simpa [Aux.sized] using h | simp_all [Aux.sized]) ?_
                                          exact h
                                        · exact h
                                      · exact (hx1 _ h)
                                  · exact (hx1 _ h)

/-! ### Bus -/

theorem via_holdLoWrite {A : Nat} {s0 : State} (hA : Sub 8 A) {s : State} (h : Via A s0 s) (a1 : Sys2Proof.Master) (a2 : Nat) (a3 : Sys2Proof.Word) : Via A s0 (State.holdLoWrite s a1 a2 a3) := by
  unfold State.holdLoWrite
  refine via_modAux (hA.of rfl) _ (.inr fun _ => by unfold Aux.power; rfl) (.inr fun _ => by unfold Aux.waits; rfl) (.inr fun _ => rfl) (.inr fun _ => rfl) (fun _ h => by first | simpa [Aux.sized] using h | simp_all [Aux.sized]) ?_
  exact h

theorem via_dropLo {A : Nat} {s0 : State} (hA : Sub 8 A) {s : State} (h : Via A s0 s) (a1 : Sys2Proof.Master) (a2 : Nat) : Via A s0 (State.dropLo s a1 a2) := by
  unfold State.dropLo
  refine via_modAux (hA.of rfl) _ (.inr fun _ => by unfold Aux.power; rfl) (.inr fun _ => by unfold Aux.waits; rfl) (.inr fun _ => rfl) (.inr fun _ => rfl) (fun _ h => by first | simpa [Aux.sized] using h | simp_all [Aux.sized]) ?_
  exact h

theorem via_storeReg {A : Nat} {s0 : State} (hA : Sub 2080763 A) {s : State} (h : Via A s0 s) (a1 : Sys2Proof.Master) (a2 : Nat) (a3 : Sys2Proof.Word) : Via A s0 (State.storeReg s a1 a2 a3).1 := by
  unfold State.storeReg
  extract_lets x0 x1 x2 x3 x4 x5
  try clear_value x0
  try clear_value x1
  try clear_value x2
  have hx3 : Via A s0 x3 := by
    exact (via_peek (hA.of rfl) h _)
  try clear_value x3
  try clear_value x4
  have hx5 : Via A s0 x5 := by
    unfold x5
    split
    · split
      · split
        · exact (via_setReg (hA.of rfl) (via_dropLo (hA.of rfl) hx3 _ _) _ _)
        · exact hx3
      · exact hx3
    · exact hx3
  try clear_value x5
  split
  · refine via_mk_fst ?_
    exact h
  · extract_lets x6
    have hx6 : Via A s0 x6.1 := by
      exact (via_writeActs (hA.of rfl) (via_setReg (hA.of rfl) hx5 _ _) _ _ _ _ _ _)
    try clear_value x6
    refine via_ite_fst ?_ ?_
    · exact (via_writeCtrl (hA.of rfl) hx3 _ _)
    · refine via_ite_fst ?_ ?_
      · refine via_mk_fst ?_
        exact (via_evtClear (hA.of rfl) hx3 _ _)
      · refine via_ite_fst ?_ ?_
        · refine via_mk_fst ?_
          exact (via_evtForce (hA.of rfl) hx3 _ _)
        · refine via_ite_fst ?_ ?_
          · refine via_mk_fst ?_
            exact hx3
          · refine via_ite_fst ?_ ?_
            · refine via_mk_fst ?_
              exact hx3
            · refine via_ite_fst ?_ ?_
              · refine via_mk_fst ?_
                exact hx3
              · refine via_ite_fst ?_ ?_
                · refine via_mk_fst ?_
                  exact hx3
                · split
                  · refine via_mk_fst ?_
                    exact hx3
                  · refine via_ite_fst ?_ ?_
                    · exact (via_calWrite (hA.of rfl) hx3 _ _)
                    · refine via_ite_fst ?_ ?_
                      · refine via_mk_fst ?_
                        exact (via_holdLoWrite (hA.of rfl) hx3 _ _ _)
                      · split
                        · refine via_mk_fst ?_
                          exact hx3
                        · exact hx6

theorem via_storeWindow {A : Nat} {s0 : State} (hA : Sub 129 A) {s : State} (h : Via A s0 s) (a1 : Place) (a2 : Nat) (a3 : Sys2Proof.Word) : Via A s0 (State.storeWindow s a1 a2 a3).1 := by
  unfold State.storeWindow
  extract_lets x0
  try clear_value x0
  split
  · refine via_mk_fst ?_
    refine via_ite ?_ ?_
    · exact (via_nzcHold (hA.of rfl) h _ _ _)
    · exact (via_setReg (hA.of rfl) h _ _)
  · refine via_mk_fst ?_
    refine via_ite ?_ ?_
    · exact (via_nzcHold (hA.of rfl) h _ _ _)
    · exact (via_setReg (hA.of rfl) h _ _)
  · refine via_mk_fst ?_
    exact h
  · refine via_ite_fst ?_ ?_
    · refine via_mk_fst ?_
      exact h
    · refine via_mk_fst ?_
      exact (via_setReg (hA.of rfl) h _ _)
  · refine via_ite_fst ?_ ?_
    · refine via_mk_fst ?_
      exact h
    · refine via_mk_fst ?_
      exact (via_setReg (hA.of rfl) h _ _)
  · refine via_mk_fst ?_
    exact h

theorem via_refuseAt {A : Nat} {s0 : State} (hA : Sub 7305 A) {s : State} (h : Via A s0 s) (a1 : Option Nat) (a2 : Nat) (a3 : Sys2Proof.Master) (a4 : Nat) : Via A s0 (State.refuseAt s a1 a2 a3 a4) := by
  unfold State.refuseAt
  split
  · refine via_ite ?_ ?_
    · exact (via_errCode (hA.of rfl) h _ _ _ _)
    · exact (via_errCode (hA.of rfl) h _ _ _ _)
  · exact (via_errCode (hA.of rfl) h _ _ _ _)

theorem via_land {A : Nat} {s0 : State} (hA : Sub 2080763 A) {s : State} (h : Via A s0 s) (a1 : Place) (a2 : Sys2Proof.Master) (a3 : Sys2Proof.Master) (a4 : Nat) (a5 : Sys2Proof.Word) : Via A s0 (State.land s a1 a2 a3 a4 a5).1 := by
  unfold State.land
  extract_lets x0
  have hx0 : Via A s0 x0.1 := by
    unfold x0
    split
    · refine via_ite_fst ?_ ?_
      · refine via_mk_fst ?_
        exact h
      · exact (via_storeReg (hA.of rfl) h _ _ _)
    · exact (via_storeWindow (hA.of rfl) h _ _ _)
  try clear_value x0
  split
  · refine via_mk_fst ?_
    exact (via_refuseAt (hA.of rfl) hx0 _ _ _ _)
  · refine via_mk_fst ?_
    exact hx0

theorem via_msixWrite {A : Nat} {s0 : State} (hA : Sub 4097 A) {s : State} (h : Via A s0 s) (a1 : Nat) (a2 : Sys2Proof.Word) : Via A s0 (State.msixWrite s a1 a2) := by
  unfold State.msixWrite
  extract_lets x0
  try clear_value x0
  refine via_ite ?_ ?_
  · exact h
  · exact (via_flushMsix (hA.of rfl) (via_setReg (hA.of rfl) h _ _))

theorem via_busWrite {A : Nat} {s0 : State} (hA : Sub 2097147 A) {s : State} (h : Via A s0 s) (a1 : Sys2Proof.Master) (a2 : Nat) (a3 : Sys2Proof.Word) (a4 : Bool) : Via A s0 (State.busWrite s a1 a2 a3 a4).1 := by
  unfold State.busWrite
  extract_lets x0 x1
  try clear_value x0
  have hx1 : ∀ b0, Via A s0 (x1 b0).1 := by
    intro b0
    unfold x1
    refine via_mk_fst ?_
    exact (via_refuseAt (hA.of rfl) h _ _ _ _)
  try clear_value x1
  refine via_ite_fst ?_ ?_
  · exact (hx1 _)
  · refine via_ite_fst ?_ ?_
    · split
      · refine via_ite_fst ?_ ?_
        · refine via_mk_fst ?_
          refine via_modAux (hA.of rfl) _ (.inr fun _ => by unfold Aux.power; rfl) (.inr fun _ => by unfold Aux.waits; rfl) (.inr fun _ => rfl) (.inr fun _ => rfl) (fun _ h => by first | simpa [Aux.sized] using h | simp_all [Aux.sized]) ?_
          exact h
        · refine via_mk_fst ?_
          exact (via_errCode (hA.of rfl) h _ _ _ _)
      · refine via_mk_fst ?_
        exact (via_errCode (hA.of rfl) h _ _ _ _)
    · refine via_ite_fst ?_ ?_
      · exact (hx1 _)
      · refine via_ite_fst ?_ ?_
        · refine via_mk_fst ?_
          exact (via_msixWrite (hA.of rfl) h _ _)
        · refine via_ite_fst ?_ ?_
          · refine via_ite_fst ?_ ?_
            · refine via_mk_fst ?_
              exact (via_stampAction (hA.of rfl) h _)
            · exact (hx1 _)
          · refine via_ite_fst ?_ ?_
            · refine via_mk_fst ?_
              refine via_modAux (hA.of rfl) _ (.inr fun _ => by unfold Aux.power; rfl) (.inl (hA.of rfl)) (.inr fun _ => rfl) (.inr fun _ => rfl) (fun _ h => by first | simpa [Aux.sized] using h | simp_all [Aux.sized]) ?_
              exact h
            · exact (via_land (hA.of rfl) h _ _ _ _ _)

theorem via_busRead {A : Nat} {s0 : State} (hA : Sub 30856 A) {s : State} (h : Via A s0 s) (a1 : Sys2Proof.Master) (a2 : Nat) : Via A s0 (State.busRead s a1 a2) := by
  unfold State.busRead
  extract_lets x0
  have hx0 : Via A s0 x0.2 := by
    exact (via_readReg (hA.of rfl) h _ _)
  try clear_value x0
  split
  · refine via_ite ?_ ?_
    · refine via_modAux (hA.of rfl) _ (.inr fun _ => by unfold Aux.power; rfl) (.inl (hA.of rfl)) (.inr fun _ => rfl) (.inr fun _ => rfl) (fun _ h => by first | simpa [Aux.sized] using h | simp_all [Aux.sized]) ?_
      exact h
    · exact (via_emit (hA.of rfl) hx0 _)
  · exact (via_emit (hA.of rfl) hx0 _)

theorem via_wideWrite {A : Nat} {s0 : State} (hA : Sub 2097147 A) {s : State} (h : Via A s0 s) (a1 : Sys2Proof.Master) (a2 : Nat) (a3 : List (Option Sys2Proof.Byte)) : Via A s0 (State.wideWrite s a1 a2 a3).1 := by
  unfold State.wideWrite
  extract_lets x0 x1 x2 x3 x4
  try clear_value x0
  try clear_value x1
  have hx2 : Via A s0 x2.1 := by
    exact (via_busWrite (hA.of rfl) h _ _ _ _)
  try clear_value x2
  try clear_value x3
  try clear_value x4
  refine via_ite_fst ?_ ?_
  · exact (via_busWrite (hA.of rfl) h _ _ _ _)
  · refine via_ite_fst ?_ ?_
    · refine via_ite_fst ?_ ?_
      · exact (via_busWrite (hA.of rfl) hx2 _ _ _ _)
      · exact hx2
    · refine via_mk_fst ?_
      exact (via_refuseAt (hA.of rfl) h _ _ _ _)

/-! ### Sideband -/

theorem via_sbReply {A : Nat} {s0 : State} (hA : Sub 69897 A) {s : State} (h : Via A s0 s) (a1 : Nat) (a2 : Nat) (a3 : List Sys2Proof.Byte) : Via A s0 (State.sbReply s a1 a2 a3) := by
  unfold State.sbReply
  extract_lets x0
  have hx0 : Via A s0 x0 := by
    exact (via_satAdd (hA.of rfl) (via_emit (hA.of rfl) h _) _ _)
  try clear_value x0
  exact (via_setPad (hA.of rfl) hx0 _ _)

theorem via_sbError {A : Nat} {s0 : State} (hA : Sub 15497 A) {s : State} (h : Via A s0 s) (a1 : Bool) : Via A s0 (State.sbError s a1) := by
  unfold State.sbError
  extract_lets x0 x1
  have hx0 : Via A s0 x0 := by
    unfold x0
    refine via_ite ?_ ?_
    · exact (via_satAdd (hA.of rfl) h _ _)
    · exact (via_satAdd (hA.of rfl) h _ _)
  try clear_value x0
  have hx1 : Via A s0 x1.2 := by
    exact (via_freshBytes (hA.of rfl) hx0 _)
  try clear_value x1
  exact (via_raise (hA.of rfl) hx1 _)

theorem via_sbTo {A : Nat} {s0 : State} (hA : Sub 15497 A) {a2 : State → State} (ha2 : ∀ y0, Via A s0 y0 → Via A s0 (a2 y0)) {s : State} (h : Via A s0 s) (a1 : Nat) : Via A s0 (State.sbTo s a1 a2) := by
  unfold State.sbTo
  refine via_ite ?_ ?_
  · exact h
  · refine via_ite ?_ ?_
    · exact (via_sbError (hA.of rfl) h _)
    · refine via_ite ?_ ?_
      · exact (ha2 _ (via_satAdd (hA.of rfl) h _ _))
      · exact h

theorem via_sbCast {A : Nat} {s0 : State} (hA : Sub 15497 A) {a2 : State → State} (ha2 : ∀ y0, Via A s0 y0 → Via A s0 (a2 y0)) {s : State} (h : Via A s0 s) (a1 : Bool) : Via A s0 (State.sbCast s a1 a2) := by
  unfold State.sbCast
  refine via_ite ?_ ?_
  · exact h
  · refine via_ite ?_ ?_
    · exact (ha2 _ (via_satAdd (hA.of rfl) h _ _))
    · exact (via_sbError (hA.of rfl) h _)

theorem via_waitAcc {A : Nat} {s0 : State} (hA : Sub 16392 A) {s : State} (h : Via A s0 s) (a1 : BusAcc) : Via A s0 (State.waitAcc s a1) := by
  unfold State.waitAcc
  refine via_modAux (hA.of rfl) _ (.inr fun _ => by unfold Aux.power; rfl) (.inl (hA.of rfl)) (.inr fun _ => rfl) (.inr fun _ => rfl) (fun _ h => by first | simpa [Aux.sized] using h | simp_all [Aux.sized]) ?_
  exact h

theorem via_readReply {A : Nat} {s0 : State} (hA : Sub 69897 A) {s : State} (h : Via A s0 s) (a1 : Nat) (a2 : List Sys2Proof.Word) (a3 : Bool) : Via A s0 (State.readReply s a1 a2 a3) := by
  unfold State.readReply
  exact (via_sbReply (hA.of rfl) h _ _ _)

theorem via_sbReadGo {A : Nat} {s0 : State} (hA : Sub 96649 A) {s : State} (h : Via A s0 s) (a0 : Nat) (a2 : Nat) (a3 : Nat) (a4 : List Sys2Proof.Word) (a5 : Bool) : Via A s0 (State.sbReadGo a0 s a2 a3 a4 a5) := by
  induction a0 generalizing s a2 a3 a4 a5 with
  | zero =>
    unfold Sys2Proof.Machine.State.sbReadGo
    exact (via_readReply (hA.of rfl) h _ _ _)
  | succ k ih =>
    unfold Sys2Proof.Machine.State.sbReadGo
    extract_lets x0
    have hx0 : Via A s0 x0.2 := by
      exact (via_readReg (hA.of rfl) h _ _)
    try clear_value x0
    refine via_ite ?_ ?_
    · exact (via_waitAcc (hA.of rfl) h _)
    · refine ih ?_ _ _ _ _
      exact hx0

theorem via_writeReply {A : Nat} {s0 : State} (hA : Sub 69897 A) {s : State} (h : Via A s0 s) (a1 : Nat) (a2 : Nat) (a3 : Option Nat) : Via A s0 (State.writeReply s a1 a2 a3) := by
  unfold State.writeReply
  extract_lets x0
  try clear_value x0
  exact (via_sbReply (hA.of rfl) h _ _ _)

theorem via_sbWriteGo {A : Nat} {s0 : State} (hA : Sub 2097147 A) {s : State} (h : Via A s0 s) (a0 : List Sys2Proof.Word) (a2 : Nat) (a3 : Nat) (a4 : Nat) : Via A s0 (State.sbWriteGo a0 s a2 a3 a4) := by
  induction a0 generalizing s a2 a3 a4 with
  | nil =>
    unfold Sys2Proof.Machine.State.sbWriteGo
    exact (via_writeReply (hA.of rfl) h _ _ _)
  | cons w ws ih =>
    unfold Sys2Proof.Machine.State.sbWriteGo
    extract_lets x0 x1
    try clear_value x0
    have hx1 : Via A s0 x1.1 := by
      exact (via_busWrite (hA.of rfl) h _ _ _ _)
    try clear_value x1
    refine via_ite ?_ ?_
    · exact (via_waitAcc (hA.of rfl) h _)
    · split
      · refine ih ?_ _ _ _
        exact hx1
      · exact (via_writeReply (hA.of rfl) hx1 _ _ _)
      · refine via_modAux (hA.of rfl) _ (.inr fun _ => by unfold Aux.power; rfl) (.inl (hA.of rfl)) (.inr fun _ => rfl) (.inr fun _ => rfl) (fun _ h => by first | simpa [Aux.sized] using h | simp_all [Aux.sized]) ?_
        exact hx1
      · exact hx1

theorem via_sbStamped {A : Nat} {s0 : State} (hA : Sub 16392 A) {s : State} (h : Via A s0 s) (a1 : Option Nat) : Via A s0 (State.sbStamped s a1) := by
  unfold State.sbStamped
  refine via_modAux (hA.of rfl) _ (.inr fun _ => by unfold Aux.power; rfl) (.inl (hA.of rfl)) (.inr fun _ => rfl) (.inr fun _ => rfl) (fun _ h => by first | simpa [Aux.sized] using h | simp_all [Aux.sized]) ?_
  exact h

theorem via_sbAcked {A : Nat} {s0 : State} (hA : Sub 16392 A) {s : State} (h : Via A s0 s) (a1 : Option Nat) : Via A s0 (State.sbAcked s a1) := by
  unfold State.sbAcked
  refine via_modAux (hA.of rfl) _ (.inr fun _ => by unfold Aux.power; rfl) (.inl (hA.of rfl)) (.inr fun _ => rfl) (.inr fun _ => rfl) (fun _ h => by first | simpa [Aux.sized] using h | simp_all [Aux.sized]) ?_
  exact h

theorem via_sbGoOn {A : Nat} {s0 : State} (hA : Sub 2097147 A) {s : State} (h : Via A s0 s) : Via A s0 (State.sbGoOn s) := by
  unfold State.sbGoOn
  extract_lets x0
  have hx0 : Via A s0 x0 := by
    unfold x0
    refine via_modAux (hA.of rfl) _ (.inr fun _ => by unfold Aux.power; rfl) (.inl (hA.of rfl)) (.inr fun _ => rfl) (.inr fun _ => rfl) (fun _ h => by first | simpa [Aux.sized] using h | simp_all [Aux.sized]) ?_
    exact h
  try clear_value x0
  split
  · exact h
  · split
    · refine via_ite ?_ ?_
      · exact h
      · split
        · exact (via_writeReply (hA.of rfl) hx0 _ _ _)
        · exact (via_sbWriteGo (hA.of rfl) hx0 _ _ _ _)
    · refine via_ite ?_ ?_
      · exact h
      · exact (via_writeReply (hA.of rfl) hx0 _ _ _)

theorem via_runAcc {A : Nat} {s0 : State} (hA : Sub 2097147 A) {s : State} (h : Via A s0 s) (a1 : BusAcc) : Via A s0 (State.runAcc s a1) := by
  unfold State.runAcc
  split
  · exact (via_busRead (hA.of rfl) h _ _)
  · extract_lets x0
    have hx0 : Via A s0 x0.1 := by
      exact (via_busWrite (hA.of rfl) h _ _ _ _)
    try clear_value x0
    refine via_ite ?_ ?_
    · split
      · exact (via_sbStamped (hA.of rfl) hx0 _)
      · exact (via_sbStamped (hA.of rfl) hx0 _)
    · exact hx0
  · refine via_ite ?_ ?_
    · exact (via_waitAcc (hA.of rfl) h _)
    · exact (via_sbReadGo (hA.of rfl) h _ _ _ _ _)
  · refine via_ite ?_ ?_
    · exact (via_waitAcc (hA.of rfl) h _)
    · exact (via_sbWriteGo (hA.of rfl) h _ _ _ _)

theorem via_settle {A : Nat} {s0 : State} (hA : Sub 2097147 A) {s : State} (h : Via A s0 s) : Via A s0 (State.settle s) := by
  unfold State.settle
  extract_lets x0 x1
  have hx0 : Via A s0 x0 := by
    exact (via_sbGoOn (hA.of rfl) h)
  try clear_value x0
  try clear_value x1
  refine via_foldS ?_ ?_ _
  · intro a2 x3 hx3
    exact (via_runAcc (hA.of rfl) hx3 _)
  · refine via_modAux (hA.of rfl) _ (.inr fun _ => by unfold Aux.power; rfl) (.inl (hA.of rfl)) (.inr fun _ => rfl) (.inr fun _ => rfl) (fun _ h => by first | simpa [Aux.sized] using h | simp_all [Aux.sized]) ?_
    exact hx0

theorem via_ping_ {A : Nat} {s0 : State} (hA : Sub 81289 A) {s : State} (h : Via A s0 s) (a1 : Nat) : Via A s0 (State.ping_ s a1) := by
  unfold State.ping_
  refine via_sbTo (hA.of rfl) ?_ ?_ _
  · intro x0 hx0
    exact (via_sbReply (hA.of rfl) hx0 _ _ _)
  · exact h

theorem via_sbReadCmd {A : Nat} {s0 : State} (hA : Sub 2097147 A) {s : State} (h : Via A s0 s) (a1 : Nat) (a2 : Nat) (a3 : Nat) : Via A s0 (State.sbReadCmd s a1 a2 a3) := by
  unfold State.sbReadCmd
  refine via_sbTo (hA.of rfl) ?_ ?_ _
  · intro x0 hx0
    refine via_ite ?_ ?_
    · exact (via_sbReply (hA.of rfl) hx0 _ _ _)
    · exact (via_runAcc (hA.of rfl) hx0 _)
  · exact h

theorem via_sbWriteCmd {A : Nat} {s0 : State} (hA : Sub 2097147 A) {s : State} (h : Via A s0 s) (a1 : Nat) (a2 : Nat) (a3 : List Sys2Proof.Word) : Via A s0 (State.sbWriteCmd s a1 a2 a3) := by
  unfold State.sbWriteCmd
  refine via_sbTo (hA.of rfl) ?_ ?_ _
  · intro x0 hx0
    refine via_ite ?_ ?_
    · exact (via_sbReply (hA.of rfl) hx0 _ _ _)
    · exact (via_runAcc (hA.of rfl) hx0 _)
  · exact h

theorem via_sbLogCmd {A : Nat} {s0 : State} (hA : Sub 81289 A) {s : State} (h : Via A s0 s) (a1 : Nat) (a2 : Nat) (a3 : Nat) : Via A s0 (State.sbLogCmd s a1 a2 a3) := by
  unfold State.sbLogCmd
  refine via_sbTo (hA.of rfl) ?_ ?_ _
  · intro x0 hx0
    extract_lets x1 x2 x3 x4 x5 x6
    try clear_value x1
    try clear_value x2
    try clear_value x3
    try clear_value x4
    try clear_value x5
    have hx6 : Via A s0 x6.2 := by
      unfold x6
      refine via_ite_snd ?_ ?_
      · exact (via_freshWord (hA.of rfl) hx0)
      · refine via_mk_snd ?_
        exact hx0
    try clear_value x6
    refine via_ite ?_ ?_
    · exact (via_sbReply (hA.of rfl) hx0 _ _ _)
    · exact (via_sbReply (hA.of rfl) hx6 _ _ _)
  · exact h

theorem via_sbPollCmd {A : Nat} {s0 : State} (hA : Sub 81289 A) {s : State} (h : Via A s0 s) (a1 : Nat) (a2 : Nat) (a3 : Nat) : Via A s0 (State.sbPollCmd s a1 a2 a3) := by
  unfold State.sbPollCmd
  refine via_sbTo (hA.of rfl) ?_ ?_ _
  · intro x0 hx0
    extract_lets x1 x2 x3 x4
    try clear_value x1
    have hx2 : Via A s0 x2 := by
      unfold x2
      refine via_ite ?_ ?_
      · refine via_evqCount (hA.of rfl) ?_
        refine via_modAux (hA.of rfl) _ (.inr fun _ => by unfold Aux.power; rfl) (.inr fun _ => by unfold Aux.waits; rfl) (.inr fun _ => rfl) (.inr fun _ => rfl) (fun _ h => by first | simpa [Aux.sized] using h | simp_all [Aux.sized]) ?_
        exact hx0
      · exact hx0
    try clear_value x2
    try clear_value x3
    try clear_value x4
    refine via_ite ?_ ?_
    · exact (via_sbReply (hA.of rfl) hx0 _ _ _)
    · exact (via_sbReply (hA.of rfl) hx2 _ _ _)
  · exact h

theorem via_sbAssignCmd {A : Nat} {s0 : State} (hA : Sub 81289 A) {s : State} (h : Via A s0 s) (a1 : Nat) (a2 : Nat) : Via A s0 (State.sbAssignCmd s a1 a2) := by
  unfold State.sbAssignCmd
  refine via_sbTo (hA.of rfl) ?_ ?_ _
  · intro x0 hx0
    extract_lets x1 x2
    have hx1 : Via A s0 x1 := by
      exact (via_sbReply (hA.of rfl) hx0 _ _ _)
    try clear_value x1
    have hx2 : Via A s0 x2 := by
      exact (via_setPad (hA.of rfl) (via_put (hA.of rfl) hx1 _ _) _ _)
    try clear_value x2
    refine via_ite ?_ ?_
    · exact (via_sbReply (hA.of rfl) hx0 _ _ _)
    · refine via_ite ?_ ?_
      · exact (via_sbReply (hA.of rfl) hx0 _ _ _)
      · exact (via_raise (hA.of rfl) hx2 _)
  · exact h

theorem via_sbUnassignCmd {A : Nat} {s0 : State} (hA : Sub 81289 A) {s : State} (h : Via A s0 s) (a1 : Nat) : Via A s0 (State.sbUnassignCmd s a1) := by
  unfold State.sbUnassignCmd
  refine via_sbCast (hA.of rfl) ?_ ?_ _
  · intro x0 hx0
    exact (via_raise (hA.of rfl) (via_setPad (hA.of rfl) (via_put (hA.of rfl) hx0 _ _) _ _) _)
  · exact h

theorem via_sbSetRateCmd {A : Nat} {s0 : State} (hA : Sub 15497 A) {s : State} (h : Via A s0 s) (a1 : Nat) (a2 : Nat) : Via A s0 (State.sbSetRateCmd s a1 a2) := by
  unfold State.sbSetRateCmd
  refine via_sbCast (hA.of rfl) ?_ ?_ _
  · intro x0 hx0
    refine via_modAux (hA.of rfl) _ (.inr fun _ => by unfold Aux.power; rfl) (.inr fun _ => by unfold Aux.waits; rfl) (.inr fun _ => rfl) (.inr fun _ => rfl) (fun _ h => by first | simpa [Aux.sized] using h | simp_all [Aux.sized]) ?_
    exact hx0
  · exact h

theorem via_sbRateSwitch {A : Nat} {s0 : State} (hA : Sub 9 A) {s : State} (h : Via A s0 s) : Via A s0 (State.sbRateSwitch s) := by
  unfold State.sbRateSwitch
  split
  · refine via_ite ?_ ?_
    · exact h
    · refine via_modAux (hA.of rfl) _ (.inr fun _ => by unfold Aux.power; rfl) (.inr fun _ => by unfold Aux.waits; rfl) (.inr fun _ => rfl) (.inr fun _ => rfl) (fun _ h => by first | simpa [Aux.sized] using h | simp_all [Aux.sized]) ?_
      exact (via_put (hA.of rfl) h _ _)
  · exact h

theorem via_sbUnusableCmd {A : Nat} {s0 : State} (hA : Sub 81289 A) {s : State} (h : Via A s0 s) (a1 : Nat) (a2 : Nat) (a3 : List Sys2Proof.Byte) : Via A s0 (State.sbUnusableCmd s a1 a2 a3) := by
  unfold State.sbUnusableCmd
  split
  · refine via_sbTo (hA.of rfl) ?_ ?_ _
    · intro x0 hx0
      exact (via_sbReply (hA.of rfl) hx0 _ _ _)
    · exact h
  · exact h

theorem via_sbEpochCmd {A : Nat} {s0 : State} (hA : Sub 15497 A) {s : State} (h : Via A s0 s) (a1 : Nat) : Via A s0 (State.sbEpochCmd s a1) := by
  unfold State.sbEpochCmd
  refine via_sbCast (hA.of rfl) ?_ ?_ _
  · intro x0 hx0
    extract_lets x1
    have hx1 : Via A s0 x1 := by
      exact (via_put64 (hA.of rfl) hx0 _ _)
    try clear_value x1
    refine via_ite ?_ ?_
    · exact hx0
    · refine via_ite ?_ ?_
      · refine via_ite ?_ ?_
        · refine via_modAux (hA.of rfl) _ (.inr fun _ => by unfold Aux.power; rfl) (.inr fun _ => by unfold Aux.waits; rfl) (.inr fun _ => rfl) (.inr fun _ => rfl) (fun _ h => by first | simpa [Aux.sized] using h | simp_all [Aux.sized]) ?_
          exact (via_put (hA.of rfl) hx1 _ _)
        · refine via_raise (hA.of rfl) ?_ _
          refine via_modAux (hA.of rfl) _ (.inr fun _ => by unfold Aux.power; rfl) (.inr fun _ => by unfold Aux.waits; rfl) (.inr fun _ => rfl) (.inr fun _ => rfl) (fun _ h => by first | simpa [Aux.sized] using h | simp_all [Aux.sized]) ?_
          exact (via_put (hA.of rfl) hx1 _ _)
      · refine via_modAux (hA.of rfl) _ (.inr fun _ => by unfold Aux.power; rfl) (.inr fun _ => by unfold Aux.waits; rfl) (.inr fun _ => rfl) (.inr fun _ => rfl) (fun _ h => by first | simpa [Aux.sized] using h | simp_all [Aux.sized]) ?_
        exact (via_put (hA.of rfl) hx1 _ _)
  · exact h

theorem via_epochTaken {A : Nat} {s0 : State} (hA : Sub 7305 A) {s : State} (h : Via A s0 s) (a1 : Nat) (a2 : Int) : Via A s0 (State.epochTaken s a1 a2) := by
  unfold State.epochTaken
  extract_lets x0 x1
  have hx0 : Via A s0 x0 := by
    exact (via_put64 (hA.of rfl) (via_putInt64 (hA.of rfl) h _ _) _ _)
  try clear_value x0
  have hx1 : Via A s0 x1 := by
    exact (via_satAdd (hA.of rfl) (via_put (hA.of rfl) (via_put (hA.of rfl) hx0 _ _) _ _) _ _)
  try clear_value x1
  refine via_raise (hA.of rfl) ?_ _
  refine via_modAux (hA.of rfl) _ (.inr fun _ => by unfold Aux.power; rfl) (.inr fun _ => by unfold Aux.waits; rfl) (.inr fun _ => rfl) (.inr fun _ => rfl) (fun _ h => by first | simpa [Aux.sized] using h | simp_all [Aux.sized]) ?_
  exact hx1

theorem via_epochPulse {A : Nat} {s0 : State} (hA : Sub 7309 A) {s : State} (h : Via A s0 s) : Via A s0 (State.epochPulse s) := by
  unfold State.epochPulse
  split
  · extract_lets x0 x1
    have hx0 : Via A s0 x0 := by
      exact (via_atTime (hA.of rfl) h _)
    try clear_value x0
    have hx1 : Via A s0 x1 := by
      unfold x1
      refine via_ite ?_ ?_
      · exact (via_emit (hA.of rfl) hx0 _)
      · exact hx0
    try clear_value x1
    exact (via_epochTaken (hA.of rfl) hx1 _ _)
  · exact h

theorem via_syncEdge {A : Nat} {s0 : State} (hA : Sub 7309 A) {s : State} (h : Via A s0 s) (a1 : Nat) : Via A s0 (State.syncEdge s a1) := by
  unfold State.syncEdge
  extract_lets x0 x1
  have hx0 : Via A s0 x0 := by
    exact (via_atTime (hA.of rfl) h _)
  try clear_value x0
  have hx1 : Via A s0 x1 := by
    unfold x1
    refine via_ite ?_ ?_
    · exact (via_emit (hA.of rfl) hx0 _)
    · exact hx0
  try clear_value x1
  split
  · refine via_ite ?_ ?_
    · exact (via_epochTaken (hA.of rfl) hx1 _ _)
    · exact hx1
  · exact hx1

theorem via_armExpiry {A : Nat} {s0 : State} (hA : Sub 7305 A) {s : State} (h : Via A s0 s) : Via A s0 (State.armExpiry s) := by
  unfold State.armExpiry
  split
  · refine via_ite ?_ ?_
    · exact h
    · refine via_raise (hA.of rfl) ?_ _
      refine via_modAux (hA.of rfl) _ (.inr fun _ => by unfold Aux.power; rfl) (.inr fun _ => by unfold Aux.waits; rfl) (.inr fun _ => rfl) (.inr fun _ => rfl) (fun _ h => by first | simpa [Aux.sized] using h | simp_all [Aux.sized]) ?_
      exact (via_put (hA.of rfl) h _ _)
  · exact h

theorem via_chainIn {A : Nat} {s0 : State} (hA : Sub 1 A) {s : State} (h : Via A s0 s) (a1 : Bool) : Via A s0 (State.chainIn s a1) := by
  unfold State.chainIn
  refine via_ite ?_ ?_
  · exact (via_put (hA.of rfl) h _ _)
  · exact h

theorem via_stampedWrite {A : Nat} {s0 : State} (hA : Sub 2097147 A) {s : State} (h : Via A s0 s) (a1 : Sys2Proof.Master) (a2 : Nat) (a3 : Sys2Proof.Word) : Via A s0 (State.stampedWrite s a1 a2 a3) := by
  unfold State.stampedWrite
  exact (via_runAcc (hA.of rfl) h _)

theorem via_actionStamp {A : Nat} {s0 : State} (hA : Sub 2097151 A) {s : State} (h : Via A s0 s) : Via A s0 (State.actionStamp s) := by
  unfold State.actionStamp
  split
  · exact h
  · extract_lets x0 x1
    have hx0 : Via A s0 x0 := by
      exact (via_modPlk (hA.of rfl) (via_atTime (hA.of rfl) h _) _)
    try clear_value x0
    have hx1 : Via A s0 x1 := by
      unfold x1
      split
      · refine via_foldS ?_ ?_ _
        · intro a2 x3 hx3
          exact (via_stampedWrite (hA.of rfl) hx3 _ _ _)
        · exact hx0
      · exact (via_handoverAt (hA.of rfl) hx0)
      · exact (via_jobStart (hA.of rfl) hx0 _ _)
      · exact (via_phaseQueue (hA.of rfl) hx0 _ _ _)
    try clear_value x1
    exact (via_settle (hA.of rfl) (via_fabricEnd (hA.of rfl) hx1 _))

/-! ### Tap -/

theorem via_tapLoad {A : Nat} {s0 : State} (hA : Sub 8 A) {s : State} (h : Via A s0 s) (a1 : Nat) : Via A s0 (State.tapLoad s a1) := by
  unfold State.tapLoad
  refine via_modAux (hA.of rfl) _ (.inr fun _ => by unfold Aux.power; rfl) (.inr fun _ => by unfold Aux.waits; rfl) (.inr fun _ => rfl) (.inr fun _ => rfl) (fun _ h => by first | simpa [Aux.sized] using h | simp_all [Aux.sized]) ?_
  exact h

theorem via_tapDrive {A : Nat} {s0 : State} (hA : Sub 4104 A) {s : State} (h : Via A s0 s) (a1 : Nat) (a2 : Option (List Bool)) : Via A s0 (State.tapDrive s a1 a2) := by
  unfold State.tapDrive
  extract_lets x0
  try clear_value x0
  refine via_ite ?_ ?_
  · exact h
  · refine via_emit (hA.of rfl) ?_ _
    refine via_modAux (hA.of rfl) _ (.inr fun _ => by unfold Aux.power; rfl) (.inr fun _ => by unfold Aux.waits; rfl) (.inr fun _ => rfl) (.inr fun _ => rfl) (fun _ h => by first | simpa [Aux.sized] using h | simp_all [Aux.sized]) ?_
    exact (via_tapLoad (hA.of rfl) h _)

theorem via_tapIdcode {A : Nat} {s0 : State} (hA : Sub 4104 A) {s : State} (h : Via A s0 s) : Via A s0 (State.tapIdcode s) := by
  unfold State.tapIdcode
  refine via_ite ?_ ?_
  · exact h
  · exact (via_emit (hA.of rfl) (via_tapLoad (hA.of rfl) h _) _)

theorem via_tapSample {A : Nat} {s0 : State} (hA : Sub 4104 A) {s : State} (h : Via A s0 s) (a1 : List Bool) (a2 : Option (List Bool)) : Via A s0 (State.tapSample s a1 a2) := by
  unfold State.tapSample
  refine via_ite ?_ ?_
  · exact h
  · refine via_emit (hA.of rfl) ?_ _
    refine via_modAux (hA.of rfl) _ (.inr fun _ => by unfold Aux.power; rfl) (.inr fun _ => by unfold Aux.waits; rfl) (.inr fun _ => rfl) (.inr fun _ => rfl) (fun _ h => by first | simpa [Aux.sized] using h | simp_all [Aux.sized]) ?_
    exact (via_tapLoad (hA.of rfl) h _)

theorem via_tapBypass {A : Nat} {s0 : State} (hA : Sub 8 A) {s : State} (h : Via A s0 s) (a1 : Nat) : Via A s0 (State.tapBypass s a1) := by
  unfold State.tapBypass
  refine via_ite ?_ ?_
  · exact h
  · exact (via_tapLoad (hA.of rfl) h _)

theorem via_tapDbgReset {A : Nat} {s0 : State} (hA : Sub 2072571 A) {s : State} (h : Via A s0 s) : Via A s0 (State.tapDbgReset s) := by
  unfold State.tapDbgReset
  refine via_ite ?_ ?_
  · exact h
  · exact (via_resetAll (hA.of rfl) (via_tapLoad (hA.of rfl) h _) _)

theorem via_tapRegAccess {A : Nat} {s0 : State} (hA : Sub 2097147 A) {s : State} (h : Via A s0 s) (a1 : Nat) (a2 : Option Sys2Proof.Word) : Via A s0 (State.tapRegAccess s a1 a2) := by
  unfold State.tapRegAccess
  extract_lets x0
  have hx0 : Via A s0 x0 := by
    exact (via_tapLoad (hA.of rfl) h _)
  try clear_value x0
  refine via_ite ?_ ?_
  · exact h
  · split
    · refine via_ite ?_ ?_
      · exact hx0
      · exact (via_settle (hA.of rfl) (via_fabricAccess (hA.of rfl) (via_busWrite (hA.of rfl) hx0 _ _ _ _) _))
    · refine via_ite ?_ ?_
      · exact (via_emit (hA.of rfl) hx0 _)
      · exact (via_settle (hA.of rfl) (via_fabricAccess (hA.of rfl) (via_busRead (hA.of rfl) hx0 _ _) _))

theorem via_tapReset {A : Nat} {s0 : State} (hA : Sub 65801 A) {s : State} (h : Via A s0 s) : Via A s0 (State.tapReset s) := by
  unfold State.tapReset
  extract_lets x0 x1
  try clear_value x0
  have hx1 : Via A s0 x1 := by
    unfold x1
    refine via_modAux (hA.of rfl) _ (.inr fun _ => by unfold Aux.power; rfl) (.inr fun _ => by unfold Aux.waits; rfl) (.inr fun _ => rfl) (.inr fun _ => rfl) (fun _ h => by first | simpa [Aux.sized] using h | simp_all [Aux.sized]) ?_
    exact h
  try clear_value x1
  refine via_ite ?_ ?_
  · refine via_put (hA.of rfl) ?_ _ _
    refine via_foldS ?_ ?_ _
    · intro a2 x3 hx3
      exact (via_setPad (hA.of rfl) hx3 _ _)
    · exact hx1
  · exact hx1

theorem via_wdtWarn {A : Nat} {s0 : State} (hA : Sub 7305 A) {s : State} (h : Via A s0 s) : Via A s0 (State.wdtWarn s) := by
  unfold State.wdtWarn
  extract_lets x0
  have hx0 : Via A s0 x0 := by
    exact (via_raise (hA.of rfl) (via_put (hA.of rfl) h _ _) _)
  try clear_value x0
  refine via_ite ?_ ?_
  · refine via_ite ?_ ?_
    · exact (via_sendMsix (hA.of rfl) hx0 _)
    · exact hx0
  · exact h

theorem via_wdtExpired {A : Nat} {s0 : State} (hA : Sub 2097147 A) {s : State} (h : Via A s0 s) : Via A s0 (State.wdtExpired s) := by
  unfold State.wdtExpired
  extract_lets x0
  have hx0 : Via A s0 x0 := by
    exact (via_raise (hA.of rfl) (via_put (hA.of rfl) (via_put (hA.of rfl) h _ _) _ _) _)
  try clear_value x0
  refine via_ite ?_ ?_
  · exact (via_settle (hA.of rfl) (via_resetBy (hA.of rfl) hx0 _ _))
  · exact h

end Sys2Proof.Machine
end

