-- ==== Sys2Proof/Laws/Access.lean ====
section
/-!
SUPPORT. Sys2Proof/Laws/Access.lean: what an access of a master comes to when nothing holds it up.
-/
namespace Sys2Proof.Machine

open Sys2Proof

theorem State.quiet_iff (s : State) : s.quiet ↔ s.aux.waits = ([], none) := by
  unfold State.quiet Aux.waits
  simp

theorem State.quiet.of_via {A : Nat} {s t : State} (h : s.quiet) (v : Via A s t) (hA : A.testBit 14 = false) : t.quiet := by
  rw [State.quiet_iff] at *
  rw [v.waits hA, h]

theorem State.quiet.of_tells {s t : State} (h : s.quiet) (v : Tells s t) : t.quiet := by
  unfold State.quiet at *
  have h1 : t.aux.heldAcc = s.aux.heldAcc := by
    show t.aux.core.heldAcc = s.aux.core.heldAcc
    rw [v.aux]
  have h2 : t.aux.sbWait = s.aux.sbWait := by
    show t.aux.core.sbWait = s.aux.core.sbWait
    rw [v.aux]
  rw [h1, h2]
  exact h

/-- Where nothing waits, nothing is settled. -/
theorem State.settle_quiet {s : State} (h : s.quiet) : s.settle = s := by
  obtain ⟨h1, h2⟩ := h
  unfold State.settle State.sbGoOn
  rw [h2]
  dsimp only
  rw [h1]
  have e : ({ s.aux with heldAcc := [] } : Aux) = s.aux := by rw [← h1]
  show { s with aux := { s.aux with heldAcc := [] } } = s
  rw [e]

/-- Without a batch in hand an access is only made. -/
theorem State.fabricAccess_none {s : State} (h : s.pix.fabric.holders = []) (r : Nat) : s.fabricAccess r = s := by
  unfold State.fabricAccess State.arb
  simp [h]

theorem State.accessed_quiet {s : State} (h : s.quiet) (hf : s.pix.fabric.holders = []) (m : Master) : s.accessed m = s := by
  unfold State.accessed
  rw [State.fabricAccess_none hf, State.settle_quiet h]

/-- A write that goes straight to a register does there what the register's rules say. -/
theorem State.busWrite_direct {s : State} {m : Master} {a : Nat} {w : Word} (h : s.Direct m a w) (hs : (s.storeReg m a w).2 = none) :
    s.busWrite m a w false = ((s.storeReg m a w).1, .done) := by
  unfold State.busWrite
  rw [h.page]
  have hu : s.placeUp (.page (a / 0x1000)) = true := h.up
  have hd : (sideband m && s.sbDenied (.page (a / 0x1000)) a) = false := by
    cases hm : sideband m
    · rfl
    · rw [(h.allowed hm).1]; rfl
  have hl : (s.paired && s.lockstepWrite (.page (a / 0x1000)) a w) = false := by
    rcases h.alone with e | e
    · rw [e]; rfl
    · rw [e]; cases s.paired <;> rfl
  have hw : (sideband m && wdtReg a) = false := by
    cases hm : sideband m
    · rfl
    · rw [(h.allowed hm).2]; rfl
  have hh := h.held
  simp [hu, hd, hl, hh, State.land, hw, hs]

theorem State.storeReg_quiet {s : State} (h : s.quiet) (m : Master) (a : Nat) (w : Word) : (s.storeReg m a w).1.quiet :=
  h.of_via (via_storeReg (Sub.refl _) (Via.refl _ _) m a w) (by decide)

/-- A write that goes straight to a register, and no batch of the fabric afterwards: the command is the write. -/
theorem State.cmdWrite_direct {s t : State} {m : Master} {a : Nat} {w : Word} (h : s.Direct m a w) (hs : s.storeReg m a w = (t, none)) (hf : t.pix.fabric.holders = []) :
    s.cmdWrite m a w = t := by
  unfold State.cmdWrite
  rw [if_pos h.reaches, State.busWrite_direct h (by rw [hs])]
  have hq := State.storeReg_quiet h.quiet m a w
  rw [hs] at hq ⊢
  exact State.accessed_quiet hq hf m

/-- The same where the write may have left a batch: nothing else than the fabric's count differs. -/
theorem State.cmdWrite_direct' {s t : State} {m : Master} {a : Nat} {w : Word} (h : s.Direct m a w) (hs : s.storeReg m a w = (t, none)) :
    s.cmdWrite m a w = t.fabricAccess (fabricReq m) := by
  unfold State.cmdWrite
  rw [if_pos h.reaches, State.busWrite_direct h (by rw [hs])]
  have hq := State.storeReg_quiet h.quiet m a w
  rw [hs] at hq ⊢
  unfold State.accessed
  exact State.settle_quiet (hq.of_via (via_fabricAccess (Sub.refl _) (Via.refl _ _) _) (by decide))

end Sys2Proof.Machine
end

