-- ==== Sys2Proof/Laws/Reset.lean ====
section
/-!
SUPPORT. Sys2Proof/Laws/Reset.lean: the islands, the release sequence and the device state after the operations of the reset controller.
-/
namespace Sys2Proof.Machine

open Sys2Proof

/-! ### Lists by index -/

theorem nth_updNth {α : Type} [Inhabited α] (l : List α) (i j : Nat) (f : α → α) : nth (updNth l i f) j = if i = j ∧ j < l.length then f (nth l j) else nth l j := by
  unfold nth updNth
  rw [List.getD_eq_getElem?_getD, List.getElem?_modify, List.getD_eq_getElem?_getD]
  by_cases hj : j < l.length
  · rw [List.getElem?_eq_getElem hj]
    by_cases hi : i = j
    · simp [hi, hj]
    · simp [hi]
  · rw [List.getElem?_eq_none (by omega)]
    simp [hj]

/-! ### The reset controller's part of `aux` -/

section
variable {A : Nat} {s t : State}

theorem Via.phases (v : Via A s t) (h : A.testBit 4 = false) : t.aux.phases = s.aux.phases := congrArg (fun p => p.2.2.2) (v.power h)

theorem Via.phase (v : Via A s t) (h : A.testBit 4 = false) (i : Nat) : t.phase i = s.phase i := by
  unfold State.phase
  rw [v.phases h]

theorem Via.up (v : Via A s t) (h : A.testBit 4 = false) (i : Nat) : t.up i = s.up i := by
  unfold State.up
  rw [v.phase h]

theorem Via.seq (v : Via A s t) (h : A.testBit 4 = false) : t.aux.seq = s.aux.seq := congrArg (fun p => p.2.1) (v.power h)

theorem Via.todo (v : Via A s t) (h : A.testBit 4 = false) : t.aux.todo = s.aux.todo := congrArg (fun p => p.2.2.1) (v.power h)

theorem Via.vaux (v : Via A s t) (h : A.testBit 4 = false) : t.aux.vaux = s.aux.vaux := congrArg (fun p => p.1.1) (v.power h)

theorem Via.vin (v : Via A s t) (h : A.testBit 4 = false) : t.aux.vin = s.aux.vin := congrArg (fun p => p.1.2.1) (v.power h)

theorem Via.resetN (v : Via A s t) (h : A.testBit 4 = false) : t.aux.resetN = s.aux.resetN := congrArg (fun p => p.1.2.2.2.1) (v.power h)

theorem Via.perstLow (v : Via A s t) (h : A.testBit 4 = false) : t.aux.perstLow = s.aux.perstLow := congrArg (fun p => p.1.2.2.2.2.1) (v.power h)

end

/-- The parts of the reset controller's state one by one. -/
theorem power_parts {a : Aux} {x : Bool × Bool × Bool × Bool × Bool × Bool} {y : SeqStep} {z : List Nat} {w : List IslPhase} (h : a.power = (x, y, z, w)) :
    a.power.1 = x ∧ a.seq = y ∧ a.todo = z ∧ a.phases = w := by
  have h' := h
  unfold Aux.power at h'
  simp only [Prod.mk.injEq] at h'
  exact ⟨by rw [h], h'.2.1, h'.2.2.1, h'.2.2.2⟩

/-! ### Clearing islands -/

theorem islandDown_power (s : State) (i : Nat) : (s.islandDown i).aux.power = (s.aux.power.1, s.aux.seq, s.aux.todo, updNth s.aux.phases i fun _ => .inReset) := rfl

theorem clearIsland_power (s : State) (i : Nat) :
    (s.clearIsland i).aux.power = (s.aux.power.1, s.aux.seq, s.aux.todo, updNth s.aux.phases i fun _ => .inReset) := by
  have h1 := via_unitsClear (Sub.refl _) (Via.refl _ s) i
  have h2 := via_partClear (Sub.refl _) (Via.refl _ ((s.unitsClear i).islandDown i)) i
  unfold State.clearIsland
  rw [h2.power (by decide), islandDown_power, h1.power (by decide), h1.seq (by decide), h1.todo (by decide), h1.phases (by decide)]

theorem nth_updNth_reset (l : List IslPhase) (i j : Nat) : nth (updNth l i fun _ => .inReset) j = if i = j then .inReset else nth l j := by
  rw [nth_updNth]
  by_cases hi : i = j
  · by_cases hj : j < l.length
    · simp [hi, hj]
    · simp only [hj, and_false, if_false, hi, if_true]
      unfold nth
      rw [List.getD_eq_getElem?_getD, List.getElem?_eq_none (by omega)]
      rfl
  · simp [hi]

/-- The part of `aux` that clearing keeps, and the phase of each island afterwards. -/
structure Cleared (s t : State) (p : Nat → Prop) : Prop where
  pins : t.aux.power.1 = s.aux.power.1
  seq : t.aux.seq = s.aux.seq
  todo : t.aux.todo = s.aux.todo
  down : ∀ i, p i → t.phase i = .inReset
  same : ∀ i, ¬ p i → t.phase i = s.phase i

theorem Cleared.of_via {A : Nat} {s t u : State} {p : Nat → Prop} (h : Cleared s t p) (v : Via A t u) (hA : A.testBit 4 = false) : Cleared s u p :=
  ⟨by rw [v.power hA, h.pins], by rw [v.seq hA, h.seq], by rw [v.todo hA, h.todo], fun i hi => by rw [v.phase hA, h.down i hi], fun i hi => by rw [v.phase hA, h.same i hi]⟩

theorem cleared_refl (s : State) : Cleared s s fun _ => False := ⟨rfl, rfl, rfl, fun _ h => h.elim, fun _ _ => rfl⟩

theorem cleared_clearIsland {s t : State} {p : Nat → Prop} (h : Cleared s t p) (i : Nat) : Cleared s (t.clearIsland i) fun j => p j ∨ j = i := by
  have e := clearIsland_power t i
  have ph : ∀ j, (t.clearIsland i).phase j = if i = j then .inReset else t.phase j := by
    intro j
    have : (t.clearIsland i).aux.phases = updNth t.aux.phases i fun _ => .inReset := congrArg (fun x => x.2.2.2) e
    unfold State.phase
    rw [this, nth_updNth_reset]
  refine ⟨by rw [e]; exact h.pins, (congrArg (fun x => x.2.1) e).trans h.seq, (congrArg (fun x => x.2.2.1) e).trans h.todo, ?_, ?_⟩
  · intro j hj
    rw [ph]
    split
    · rfl
    · next hn => exact h.down j (hj.resolve_right fun x => hn x.symm)
  · intro j hj
    rw [ph, if_neg fun x => hj (.inr x.symm)]
    exact h.same j fun x => hj (.inl x)

theorem cleared_list {s : State} (l : List Nat) {t : State} {p : Nat → Prop} (h : Cleared s t p) :
    Cleared s (foldS l (fun i s => s.clearIsland i) t) fun j => p j ∨ j ∈ l := by
  unfold foldS
  induction l generalizing t p with
  | nil => simpa using h
  | cons i l ih =>
    have := ih (cleared_clearIsland h i)
    simpa [or_assoc] using this

/-- Clearing islands: those of the list, from HSK to HOST, are in reset; the others stay. -/
theorem cleared_clearIslands (s : State) (l : List Nat) : Cleared s (s.clearIslands l) fun j => 1 ≤ j ∧ j ≤ 7 ∧ j ∈ l := by
  unfold State.clearIslands
  extract_lets s1 s2
  have h1 : Cleared s s1 fun _ => False := by
    unfold s1
    split
    · exact (cleared_refl s).of_via (via_pixGone (Sub.refl _) (Via.refl _ _) _) (by decide)
    · exact cleared_refl s
  have h2 : Cleared s s2 fun j => False ∨ j ∈ [7, 6, 5, 4, 3, 2, 1].filter fun i => l.contains i := cleared_list _ h1
  have h3 : Cleared s s2 fun j => 1 ≤ j ∧ j ≤ 7 ∧ j ∈ l := by
    have e : (fun j => False ∨ j ∈ [7, 6, 5, 4, 3, 2, 1].filter fun i => l.contains i) = fun j => 1 ≤ j ∧ j ≤ 7 ∧ j ∈ l := by
      funext j
      simp only [false_or, List.mem_filter, List.contains_iff_mem, List.mem_cons, List.not_mem_nil, or_false, eq_iff_iff]
      constructor
      · rintro ⟨h, hj⟩
        exact ⟨by omega, by omega, hj⟩
      · rintro ⟨h, h', hj⟩
        exact ⟨by omega, hj⟩
    rw [← e]
    exact h2
  clear_value s2
  split
  · refine h3.of_via (A := 65801) (via_foldS ?_ (Via.refl _ _) _) (by decide)
    intro a x hx
    exact via_setPad (Sub.refl _) hx _ _
  · exact h3

/-! ### The device state -/

theorem DevState.ofCode_code (d : DevState) : DevState.ofCode d.code = d := by cases d <;> rfl

theorem DevState.code_lt (d : DevState) : d.code < 16 := by cases d <;> decide

/-- Registers that mirror DEVSTATE, and those that its message can set. -/
def mirrorReg (a : Nat) : Bool := decide (a = R.PAR_STAT ∨ a = R.HIF_DEVSTATE_MIRROR ∨ (0x700 ≤ a ∧ a < 0x710))

theorem sendMsix_reg (s : State) (v a : Nat) (hv : v < 128) (h : mirrorReg a = false) : (s.sendMsix v).reg a = s.reg a := by
  unfold State.sendMsix
  split
  · rfl
  · split
    · rw [State.reg_put_other]
      intro e
      unfold mirrorReg at h
      have h' := of_decide_eq_false h
      have : (F.PBA v).addr = 0x700 + 4 * (v / 32) := rfl
      omega
    · rfl

theorem mirror_reg (s : State) (a : Nat) (h : mirrorReg a = false) : s.mirror.reg a = s.reg a := by
  have h' := of_decide_eq_false h
  unfold State.mirror
  extract_lets t
  have ht : t.reg a = s.reg a := by
    unfold t
    split
    · rw [State.reg_put_other _ _ _ _ (by show a ≠ R.PAR_STAT; omega), State.reg_put_other _ _ _ _ (by show a ≠ R.PAR_STAT; omega)]
    · rfl
  clear_value t
  split
  · split
    · exact ht
    · rw [sendMsix_reg _ _ _ (by omega) h, State.reg_setReg_other _ _ _ _ (by omega), ht]
  · exact ht

/-- Registers of the output groups. -/
def padReg (a : Nat) : Bool := decide (a = R.DEV_OUTGRP_EN ∨ a = R.DEV_OUTGRP_ACT ∨ a = R.DEV_GPIO_OE)

theorem setPad_reg (s : State) (p a : Nat) (x : PadPhase) (h : padReg a = false) : (s.setPad p x).reg a = s.reg a := by
  have h' := of_decide_eq_false h
  unfold State.setPad
  extract_lets s1 s2
  have h1 : s2.reg a = s.reg a := by
    unfold s2
    split <;> rfl
  clear_value s2
  split
  · unfold State.setBit
    rw [State.reg_put_other _ _ _ _ (by show a ≠ R.DEV_OUTGRP_ACT; omega), h1]
  · exact h1

theorem foldS_reg {α : Type} (l : List α) (f : α → State → State) (a : Nat) (hf : ∀ x t, (f x t).reg a = t.reg a) : ∀ s : State, (foldS l f s).reg a = s.reg a := by
  unfold foldS
  induction l with
  | nil => intro s; rfl
  | cons x l ih =>
    intro s
    rw [List.foldl_cons, ih, hf]

theorem padUpdate_reg (s : State) (p a : Nat) (h : padReg a = false) : (s.padUpdate p).reg a = s.reg a := by
  unfold State.padUpdate
  split
  · split
    · split
      · rfl
      · exact setPad_reg _ _ _ _ h
    · rfl
  · split
    · rfl
    · split
      · rfl
      · exact setPad_reg _ _ _ _ h

theorem padsUpdate_reg (s : State) (a : Nat) (h : padReg a = false) : s.padsUpdate.reg a = s.reg a :=
  foldS_reg _ _ _ (fun _ _ => padUpdate_reg _ _ _ h) _

theorem forceRest_reg (s : State) (a : Nat) (h : padReg a = false) : s.forceRest.reg a = s.reg a := by
  have h' := of_decide_eq_false h
  unfold State.forceRest
  rw [foldS_reg _ _ _ (fun _ _ => setPad_reg _ _ _ _ h), State.reg_setReg_other _ _ _ _ (by omega), State.reg_setReg_other _ _ _ _ (by omega)]

theorem putDev_dev (s : State) (d : DevState) : (s.putDev d).dev = d := by
  unfold State.putDev State.dev State.get
  rw [mirror_reg _ _ (by decide)]
  have := s.get_put_fits F.DEV_DEVSTATE_STATE d.code (by decide) d.code_lt
  unfold State.get at this
  rw [this, DevState.ofCode_code]

theorem dev_of_reg {s t : State} (h : t.reg R.DEV_DEVSTATE = s.reg R.DEV_DEVSTATE) : t.dev = s.dev := by
  unfold State.dev State.get
  show DevState.ofCode (getBits _ _ (t.reg R.DEV_DEVSTATE)) = DevState.ofCode (getBits _ _ (s.reg R.DEV_DEVSTATE))
  rw [h]

theorem role_of_reg {s t : State} (h : t.reg R.DEV_DEVSTATE = s.reg R.DEV_DEVSTATE) : t.role = s.role := by
  unfold State.role State.get
  show Role.ofCode (getBits _ _ (t.reg R.DEV_DEVSTATE)) = Role.ofCode (getBits _ _ (s.reg R.DEV_DEVSTATE))
  rw [h]

/-- After entering a device state the device is in it. -/
theorem enterDev_dev (s : State) (d : DevState) : (s.enterDev d).dev = d := by
  unfold State.enterDev
  extract_lets t
  have ht : t.dev = d := putDev_dev s d
  clear_value t
  split
  · rw [dev_of_reg (padsUpdate_reg t _ (by decide)), ht]
  · rw [dev_of_reg (forceRest_reg t _ (by decide)), ht]

/-- Registers that entering a device state can write. -/
theorem enterDev_reg (s : State) (d : DevState) (a : Nat) (h1 : mirrorReg a = false) (h2 : padReg a = false) (h3 : a ≠ R.DEV_DEVSTATE) :
    (s.enterDev d).reg a = s.reg a := by
  unfold State.enterDev State.putDev
  extract_lets t
  have ht : t.reg a = s.reg a := by
    unfold t
    rw [mirror_reg _ _ h1, State.reg_put_other _ _ _ _ (by exact h3)]
  clear_value t
  split
  · rw [padsUpdate_reg _ _ h2, ht]
  · rw [forceRest_reg _ _ h2, ht]

/-! ### The trim load and resets -/

theorem startLoad_dev (s : State) : s.startLoad.dev = .trimload := by
  unfold State.startLoad
  exact enterDev_dev _ _

theorem startLoad_power (s : State) : s.startLoad.aux.power = (s.aux.power.1, .trim, s.aux.todo, s.aux.phases) := by
  unfold State.startLoad
  extract_lets s1 s2 s3
  have h1 : Via 1 s s1 := by
    unfold s1
    split
    · exact via_put (Sub.refl _) (Via.refl _ _) _ _
    · exact Via.refl _ _
  have h3 : Via 1 s2 s3 := via_put (Sub.refl _) (via_put (Sub.refl _) (Via.refl _ _) _ _) _ _
  have h4 := via_enterDev (Sub.refl _) (Via.refl _ s3) .trimload
  have h2 : s2.aux.power = (s1.aux.power.1, SeqStep.trim, s1.aux.todo, s1.aux.phases) := rfl
  rw [h4.power (by decide), h3.power (by decide), h2, h1.power (by decide), h1.todo (by decide), h1.phases (by decide)]

theorem startLoad_phase (s : State) (i : Nat) : s.startLoad.phase i = s.phase i := by
  have h := startLoad_power s
  simp only [Aux.power, Prod.mk.injEq] at h
  unfold State.phase
  rw [h.2.2.2]

theorem startLoad_seq (s : State) : s.startLoad.aux.seq = .trim := by
  have h := startLoad_power s
  simp only [Aux.power, Prod.mk.injEq] at h
  exact h.2.1

theorem startLoad_todo (s : State) : s.startLoad.aux.todo = s.aux.todo := by
  have h := startLoad_power s
  simp only [Aux.power, Prod.mk.injEq] at h
  exact h.2.2.1

theorem startLoad_pins (s : State) : s.startLoad.aux.power.1 = s.aux.power.1 := congrArg (fun x => x.1) (startLoad_power s)

theorem addTodo_todo (s : State) (l : List Nat) : (s.addTodo l).aux.todo = [1, 2, 3, 4, 5, 6, 7].filter fun i => s.aux.todo.contains i || l.contains i := rfl

theorem resetCause_tells (s : State) (src : Nat) (disc : Bool) (a : Nat) (h : toldReg a = false) (ha : a ≠ R.RSC_RST_CAUSE) : (s.resetCause src disc).reg a = s.reg a := by
  unfold State.resetCause
  extract_lets old t
  have ht : t.reg a = s.reg a := by
    unfold t State.satAdd
    rw [State.reg_put_other _ _ _ _ (by exact ha), State.reg_put_other _ _ _ _ (by exact ha)]
  clear_value t
  rw [(tell_logRec (Tells.refl t) _ _ _ _).reg a h, ht]

/-- A record enters the retained log as its newest. -/
theorem logRec_log (s : State) (code cls extra : Nat) (d : List Byte) :
    ∃ r : Rec, r.code = code ∧ r.time = s.devtime ∧ r.detail = d ∧ (s.logRec code cls extra d).aux.log = (s.aux.log ++ [r]).drop (s.aux.log.length + 1 - 512) := by
  unfold State.logRec
  extract_lets r t
  refine ⟨r, rfl, rfl, rfl, ?_⟩
  have h := via_putRecord (Sub.refl _) (via_wrapAdd (Sub.refl _ |>.of rfl) (Via.refl _ t) F.SBP_LOG_SEQ 1) 61 r.bytes
  rw [h.log (by decide)]
  unfold t
  rw [State.modAux_aux]

theorem getLast?_log (l : List Rec) (r : Rec) : ((l ++ [r]).drop (l.length + 1 - 512)).getLast? = some r := by
  have h : l.length + 1 - 512 ≤ l.length := by omega
  rw [List.drop_append_of_le_length h]
  simp

/-! ### Lengths, DRAM and the log -/

theorem phases_of_power {s t : State} (h : t.aux.power = s.aux.power) : t.aux.phases = s.aux.phases := congrArg (fun x => x.2.2.2) h

theorem clearIsland_length (s : State) (i : Nat) : (s.clearIsland i).aux.phases.length = s.aux.phases.length := by
  have e : (s.clearIsland i).aux.phases = _ := congrArg (fun x => x.2.2.2) (clearIsland_power s i)
  rw [e]
  simp

theorem foldClear_length (l : List Nat) (s : State) : (foldS l (fun i s => s.clearIsland i) s).aux.phases.length = s.aux.phases.length := by
  unfold foldS
  induction l generalizing s with
  | nil => rfl
  | cons i m ih => rw [List.foldl_cons, ih, clearIsland_length]

theorem via_padsRest (s : State) (l : List Nat) : Via 65801 s (foldS l (fun p s => s.setPad p .rest) s) :=
  via_foldS (fun _ _ hx => via_setPad (Sub.refl _) hx _ _) (Via.refl _ _) _

theorem clearIslands_length (s : State) (l : List Nat) : (s.clearIslands l).aux.phases.length = s.aux.phases.length := by
  unfold State.clearIslands
  extract_lets s1 s2
  have h1 : s1.aux.phases.length = s.aux.phases.length := by
    unfold s1
    split
    · rw [(via_pixGone (Sub.refl _) (Via.refl _ s) _).phases (by decide)]
    · rfl
  have h2 : s2.aux.phases.length = s.aux.phases.length := by
    unfold s2
    rw [foldClear_length, h1]
  clear_value s2
  split
  · rw [(via_padsRest s2 _).phases (by decide), h2]
  · exact h2

theorem islandDown_dram (s : State) (i : Nat) : (s.islandDown i).dram = s.dram := rfl

theorem memClear_dram (s : State) : s.memClear.dram = [] := by
  unfold State.memClear
  rw [State.put_dram, State.put_dram]

theorem partClear_dram (s : State) (i : Nat) : (s.partClear i).dram = if i = 2 then [] else s.dram := by
  unfold State.partClear
  extract_lets v
  have hv : v.dram = s.dram := by
    unfold v
    rw [State.put_dram, State.put_dram, State.put_dram]
  clear_value v
  by_cases c : i = 2
  · rw [if_pos c, if_pos c, memClear_dram]
  · rw [if_neg c, if_neg c, (via_restClear (Sub.refl _) (Via.refl _ v) i).dram (by decide), hv]

theorem clearIsland_dram (s : State) (i : Nat) : (s.clearIsland i).dram = if i = 2 then [] else s.dram := by
  unfold State.clearIsland
  rw [partClear_dram, islandDown_dram, (via_unitsClear (Sub.refl _) (Via.refl _ s) i).dram (by decide)]

theorem foldClear_dram (l : List Nat) (u : State) (hl : 2 ∈ l ∨ u.dram = []) : (foldS l (fun i s => s.clearIsland i) u).dram = [] := by
  unfold foldS
  induction l generalizing u with
  | nil => simpa using hl
  | cons i l ih =>
    rw [List.foldl_cons]
    apply ih
    rw [clearIsland_dram]
    by_cases c : i = 2
    · simp [c]
    · simp only [c, if_false]
      rcases hl with h | h
      · simp only [List.mem_cons] at h
        exact .inl (h.resolve_left fun x => c x.symm)
      · exact .inr h

/-- Clearing MEM empties the DRAM (R328). -/
theorem clearIslands_dram (s : State) (l : List Nat) (h : 2 ∈ l) : (s.clearIslands l).dram = [] := by
  unfold State.clearIslands
  extract_lets s1 s2
  have h2 : s2.dram = [] := foldClear_dram _ _ (.inl (by simp [h]))
  clear_value s2
  split
  · rw [(via_padsRest s2 _).dram (by decide), h2]
  · exact h2

/-- The record of a reset enters the retained log (R79). -/
theorem resetCause_log (s : State) (src : Nat) (d : Bool) : ∃ r : Rec, r.code = 0xFF01 ∧ (s.resetCause src d).aux.log = (s.aux.log ++ [r]).drop (s.aux.log.length + 1 - 512) := by
  unfold State.resetCause
  extract_lets old t
  obtain ⟨r, h1, -, -, h2⟩ := logRec_log t 0xFF01 3 (if d then 4 else 0) (leBytes 4 (t.reg R.RSC_RST_CAUSE).toNat)
  have h3 : t.aux = s.aux := rfl
  clear_value t
  rw [h3] at h2
  exact ⟨r, h1, h2⟩

theorem via_resetCause' (s : State) (src : Nat) (d : Bool) : Via 1055881 s (s.resetCause src d) := via_resetCause (Sub.refl _) (Via.refl _ _) src d

theorem via_logRec' (s : State) (code cls extra : Nat) (d : List Byte) : Via 1055881 s (s.logRec code cls extra d) := via_logRec (Sub.refl _) (Via.refl _ _) _ _ _ _

/-! ### Resets of islands -/

/-- What a reset of islands leaves: the pins as they were, the sequence at the trim load, the islands that are still to be released, the phases, and the device state. -/
structure Restarted (s t : State) (l : List Nat) : Prop where
  pins : t.aux.power.1 = s.aux.power.1
  seq : t.aux.seq = .trim
  todo : t.aux.todo = [1, 2, 3, 4, 5, 6, 7].filter fun i => s.aux.todo.contains i || l.contains i
  down : ∀ i, 1 ≤ i → i ≤ 7 → i ∈ l → t.phase i = .inReset
  same : ∀ i, ¬ (1 ≤ i ∧ i ≤ 7 ∧ i ∈ l) → t.phase i = s.phase i
  dev : t.dev = .trimload
  time : t.devtime = s.devtime
  dram : 2 ∈ l → t.dram = []
  log : ∃ r : Rec, r.code = 0xFF01 ∧ t.aux.log = (s.aux.log ++ [r]).drop (s.aux.log.length + 1 - 512)

theorem resetCause_dev (s : State) (src : Nat) (d : Bool) : (s.resetCause src d).dev = s.dev :=
  dev_of_reg (resetCause_tells s src d _ (by decide) (by decide))

theorem clearIslands_log (s : State) (l : List Nat) : (s.clearIslands l).aux.log = s.aux.log := (via_clearIslands (Sub.refl _) (Via.refl _ s) l).log (by decide)

theorem addTodo_pins (s : State) (l : List Nat) : (s.addTodo l).aux.power.1 = s.aux.power.1 := rfl

theorem addTodo_power (s : State) (l : List Nat) :
    (s.addTodo l).aux.power = (s.aux.power.1, s.aux.seq, [1, 2, 3, 4, 5, 6, 7].filter fun i => s.aux.todo.contains i || l.contains i, s.aux.phases) := rfl

/-- A reset source other than the supplies, outside RESETHOLD (Table 3.6). -/
theorem resetBy_restarts (s : State) (src : Nat) (l : List Nat) (h : s.dev ≠ .resethold) : Restarted s (s.resetBy src l) l := by
  unfold State.resetBy
  extract_lets s1 s2 s3
  have v1 : Via 1055881 s s1 := via_resetCause' s src false
  have hd : s1.dev = s.dev := resetCause_dev s src false
  have hl : ∃ r : Rec, r.code = 0xFF01 ∧ s1.aux.log = (s.aux.log ++ [r]).drop (s.aux.log.length + 1 - 512) := resetCause_log s src false
  clear_value s1
  rw [if_neg (by rw [hd]; exact h)]
  have c := cleared_clearIslands s1 l
  have e1 := startLoad_power ((s1.clearIslands l).addTodo l)
  have v2 := via_startLoad (Sub.refl _) (Via.refl _ ((s1.clearIslands l).addTodo l))
  obtain ⟨p1, p2, p3, -⟩ := power_parts e1
  have hp : (s1.clearIslands l).aux.power.1 = s.aux.power.1 := by rw [c.pins, v1.power (by decide)]
  have ht : (s1.clearIslands l).aux.todo = s.aux.todo := by rw [c.todo, v1.todo (by decide)]
  have v3 := via_clearIslands (Sub.refl _) (Via.refl _ s1) l
  have vt : (s1.clearIslands l).devtime = s.devtime := by rw [v3.devtime (by decide), v1.devtime (by decide)]
  have vl : (s1.clearIslands l).aux.log = s1.aux.log := v3.log (by decide)
  have vd := clearIslands_dram s1 l
  rw [addTodo_pins, hp] at p1
  rw [addTodo_todo, ht] at p3
  generalize s1.clearIslands l = u at *
  constructor
  · exact p1
  · exact p2
  · exact p3
  · intro i h1 h7 hi
    rw [startLoad_phase]
    exact c.down i ⟨h1, h7, hi⟩
  · intro i hi
    rw [startLoad_phase, ← v1.phase (by decide) i]
    exact c.same i hi
  · exact startLoad_dev _
  · rw [v2.devtime (by decide)]
    exact vt
  · intro h2
    rw [v2.dram (by decide)]
    exact vd h2
  · obtain ⟨r, h1, h2⟩ := hl
    refine ⟨r, h1, ?_⟩
    rw [v2.log (by decide), ← h2]
    exact vl

end Sys2Proof.Machine
end

