-- ==== Sys2Proof/Laws/TouchCmd.lean ====
section
/-!
SUPPORT. Sys2Proof/Laws/TouchCmd.lean: what the functions for each command touch: one lemma per function, with the mask of the parts of the state that it can change (Laws/Via.lean).
-/
namespace Sys2Proof.Machine

open Sys2Proof

set_option linter.all false

/-! ### CmdPower -/

theorem via_accessed {A : Nat} {s0 : State} (hA : Sub 2097147 A) {s : State} (h : Via A s0 s) (a1 : Sys2Proof.Master) : Via A s0 (State.accessed s a1) := by
  unfold State.accessed
  exact (via_settle (hA.of rfl) (via_fabricAccess (hA.of rfl) h _))

theorem via_cmdWrite {A : Nat} {s0 : State} (hA : Sub 2097147 A) {s : State} (h : Via A s0 s) (a1 : Sys2Proof.Master) (a2 : Nat) (a3 : Sys2Proof.Word) : Via A s0 (State.cmdWrite s a1 a2 a3) := by
  unfold State.cmdWrite
  refine via_ite ?_ ?_
  · exact (via_accessed (hA.of rfl) (via_busWrite (hA.of rfl) h _ _ _ _) _)
  · exact h

theorem via_cmdRead {A : Nat} {s0 : State} (hA : Sub 2097147 A) {s : State} (h : Via A s0 s) (a1 : Sys2Proof.Master) (a2 : Nat) : Via A s0 (State.cmdRead s a1 a2) := by
  unfold State.cmdRead
  refine via_ite ?_ ?_
  · exact (via_accessed (hA.of rfl) (via_busRead (hA.of rfl) h _ _) _)
  · exact h

theorem via_execVauxPowerOn {A : Nat} {s0 : State} (hA : Sub 4194303 A) {s : State} (h : Via A s0 s) : Runs A s0 (execVauxPowerOn s) := by
  unfold execVauxPowerOn
  refine ⟨_, rfl, ?_⟩
  exact (via_settle (hA.of rfl) (via_vauxPowerOn (hA.of rfl) h))

theorem via_execVauxBrownOut {A : Nat} {s0 : State} (hA : Sub 2097147 A) {s : State} (h : Via A s0 s) : Runs A s0 (execVauxBrownOut s) := by
  unfold execVauxBrownOut
  refine ⟨_, rfl, ?_⟩
  exact (via_settle (hA.of rfl) (via_vauxBrownOut (hA.of rfl) h))

theorem via_execVinValid {A : Nat} {s0 : State} (hA : Sub 2097147 A) {s : State} (h : Via A s0 s) : Runs A s0 (execVinValid s) := by
  unfold execVinValid
  refine ⟨_, rfl, ?_⟩
  exact (via_settle (hA.of rfl) (via_vinValid (hA.of rfl) h))

theorem via_execVinBrownOut {A : Nat} {s0 : State} (hA : Sub 2097147 A) {s : State} (h : Via A s0 s) : Runs A s0 (execVinBrownOut s) := by
  unfold execVinBrownOut
  refine ⟨_, rfl, ?_⟩
  exact (via_settle (hA.of rfl) (via_vinBrownOut (hA.of rfl) h))

theorem via_execRegulatorFault {A : Nat} {s0 : State} (hA : Sub 2097147 A) {s : State} (h : Via A s0 s) (a0 : List Nat) (a1 : Bool) : Runs A s0 (execRegulatorFault a0 a1 s) := by
  unfold execRegulatorFault
  refine ⟨_, rfl, ?_⟩
  refine via_ite ?_ ?_
  · exact (via_settle (hA.of rfl) (via_regulatorFault (hA.of rfl) h _ _))
  · exact h

theorem via_execRegulatorRestart {A : Nat} {s0 : State} (hA : Sub 2097147 A) {s : State} (h : Via A s0 s) : Runs A s0 (execRegulatorRestart s) := by
  unfold execRegulatorRestart
  refine ⟨_, rfl, ?_⟩
  refine via_ite ?_ ?_
  · exact (via_settle (hA.of rfl) (via_regulatorRestart (hA.of rfl) h))
  · exact h

theorem via_execRegulatorStartSuccess {A : Nat} {s0 : State} (hA : Sub 1 A) {s : State} (h : Via A s0 s) : Runs A s0 (execRegulatorStartSuccess s) := by
  unfold execRegulatorStartSuccess
  refine ⟨_, rfl, ?_⟩
  refine via_ite ?_ ?_
  · exact (via_put (hA.of rfl) h _ _)
  · exact h

theorem via_execRailsInRegulation {A : Nat} {s0 : State} (hA : Sub 2097147 A) {s : State} (h : Via A s0 s) : Runs A s0 (execRailsInRegulation s) := by
  unfold execRailsInRegulation
  refine ⟨_, rfl, ?_⟩
  refine via_ite ?_ ?_
  · exact (via_settle (hA.of rfl) (via_railsReady (hA.of rfl) h))
  · exact h

theorem via_execVauxReturn {A : Nat} {s0 : State} (hA : Sub 4194303 A) {s : State} (h : Via A s0 s) : Runs A s0 (execVauxReturn s) := by
  unfold execVauxReturn
  refine ⟨_, rfl, ?_⟩
  exact (via_settle (hA.of rfl) (via_vauxReturn (hA.of rfl) h))

theorem via_execTrimLoadComplete {A : Nat} {s0 : State} (hA : Sub 2097147 A) {s : State} (h : Via A s0 s) (a0 : Bool) (a1 : Sys2Proof.Word) (a2 : List (List Sys2Proof.PadSample)) : Runs A s0 (execTrimLoadComplete a0 a1 a2 s) := by
  unfold execTrimLoadComplete
  refine ⟨_, rfl, ?_⟩
  refine via_ite ?_ ?_
  · exact (via_settle (hA.of rfl) (via_trimLoaded (hA.of rfl) h _ _ _))
  · exact h

theorem via_execIslandClockQualified {A : Nat} {s0 : State} (hA : Sub 2097147 A) {s : State} (h : Via A s0 s) (a0 : Nat) (a1 : Bool) : Runs A s0 (execIslandClockQualified a0 a1 s) := by
  unfold execIslandClockQualified
  refine ⟨_, rfl, ?_⟩
  refine via_ite ?_ ?_
  · exact (via_settle (hA.of rfl) (via_clockQualified (hA.of rfl) h _ _))
  · exact h

theorem via_execDramTrainingComplete {A : Nat} {s0 : State} (hA : Sub 2097147 A) {s : State} (h : Via A s0 s) (a0 : List ChannelTrained) : Runs A s0 (execDramTrainingComplete a0 s) := by
  unfold execDramTrainingComplete
  refine ⟨_, rfl, ?_⟩
  refine via_ite ?_ ?_
  · exact (via_settle (hA.of rfl) (via_trainingEnd (hA.of rfl) h _))
  · exact h

theorem via_execClockFailure {A : Nat} {s0 : State} (hA : Sub 2097147 A) {s : State} (h : Via A s0 s) (a0 : List (Nat × Int)) : Runs A s0 (execClockFailure a0 s) := by
  unfold execClockFailure
  refine ⟨_, rfl, ?_⟩
  refine via_ite ?_ ?_
  · exact (via_settle (hA.of rfl) (via_clockFailure (hA.of rfl) h _))
  · exact h

theorem via_execAuxOscillatorFailure {A : Nat} {s0 : State} (hA : Sub 2097147 A) {s : State} (h : Via A s0 s) (a0 : Int) : Runs A s0 (execAuxOscillatorFailure a0 s) := by
  unfold execAuxOscillatorFailure
  refine ⟨_, rfl, ?_⟩
  refine via_ite ?_ ?_
  · exact (via_settle (hA.of rfl) (via_oscFailure (hA.of rfl) h _))
  · exact h

theorem via_execAuxOscillatorReturn {A : Nat} {s0 : State} (hA : Sub 2097147 A) {s : State} (h : Via A s0 s) : Runs A s0 (execAuxOscillatorReturn s) := by
  unfold execAuxOscillatorReturn
  refine ⟨_, rfl, ?_⟩
  refine via_ite ?_ ?_
  · exact (via_settle (hA.of rfl) (via_oscReturn (hA.of rfl) h))
  · exact h

theorem via_execFabricLockUp {A : Nat} {s0 : State} (hA : Sub 2097147 A) {s : State} (h : Via A s0 s) (a0 : Nat) (a1 : Nat) : Runs A s0 (execFabricLockUp a0 a1 s) := by
  unfold execFabricLockUp
  refine ⟨_, rfl, ?_⟩
  refine via_ite ?_ ?_
  · exact (via_settle (hA.of rfl) (via_lockUp (hA.of rfl) h _ _))
  · exact h

theorem via_execTrimInvalid {A : Nat} {s0 : State} (hA : Sub 2097147 A) {s : State} (h : Via A s0 s) : Runs A s0 (execTrimInvalid s) := by
  unfold execTrimInvalid
  refine ⟨_, rfl, ?_⟩
  refine via_ite ?_ ?_
  · exact (via_settle (hA.of rfl) (via_resetAll (hA.of rfl) h _))
  · exact h

theorem via_execDevtimeSave {A : Nat} {s0 : State} (hA : Sub 12 A) {s : State} (h : Via A s0 s) (a0 : Nat) : Runs A s0 (execDevtimeSave a0 s) := by
  unfold execDevtimeSave
  extract_lets x0
  have hx0 : Via A s0 x0 := by
    exact (via_atTime (hA.of rfl) h _)
  try clear_value x0
  refine ⟨_, rfl, ?_⟩
  refine via_ite ?_ ?_
  · refine via_modAux (hA.of rfl) _ (.inr fun _ => by unfold Aux.power; rfl) (.inr fun _ => by unfold Aux.waits; rfl) (.inr fun _ => rfl) (.inr fun _ => rfl) (fun _ h => by first | simpa [Aux.sized] using h | simp_all [Aux.sized]) ?_
    exact hx0
  · exact h

theorem via_execResetN {A : Nat} {s0 : State} (hA : Sub 2097147 A) {s : State} (h : Via A s0 s) : Runs A s0 (execResetN s) := by
  unfold execResetN
  refine ⟨_, rfl, ?_⟩
  exact (via_settle (hA.of rfl) (via_resetNLow (hA.of rfl) h))

theorem via_execResetNRelease {A : Nat} {s0 : State} (hA : Sub 2097147 A) {s : State} (h : Via A s0 s) : Runs A s0 (execResetNRelease s) := by
  unfold execResetNRelease
  refine ⟨_, rfl, ?_⟩
  exact (via_settle (hA.of rfl) (via_resetNHigh (hA.of rfl) h))

theorem via_execPerstNAssert {A : Nat} {s0 : State} (hA : Sub 2097147 A) {s : State} (h : Via A s0 s) : Runs A s0 (execPerstNAssert s) := by
  unfold execPerstNAssert
  refine ⟨_, rfl, ?_⟩
  exact (via_settle (hA.of rfl) (via_perstAssert (hA.of rfl) h))

theorem via_execPerstNDeassert {A : Nat} {s0 : State} (hA : Sub 2097147 A) {s : State} (h : Via A s0 s) : Runs A s0 (execPerstNDeassert s) := by
  unfold execPerstNDeassert
  refine ⟨_, rfl, ?_⟩
  exact (via_settle (hA.of rfl) (via_perstDeassert (hA.of rfl) h))

theorem via_execSwrstCore {A : Nat} {s0 : State} (hA : Sub 2097147 A) {s : State} (h : Via A s0 s) (a0 : Sys2Proof.Master) : Runs A s0 (execSwrstCore a0 s) := by
  unfold execSwrstCore
  refine ⟨_, rfl, ?_⟩
  exact (via_cmdWrite (hA.of rfl) h _ _ _)

theorem via_execSwrstCoreMem {A : Nat} {s0 : State} (hA : Sub 2097147 A) {s : State} (h : Via A s0 s) (a0 : Sys2Proof.Master) : Runs A s0 (execSwrstCoreMem a0 s) := by
  unfold execSwrstCoreMem
  refine ⟨_, rfl, ?_⟩
  exact (via_cmdWrite (hA.of rfl) h _ _ _)

theorem via_execSwrstAll {A : Nat} {s0 : State} (hA : Sub 2097147 A) {s : State} (h : Via A s0 s) (a0 : Sys2Proof.Master) : Runs A s0 (execSwrstAll a0 s) := by
  unfold execSwrstAll
  refine ⟨_, rfl, ?_⟩
  exact (via_cmdWrite (hA.of rfl) h _ _ _)

theorem via_execBootContinue {A : Nat} {s0 : State} (hA : Sub 2097147 A) {s : State} (h : Via A s0 s) (a0 : Sys2Proof.Master) : Runs A s0 (execBootContinue a0 s) := by
  unfold execBootContinue
  refine ⟨_, rfl, ?_⟩
  exact (via_cmdWrite (hA.of rfl) h _ _ _)

theorem via_execIslHoldSet {A : Nat} {s0 : State} (hA : Sub 2097147 A) {s : State} (h : Via A s0 s) (a0 : Sys2Proof.Master) (a1 : Nat) : Runs A s0 (execIslHoldSet a0 a1 s) := by
  unfold execIslHoldSet
  refine ⟨_, rfl, ?_⟩
  exact (via_cmdWrite (hA.of rfl) h _ _ _)

theorem via_execIslHoldClear {A : Nat} {s0 : State} (hA : Sub 2097147 A) {s : State} (h : Via A s0 s) (a0 : Sys2Proof.Master) (a1 : Nat) : Runs A s0 (execIslHoldClear a0 a1 s) := by
  unfold execIslHoldClear
  refine ⟨_, rfl, ?_⟩
  exact (via_cmdWrite (hA.of rfl) h _ _ _)

theorem via_execBlockEnable {A : Nat} {s0 : State} (hA : Sub 2097147 A) {s : State} (h : Via A s0 s) (a0 : Sys2Proof.Master) (a1 : Nat) (a2 : Nat) : Runs A s0 (execBlockEnable a0 a1 a2 s) := by
  unfold execBlockEnable
  refine ⟨_, rfl, ?_⟩
  exact (via_cmdWrite (hA.of rfl) h _ _ _)

theorem via_execBlockDisable {A : Nat} {s0 : State} (hA : Sub 2097147 A) {s : State} (h : Via A s0 s) (a0 : Sys2Proof.Master) (a1 : Nat) (a2 : Nat) : Runs A s0 (execBlockDisable a0 a1 a2 s) := by
  unfold execBlockDisable
  refine ⟨_, rfl, ?_⟩
  exact (via_cmdWrite (hA.of rfl) h _ _ _)

theorem via_execBlockSrst {A : Nat} {s0 : State} (hA : Sub 2097147 A) {s : State} (h : Via A s0 s) (a0 : Sys2Proof.Master) (a1 : Nat) (a2 : Nat) : Runs A s0 (execBlockSrst a0 a1 a2 s) := by
  unfold execBlockSrst
  refine ⟨_, rfl, ?_⟩
  exact (via_cmdWrite (hA.of rfl) h _ _ _)

theorem via_execDrainComplete {A : Nat} {s0 : State} (hA : Sub 2097147 A) {s : State} (h : Via A s0 s) (a0 : Nat) : Runs A s0 (execDrainComplete a0 s) := by
  unfold execDrainComplete
  refine ⟨_, rfl, ?_⟩
  refine via_ite ?_ ?_
  · exact (via_settle (hA.of rfl) (via_blockDrained (hA.of rfl) h _))
  · exact h

theorem via_execEvtPendClear {A : Nat} {s0 : State} (hA : Sub 2097147 A) {s : State} (h : Via A s0 s) (a0 : Sys2Proof.Master) (a1 : Nat) (a2 : Sys2Proof.Word) (a3 : Sys2Proof.Word) : Runs A s0 (execEvtPendClear a0 a1 a2 a3 s) := by
  unfold execEvtPendClear
  refine ⟨_, rfl, ?_⟩
  exact (via_cmdWrite (hA.of rfl) h _ _ _)

theorem via_execEvtForce {A : Nat} {s0 : State} (hA : Sub 2097147 A) {s : State} (h : Via A s0 s) (a0 : Sys2Proof.Master) (a1 : Nat) (a2 : Sys2Proof.Word) : Runs A s0 (execEvtForce a0 a1 a2 s) := by
  unfold execEvtForce
  refine ⟨_, rfl, ?_⟩
  exact (via_cmdWrite (hA.of rfl) h _ _ _)

/-! ### CmdHost -/

theorem via_execRegisterWrite {A : Nat} {s0 : State} (hA : Sub 2097147 A) {s : State} (h : Via A s0 s) (a0 : Sys2Proof.Master) (a1 : Nat) (a2 : List (Option Sys2Proof.Byte)) : Runs A s0 (execRegisterWrite a0 a1 a2 s) := by
  unfold execRegisterWrite
  refine ⟨_, rfl, ?_⟩
  refine via_ite ?_ ?_
  · exact (via_accessed (hA.of rfl) (via_wideWrite (hA.of rfl) h _ _ _) _)
  · exact h

theorem via_execLoHalfRead {A : Nat} {s0 : State} (hA : Sub 2097147 A) {s : State} (h : Via A s0 s) (a0 : Sys2Proof.Master) (a1 : Nat) : Runs A s0 (execLoHalfRead a0 a1 s) := by
  unfold execLoHalfRead
  refine ⟨_, rfl, ?_⟩
  exact (via_cmdRead (hA.of rfl) h _ _)

theorem via_execLoHalfWrite {A : Nat} {s0 : State} (hA : Sub 2097147 A) {s : State} (h : Via A s0 s) (a0 : Sys2Proof.Master) (a1 : Nat) (a2 : Sys2Proof.Word) : Runs A s0 (execLoHalfWrite a0 a1 a2 s) := by
  unfold execLoHalfWrite
  refine ⟨_, rfl, ?_⟩
  exact (via_cmdWrite (hA.of rfl) h _ _ _)

theorem via_execHiHalfWrite {A : Nat} {s0 : State} (hA : Sub 2097147 A) {s : State} (h : Via A s0 s) (a0 : Sys2Proof.Master) (a1 : Nat) (a2 : Sys2Proof.Word) : Runs A s0 (execHiHalfWrite a0 a1 a2 s) := by
  unfold execHiHalfWrite
  refine ⟨_, rfl, ?_⟩
  exact (via_cmdWrite (hA.of rfl) h _ _ _)

theorem via_execPopRead {A : Nat} {s0 : State} (hA : Sub 2097147 A) {s : State} (h : Via A s0 s) (a0 : Sys2Proof.Master) (a1 : Nat) : Runs A s0 (execPopRead a0 a1 s) := by
  unfold execPopRead
  refine ⟨_, rfl, ?_⟩
  exact (via_cmdRead (hA.of rfl) h _ _)

theorem via_execLatCntRead {A : Nat} {s0 : State} (hA : Sub 2097147 A) {s : State} (h : Via A s0 s) (a0 : Sys2Proof.Master) (a1 : Nat) : Runs A s0 (execLatCntRead a0 a1 s) := by
  unfold execLatCntRead
  refine ⟨_, rfl, ?_⟩
  exact (via_cmdRead (hA.of rfl) h _ _)

theorem via_execCmpFracRead {A : Nat} {s0 : State} (hA : Sub 2097147 A) {s : State} (h : Via A s0 s) (a0 : Sys2Proof.Master) (a1 : Nat) : Runs A s0 (execCmpFracRead a0 a1 s) := by
  unfold execCmpFracRead
  refine ⟨_, rfl, ?_⟩
  exact (via_cmdRead (hA.of rfl) h _ _)

theorem via_execLine64LoRead {A : Nat} {s0 : State} (hA : Sub 2097147 A) {s : State} (h : Via A s0 s) (a0 : Sys2Proof.Master) (a1 : Nat) : Runs A s0 (execLine64LoRead a0 a1 s) := by
  unfold execLine64LoRead
  refine ⟨_, rfl, ?_⟩
  exact (via_cmdRead (hA.of rfl) h _ _)

theorem via_execEvtLostRead {A : Nat} {s0 : State} (hA : Sub 2097147 A) {s : State} (h : Via A s0 s) (a0 : Sys2Proof.Master) : Runs A s0 (execEvtLostRead a0 s) := by
  unfold execEvtLostRead
  refine ⟨_, rfl, ?_⟩
  exact (via_cmdRead (hA.of rfl) h _ _)

theorem via_execArrayWindowWrite {A : Nat} {s0 : State} (hA : Sub 2097147 A) {s : State} (h : Via A s0 s) (a0 : Sys2Proof.Master) (a1 : Nat) (a2 : Sys2Proof.Word) : Runs A s0 (execArrayWindowWrite a0 a1 a2 s) := by
  unfold execArrayWindowWrite
  refine ⟨_, rfl, ?_⟩
  exact (via_cmdWrite (hA.of rfl) h _ _ _)

theorem via_execLogFromWrite {A : Nat} {s0 : State} (hA : Sub 2097147 A) {s : State} (h : Via A s0 s) (a0 : Sys2Proof.Master) (a1 : Sys2Proof.Word) : Runs A s0 (execLogFromWrite a0 a1 s) := by
  unfold execLogFromWrite
  refine ⟨_, rfl, ?_⟩
  exact (via_cmdWrite (hA.of rfl) h _ _ _)

theorem via_execOutputEnable {A : Nat} {s0 : State} (hA : Sub 2097147 A) {s : State} (h : Via A s0 s) (a0 : Sys2Proof.Master) (a1 : Nat) : Runs A s0 (execOutputEnable a0 a1 s) := by
  unfold execOutputEnable
  extract_lets x0
  try clear_value x0
  refine ⟨_, rfl, ?_⟩
  exact (via_cmdWrite (hA.of rfl) h _ _ _)

theorem via_execOutputDisable {A : Nat} {s0 : State} (hA : Sub 2097147 A) {s : State} (h : Via A s0 s) (a0 : Sys2Proof.Master) (a1 : Nat) : Runs A s0 (execOutputDisable a0 a1 s) := by
  unfold execOutputDisable
  extract_lets x0
  try clear_value x0
  refine ⟨_, rfl, ?_⟩
  exact (via_cmdWrite (hA.of rfl) h _ _ _)

theorem via_execRestFollowDone {A : Nat} {s0 : State} (hA : Sub 73101 A) {s : State} (h : Via A s0 s) (a0 : Nat) (a1 : List (List Sys2Proof.PadSample)) : Runs A s0 (execRestFollowDone a0 a1 s) := by
  unfold execRestFollowDone
  refine ⟨_, rfl, ?_⟩
  refine via_ite ?_ ?_
  · exact h
  · split
    · exact (via_followDone (hA.of rfl) (via_atTime (hA.of rfl) h _) _ _ _)
    · exact h

theorem via_execClaspOpen {A : Nat} {s0 : State} (hA : Sub 2097147 A) {s : State} (h : Via A s0 s) (a0 : Sys2Proof.Master) (a1 : Nat) : Runs A s0 (execClaspOpen a0 a1 s) := by
  unfold execClaspOpen
  refine ⟨_, rfl, ?_⟩
  exact (via_cmdWrite (hA.of rfl) h _ _ _)

theorem via_execClaspData {A : Nat} {s0 : State} (hA : Sub 2097147 A) {s : State} (h : Via A s0 s) (a0 : Sys2Proof.Master) (a1 : Nat) (a2 : Sys2Proof.Word) : Runs A s0 (execClaspData a0 a1 a2 s) := by
  unfold execClaspData
  refine ⟨_, rfl, ?_⟩
  exact (via_cmdWrite (hA.of rfl) h _ _ _)

theorem via_execClaspCommit {A : Nat} {s0 : State} (hA : Sub 2097147 A) {s : State} (h : Via A s0 s) (a0 : Sys2Proof.Master) (a1 : Nat) : Runs A s0 (execClaspCommit a0 a1 s) := by
  unfold execClaspCommit
  refine ⟨_, rfl, ?_⟩
  exact (via_cmdWrite (hA.of rfl) h _ _ _)

theorem via_execClaspAbort {A : Nat} {s0 : State} (hA : Sub 2097147 A) {s : State} (h : Via A s0 s) (a0 : Sys2Proof.Master) (a1 : Nat) : Runs A s0 (execClaspAbort a0 a1 s) := by
  unfold execClaspAbort
  refine ⟨_, rfl, ?_⟩
  exact (via_cmdWrite (hA.of rfl) h _ _ _)

theorem via_execClaspFree {A : Nat} {s0 : State} (hA : Sub 2097147 A) {s : State} (h : Via A s0 s) (a0 : Sys2Proof.Master) (a1 : Nat) : Runs A s0 (execClaspFree a0 a1 s) := by
  unfold execClaspFree
  refine ⟨_, rfl, ?_⟩
  exact (via_cmdWrite (hA.of rfl) h _ _ _)

theorem via_execClaspCommitPoint {A : Nat} {s0 : State} (hA : Sub 2097147 A) {s : State} (h : Via A s0 s) (a0 : Nat) : Runs A s0 (execClaspCommitPoint a0 s) := by
  unfold execClaspCommitPoint
  refine ⟨_, rfl, ?_⟩
  refine via_ite ?_ ?_
  · exact (via_settle (hA.of rfl) (via_claspPoint (hA.of rfl) h _))
  · exact h

theorem via_execClaspApplyComplete {A : Nat} {s0 : State} (hA : Sub 2097147 A) {s : State} (h : Via A s0 s) (a0 : Nat) : Runs A s0 (execClaspApplyComplete a0 s) := by
  unfold execClaspApplyComplete
  refine ⟨_, rfl, ?_⟩
  refine via_ite ?_ ?_
  · exact (via_settle (hA.of rfl) (via_fabricEnd (hA.of rfl) (via_claspDone (hA.of rfl) h _) _))
  · exact h

theorem via_execClaspBatchDescriptor {A : Nat} {s0 : State} (hA : Sub 2097147 A) {s : State} (h : Via A s0 s) (a0 : Nat) : Runs A s0 (execClaspBatchDescriptor a0 s) := by
  unfold execClaspBatchDescriptor
  refine ⟨_, rfl, ?_⟩
  refine via_ite ?_ ?_
  · exact (via_settle (hA.of rfl) (via_batchStart (hA.of rfl) h _))
  · exact h

theorem via_execClaspListFetched {A : Nat} {s0 : State} (hA : Sub 2097147 A) {s : State} (h : Via A s0 s) (a0 : Nat) (a1 : List Sys2Proof.Byte) : Runs A s0 (execClaspListFetched a0 a1 s) := by
  unfold execClaspListFetched
  refine ⟨_, rfl, ?_⟩
  refine via_ite ?_ ?_
  · exact (via_settle (hA.of rfl) (via_batchFetched (hA.of rfl) h _ _))
  · exact h

theorem via_execPcieLinkUp {A : Nat} {s0 : State} (hA : Sub 2097147 A) {s : State} (h : Via A s0 s) (a0 : Bool) (a1 : Nat) (a2 : Nat) : Runs A s0 (execPcieLinkUp a0 a1 a2 s) := by
  unfold execPcieLinkUp
  refine ⟨_, rfl, ?_⟩
  exact (via_settle (hA.of rfl) (via_linkUpHost (hA.of rfl) h _ _ _))

theorem via_execHotReset {A : Nat} {s0 : State} (hA : Sub 2097147 A) {s : State} (h : Via A s0 s) : Runs A s0 (execHotReset s) := by
  unfold execHotReset
  refine ⟨_, rfl, ?_⟩
  exact (via_settle (hA.of rfl) (via_hotReset (hA.of rfl) h))

theorem via_execDataLinkDown {A : Nat} {s0 : State} (hA : Sub 2097147 A) {s : State} (h : Via A s0 s) : Runs A s0 (execDataLinkDown s) := by
  unfold execDataLinkDown
  refine ⟨_, rfl, ?_⟩
  exact (via_settle (hA.of rfl) (via_hotReset (hA.of rfl) h))

theorem via_execPcieConfigWrite {A : Nat} {s0 : State} (hA : Sub 6401 A) {s : State} (h : Via A s0 s) (a0 : Bool) (a1 : Bool) (a2 : Bool) : Runs A s0 (execPcieConfigWrite a0 a1 a2 s) := by
  unfold execPcieConfigWrite
  refine ⟨_, rfl, ?_⟩
  refine via_ite ?_ ?_
  · exact (via_configWrite (hA.of rfl) h _ _ _)
  · exact h

theorem via_execPcieLinkRecovery {A : Nat} {s0 : State} (hA : Sub 6401 A) {s : State} (h : Via A s0 s) (a0 : Bool) (a1 : Nat) (a2 : Nat) : Runs A s0 (execPcieLinkRecovery a0 a1 a2 s) := by
  unfold execPcieLinkRecovery
  refine ⟨_, rfl, ?_⟩
  refine via_ite ?_ ?_
  · exact (via_linkRecovery (hA.of rfl) h _ _ _)
  · exact h

theorem via_execBar2Write {A : Nat} {s0 : State} (hA : Sub 32961 A) {s : State} (h : Via A s0 s) (a0 : Nat) (a1 : List (Option Sys2Proof.Byte)) : Runs A s0 (execBar2Write a0 a1 s) := by
  unfold execBar2Write
  refine ⟨_, rfl, ?_⟩
  refine via_ite ?_ ?_
  · exact (via_bar2Write (hA.of rfl) h _ _)
  · exact h

theorem via_execSubmissionDoorbell {A : Nat} {s0 : State} (hA : Sub 2097147 A) {s : State} (h : Via A s0 s) (a0 : Nat) (a1 : Sys2Proof.Word) : Runs A s0 (execSubmissionDoorbell a0 a1 s) := by
  unfold execSubmissionDoorbell
  refine ⟨_, rfl, ?_⟩
  exact (via_cmdWrite (hA.of rfl) h _ _ _)

theorem via_execRecordRingConsWrite {A : Nat} {s0 : State} (hA : Sub 2097147 A) {s : State} (h : Via A s0 s) (a0 : Nat) (a1 : Sys2Proof.Word) : Runs A s0 (execRecordRingConsWrite a0 a1 s) := by
  unfold execRecordRingConsWrite
  refine ⟨_, rfl, ?_⟩
  exact (via_cmdWrite (hA.of rfl) h _ _ _)

theorem via_execRingEnable {A : Nat} {s0 : State} (hA : Sub 2097147 A) {s : State} (h : Via A s0 s) (a0 : Nat) (a1 : Sys2Proof.Word) : Runs A s0 (execRingEnable a0 a1 s) := by
  unfold execRingEnable
  refine ⟨_, rfl, ?_⟩
  exact (via_cmdWrite (hA.of rfl) h _ _ _)

theorem via_execRingDisable {A : Nat} {s0 : State} (hA : Sub 2097147 A) {s : State} (h : Via A s0 s) (a0 : Nat) (a1 : Sys2Proof.Word) : Runs A s0 (execRingDisable a0 a1 s) := by
  unfold execRingDisable
  refine ⟨_, rfl, ?_⟩
  exact (via_cmdWrite (hA.of rfl) h _ _ _)

theorem via_execDescriptorFetched {A : Nat} {s0 : State} (hA : Sub 6145 A) {s : State} (h : Via A s0 s) (a0 : Nat) (a1 : List Sys2Proof.Byte) : Runs A s0 (execDescriptorFetched a0 a1 s) := by
  unfold execDescriptorFetched
  refine ⟨_, rfl, ?_⟩
  refine via_ite ?_ ?_
  · exact (via_descriptorFetched (hA.of rfl) h _ _)
  · exact h

theorem via_execDmaReadError {A : Nat} {s0 : State} (hA : Sub 2097147 A) {s : State} (h : Via A s0 s) (a0 : Nat) (a1 : Nat) (a2 : ReadError) : Runs A s0 (execDmaReadError a0 a1 a2 s) := by
  unfold execDmaReadError
  refine ⟨_, rfl, ?_⟩
  refine via_ite ?_ ?_
  · exact (via_settle (hA.of rfl) (via_refetchCheck (hA.of rfl) (via_dmaReadError (hA.of rfl) h _ _ _)))
  · exact h

theorem via_execCoalesceTimeout {A : Nat} {s0 : State} (hA : Sub 6149 A) {s : State} (h : Via A s0 s) (a0 : Nat) (a1 : Nat) : Runs A s0 (execCoalesceTimeout a0 a1 s) := by
  unfold execCoalesceTimeout
  refine ⟨_, rfl, ?_⟩
  refine via_ite ?_ ?_
  · exact (via_coalesce (hA.of rfl) (via_atTime (hA.of rfl) h _) _)
  · exact h

theorem via_execHeldRecordFlush {A : Nat} {s0 : State} (hA : Sub 6145 A) {s : State} (h : Via A s0 s) (a0 : Nat) : Runs A s0 (execHeldRecordFlush a0 s) := by
  unfold execHeldRecordFlush
  refine ⟨_, rfl, ?_⟩
  refine via_ite ?_ ?_
  · exact (via_ringWrite (hA.of rfl) h _)
  · exact h

theorem via_execWdtKick {A : Nat} {s0 : State} (hA : Sub 2097147 A) {s : State} (h : Via A s0 s) (a0 : Sys2Proof.Word) : Runs A s0 (execWdtKick a0 s) := by
  unfold execWdtKick
  refine ⟨_, rfl, ?_⟩
  exact (via_cmdWrite (hA.of rfl) h _ _ _)

theorem via_execWdtWarn {A : Nat} {s0 : State} (hA : Sub 7309 A) {s : State} (h : Via A s0 s) (a0 : Nat) : Runs A s0 (execWdtWarn a0 s) := by
  unfold execWdtWarn
  refine ⟨_, rfl, ?_⟩
  refine via_ite ?_ ?_
  · exact (via_wdtWarn (hA.of rfl) (via_atTime (hA.of rfl) h _))
  · exact h

theorem via_execWdtExpired {A : Nat} {s0 : State} (hA : Sub 2097151 A) {s : State} (h : Via A s0 s) (a0 : Nat) : Runs A s0 (execWdtExpired a0 s) := by
  unfold execWdtExpired
  refine ⟨_, rfl, ?_⟩
  refine via_ite ?_ ?_
  · exact (via_wdtExpired (hA.of rfl) (via_atTime (hA.of rfl) h _))
  · exact h

theorem via_execWdtStop {A : Nat} {s0 : State} (hA : Sub 2097147 A) {s : State} (h : Via A s0 s) (a0 : Sys2Proof.Master) (a1 : Sys2Proof.Word) : Runs A s0 (execWdtStop a0 a1 s) := by
  unfold execWdtStop
  refine ⟨_, rfl, ?_⟩
  exact (via_cmdWrite (hA.of rfl) h _ _ _)

/-! ### CmdImage -/

theorem via_execJobStart {A : Nat} {s0 : State} (hA : Sub 335273 A) {s : State} (h : Via A s0 s) (a0 : Nat) : Runs A s0 (execJobStart a0 s) := by
  unfold execJobStart
  extract_lets x0
  have hx0 : Via A s0 x0.1 := by
    exact (via_jobStart (hA.of rfl) h _ _)
  try clear_value x0
  refine ⟨_, rfl, ?_⟩
  refine via_ite ?_ ?_
  · exact h
  · split
    · exact (via_jobStart (hA.of rfl) h _ _)
    · refine via_ite ?_ ?_
      · exact h
      · refine via_ite ?_ ?_
        · exact (via_stampAction (hA.of rfl) hx0 _)
        · exact hx0
    · exact h

theorem via_execJobEnd {A : Nat} {s0 : State} (hA : Sub 499177 A) {s : State} (h : Via A s0 s) (a0 : Nat) : Runs A s0 (execJobEnd a0 s) := by
  unfold execJobEnd
  refine ⟨_, rfl, ?_⟩
  refine via_ite ?_ ?_
  · exact (via_jobEnd (hA.of rfl) h _)
  · exact h

theorem via_execJobStop {A : Nat} {s0 : State} (hA : Sub 499177 A) {s : State} (h : Via A s0 s) (a0 : Nat) : Runs A s0 (execJobStop a0 s) := by
  unfold execJobStop
  refine ⟨_, rfl, ?_⟩
  refine via_ite ?_ ?_
  · exact (via_jobStop (hA.of rfl) h _)
  · exact h

theorem via_execTileLoad {A : Nat} {s0 : State} (hA : Sub 138377 A) {s : State} (h : Via A s0 s) (a0 : Nat) : Runs A s0 (execTileLoad a0 s) := by
  unfold execTileLoad
  refine ⟨_, rfl, ?_⟩
  refine via_ite ?_ ?_
  · exact (via_tileLoad (hA.of rfl) h _)
  · exact h

theorem via_execTileStream {A : Nat} {s0 : State} (hA : Sub 138377 A) {s : State} (h : Via A s0 s) (a0 : Nat) : Runs A s0 (execTileStream a0 s) := by
  unfold execTileStream
  refine ⟨_, rfl, ?_⟩
  refine via_ite ?_ ?_
  · exact (via_tileStream (hA.of rfl) h _)
  · exact h

theorem via_execTilePrint {A : Nat} {s0 : State} (hA : Sub 138443 A) {s : State} (h : Via A s0 s) (a0 : Nat) : Runs A s0 (execTilePrint a0 s) := by
  unfold execTilePrint
  refine ⟨_, rfl, ?_⟩
  refine via_ite ?_ ?_
  · exact (via_tilePrint (hA.of rfl) h _)
  · exact h

theorem via_execTileFree {A : Nat} {s0 : State} (hA : Sub 138377 A) {s : State} (h : Via A s0 s) (a0 : Nat) : Runs A s0 (execTileFree a0 s) := by
  unfold execTileFree
  refine ⟨_, rfl, ?_⟩
  refine via_ite ?_ ?_
  · exact (via_tileFree (hA.of rfl) h _)
  · exact h

theorem via_execLoadReadComplete {A : Nat} {s0 : State} (hA : Sub 212457 A) {s : State} (h : Via A s0 s) (a0 : Nat) (a1 : List Sys2Proof.Byte) : Runs A s0 (execLoadReadComplete a0 a1 s) := by
  unfold execLoadReadComplete
  refine ⟨_, rfl, ?_⟩
  refine via_ite ?_ ?_
  · exact (via_refetchCheck (hA.of rfl) (via_loadRead (hA.of rfl) h _ _))
  · exact h

theorem via_execPrintPassEnd {A : Nat} {s0 : State} (hA : Sub 137345 A) {s : State} (h : Via A s0 s) (a0 : Nat) : Runs A s0 (execPrintPassEnd a0 s) := by
  unfold execPrintPassEnd
  refine ⟨_, rfl, ?_⟩
  refine via_ite ?_ ?_
  · exact (via_passEnd (hA.of rfl) h _)
  · exact h

theorem via_execPlaneReleaseComplete {A : Nat} {s0 : State} (hA : Sub 137345 A) {s : State} (h : Via A s0 s) (a0 : Nat) (a1 : Nat) : Runs A s0 (execPlaneReleaseComplete a0 a1 s) := by
  unfold execPlaneReleaseComplete
  refine ⟨_, rfl, ?_⟩
  refine via_ite ?_ ?_
  · exact (via_planeRelease (hA.of rfl) h _ _)
  · exact h

theorem via_execTileDecodeDone {A : Nat} {s0 : State} (hA : Sub 171243 A) {s : State} (h : Via A s0 s) (a0 : Nat) : Runs A s0 (execTileDecodeDone a0 s) := by
  unfold execTileDecodeDone
  refine ⟨_, rfl, ?_⟩
  refine via_ite ?_ ?_
  · exact (via_tileDecoded (hA.of rfl) h _)
  · exact h

theorem via_execTileCopyDone {A : Nat} {s0 : State} (hA : Sub 138443 A) {s : State} (h : Via A s0 s) (a0 : Nat) : Runs A s0 (execTileCopyDone a0 s) := by
  unfold execTileCopyDone
  refine ⟨_, rfl, ?_⟩
  refine via_ite ?_ ?_
  · exact (via_tileCopied (hA.of rfl) h _)
  · exact h

theorem via_execLaneStallResume {A : Nat} {s0 : State} (hA : Sub 164033 A) {s : State} (h : Via A s0 s) (a0 : Nat) : Runs A s0 (execLaneStallResume a0 s) := by
  unfold execLaneStallResume
  refine ⟨_, rfl, ?_⟩
  refine via_ite ?_ ?_
  · exact (via_stallResume (hA.of rfl) h _)
  · exact h

theorem via_execCodecEncodeTile {A : Nat} {s0 : State} (hA : Sub 137344 A) {s : State} (h : Via A s0 s) (a0 : Nat) (a1 : List Sys2Proof.Byte) (a2 : List Sys2Proof.Byte) : Runs A s0 (execCodecEncodeTile a0 a1 a2 s) := by
  unfold execCodecEncodeTile
  refine ⟨_, rfl, ?_⟩
  refine via_ite ?_ ?_
  · exact (via_codecTake (hA.of rfl) h _ _ _ _)
  · exact h

theorem via_execCodecEncodeStream {A : Nat} {s0 : State} (hA : Sub 137344 A) {s : State} (h : Via A s0 s) (a0 : Nat) (a1 : List Sys2Proof.Byte) (a2 : List Sys2Proof.Byte) : Runs A s0 (execCodecEncodeStream a0 a1 a2 s) := by
  unfold execCodecEncodeStream
  refine ⟨_, rfl, ?_⟩
  refine via_ite ?_ ?_
  · exact (via_codecTake (hA.of rfl) h _ _ _ _)
  · exact h

theorem via_execCodecDecodeTile {A : Nat} {s0 : State} (hA : Sub 137344 A) {s : State} (h : Via A s0 s) (a0 : Nat) (a1 : List Sys2Proof.Byte) (a2 : List Sys2Proof.Byte) : Runs A s0 (execCodecDecodeTile a0 a1 a2 s) := by
  unfold execCodecDecodeTile
  refine ⟨_, rfl, ?_⟩
  refine via_ite ?_ ?_
  · exact (via_codecTake (hA.of rfl) h _ _ _ _)
  · exact h

theorem via_execCodecDecodeStream {A : Nat} {s0 : State} (hA : Sub 137344 A) {s : State} (h : Via A s0 s) (a0 : Nat) (a1 : List Sys2Proof.Byte) (a2 : List Sys2Proof.Byte) : Runs A s0 (execCodecDecodeStream a0 a1 a2 s) := by
  unfold execCodecDecodeStream
  refine ⟨_, rfl, ?_⟩
  refine via_ite ?_ ?_
  · exact (via_codecTake (hA.of rfl) h _ _ _ _)
  · exact h

theorem via_execCodecResume {A : Nat} {s0 : State} (hA : Sub 137344 A) {s : State} (h : Via A s0 s) (a0 : Nat) (a1 : List Sys2Proof.Byte) (a2 : List Sys2Proof.Byte) : Runs A s0 (execCodecResume a0 a1 a2 s) := by
  unfold execCodecResume
  refine ⟨_, rfl, ?_⟩
  refine via_ite ?_ ?_
  · exact (via_codecTake (hA.of rfl) h _ _ _ _)
  · exact h

theorem via_execCodecDiscard {A : Nat} {s0 : State} (hA : Sub 137344 A) {s : State} (h : Via A s0 s) (a0 : Nat) (a1 : List Sys2Proof.Byte) (a2 : List Sys2Proof.Byte) : Runs A s0 (execCodecDiscard a0 a1 a2 s) := by
  unfold execCodecDiscard
  refine ⟨_, rfl, ?_⟩
  refine via_ite ?_ ?_
  · exact (via_codecTake (hA.of rfl) h _ _ _ _)
  · exact h

theorem via_execCodecJobComplete {A : Nat} {s0 : State} (hA : Sub 179435 A) {s : State} (h : Via A s0 s) (a0 : Nat) : Runs A s0 (execCodecJobComplete a0 s) := by
  unfold execCodecJobComplete
  refine ⟨_, rfl, ?_⟩
  refine via_ite ?_ ?_
  · exact (via_codecComplete (hA.of rfl) h _)
  · exact h

theorem via_execScreeningComplete {A : Nat} {s0 : State} (hA : Sub 7305 A) {s : State} (h : Via A s0 s) (a0 : Nat) : Runs A s0 (execScreeningComplete a0 s) := by
  unfold execScreeningComplete
  refine ⟨_, rfl, ?_⟩
  refine via_ite ?_ ?_
  · exact (via_screenDone (hA.of rfl) h _)
  · exact h

theorem via_execMaskCheck {A : Nat} {s0 : State} (hA : Sub 2097147 A) {s : State} (h : Via A s0 s) (a0 : Sys2Proof.Master) (a1 : Nat) : Runs A s0 (execMaskCheck a0 a1 s) := by
  unfold execMaskCheck
  refine ⟨_, rfl, ?_⟩
  exact (via_cmdWrite (hA.of rfl) h _ _ _)

theorem via_execMaskCheckDone {A : Nat} {s0 : State} (hA : Sub 7305 A) {s : State} (h : Via A s0 s) (a0 : Nat) : Runs A s0 (execMaskCheckDone a0 s) := by
  unfold execMaskCheckDone
  refine ⟨_, rfl, ?_⟩
  refine via_ite ?_ ?_
  · exact (via_maskCheckDone (hA.of rfl) h _)
  · exact h

theorem via_execPassCmd {A : Nat} {s0 : State} (hA : Sub 2097147 A) {s : State} (h : Via A s0 s) (a0 : Sys2Proof.Master) (a1 : Nat) : Runs A s0 (execPassCmd a0 a1 s) := by
  unfold execPassCmd
  refine ⟨_, rfl, ?_⟩
  exact (via_cmdWrite (hA.of rfl) h _ _ _)

theorem via_execDensityReport {A : Nat} {s0 : State} (hA : Sub 7305 A) {s : State} (h : Via A s0 s) (a0 : Nat) : Runs A s0 (execDensityReport a0 s) := by
  unfold execDensityReport
  refine ⟨_, rfl, ?_⟩
  refine via_ite ?_ ?_
  · exact (via_densityReport (hA.of rfl) h _)
  · exact h

theorem via_execDensityStaged {A : Nat} {s0 : State} (hA : Sub 5315 A) {s : State} (h : Via A s0 s) (a0 : Nat) (a1 : List Sys2Proof.Byte) : Runs A s0 (execDensityStaged a0 a1 s) := by
  unfold execDensityStaged
  refine ⟨_, rfl, ?_⟩
  refine via_ite ?_ ?_
  · exact (via_densityStaged (hA.of rfl) h _ _)
  · exact h

theorem via_execNzcLoadDone {A : Nat} {s0 : State} (hA : Sub 129 A) {s : State} (h : Via A s0 s) : Runs A s0 (execNzcLoadDone s) := by
  unfold execNzcLoadDone
  refine ⟨_, rfl, ?_⟩
  refine via_ite ?_ ?_
  · exact (via_nzcLoaded (hA.of rfl) h)
  · exact h

/-! ### CmdFire -/

theorem via_execEncoderEdge {A : Nat} {s0 : State} (hA : Sub 7565 A) {s : State} (h : Via A s0 s) (a0 : Nat) (a1 : Nat) (a2 : Bool) (a3 : Bool) : Runs A s0 (execEncoderEdge a0 a1 a2 a3 s) := by
  unfold execEncoderEdge
  refine ⟨_, rfl, ?_⟩
  refine via_ite ?_ ?_
  · exact (via_encoderEdge (hA.of rfl) (via_atTime (hA.of rfl) h _) _ _ _ _)
  · exact h

theorem via_execSincosSample {A : Nat} {s0 : State} (hA : Sub 7597 A) {s : State} (h : Via A s0 s) (a0 : Nat) (a1 : Nat) (a2 : Int) (a3 : Int) (a4 : Nat) (a5 : Bool) : Runs A s0 (execSincosSample a0 a1 a2 a3 a4 a5 s) := by
  unfold execSincosSample
  refine ⟨_, rfl, ?_⟩
  refine via_ite ?_ ?_
  · exact (via_sincosSample (hA.of rfl) (via_atTime (hA.of rfl) h _) _ _ _ _ _ _)
  · exact h

theorem via_execEncoderSignalError {A : Nat} {s0 : State} (hA : Sub 1 A) {s : State} (h : Via A s0 s) (a0 : Nat) : Runs A s0 (execEncoderSignalError a0 s) := by
  unfold execEncoderSignalError
  refine ⟨_, rfl, ?_⟩
  refine via_ite ?_ ?_
  · exact (via_satAdd (hA.of rfl) h _ _)
  · exact h

theorem via_execZeroTimeout {A : Nat} {s0 : State} (hA : Sub 7565 A) {s : State} (h : Via A s0 s) (a0 : Nat) (a1 : Nat) : Runs A s0 (execZeroTimeout a0 a1 s) := by
  unfold execZeroTimeout
  refine ⟨_, rfl, ?_⟩
  refine via_ite ?_ ?_
  · exact (via_zeroTimeout (hA.of rfl) (via_atTime (hA.of rfl) h _) _ _)
  · exact h

theorem via_execDeadReckoningLimit {A : Nat} {s0 : State} (hA : Sub 7565 A) {s : State} (h : Via A s0 s) (a0 : Nat) (a1 : Nat) : Runs A s0 (execDeadReckoningLimit a0 a1 s) := by
  unfold execDeadReckoningLimit
  refine ⟨_, rfl, ?_⟩
  refine via_ite ?_ ?_
  · exact (via_drLimit (hA.of rfl) (via_atTime (hA.of rfl) h _) _ _)
  · exact h

theorem via_execChFaultClear {A : Nat} {s0 : State} (hA : Sub 2097147 A) {s : State} (h : Via A s0 s) (a0 : Sys2Proof.Master) (a1 : Nat) : Runs A s0 (execChFaultClear a0 a1 s) := by
  unfold execChFaultClear
  refine ⟨_, rfl, ?_⟩
  exact (via_cmdWrite (hA.of rfl) h _ _ _)

theorem via_execChCfgWrite {A : Nat} {s0 : State} (hA : Sub 2097147 A) {s : State} (h : Via A s0 s) (a0 : Sys2Proof.Master) (a1 : Nat) (a2 : Sys2Proof.Word) : Runs A s0 (execChCfgWrite a0 a1 a2 s) := by
  unfold execChCfgWrite
  refine ⟨_, rfl, ?_⟩
  exact (via_cmdWrite (hA.of rfl) h _ _ _)

theorem via_triggerDone {A : Nat} {s0 : State} (hA : Sub 7565 A) {s : State} (h : Via A s0 s) (a1 : Nat) (a2 : Nat) : Via A s0 (State.triggerDone s a1 a2) := by
  unfold State.triggerDone
  extract_lets x0
  have hx0 : Via A s0 x0.1 := by
    exact (via_triggerLatch (hA.of rfl) (via_atTime (hA.of rfl) h _) _ _)
  try clear_value x0
  split
  · exact hx0
  · refine via_foldS ?_ ?_ _
    · intro a1 x2 hx2
      extract_lets x3
      try clear_value x3
      split
      · refine via_ite ?_ ?_
        · exact (via_phaseQueue (hA.of rfl) hx2 _ _ _)
        · exact (via_trigLate (hA.of rfl) hx2 _ _)
      · refine via_ite ?_ ?_
        · exact (via_stampAction (hA.of rfl) hx2 _)
        · exact (via_trigLate (hA.of rfl) hx2 _ _)
      · exact hx2
    · exact hx0

theorem via_execTriggerEdge {A : Nat} {s0 : State} (hA : Sub 260 A) {s : State} (h : Via A s0 s) (a0 : Nat) (a1 : Nat) (a2 : Bool) : Runs A s0 (execTriggerEdge a0 a1 a2 s) := by
  unfold execTriggerEdge
  refine ⟨_, rfl, ?_⟩
  refine via_ite ?_ ?_
  · exact (via_triggerEdge (hA.of rfl) (via_atTime (hA.of rfl) h _) _ _ _)
  · exact h

theorem via_execTriggerLatchComplete {A : Nat} {s0 : State} (hA : Sub 7565 A) {s : State} (h : Via A s0 s) (a0 : Nat) (a1 : Nat) : Runs A s0 (execTriggerLatchComplete a0 a1 s) := by
  unfold execTriggerLatchComplete
  refine ⟨_, rfl, ?_⟩
  refine via_ite ?_ ?_
  · exact (via_triggerDone (hA.of rfl) h _ _)
  · exact h

theorem via_execLineLatchPoint {A : Nat} {s0 : State} (hA : Sub 260 A) {s : State} (h : Via A s0 s) (a0 : Nat) (a1 : Nat) : Runs A s0 (execLineLatchPoint a0 a1 s) := by
  unfold execLineLatchPoint
  refine ⟨_, rfl, ?_⟩
  refine via_ite ?_ ?_
  · exact (via_lineLatch (hA.of rfl) (via_atTime (hA.of rfl) h _) _)
  · exact h

theorem via_execLineCommit {A : Nat} {s0 : State} (hA : Sub 8077 A) {s : State} (h : Via A s0 s) (a0 : Nat) (a1 : Nat) : Runs A s0 (execLineCommit a0 a1 s) := by
  unfold execLineCommit
  refine ⟨_, rfl, ?_⟩
  refine via_ite ?_ ?_
  · exact (via_lineCommit (hA.of rfl) (via_atTime (hA.of rfl) h _) _)
  · exact h

theorem via_execLineBoundary {A : Nat} {s0 : State} (hA : Sub 507885 A) {s : State} (h : Via A s0 s) (a0 : Nat) (a1 : Nat) : Runs A s0 (execLineBoundary a0 a1 s) := by
  unfold execLineBoundary
  refine ⟨_, rfl, ?_⟩
  refine via_ite ?_ ?_
  · exact (via_lineBoundary (hA.of rfl) (via_atTime (hA.of rfl) h _) _)
  · exact h

theorem via_execFireEdge {A : Nat} {s0 : State} (hA : Sub 69901 A) {s : State} (h : Via A s0 s) (a0 : Nat) (a1 : Nat) : Runs A s0 (execFireEdge a0 a1 s) := by
  unfold execFireEdge
  refine ⟨_, rfl, ?_⟩
  refine via_ite ?_ ?_
  · exact (via_fireEdge (hA.of rfl) (via_atTime (hA.of rfl) h _) _ _)
  · exact h

theorem via_execFirePulseEnd {A : Nat} {s0 : State} (hA : Sub 69901 A) {s : State} (h : Via A s0 s) (a0 : Nat) (a1 : Nat) : Runs A s0 (execFirePulseEnd a0 a1 s) := by
  unfold execFirePulseEnd
  refine ⟨_, rfl, ?_⟩
  refine via_ite ?_ ?_
  · exact (via_pulseEnd (hA.of rfl) (via_atTime (hA.of rfl) h _) _ _)
  · exact h

theorem via_execStrobeWatchdogCut {A : Nat} {s0 : State} (hA : Sub 73101 A) {s : State} (h : Via A s0 s) (a0 : Nat) (a1 : Nat) : Runs A s0 (execStrobeWatchdogCut a0 a1 s) := by
  unfold execStrobeWatchdogCut
  refine ⟨_, rfl, ?_⟩
  refine via_ite ?_ ?_
  · exact (via_strobeCut (hA.of rfl) (via_atTime (hA.of rfl) h _) _ _)
  · exact h

theorem via_execStrobeCutRelease {A : Nat} {s0 : State} (hA : Sub 2097147 A) {s : State} (h : Via A s0 s) (a0 : Sys2Proof.Master) (a1 : Nat) (a2 : Nat) : Runs A s0 (execStrobeCutRelease a0 a1 a2 s) := by
  unfold execStrobeCutRelease
  refine ⟨_, rfl, ?_⟩
  exact (via_cmdWrite (hA.of rfl) h _ _ _)

theorem via_execSlotBankSwap {A : Nat} {s0 : State} (hA : Sub 2097147 A) {s : State} (h : Via A s0 s) (a0 : Sys2Proof.Master) (a1 : Nat) : Runs A s0 (execSlotBankSwap a0 a1 s) := by
  unfold execSlotBankSwap
  refine ⟨_, rfl, ?_⟩
  exact (via_cmdWrite (hA.of rfl) h _ _ _)

theorem via_execHeadTempMeasurement {A : Nat} {s0 : State} (hA : Sub 5376 A) {s : State} (h : Via A s0 s) (a0 : Nat) : Runs A s0 (execHeadTempMeasurement a0 s) := by
  unfold execHeadTempMeasurement
  refine ⟨_, rfl, ?_⟩
  refine via_ite ?_ ?_
  · exact (via_headMeasure (hA.of rfl) h _)
  · exact h

theorem via_execCaptureArm {A : Nat} {s0 : State} (hA : Sub 2097147 A) {s : State} (h : Via A s0 s) (a0 : Sys2Proof.Master) (a1 : Nat) (a2 : Sys2Proof.Word) : Runs A s0 (execCaptureArm a0 a1 a2 s) := by
  unfold execCaptureArm
  refine ⟨_, rfl, ?_⟩
  exact (via_cmdWrite (hA.of rfl) h _ _ _)

/-! ### CmdZl -/

theorem via_onLane {A : Nat} {s0 : State} (hA : Sub 4 A) {a3 : State → State} (ha3 : ∀ y0, Via A s0 y0 → Via A s0 (a3 y0)) {s : State} (h : Via A s0 s) (a1 : Nat) (a2 : Nat) : Via A s0 (State.onLane s a1 a2 a3) := by
  unfold State.onLane
  refine via_ite ?_ ?_
  · exact (ha3 _ (via_atTime (hA.of rfl) h _))
  · exact h

theorem via_execLaneEnable {A : Nat} {s0 : State} (hA : Sub 2097147 A) {s : State} (h : Via A s0 s) (a0 : Sys2Proof.Master) (a1 : Nat) (a2 : Nat) : Runs A s0 (execLaneEnable a0 a1 a2 s) := by
  unfold execLaneEnable
  refine ⟨_, rfl, ?_⟩
  exact (via_cmdWrite (hA.of rfl) h _ _ _)

theorem via_execLaneDisable {A : Nat} {s0 : State} (hA : Sub 2097147 A) {s : State} (h : Via A s0 s) (a0 : Sys2Proof.Master) (a1 : Nat) (a2 : Nat) : Runs A s0 (execLaneDisable a0 a1 a2 s) := by
  unfold execLaneDisable
  refine ⟨_, rfl, ?_⟩
  exact (via_cmdWrite (hA.of rfl) h _ _ _)

theorem via_execTrsReceived {A : Nat} {s0 : State} (hA : Sub 499693 A) {s : State} (h : Via A s0 s) (a0 : Nat) (a1 : Nat) (a2 : Nat) (a3 : Bool) (a4 : Nat) (a5 : Nat) : Runs A s0 (execTrsReceived a0 a1 a2 a3 a4 a5 s) := by
  unfold execTrsReceived
  refine ⟨_, rfl, ?_⟩
  refine via_onLane (hA.of rfl) ?_ ?_ _ _
  · intro x0 hx0
    exact (via_trsReceived (hA.of rfl) hx0 _ _ _ _ _)
  · exact h

theorem via_execTrainingTimeout {A : Nat} {s0 : State} (hA : Sub 499693 A) {s : State} (h : Via A s0 s) (a0 : Nat) (a1 : Nat) : Runs A s0 (execTrainingTimeout a0 a1 s) := by
  unfold execTrainingTimeout
  refine ⟨_, rfl, ?_⟩
  refine via_onLane (hA.of rfl) ?_ ?_ _ _
  · intro x0 hx0
    exact (via_trainTimeout (hA.of rfl) hx0 _)
  · exact h

theorem via_execReturnLaneSilent {A : Nat} {s0 : State} (hA : Sub 499693 A) {s : State} (h : Via A s0 s) (a0 : Nat) (a1 : Nat) : Runs A s0 (execReturnLaneSilent a0 a1 s) := by
  unfold execReturnLaneSilent
  refine ⟨_, rfl, ?_⟩
  refine via_onLane (hA.of rfl) ?_ ?_ _ _
  · intro x0 hx0
    exact (via_retrain (hA.of rfl) hx0 _ _)
  · exact h

theorem via_execZlAckReceived {A : Nat} {s0 : State} (hA : Sub 499693 A) {s : State} (h : Via A s0 s) (a0 : Nat) (a1 : Nat) (a2 : Nat) (a3 : Nat) (a4 : Nat) (a5 : Nat) : Runs A s0 (execZlAckReceived a0 a1 a2 a3 a4 a5 s) := by
  unfold execZlAckReceived
  refine ⟨_, rfl, ?_⟩
  refine via_onLane (hA.of rfl) ?_ ?_ _ _
  · intro x0 hx0
    exact (via_zlAck (hA.of rfl) hx0 _ _ _ _ _)
  · exact h

theorem via_execZlAckTimeout {A : Nat} {s0 : State} (hA : Sub 7821 A) {s : State} (h : Via A s0 s) (a0 : Nat) (a1 : Nat) (a2 : Nat) (a3 : Nat) (a4 : Nat) : Runs A s0 (execZlAckTimeout a0 a1 a2 a3 a4 s) := by
  unfold execZlAckTimeout
  refine ⟨_, rfl, ?_⟩
  refine via_onLane (hA.of rfl) ?_ ?_ _ _
  · intro x0 hx0
    exact (via_ackTimeout (hA.of rfl) hx0 _ _ _ _)
  · exact h

theorem via_execZlTransmissionEnd {A : Nat} {s0 : State} (hA : Sub 4613 A) {s : State} (h : Via A s0 s) (a0 : Nat) (a1 : Nat) : Runs A s0 (execZlTransmissionEnd a0 a1 s) := by
  unfold execZlTransmissionEnd
  refine ⟨_, rfl, ?_⟩
  refine via_onLane (hA.of rfl) ?_ ?_ _ _
  · intro x0 hx0
    exact (via_txEnd (hA.of rfl) hx0 _)
  · exact h

theorem via_execReplayWindowEnd {A : Nat} {s0 : State} (hA : Sub 499693 A) {s : State} (h : Via A s0 s) (a0 : Nat) (a1 : Nat) : Runs A s0 (execReplayWindowEnd a0 a1 s) := by
  unfold execReplayWindowEnd
  refine ⟨_, rfl, ?_⟩
  refine via_onLane (hA.of rfl) ?_ ?_ _ _
  · intro x0 hx0
    exact (via_replayEnd (hA.of rfl) hx0 _)
  · exact h

theorem via_execHeaderDeadline {A : Nat} {s0 : State} (hA : Sub 499693 A) {s : State} (h : Via A s0 s) (a0 : Nat) (a1 : Nat) : Runs A s0 (execHeaderDeadline a0 a1 s) := by
  unfold execHeaderDeadline
  refine ⟨_, rfl, ?_⟩
  refine via_onLane (hA.of rfl) ?_ ?_ _ _
  · intro x0 hx0
    exact (via_headerDeadline (hA.of rfl) hx0 _)
  · exact h

theorem via_telemetry {A : Nat} {s0 : State} (hA : Sub 7309 A) {a4 : State → State} (ha4 : ∀ y0, Via A s0 y0 → Via A s0 (a4 y0)) {s : State} (h : Via A s0 s) (a1 : Nat) (a2 : Nat) (a3 : List Sys2Proof.Byte) : Via A s0 (State.telemetry s a1 a2 a3 a4) := by
  unfold State.telemetry
  refine via_onLane (hA.of rfl) ?_ ?_ _ _
  · intro x0 hx0
    refine via_ite ?_ ?_
    · exact (via_telemBad (hA.of rfl) hx0 _ _)
    · exact (ha4 _ hx0)
  · exact h

theorem via_execHeadTempMsg {A : Nat} {s0 : State} (hA : Sub 7821 A) {s : State} (h : Via A s0 s) (a0 : Nat) (a1 : Nat) (a2 : List Sys2Proof.Byte) : Runs A s0 (execHeadTempMsg a0 a1 a2 s) := by
  unfold execHeadTempMsg
  refine ⟨_, rfl, ?_⟩
  refine via_telemetry (hA.of rfl) ?_ ?_ _ _ _
  · intro x0 hx0
    exact (via_headTempMsg (hA.of rfl) hx0 _ _ _)
  · exact h

theorem via_execNchkMsg {A : Nat} {s0 : State} (hA : Sub 7309 A) {s : State} (h : Via A s0 s) (a0 : Nat) (a1 : Nat) (a2 : List Sys2Proof.Byte) : Runs A s0 (execNchkMsg a0 a1 a2 s) := by
  unfold execNchkMsg
  refine ⟨_, rfl, ?_⟩
  refine via_telemetry (hA.of rfl) ?_ ?_ _ _ _
  · intro x0 hx0
    exact (via_nchkMsg (hA.of rfl) hx0 _ _ _)
  · exact h

theorem via_execHibStatusMsg {A : Nat} {s0 : State} (hA : Sub 507885 A) {s : State} (h : Via A s0 s) (a0 : Nat) (a1 : Nat) (a2 : Nat) (a3 : List Sys2Proof.Byte) : Runs A s0 (execHibStatusMsg a0 a1 a2 a3 s) := by
  unfold execHibStatusMsg
  refine ⟨_, rfl, ?_⟩
  refine via_telemetry (hA.of rfl) ?_ ?_ _ _ _
  · intro x0 hx0
    exact (via_hibStatusMsg (hA.of rfl) hx0 _ _ _ _)
  · exact h

theorem via_execResponseMsg {A : Nat} {s0 : State} (hA : Sub 7309 A) {s : State} (h : Via A s0 s) (a0 : Nat) (a1 : Nat) (a2 : List Sys2Proof.Byte) : Runs A s0 (execResponseMsg a0 a1 a2 s) := by
  unfold execResponseMsg
  refine ⟨_, rfl, ?_⟩
  refine via_telemetry (hA.of rfl) ?_ ?_ _ _ _
  · intro x0 hx0
    exact (via_telemForward (hA.of rfl) hx0 _ _ _ _)
  · exact h

theorem via_execHibEventMsg {A : Nat} {s0 : State} (hA : Sub 7309 A) {s : State} (h : Via A s0 s) (a0 : Nat) (a1 : Nat) (a2 : Nat) (a3 : List Sys2Proof.Byte) : Runs A s0 (execHibEventMsg a0 a1 a2 a3 s) := by
  unfold execHibEventMsg
  refine ⟨_, rfl, ?_⟩
  refine via_telemetry (hA.of rfl) ?_ ?_ _ _ _
  · intro x0 hx0
    exact (via_hibEventMsg (hA.of rfl) hx0 _ _ _ _)
  · exact h

theorem via_execBadTelemetryFrame {A : Nat} {s0 : State} (hA : Sub 7309 A) {s : State} (h : Via A s0 s) (a0 : Nat) (a1 : Nat) (a2 : Bool) : Runs A s0 (execBadTelemetryFrame a0 a1 a2 s) := by
  unfold execBadTelemetryFrame
  refine ⟨_, rfl, ?_⟩
  refine via_onLane (hA.of rfl) ?_ ?_ _ _
  · intro x0 hx0
    exact (via_telemBad (hA.of rfl) hx0 _ _)
  · exact h

theorem via_execTelemPerWrite {A : Nat} {s0 : State} (hA : Sub 2097147 A) {s : State} (h : Via A s0 s) (a0 : Sys2Proof.Master) (a1 : Sys2Proof.Word) : Runs A s0 (execTelemPerWrite a0 a1 s) := by
  unfold execTelemPerWrite
  refine ⟨_, rfl, ?_⟩
  exact (via_cmdWrite (hA.of rfl) h _ _ _)

theorem via_execSpareTake {A : Nat} {s0 : State} (hA : Sub 2097147 A) {s : State} (h : Via A s0 s) (a0 : Sys2Proof.Master) (a1 : Nat) : Runs A s0 (execSpareTake a0 a1 s) := by
  unfold execSpareTake
  refine ⟨_, rfl, ?_⟩
  exact (via_cmdWrite (hA.of rfl) h _ _ _)

theorem via_execSpareRelease {A : Nat} {s0 : State} (hA : Sub 2097147 A) {s : State} (h : Via A s0 s) (a0 : Sys2Proof.Master) (a1 : Nat) : Runs A s0 (execSpareRelease a0 a1 s) := by
  unfold execSpareRelease
  refine ⟨_, rfl, ?_⟩
  exact (via_cmdWrite (hA.of rfl) h _ _ _)

theorem via_execZlHibWrite {A : Nat} {s0 : State} (hA : Sub 2097147 A) {s : State} (h : Via A s0 s) (a0 : Sys2Proof.Master) (a1 : Nat) (a2 : Nat) (a3 : Nat) : Runs A s0 (execZlHibWrite a0 a1 a2 a3 s) := by
  unfold execZlHibWrite
  refine ⟨_, rfl, ?_⟩
  exact (via_cmdWrite (hA.of rfl) h _ _ _)

theorem via_execZlHibRead {A : Nat} {s0 : State} (hA : Sub 2097147 A) {s : State} (h : Via A s0 s) (a0 : Sys2Proof.Master) (a1 : Nat) (a2 : Nat) (a3 : Nat) : Runs A s0 (execZlHibRead a0 a1 a2 a3 s) := by
  unfold execZlHibRead
  refine ⟨_, rfl, ?_⟩
  exact (via_cmdWrite (hA.of rfl) h _ _ _)

theorem via_execZlNchk {A : Nat} {s0 : State} (hA : Sub 2097147 A) {s : State} (h : Via A s0 s) (a0 : Sys2Proof.Master) (a1 : Nat) (a2 : Nat) (a3 : Nat) : Runs A s0 (execZlNchk a0 a1 a2 a3 s) := by
  unfold execZlNchk
  refine ⟨_, rfl, ?_⟩
  exact (via_cmdWrite (hA.of rfl) h _ _ _)

theorem via_execZlHibSpecific {A : Nat} {s0 : State} (hA : Sub 2097147 A) {s : State} (h : Via A s0 s) (a0 : Sys2Proof.Master) (a1 : Nat) (a2 : Nat) (a3 : Nat) (a4 : Nat) : Runs A s0 (execZlHibSpecific a0 a1 a2 a3 a4 s) := by
  unfold execZlHibSpecific
  refine ⟨_, rfl, ?_⟩
  exact (via_cmdWrite (hA.of rfl) h _ _ _)

/-! ### CmdMem -/

theorem via_arbAsk {A : Nat} {s0 : State} (hA : Sub 171209 A) {s : State} (h : Via A s0 s) (a1 : Nat) (a2 : Nat) (a3 : Nat) (a4 : Bool) (a5 : Sys2Proof.ReqWork) : Via A s0 (State.arbAsk s a1 a2 a3 a4 a5) := by
  unfold State.arbAsk
  split
  · refine via_ite ?_ ?_
    · exact (via_arbRaise (hA.of rfl) h _ _ _ _ _)
    · exact h
  · refine via_ite ?_ ?_
    · exact (via_arbRaise (hA.of rfl) h _ _ _ _ _)
    · exact h
  · refine via_ite ?_ ?_
    · split
      · rename_i y0 y1 heq2
        have hy1 : Via A s0 y1 := by
          have e := congrArg Prod.snd heq2
          dsimp only at e
          rw [← e]
          exact (via_nextTile (hA.of rfl) h _)
        refine via_ite ?_ ?_
        · exact (via_arbRaise (hA.of rfl) hy1 _ _ _ _ _)
        · exact h
      · rename_i y3 heq4
        have hy3 : Via A s0 y3 := by
          have e := congrArg Prod.snd heq4
          dsimp only at e
          rw [← e]
          exact (via_nextTile (hA.of rfl) h _)
        exact hy3
    · exact h
  · refine via_ite ?_ ?_
    · exact (via_arbRaise (hA.of rfl) h _ _ _ _ _)
    · exact h

theorem via_laneStart {A : Nat} {s0 : State} (hA : Sub 131233 A) {s : State} (h : Via A s0 s) (a1 : Nat) (a2 : Work) : Via A s0 (State.laneStart s a1 a2) := by
  unfold State.laneStart
  exact (via_caratClass (hA.of rfl) (via_setLinger (hA.of rfl) h _ _) _ _)

theorem via_grantTo {A : Nat} {s0 : State} (hA : Sub 171241 A) {s : State} (h : Via A s0 s) (a1 : Nat) (a2 : Req) (a3 : Nat) (a4 : Nat) : Via A s0 (State.grantTo s a1 a2 a3 a4) := by
  unfold State.grantTo
  extract_lets x0
  have hx0 : Via A s0 x0 := by
    exact (via_arbGive (hA.of rfl) h _ _ _ _)
  try clear_value x0
  refine via_ite ?_ ?_
  · exact (via_laneStart (hA.of rfl) hx0 _ _)
  · exact hx0

theorem via_arbGrant {A : Nat} {s0 : State} (hA : Sub 171241 A) {s : State} (h : Via A s0 s) (a1 : Nat) (a2 : Nat) (a3 : Nat) : Via A s0 (State.arbGrant s a1 a2 a3) := by
  unfold State.arbGrant
  split
  · exact (via_grantTo (hA.of rfl) h _ _ _ _)
  · exact h

theorem via_execArbGrant {A : Nat} {s0 : State} (hA : Sub 171245 A) {s : State} (h : Via A s0 s) (a0 : Nat) (a1 : Nat) (a2 : Nat) (a3 : Nat) : Runs A s0 (execArbGrant a0 a1 a2 a3 s) := by
  unfold execArbGrant
  refine ⟨_, rfl, ?_⟩
  refine via_ite ?_ ?_
  · exact (via_arbGrant (hA.of rfl) (via_atTime (hA.of rfl) h _) _ _ _)
  · exact h

theorem via_arbPreempt {A : Nat} {s0 : State} (hA : Sub 171241 A) {s : State} (h : Via A s0 s) (a1 : Nat) (a2 : Nat) (a3 : Nat) : Via A s0 (State.arbPreempt s a1 a2 a3) := by
  unfold State.arbPreempt
  split
  · split
    · extract_lets x0
      have hx0 : Via A s0 x0 := by
        exact (via_grantTo (hA.of rfl) h _ _ _ _)
      try clear_value x0
      refine via_ite ?_ ?_
      · exact (via_arbCut (hA.of rfl) hx0 _ _ _ _)
      · exact (via_arbLose (hA.of rfl) hx0 _ _)
    · exact h
  · exact h

theorem via_execArbPreemption {A : Nat} {s0 : State} (hA : Sub 171245 A) {s : State} (h : Via A s0 s) (a0 : Nat) (a1 : Nat) (a2 : Nat) (a3 : Nat) : Runs A s0 (execArbPreemption a0 a1 a2 a3 s) := by
  unfold execArbPreemption
  refine ⟨_, rfl, ?_⟩
  refine via_ite ?_ ?_
  · exact (via_arbPreempt (hA.of rfl) (via_atTime (hA.of rfl) h _) _ _ _)
  · exact h

theorem via_execArbHoldCut {A : Nat} {s0 : State} (hA : Sub 171213 A) {s : State} (h : Via A s0 s) (a0 : Nat) (a1 : Nat) (a2 : Nat) (a3 : Nat) (a4 : Nat) : Runs A s0 (execArbHoldCut a0 a1 a2 a3 a4 s) := by
  unfold execArbHoldCut
  extract_lets x0
  have hx0 : Via A s0 x0 := by
    exact (via_atTime (hA.of rfl) h _)
  try clear_value x0
  refine ⟨_, rfl, ?_⟩
  refine via_ite ?_ ?_
  · split
    · extract_lets x1
      have hx1 : Via A s0 x1 := by
        exact (via_arbCut (hA.of rfl) hx0 _ _ _ _)
      try clear_value x1
      refine via_ite ?_ ?_
      · exact (via_setLinger (hA.of rfl) hx1 _ _)
      · exact hx1
    · exact hx0
  · exact hx0

theorem via_execArbStarve {A : Nat} {s0 : State} (hA : Sub 40141 A) {s : State} (h : Via A s0 s) (a0 : Nat) (a1 : Nat) (a2 : Nat) : Runs A s0 (execArbStarve a0 a1 a2 s) := by
  unfold execArbStarve
  refine ⟨_, rfl, ?_⟩
  refine via_ite ?_ ?_
  · exact (via_arbStarve (hA.of rfl) (via_atTime (hA.of rfl) h _) _ _)
  · exact h

theorem via_accessDone {A : Nat} {s0 : State} (hA : Sub 507371 A) {s : State} (h : Via A s0 s) (a1 : Nat) (a2 : Nat) (a3 : Nat) (a4 : Nat) : Via A s0 (State.accessDone s a1 a2 a3 a4) := by
  unfold State.accessDone
  split
  · rename_i y0 heq1
    have hy0 : Via A s0 y0 := by
      have e := congrArg Prod.fst heq1
      dsimp only at e
      rw [← e]
      exact (via_dramAccess (hA.of rfl) h _ _ _ _)
    exact hy0
  · rename_i y2 y3 y4 heq5
    have hy2 : Via A s0 y2 := by
      have e := congrArg Prod.fst heq5
      dsimp only at e
      rw [← e]
      exact (via_dramAccess (hA.of rfl) h _ _ _ _)
    extract_lets x6
    have hx6 : Via A s0 x6 := by
      unfold x6
      split
      · refine via_ite ?_ ?_
        · refine via_sweepAccess (hA.of rfl) ?_ _
          refine via_ite ?_ ?_
          · exact (via_sweepBad (hA.of rfl) hy2 _ _)
          · exact hy2
        · refine via_ite ?_ ?_
          · refine via_ite ?_ ?_
            · exact (via_locketFail (hA.of rfl) hy2 _)
            · refine via_ite ?_ ?_
              · exact hy2
              · exact (via_locketRead (hA.of rfl) hy2 _)
          · exact hy2
      · exact hy2
    try clear_value x6
    refine via_ite ?_ ?_
    · exact (via_giveUp (hA.of rfl) hx6)
    · exact hx6

theorem via_execDramAccess {A : Nat} {s0 : State} (hA : Sub 507375 A) {s : State} (h : Via A s0 s) (a0 : Nat) (a1 : Nat) (a2 : Nat) (a3 : Nat) (a4 : Nat) : Runs A s0 (execDramAccess a0 a1 a2 a3 a4 s) := by
  unfold execDramAccess
  refine ⟨_, rfl, ?_⟩
  refine via_ite ?_ ?_
  · exact (via_accessDone (hA.of rfl) (via_atTime (hA.of rfl) h _) _ _ _ _)
  · exact h

theorem via_execRefreshDue {A : Nat} {s0 : State} (hA : Sub 65 A) {s : State} (h : Via A s0 s) (a0 : Nat) : Runs A s0 (execRefreshDue a0 s) := by
  unfold execRefreshDue
  refine ⟨_, rfl, ?_⟩
  refine via_ite ?_ ?_
  · exact (via_refreshDue (hA.of rfl) h _)
  · exact h

theorem via_execMr4Poll {A : Nat} {s0 : State} (hA : Sub 1 A) {s : State} (h : Via A s0 s) (a0 : Nat) (a1 : Nat) (a2 : Bool) : Runs A s0 (execMr4Poll a0 a1 a2 s) := by
  unfold execMr4Poll
  refine ⟨_, rfl, ?_⟩
  refine via_ite ?_ ?_
  · exact (via_mr4 (hA.of rfl) h _ _ _)
  · exact h

theorem via_execRdWindowStart {A : Nat} {s0 : State} (hA : Sub 64 A) {s : State} (h : Via A s0 s) : Runs A s0 (execRdWindowStart s) := by
  unfold execRdWindowStart
  refine ⟨_, rfl, ?_⟩
  refine via_ite ?_ ?_
  · exact (via_rdWindow (hA.of rfl) h)
  · exact h

theorem via_execDramInitDone {A : Nat} {s0 : State} (hA : Sub 7369 A) {s : State} (h : Via A s0 s) : Runs A s0 (execDramInitDone s) := by
  unfold execDramInitDone
  refine ⟨_, rfl, ?_⟩
  refine via_ite ?_ ?_
  · exact (via_initDone (hA.of rfl) h)
  · exact h

theorem via_execWdqWrite {A : Nat} {s0 : State} (hA : Sub 2097147 A) {s : State} (h : Via A s0 s) (a0 : Sys2Proof.Master) (a1 : Nat) (a2 : Sys2Proof.Word) : Runs A s0 (execWdqWrite a0 a1 a2 s) := by
  unfold execWdqWrite
  refine ⟨_, rfl, ?_⟩
  exact (via_cmdWrite (hA.of rfl) h _ _ _)

/-! ### CmdHsk -/

theorem via_execCaratRequest {A : Nat} {s0 : State} (hA : Sub 37 A) {s : State} (h : Via A s0 s) (a0 : Nat) (a1 : Nat) (a2 : Nat) : Runs A s0 (execCaratRequest a0 a1 a2 s) := by
  unfold execCaratRequest
  extract_lets x0 x1
  have hx0 : Via A s0 x0 := by
    exact (via_atTime (hA.of rfl) h _)
  try clear_value x0
  try clear_value x1
  refine ⟨_, rfl, ?_⟩
  refine via_ite ?_ ?_
  · exact (via_caratRequest (hA.of rfl) hx0 _ _ _ _)
  · exact hx0

theorem via_execCaratGrant {A : Nat} {s0 : State} (hA : Sub 37 A) {s : State} (h : Via A s0 s) (a0 : Nat) : Runs A s0 (execCaratGrant a0 s) := by
  unfold execCaratGrant
  refine ⟨_, rfl, ?_⟩
  refine via_ite ?_ ?_
  · exact (via_caratGrant (hA.of rfl) (via_atTime (hA.of rfl) h _))
  · exact h

theorem via_execCaratRelease {A : Nat} {s0 : State} (hA : Sub 33 A) {s : State} (h : Via A s0 s) (a0 : Nat) (a1 : Nat) : Runs A s0 (execCaratRelease a0 a1 s) := by
  unfold execCaratRelease
  refine ⟨_, rfl, ?_⟩
  refine via_ite ?_ ?_
  · exact (via_caratRelease (hA.of rfl) h _ _)
  · exact h

theorem via_execLingerExpiry {A : Nat} {s0 : State} (hA : Sub 131237 A) {s : State} (h : Via A s0 s) (a0 : Nat) (a1 : Nat) : Runs A s0 (execLingerExpiry a0 a1 s) := by
  unfold execLingerExpiry
  refine ⟨_, rfl, ?_⟩
  refine via_ite ?_ ?_
  · exact (via_lingerExpiry (hA.of rfl) (via_atTime (hA.of rfl) h _) _)
  · exact h

theorem via_execCaratStarve {A : Nat} {s0 : State} (hA : Sub 7341 A) {s : State} (h : Via A s0 s) (a0 : Nat) (a1 : Nat) : Runs A s0 (execCaratStarve a0 a1 s) := by
  unfold execCaratStarve
  refine ⟨_, rfl, ?_⟩
  refine via_ite ?_ ?_
  · exact (via_caratStarve (hA.of rfl) (via_atTime (hA.of rfl) h _) _)
  · exact h

theorem via_execCaratRateWindow {A : Nat} {s0 : State} (hA : Sub 37 A) {s : State} (h : Via A s0 s) (a0 : Nat) : Runs A s0 (execCaratRateWindow a0 s) := by
  unfold execCaratRateWindow
  refine ⟨_, rfl, ?_⟩
  refine via_ite ?_ ?_
  · exact (via_caratGrants (hA.of rfl) (via_atTime (hA.of rfl) h _) _)
  · exact h

theorem via_stopEntered {A : Nat} {s0 : State} (hA : Sub 507369 A) {s : State} (h : Via A s0 s) : Via A s0 (State.stopEntered s) := by
  unfold State.stopEntered
  extract_lets x0 x1 x2 x3
  have hx0 : ∀ b0, Via A s0 b0 → Via A s0 (x0 b0) := by
    intro b0 hb4
    unfold x0
    refine via_ite ?_ ?_
    · exact (via_padsUpdate (hA.of rfl) (via_setReg (hA.of rfl) (via_setReg (hA.of rfl) hb4 _ _) _ _))
    · exact hb4
  try clear_value x0
  have hx1 : Via A s0 x1 := by
    unfold x1
    refine via_modAux (hA.of rfl) _ (.inr fun _ => by unfold Aux.power; rfl) (.inr fun _ => by unfold Aux.waits; rfl) (.inr fun _ => rfl) (.inr fun _ => rfl) (fun _ h => by first | simpa [Aux.sized] using h | simp_all [Aux.sized]) ?_
    exact h
  try clear_value x1
  try clear_value x2
  have hx3 : Via A s0 x3 := by
    unfold x3
    refine via_foldS ?_ ?_ _
    · intro a5 x6 hx6
      extract_lets x7
      try clear_value x7
      exact (via_stopBarAt (hA.of rfl) (via_sendPair (hA.of rfl) hx6 _) _ _)
    · exact hx1
  try clear_value x3
  split
  · exact (via_setRole (hA.of rfl) h _ _ _)
  · exact (via_locketFail (hA.of rfl) h _)
  · refine via_ite ?_ ?_
    · refine via_stopAll (hA.of rfl) ?_
      refine via_modAux (hA.of rfl) _ (.inr fun _ => by unfold Aux.power; rfl) (.inr fun _ => by unfold Aux.waits; rfl) (.inr fun _ => rfl) (.inr fun _ => rfl) (fun _ h => by first | simpa [Aux.sized] using h | simp_all [Aux.sized]) ?_
      exact h
    · exact (hx0 _ h)
  · refine via_ite ?_ ?_
    · exact (via_devJobs (hA.of rfl) hx3)
    · exact (hx0 _ h)

theorem via_thermal {A : Nat} {s0 : State} (hA : Sub 2097147 A) {s : State} (h : Via A s0 s) (a1 : List Sys2Proof.SiteSample) : Via A s0 (State.thermal s a1) := by
  unfold State.thermal
  extract_lets x0 x1 x2
  have hx0 : Via A s0 x0.1 := by
    exact (via_thermalRound (hA.of rfl) h _)
  try clear_value x0
  have hx1 : Via A s0 x1 := by
    unfold x1
    split
    · exact (via_stopEntered (hA.of rfl) hx0)
    · exact (via_padsUpdate (hA.of rfl) hx0)
    · exact hx0
  try clear_value x1
  have hx2 : Via A s0 x2 := by
    exact (via_calTemp (hA.of rfl) hx1)
  try clear_value x2
  refine via_ite ?_ ?_
  · exact (via_settle (hA.of rfl) (via_critical (hA.of rfl) hx2))
  · exact hx2

theorem via_execThermalRound {A : Nat} {s0 : State} (hA : Sub 2097147 A) {s : State} (h : Via A s0 s) (a0 : List Sys2Proof.SiteSample) : Runs A s0 (execThermalRound a0 s) := by
  unfold execThermalRound
  refine ⟨_, rfl, ?_⟩
  refine via_ite ?_ ?_
  · exact (via_thermal (hA.of rfl) h _)
  · exact h

theorem via_execCalRunCmd {A : Nat} {s0 : State} (hA : Sub 2097147 A) {s : State} (h : Via A s0 s) (a0 : Sys2Proof.Master) (a1 : Nat) (a2 : Nat) : Runs A s0 (execCalRunCmd a0 a1 a2 s) := by
  unfold execCalRunCmd
  refine ⟨_, rfl, ?_⟩
  exact (via_cmdWrite (hA.of rfl) h _ _ _)

theorem via_execCalForce {A : Nat} {s0 : State} (hA : Sub 2097147 A) {s : State} (h : Via A s0 s) (a0 : Sys2Proof.Master) (a1 : Nat) (a2 : Nat) : Runs A s0 (execCalForce a0 a1 a2 s) := by
  unfold execCalForce
  refine ⟨_, rfl, ?_⟩
  exact (via_cmdWrite (hA.of rfl) h _ _ _)

theorem via_execCalCancel {A : Nat} {s0 : State} (hA : Sub 2097147 A) {s : State} (h : Via A s0 s) (a0 : Sys2Proof.Master) (a1 : Nat) (a2 : Nat) : Runs A s0 (execCalCancel a0 a1 a2 s) := by
  unfold execCalCancel
  refine ⟨_, rfl, ?_⟩
  exact (via_cmdWrite (hA.of rfl) h _ _ _)

theorem via_execCalUnitStart {A : Nat} {s0 : State} (hA : Sub 37 A) {s : State} (h : Via A s0 s) (a0 : Nat) (a1 : Nat) (a2 : Nat) : Runs A s0 (execCalUnitStart a0 a1 a2 s) := by
  unfold execCalUnitStart
  refine ⟨_, rfl, ?_⟩
  refine via_ite ?_ ?_
  · exact (via_calUnitStart (hA.of rfl) (via_atTime (hA.of rfl) h _) _ _)
  · exact h

theorem via_execAdcFitDone {A : Nat} {s0 : State} (hA : Sub 36 A) {s : State} (h : Via A s0 s) (a0 : Nat) (a1 : Nat) : Runs A s0 (execAdcFitDone a0 a1 s) := by
  unfold execAdcFitDone
  refine ⟨_, rfl, ?_⟩
  refine via_ite ?_ ?_
  · exact (via_adcFitDone (hA.of rfl) (via_atTime (hA.of rfl) h _) _)
  · exact h

theorem via_execCalUnitComplete {A : Nat} {s0 : State} (hA : Sub 15789 A) {s : State} (h : Via A s0 s) (a0 : Nat) (a1 : Nat) (a2 : Nat) (a3 : Bool) (a4 : List Sys2Proof.Word) : Runs A s0 (execCalUnitComplete a0 a1 a2 a3 a4 s) := by
  unfold execCalUnitComplete
  refine ⟨_, rfl, ?_⟩
  refine via_ite ?_ ?_
  · exact (via_calUnitComplete (hA.of rfl) (via_atTime (hA.of rfl) h _) _ _ _ _)
  · exact h

theorem via_execCalOverdue {A : Nat} {s0 : State} (hA : Sub 7341 A) {s : State} (h : Via A s0 s) (a0 : Nat) (a1 : Nat) (a2 : Nat) : Runs A s0 (execCalOverdue a0 a1 a2 s) := by
  unfold execCalOverdue
  refine ⟨_, rfl, ?_⟩
  refine via_ite ?_ ?_
  · exact (via_calOverdue (hA.of rfl) (via_atTime (hA.of rfl) h _) _ _)
  · exact h

theorem via_execCalResultWrite {A : Nat} {s0 : State} (hA : Sub 2097147 A) {s : State} (h : Via A s0 s) (a0 : Sys2Proof.Master) (a1 : Nat) (a2 : Sys2Proof.Word) : Runs A s0 (execCalResultWrite a0 a1 a2 s) := by
  unfold execCalResultWrite
  refine ⟨_, rfl, ?_⟩
  exact (via_cmdWrite (hA.of rfl) h _ _ _)

/-! ### CmdPair -/

theorem via_execParClaim {A : Nat} {s0 : State} (hA : Sub 2097151 A) {s : State} (h : Via A s0 s) (a0 : Nat) (a1 : Option Sys2Proof.Master) : Runs A s0 (execParClaim a0 a1 s) := by
  unfold execParClaim
  extract_lets x0
  have hx0 : Via A s0 x0 := by
    exact (via_atTime (hA.of rfl) h _)
  try clear_value x0
  refine ⟨_, rfl, ?_⟩
  split
  · refine via_ite ?_ ?_
    · exact (via_cmdWrite (hA.of rfl) (via_atTime (hA.of rfl) h _) _ _ _)
    · exact h
  · refine via_ite ?_ ?_
    · exact h
    · refine via_ite ?_ ?_
      · exact (via_claimStart (hA.of rfl) hx0)
      · exact hx0

theorem via_execParHandover {A : Nat} {s0 : State} (hA : Sub 2097147 A) {s : State} (h : Via A s0 s) (a0 : Sys2Proof.Master) : Runs A s0 (execParHandover a0 s) := by
  unfold execParHandover
  refine ⟨_, rfl, ?_⟩
  exact (via_cmdWrite (hA.of rfl) h _ _ _)

theorem via_execParResync {A : Nat} {s0 : State} (hA : Sub 2097147 A) {s : State} (h : Via A s0 s) (a0 : Option Sys2Proof.Master) : Runs A s0 (execParResync a0 s) := by
  unfold execParResync
  refine ⟨_, rfl, ?_⟩
  split
  · exact (via_cmdWrite (hA.of rfl) h _ _ _)
  · refine via_ite ?_ ?_
    · exact (via_resyncTry (hA.of rfl) (via_modPlk (hA.of rfl) h _))
    · exact h

theorem via_execParDetach {A : Nat} {s0 : State} (hA : Sub 2097147 A) {s : State} (h : Via A s0 s) (a0 : Sys2Proof.Master) : Runs A s0 (execParDetach a0 s) := by
  unfold execParDetach
  refine ⟨_, rfl, ?_⟩
  exact (via_cmdWrite (hA.of rfl) h _ _ _)

theorem via_execParAbortLocket {A : Nat} {s0 : State} (hA : Sub 2097147 A) {s : State} (h : Via A s0 s) (a0 : Sys2Proof.Master) : Runs A s0 (execParAbortLocket a0 s) := by
  unfold execParAbortLocket
  refine ⟨_, rfl, ?_⟩
  exact (via_cmdWrite (hA.of rfl) h _ _ _)

theorem via_onPlk {A : Nat} {s0 : State} (hA : Sub 4 A) {a2 : State → State} (ha2 : ∀ y0, Via A s0 y0 → Via A s0 (a2 y0)) {s : State} (h : Via A s0 s) (a1 : Nat) : Via A s0 (State.onPlk s a1 a2) := by
  unfold State.onPlk
  refine via_ite ?_ ?_
  · exact (ha2 _ (via_atTime (hA.of rfl) h _))
  · exact h

theorem via_execClaimCollisionCheck {A : Nat} {s0 : State} (hA : Sub 73101 A) {s : State} (h : Via A s0 s) (a0 : Nat) : Runs A s0 (execClaimCollisionCheck a0 s) := by
  unfold execClaimCollisionCheck
  refine ⟨_, rfl, ?_⟩
  refine via_onPlk (hA.of rfl) ?_ ?_ _
  · intro x0 hx0
    exact (via_claimCheck (hA.of rfl) hx0)
  · exact h

theorem via_execClaimRetry {A : Nat} {s0 : State} (hA : Sub 73101 A) {s : State} (h : Via A s0 s) (a0 : Nat) : Runs A s0 (execClaimRetry a0 s) := by
  unfold execClaimRetry
  refine ⟨_, rfl, ?_⟩
  refine via_onPlk (hA.of rfl) ?_ ?_ _
  · intro x0 hx0
    exact (via_claimRetry (hA.of rfl) hx0)
  · exact h

theorem via_execHoldInFall {A : Nat} {s0 : State} (hA : Sub 146669 A) {s : State} (h : Via A s0 s) (a0 : Nat) : Runs A s0 (execHoldInFall a0 s) := by
  unfold execHoldInFall
  refine ⟨_, rfl, ?_⟩
  refine via_onPlk (hA.of rfl) ?_ ?_ _
  · intro x0 hx0
    exact (via_holdFall (hA.of rfl) hx0)
  · exact h

theorem via_execHoldInRise {A : Nat} {s0 : State} (hA : Sub 1029 A) {s : State} (h : Via A s0 s) (a0 : Nat) : Runs A s0 (execHoldInRise a0 s) := by
  unfold execHoldInRise
  refine ⟨_, rfl, ?_⟩
  refine via_onPlk (hA.of rfl) ?_ ?_ _
  · intro x0 hx0
    exact (via_holdRise (hA.of rfl) hx0)
  · exact h

theorem via_execTakeoverDecision {A : Nat} {s0 : State} (hA : Sub 499181 A) {s : State} (h : Via A s0 s) (a0 : Nat) : Runs A s0 (execTakeoverDecision a0 s) := by
  unfold execTakeoverDecision
  refine ⟨_, rfl, ?_⟩
  refine via_onPlk (hA.of rfl) ?_ ?_ _
  · intro x0 hx0
    exact (via_takeover (hA.of rfl) hx0)
  · exact h

theorem via_fromPartner {A : Nat} {s0 : State} (hA : Sub 5124 A) {a3 : State → State} (ha3 : ∀ y0, Via A s0 y0 → Via A s0 (a3 y0)) {s : State} (h : Via A s0 s) (a1 : Nat) (a2 : PairHdr) : Via A s0 (State.fromPartner s a1 a2 a3) := by
  unfold State.fromPartner
  refine via_onPlk (hA.of rfl) ?_ ?_ _
  · intro x0 hx0
    extract_lets x1
    have hx1 : Via A s0 x1.1 := by
      exact (via_frameIn (hA.of rfl) hx0 _)
    try clear_value x1
    refine via_ite ?_ ?_
    · exact (ha3 _ hx1)
    · exact hx1
  · exact h

theorem via_linkChecked {A : Nat} {s0 : State} (hA : Sub 2097147 A) {s : State} (h : Via A s0 s) : Via A s0 (State.linkChecked s) := by
  unfold State.linkChecked
  refine via_ite ?_ ?_
  · exact h
  · exact (via_settle (hA.of rfl) (via_sbAcked (hA.of rfl) h _))

theorem via_execHeartbeatReceived {A : Nat} {s0 : State} (hA : Sub 7309 A) {s : State} (h : Via A s0 s) (a0 : Nat) (a1 : PairHdr) (a2 : Heartbeat) : Runs A s0 (execHeartbeatReceived a0 a1 a2 s) := by
  unfold execHeartbeatReceived
  refine ⟨_, rfl, ?_⟩
  refine via_fromPartner (hA.of rfl) ?_ ?_ _ _
  · intro x0 hx0
    exact (via_heartbeat (hA.of rfl) hx0 _)
  · exact h

theorem via_execHeartbeatSend {A : Nat} {s0 : State} (hA : Sub 5124 A) {s : State} (h : Via A s0 s) (a0 : Nat) : Runs A s0 (execHeartbeatSend a0 s) := by
  unfold execHeartbeatSend
  refine ⟨_, rfl, ?_⟩
  refine via_onPlk (hA.of rfl) ?_ ?_ _
  · intro x0 hx0
    exact (via_sendHeartbeat (hA.of rfl) hx0)
  · exact h

theorem via_execActionReceived {A : Nat} {s0 : State} (hA : Sub 73101 A) {s : State} (h : Via A s0 s) (a0 : Nat) (a1 : PairHdr) (a2 : Int) (a3 : PairAct) : Runs A s0 (execActionReceived a0 a1 a2 a3 s) := by
  unfold execActionReceived
  refine ⟨_, rfl, ?_⟩
  refine via_fromPartner (hA.of rfl) ?_ ?_ _ _
  · intro x0 hx0
    exact (via_actionIn (hA.of rfl) hx0 _ _)
  · exact h

theorem via_execActionStamp {A : Nat} {s0 : State} (hA : Sub 2097151 A) {s : State} (h : Via A s0 s) : Runs A s0 (execActionStamp s) := by
  unfold execActionStamp
  refine ⟨_, rfl, ?_⟩
  refine via_ite ?_ ?_
  · exact (via_actionStamp (hA.of rfl) h)
  · exact h

theorem via_execResolveReceived {A : Nat} {s0 : State} (hA : Sub 1023469 A) {s : State} (h : Via A s0 s) (a0 : Nat) (a1 : PairHdr) (a2 : Resolve) : Runs A s0 (execResolveReceived a0 a1 a2 s) := by
  unfold execResolveReceived
  refine ⟨_, rfl, ?_⟩
  refine via_fromPartner (hA.of rfl) ?_ ?_ _ _
  · intro x0 hx0
    exact (via_resolveIn (hA.of rfl) hx0 _)
  · exact h

theorem via_execTelemReceived {A : Nat} {s0 : State} (hA : Sub 1023469 A) {s : State} (h : Via A s0 s) (a0 : Nat) (a1 : PairHdr) (a2 : Resolve) : Runs A s0 (execTelemReceived a0 a1 a2 s) := by
  unfold execTelemReceived
  refine ⟨_, rfl, ?_⟩
  refine via_fromPartner (hA.of rfl) ?_ ?_ _ _
  · intro x0 hx0
    exact (via_resolveIn (hA.of rfl) hx0 _)
  · exact h

theorem via_execDigestReceived {A : Nat} {s0 : State} (hA : Sub 212461 A) {s : State} (h : Via A s0 s) (a0 : Nat) (a1 : PairHdr) (a2 : DigKey) (a3 : Nat) : Runs A s0 (execDigestReceived a0 a1 a2 a3 s) := by
  unfold execDigestReceived
  refine ⟨_, rfl, ?_⟩
  refine via_fromPartner (hA.of rfl) ?_ ?_ _ _
  · intro x0 hx0
    exact (via_digestIn (hA.of rfl) hx0 _ _)
  · exact h

theorem via_execDigestWaitExpiry {A : Nat} {s0 : State} (hA : Sub 73101 A) {s : State} (h : Via A s0 s) (a0 : Nat) : Runs A s0 (execDigestWaitExpiry a0 s) := by
  unfold execDigestWaitExpiry
  refine ⟨_, rfl, ?_⟩
  refine via_onPlk (hA.of rfl) ?_ ?_ _
  · intro x0 hx0
    exact (via_digestExpiry (hA.of rfl) hx0)
  · exact h

theorem via_execControlReceived {A : Nat} {s0 : State} (hA : Sub 212461 A) {s : State} (h : Via A s0 s) (a0 : Nat) (a1 : PairHdr) (a2 : PairControl) : Runs A s0 (execControlReceived a0 a1 a2 s) := by
  unfold execControlReceived
  refine ⟨_, rfl, ?_⟩
  refine via_fromPartner (hA.of rfl) ?_ ?_ _ _
  · intro x0 hx0
    exact (via_controlIn (hA.of rfl) hx0 _)
  · exact h

theorem via_execPairFrameAck {A : Nat} {s0 : State} (hA : Sub 2097151 A) {s : State} (h : Via A s0 s) (a0 : Nat) (a1 : Nat) : Runs A s0 (execPairFrameAck a0 a1 s) := by
  unfold execPairFrameAck
  refine ⟨_, rfl, ?_⟩
  refine via_onPlk (hA.of rfl) ?_ ?_ _
  · intro x0 hx0
    refine via_ite ?_ ?_
    · exact (via_settle (hA.of rfl) (via_sbAcked (hA.of rfl) (via_frameAck (hA.of rfl) (via_modPlk (hA.of rfl) hx0 _) _) _))
    · exact hx0
  · exact h

theorem via_execPairFrameRetransmit {A : Nat} {s0 : State} (hA : Sub 2097151 A) {s : State} (h : Via A s0 s) (a0 : Nat) (a1 : Nat) : Runs A s0 (execPairFrameRetransmit a0 a1 s) := by
  unfold execPairFrameRetransmit
  refine ⟨_, rfl, ?_⟩
  refine via_onPlk (hA.of rfl) ?_ ?_ _
  · intro x0 hx0
    exact (via_linkChecked (hA.of rfl) (via_frameAgain (hA.of rfl) hx0 _))
  · exact h

theorem via_execPairFrameCrcError {A : Nat} {s0 : State} (hA : Sub 1 A) {s : State} (h : Via A s0 s) : Runs A s0 (execPairFrameCrcError s) := by
  unfold execPairFrameCrcError
  refine ⟨_, rfl, ?_⟩
  refine via_ite ?_ ?_
  · exact (via_satAdd (hA.of rfl) h _ _)
  · exact h

theorem via_execPairLinkLost {A : Nat} {s0 : State} (hA : Sub 2097151 A) {s : State} (h : Via A s0 s) (a0 : Nat) : Runs A s0 (execPairLinkLost a0 s) := by
  unfold execPairLinkLost
  refine ⟨_, rfl, ?_⟩
  refine via_onPlk (hA.of rfl) ?_ ?_ _
  · intro x0 hx0
    extract_lets x1
    try clear_value x1
    refine via_ite ?_ ?_
    · exact hx0
    · exact (via_linkChecked (hA.of rfl) (via_linkLost (hA.of rfl) (via_modPlk (hA.of rfl) hx0 _)))
  · exact h

theorem via_execGraceExpiry {A : Nat} {s0 : State} (hA : Sub 73101 A) {s : State} (h : Via A s0 s) (a0 : Nat) : Runs A s0 (execGraceExpiry a0 s) := by
  unfold execGraceExpiry
  refine ⟨_, rfl, ?_⟩
  refine via_onPlk (hA.of rfl) ?_ ?_ _
  · intro x0 hx0
    exact (via_graceOver (hA.of rfl) hx0)
  · exact h

theorem via_execPairLinkTraining {A : Nat} {s0 : State} (hA : Sub 15533 A) {s : State} (h : Via A s0 s) (a0 : Nat) (a1 : List Nat) (a2 : Nat) : Runs A s0 (execPairLinkTraining a0 a1 a2 s) := by
  unfold execPairLinkTraining
  refine ⟨_, rfl, ?_⟩
  refine via_onPlk (hA.of rfl) ?_ ?_ _
  · intro x0 hx0
    refine via_ite ?_ ?_
    · exact hx0
    · refine via_linkTrained (hA.of rfl) ?_ _ _
      refine via_foldS ?_ ?_ _
      · intro a1 x2 hx2
        exact (via_prbsAbort (hA.of rfl) hx2 _)
      · exact hx0
  · exact h

theorem via_execLocketReceived {A : Nat} {s0 : State} (hA : Sub 466415 A) {s : State} (h : Via A s0 s) (a0 : Nat) (a1 : PairHdr) (a2 : Nat) (a3 : Nat) (a4 : LocketPart) : Runs A s0 (execLocketReceived a0 a1 a2 a3 a4 s) := by
  unfold execLocketReceived
  refine ⟨_, rfl, ?_⟩
  refine via_fromPartner (hA.of rfl) ?_ ?_ _ _
  · intro x0 hx0
    exact (via_locketIn (hA.of rfl) hx0 _ _ _)
  · exact h

theorem via_execLocketPhaseComplete {A : Nat} {s0 : State} (hA : Sub 204265 A) {s : State} (h : Via A s0 s) (a0 : Nat) : Runs A s0 (execLocketPhaseComplete a0 s) := by
  unfold execLocketPhaseComplete
  refine ⟨_, rfl, ?_⟩
  refine via_ite ?_ ?_
  · exact (via_locketPhaseEnd (hA.of rfl) h _)
  · exact h

theorem via_execLocketMaxExpiry {A : Nat} {s0 : State} (hA : Sub 146669 A) {s : State} (h : Via A s0 s) (a0 : Nat) : Runs A s0 (execLocketMaxExpiry a0 s) := by
  unfold execLocketMaxExpiry
  refine ⟨_, rfl, ?_⟩
  refine via_onPlk (hA.of rfl) ?_ ?_ _
  · intro x0 hx0
    exact (via_locketMax (hA.of rfl) hx0)
  · exact h

/-! ### CmdAux -/

theorem via_execSbPing {A : Nat} {s0 : State} (hA : Sub 81289 A) {s : State} (h : Via A s0 s) (a0 : Nat) : Runs A s0 (execSbPing a0 s) := by
  unfold execSbPing
  refine ⟨_, rfl, ?_⟩
  exact (via_ping_ (hA.of rfl) h _)

theorem via_execSbRead {A : Nat} {s0 : State} (hA : Sub 2097147 A) {s : State} (h : Via A s0 s) (a0 : Nat) (a1 : Nat) (a2 : Nat) : Runs A s0 (execSbRead a0 a1 a2 s) := by
  unfold execSbRead
  refine ⟨_, rfl, ?_⟩
  exact (via_sbReadCmd (hA.of rfl) h _ _ _)

theorem via_execSbWrite {A : Nat} {s0 : State} (hA : Sub 2097147 A) {s : State} (h : Via A s0 s) (a0 : Nat) (a1 : Nat) (a2 : List Sys2Proof.Word) : Runs A s0 (execSbWrite a0 a1 a2 s) := by
  unfold execSbWrite
  refine ⟨_, rfl, ?_⟩
  exact (via_sbWriteCmd (hA.of rfl) h _ _ _)

theorem via_execSbLogRead {A : Nat} {s0 : State} (hA : Sub 81289 A) {s : State} (h : Via A s0 s) (a0 : Nat) (a1 : Nat) (a2 : Nat) : Runs A s0 (execSbLogRead a0 a1 a2 s) := by
  unfold execSbLogRead
  refine ⟨_, rfl, ?_⟩
  exact (via_sbLogCmd (hA.of rfl) h _ _ _)

theorem via_execSbEvtPoll {A : Nat} {s0 : State} (hA : Sub 81289 A) {s : State} (h : Via A s0 s) (a0 : Nat) (a1 : Nat) (a2 : Nat) : Runs A s0 (execSbEvtPoll a0 a1 a2 s) := by
  unfold execSbEvtPoll
  refine ⟨_, rfl, ?_⟩
  exact (via_sbPollCmd (hA.of rfl) h _ _ _)

theorem via_execSbAssign {A : Nat} {s0 : State} (hA : Sub 81289 A) {s : State} (h : Via A s0 s) (a0 : Nat) (a1 : Nat) : Runs A s0 (execSbAssign a0 a1 s) := by
  unfold execSbAssign
  refine ⟨_, rfl, ?_⟩
  exact (via_sbAssignCmd (hA.of rfl) h _ _)

theorem via_execSbUnassign {A : Nat} {s0 : State} (hA : Sub 81289 A) {s : State} (h : Via A s0 s) (a0 : Nat) : Runs A s0 (execSbUnassign a0 s) := by
  unfold execSbUnassign
  refine ⟨_, rfl, ?_⟩
  exact (via_sbUnassignCmd (hA.of rfl) h _)

theorem via_execSbSetRate {A : Nat} {s0 : State} (hA : Sub 15501 A) {s : State} (h : Via A s0 s) (a0 : Nat) (a1 : Nat) (a2 : Nat) : Runs A s0 (execSbSetRate a0 a1 a2 s) := by
  unfold execSbSetRate
  refine ⟨_, rfl, ?_⟩
  refine via_ite ?_ ?_
  · exact (via_sbSetRateCmd (hA.of rfl) (via_atTime (hA.of rfl) h _) _ _)
  · exact h

theorem via_execSbRateSwitch {A : Nat} {s0 : State} (hA : Sub 13 A) {s : State} (h : Via A s0 s) (a0 : Nat) : Runs A s0 (execSbRateSwitch a0 s) := by
  unfold execSbRateSwitch
  refine ⟨_, rfl, ?_⟩
  refine via_ite ?_ ?_
  · exact (via_sbRateSwitch (hA.of rfl) (via_atTime (hA.of rfl) h _))
  · exact h

theorem via_execSbInvalidFrame {A : Nat} {s0 : State} (hA : Sub 15497 A) {s : State} (h : Via A s0 s) (a0 : Bool) : Runs A s0 (execSbInvalidFrame a0 s) := by
  unfold execSbInvalidFrame
  refine ⟨_, rfl, ?_⟩
  refine via_ite ?_ ?_
  · exact (via_sbError (hA.of rfl) h _)
  · exact h

theorem via_execSbUnusableRequest {A : Nat} {s0 : State} (hA : Sub 81289 A) {s : State} (h : Via A s0 s) (a0 : Nat) (a1 : Nat) (a2 : List Sys2Proof.Byte) : Runs A s0 (execSbUnusableRequest a0 a1 a2 s) := by
  unfold execSbUnusableRequest
  refine ⟨_, rfl, ?_⟩
  exact (via_sbUnusableCmd (hA.of rfl) h _ _ _)

theorem via_execSbEpochArm {A : Nat} {s0 : State} (hA : Sub 15501 A) {s : State} (h : Via A s0 s) (a0 : Nat) (a1 : Nat) : Runs A s0 (execSbEpochArm a0 a1 s) := by
  unfold execSbEpochArm
  refine ⟨_, rfl, ?_⟩
  refine via_ite ?_ ?_
  · exact (via_sbEpochCmd (hA.of rfl) (via_atTime (hA.of rfl) h _) _)
  · exact h

theorem via_execEpochPulse {A : Nat} {s0 : State} (hA : Sub 7309 A) {s : State} (h : Via A s0 s) : Runs A s0 (execEpochPulse s) := by
  unfold execEpochPulse
  refine ⟨_, rfl, ?_⟩
  refine via_ite ?_ ?_
  · exact (via_epochPulse (hA.of rfl) h)
  · exact h

theorem via_execSyncInEdge {A : Nat} {s0 : State} (hA : Sub 7309 A) {s : State} (h : Via A s0 s) (a0 : Nat) : Runs A s0 (execSyncInEdge a0 s) := by
  unfold execSyncInEdge
  refine ⟨_, rfl, ?_⟩
  refine via_ite ?_ ?_
  · exact (via_syncEdge (hA.of rfl) h _)
  · exact h

theorem via_execSyncArmExpiry {A : Nat} {s0 : State} (hA : Sub 7309 A) {s : State} (h : Via A s0 s) (a0 : Nat) : Runs A s0 (execSyncArmExpiry a0 s) := by
  unfold execSyncArmExpiry
  refine ⟨_, rfl, ?_⟩
  refine via_ite ?_ ?_
  · exact (via_armExpiry (hA.of rfl) (via_atTime (hA.of rfl) h _))
  · exact h

theorem via_execChainInChange {A : Nat} {s0 : State} (hA : Sub 1 A) {s : State} (h : Via A s0 s) (a0 : Bool) : Runs A s0 (execChainInChange a0 s) := by
  unfold execChainInChange
  refine ⟨_, rfl, ?_⟩
  exact (via_chainIn (hA.of rfl) h _)

theorem via_execTapExtest {A : Nat} {s0 : State} (hA : Sub 4104 A) {s : State} (h : Via A s0 s) (a0 : Option (List Bool)) : Runs A s0 (execTapExtest a0 s) := by
  unfold execTapExtest
  refine ⟨_, rfl, ?_⟩
  exact (via_tapDrive (hA.of rfl) h _ _)

theorem via_execTapIdcode {A : Nat} {s0 : State} (hA : Sub 4104 A) {s : State} (h : Via A s0 s) : Runs A s0 (execTapIdcode s) := by
  unfold execTapIdcode
  refine ⟨_, rfl, ?_⟩
  exact (via_tapIdcode (hA.of rfl) h)

theorem via_execTapSamplePreload {A : Nat} {s0 : State} (hA : Sub 4104 A) {s : State} (h : Via A s0 s) (a0 : List Bool) (a1 : Option (List Bool)) : Runs A s0 (execTapSamplePreload a0 a1 s) := by
  unfold execTapSamplePreload
  refine ⟨_, rfl, ?_⟩
  exact (via_tapSample (hA.of rfl) h _ _)

theorem via_execTapExtestPulse {A : Nat} {s0 : State} (hA : Sub 4104 A) {s : State} (h : Via A s0 s) (a0 : Option (List Bool)) : Runs A s0 (execTapExtestPulse a0 s) := by
  unfold execTapExtestPulse
  refine ⟨_, rfl, ?_⟩
  exact (via_tapDrive (hA.of rfl) h _ _)

theorem via_execTapExtestTrain {A : Nat} {s0 : State} (hA : Sub 4104 A) {s : State} (h : Via A s0 s) (a0 : Option (List Bool)) : Runs A s0 (execTapExtestTrain a0 s) := by
  unfold execTapExtestTrain
  refine ⟨_, rfl, ?_⟩
  exact (via_tapDrive (hA.of rfl) h _ _)

theorem via_execTapDbgreset {A : Nat} {s0 : State} (hA : Sub 2097147 A) {s : State} (h : Via A s0 s) : Runs A s0 (execTapDbgreset s) := by
  unfold execTapDbgreset
  refine ⟨_, rfl, ?_⟩
  exact (via_settle (hA.of rfl) (via_tapDbgReset (hA.of rfl) h))

theorem via_execTapRegaccess {A : Nat} {s0 : State} (hA : Sub 2097147 A) {s : State} (h : Via A s0 s) (a0 : Nat) (a1 : Option Sys2Proof.Word) : Runs A s0 (execTapRegaccess a0 a1 s) := by
  unfold execTapRegaccess
  refine ⟨_, rfl, ?_⟩
  exact (via_tapRegAccess (hA.of rfl) h _ _)

theorem via_execTapBypass {A : Nat} {s0 : State} (hA : Sub 8 A) {s : State} (h : Via A s0 s) (a0 : Nat) : Runs A s0 (execTapBypass a0 s) := by
  unfold execTapBypass
  refine ⟨_, rfl, ?_⟩
  exact (via_tapBypass (hA.of rfl) h _)

theorem via_execTapTestLogicReset {A : Nat} {s0 : State} (hA : Sub 65801 A) {s : State} (h : Via A s0 s) : Runs A s0 (execTapTestLogicReset s) := by
  unfold execTapTestLogicReset
  refine ⟨_, rfl, ?_⟩
  refine via_ite ?_ ?_
  · exact (via_tapReset (hA.of rfl) h)
  · exact h

theorem via_execRegaccessLock {A : Nat} {s0 : State} (hA : Sub 2097147 A) {s : State} (h : Via A s0 s) (a0 : Sys2Proof.Master) : Runs A s0 (execRegaccessLock a0 s) := by
  unfold execRegaccessLock
  refine ⟨_, rfl, ?_⟩
  exact (via_cmdWrite (hA.of rfl) h _ _ _)

theorem via_execPrbsStart {A : Nat} {s0 : State} (hA : Sub 2097147 A) {s : State} (h : Via A s0 s) (a0 : Sys2Proof.Master) (a1 : Sys2Proof.Word) : Runs A s0 (execPrbsStart a0 a1 s) := by
  unfold execPrbsStart
  refine ⟨_, rfl, ?_⟩
  exact (via_cmdWrite (hA.of rfl) h _ _ _)

theorem via_execPrbsRunEnd {A : Nat} {s0 : State} (hA : Sub 7309 A) {s : State} (h : Via A s0 s) (a0 : Nat) (a1 : Nat) (a2 : Bool) : Runs A s0 (execPrbsRunEnd a0 a1 a2 s) := by
  unfold execPrbsRunEnd
  refine ⟨_, rfl, ?_⟩
  refine via_ite ?_ ?_
  · exact (via_prbsEnd (hA.of rfl) (via_atTime (hA.of rfl) h _) _ _)
  · exact h

theorem via_execDiagLaneBert {A : Nat} {s0 : State} (hA : Sub 15497 A) {s : State} (h : Via A s0 s) : Runs A s0 (execDiagLaneBert s) := by
  unfold execDiagLaneBert
  refine ⟨_, rfl, ?_⟩
  refine via_ite ?_ ?_
  · exact (via_diagRun (hA.of rfl) h _ _)
  · exact h

theorem via_execDiagAdcCapture {A : Nat} {s0 : State} (hA : Sub 15497 A) {s : State} (h : Via A s0 s) (a0 : List Sys2Proof.Byte) : Runs A s0 (execDiagAdcCapture a0 s) := by
  unfold execDiagAdcCapture
  refine ⟨_, rfl, ?_⟩
  refine via_ite ?_ ?_
  · exact (via_diagRun (hA.of rfl) h _ _)
  · exact h

theorem via_execDiagEyeScan {A : Nat} {s0 : State} (hA : Sub 15497 A) {s : State} (h : Via A s0 s) (a0 : List Sys2Proof.Byte) : Runs A s0 (execDiagEyeScan a0 s) := by
  unfold execDiagEyeScan
  refine ⟨_, rfl, ?_⟩
  refine via_ite ?_ ?_
  · exact (via_diagRun (hA.of rfl) h _ _)
  · exact h

theorem via_execDiagSensorDump {A : Nat} {s0 : State} (hA : Sub 15497 A) {s : State} (h : Via A s0 s) : Runs A s0 (execDiagSensorDump s) := by
  unfold execDiagSensorDump
  refine ⟨_, rfl, ?_⟩
  refine via_ite ?_ ?_
  · exact (via_diagRun (hA.of rfl) h _ _)
  · exact h

/-! ### Step -/

theorem via_idle {A : Nat} {s0 : State} (hA : Sub 1028 A) {s : State} (h : Via A s0 s) : Via A s0 (State.idle s) := by
  unfold State.idle
  refine via_ite ?_ ?_
  · exact (via_tickSlewed (hA.of rfl) h)
  · exact h

/-! ### All commands -/

/-- ARB_REQUEST completes, or faults because it names a byte of the DRAM that does not exist. -/
theorem via_execArbRequest {A : Nat} {s0 : State} (hA : Sub 171213 A) {s : State} (h : Via A s0 s) (a0 a1 a2 a3 : Nat) (a4 : Bool) (a5 : ReqWork) :
    Runs A s0 (execArbRequest a0 a1 a2 a3 a4 a5 s) ∨ execArbRequest a0 a1 a2 a3 a4 a5 s = .fault .noSuchAddress := by
  unfold execArbRequest
  split
  · exact .inl ⟨_, rfl, h⟩
  · split
    · exact .inr rfl
    · exact .inl ⟨_, rfl, via_arbAsk (hA.of rfl) (via_atTime (hA.of rfl) h _) _ _ _ _ _⟩

/-- Every command completes, but for an ARB_REQUEST that names no byte of the DRAM; what waits in the queue stays, and so does the record of what has left the device. Only a
power-on and a return of VAUX may set DEVTIME back. -/
theorem exec_forward (c : Instr) (s : State) (hp : c ≠ .vauxPowerOn) (hr : c ≠ .vauxReturn) : Runs 2097151 s (exec c s) ∨ exec c s = .fault .noSuchAddress := by
  have hA : Sub 2097151 2097151 := Sub.refl _
  have h : Via 2097151 s s := Via.refl _ _
  cases c
  case vauxPowerOn => exact absurd rfl hp
  case vauxReturn => exact absurd rfl hr
  case vauxBrownOut => exact .inl (via_execVauxBrownOut (hA.of rfl) h)
  case vinValid => exact .inl (via_execVinValid (hA.of rfl) h)
  case vinBrownOut => exact .inl (via_execVinBrownOut (hA.of rfl) h)
  case regulatorFault => exact .inl (via_execRegulatorFault (hA.of rfl) h _ _)
  case regulatorRestart => exact .inl (via_execRegulatorRestart (hA.of rfl) h)
  case regulatorStartSuccess => exact .inl (via_execRegulatorStartSuccess (hA.of rfl) h)
  case trimLoadComplete => exact .inl (via_execTrimLoadComplete (hA.of rfl) h _ _ _)
  case railsInRegulation => exact .inl (via_execRailsInRegulation (hA.of rfl) h)
  case islandClockQualified => exact .inl (via_execIslandClockQualified (hA.of rfl) h _ _)
  case dramTrainingComplete => exact .inl (via_execDramTrainingComplete (hA.of rfl) h _)
  case resetN => exact .inl (via_execResetN (hA.of rfl) h)
  case perstNAssert => exact .inl (via_execPerstNAssert (hA.of rfl) h)
  case perstNDeassert => exact .inl (via_execPerstNDeassert (hA.of rfl) h)
  case clockFailure => exact .inl (via_execClockFailure (hA.of rfl) h _)
  case auxOscillatorFailure => exact .inl (via_execAuxOscillatorFailure (hA.of rfl) h _)
  case fabricLockUp => exact .inl (via_execFabricLockUp (hA.of rfl) h _ _)
  case trimInvalid => exact .inl (via_execTrimInvalid (hA.of rfl) h)
  case devtimeSave => exact .inl (via_execDevtimeSave (hA.of rfl) h _)
  case swrstCore => exact .inl (via_execSwrstCore (hA.of rfl) h _)
  case swrstCoreMem => exact .inl (via_execSwrstCoreMem (hA.of rfl) h _)
  case swrstAll => exact .inl (via_execSwrstAll (hA.of rfl) h _)
  case bootContinue => exact .inl (via_execBootContinue (hA.of rfl) h _)
  case islHoldSet => exact .inl (via_execIslHoldSet (hA.of rfl) h _ _)
  case islHoldClear => exact .inl (via_execIslHoldClear (hA.of rfl) h _ _)
  case blockEnable => exact .inl (via_execBlockEnable (hA.of rfl) h _ _ _)
  case blockDisable => exact .inl (via_execBlockDisable (hA.of rfl) h _ _ _)
  case blockSrst => exact .inl (via_execBlockSrst (hA.of rfl) h _ _ _)
  case drainComplete => exact .inl (via_execDrainComplete (hA.of rfl) h _)
  case evtPendClear => exact .inl (via_execEvtPendClear (hA.of rfl) h _ _ _ _)
  case evtForce => exact .inl (via_execEvtForce (hA.of rfl) h _ _ _)
  case registerWrite => exact .inl (via_execRegisterWrite (hA.of rfl) h _ _ _)
  case loHalfRead => exact .inl (via_execLoHalfRead (hA.of rfl) h _ _)
  case loHalfWrite => exact .inl (via_execLoHalfWrite (hA.of rfl) h _ _ _)
  case hiHalfWrite => exact .inl (via_execHiHalfWrite (hA.of rfl) h _ _ _)
  case popRead => exact .inl (via_execPopRead (hA.of rfl) h _ _)
  case latCntRead => exact .inl (via_execLatCntRead (hA.of rfl) h _ _)
  case cmpFracRead => exact .inl (via_execCmpFracRead (hA.of rfl) h _ _)
  case line64LoRead => exact .inl (via_execLine64LoRead (hA.of rfl) h _ _)
  case evtLostRead => exact .inl (via_execEvtLostRead (hA.of rfl) h _)
  case arrayWindowWrite => exact .inl (via_execArrayWindowWrite (hA.of rfl) h _ _ _)
  case outputEnable => exact .inl (via_execOutputEnable (hA.of rfl) h _ _)
  case outputDisable => exact .inl (via_execOutputDisable (hA.of rfl) h _ _)
  case restFollowDone => exact .inl (via_execRestFollowDone (hA.of rfl) h _ _)
  case claspOpen => exact .inl (via_execClaspOpen (hA.of rfl) h _ _)
  case claspData => exact .inl (via_execClaspData (hA.of rfl) h _ _ _)
  case claspCommit => exact .inl (via_execClaspCommit (hA.of rfl) h _ _)
  case claspAbort => exact .inl (via_execClaspAbort (hA.of rfl) h _ _)
  case claspFree => exact .inl (via_execClaspFree (hA.of rfl) h _ _)
  case claspCommitPoint => exact .inl (via_execClaspCommitPoint (hA.of rfl) h _)
  case claspApplyComplete => exact .inl (via_execClaspApplyComplete (hA.of rfl) h _)
  case claspBatchDescriptor => exact .inl (via_execClaspBatchDescriptor (hA.of rfl) h _)
  case claspListFetched => exact .inl (via_execClaspListFetched (hA.of rfl) h _ _)
  case pcieLinkUp => exact .inl (via_execPcieLinkUp (hA.of rfl) h _ _ _)
  case hotReset => exact .inl (via_execHotReset (hA.of rfl) h)
  case dataLinkDown => exact .inl (via_execDataLinkDown (hA.of rfl) h)
  case submissionDoorbell => exact .inl (via_execSubmissionDoorbell (hA.of rfl) h _ _)
  case recordRingConsWrite => exact .inl (via_execRecordRingConsWrite (hA.of rfl) h _ _)
  case ringEnable => exact .inl (via_execRingEnable (hA.of rfl) h _ _)
  case ringDisable => exact .inl (via_execRingDisable (hA.of rfl) h _ _)
  case descriptorFetched => exact .inl (via_execDescriptorFetched (hA.of rfl) h _ _)
  case dmaReadError => exact .inl (via_execDmaReadError (hA.of rfl) h _ _ _)
  case coalesceTimeout => exact .inl (via_execCoalesceTimeout (hA.of rfl) h _ _)
  case heldRecordFlush => exact .inl (via_execHeldRecordFlush (hA.of rfl) h _)
  case wdtKick => exact .inl (via_execWdtKick (hA.of rfl) h _)
  case wdtWarn => exact .inl (via_execWdtWarn (hA.of rfl) h _)
  case wdtExpired => exact .inl (via_execWdtExpired (hA.of rfl) h _)
  case wdtStop => exact .inl (via_execWdtStop (hA.of rfl) h _ _)
  case jobStart => exact .inl (via_execJobStart (hA.of rfl) h _)
  case jobEnd => exact .inl (via_execJobEnd (hA.of rfl) h _)
  case jobStop => exact .inl (via_execJobStop (hA.of rfl) h _)
  case tileLoad => exact .inl (via_execTileLoad (hA.of rfl) h _)
  case tileStream => exact .inl (via_execTileStream (hA.of rfl) h _)
  case tilePrint => exact .inl (via_execTilePrint (hA.of rfl) h _)
  case tileFree => exact .inl (via_execTileFree (hA.of rfl) h _)
  case loadReadComplete => exact .inl (via_execLoadReadComplete (hA.of rfl) h _ _)
  case printPassEnd => exact .inl (via_execPrintPassEnd (hA.of rfl) h _)
  case planeReleaseComplete => exact .inl (via_execPlaneReleaseComplete (hA.of rfl) h _ _)
  case tileDecodeDone => exact .inl (via_execTileDecodeDone (hA.of rfl) h _)
  case tileCopyDone => exact .inl (via_execTileCopyDone (hA.of rfl) h _)
  case laneStallResume => exact .inl (via_execLaneStallResume (hA.of rfl) h _)
  case codecEncodeTile => exact .inl (via_execCodecEncodeTile (hA.of rfl) h _ _ _)
  case codecEncodeStream => exact .inl (via_execCodecEncodeStream (hA.of rfl) h _ _ _)
  case codecDecodeTile => exact .inl (via_execCodecDecodeTile (hA.of rfl) h _ _ _)
  case codecDecodeStream => exact .inl (via_execCodecDecodeStream (hA.of rfl) h _ _ _)
  case codecResume => exact .inl (via_execCodecResume (hA.of rfl) h _ _ _)
  case codecDiscard => exact .inl (via_execCodecDiscard (hA.of rfl) h _ _ _)
  case codecJobComplete => exact .inl (via_execCodecJobComplete (hA.of rfl) h _)
  case screeningComplete => exact .inl (via_execScreeningComplete (hA.of rfl) h _)
  case maskCheck => exact .inl (via_execMaskCheck (hA.of rfl) h _ _)
  case maskCheckDone => exact .inl (via_execMaskCheckDone (hA.of rfl) h _)
  case passCmd => exact .inl (via_execPassCmd (hA.of rfl) h _ _)
  case densityReport => exact .inl (via_execDensityReport (hA.of rfl) h _)
  case densityStaged => exact .inl (via_execDensityStaged (hA.of rfl) h _ _)
  case nzcLoadDone => exact .inl (via_execNzcLoadDone (hA.of rfl) h)
  case encoderEdge => exact .inl (via_execEncoderEdge (hA.of rfl) h _ _ _ _)
  case sincosSample => exact .inl (via_execSincosSample (hA.of rfl) h _ _ _ _ _ _)
  case zeroTimeout => exact .inl (via_execZeroTimeout (hA.of rfl) h _ _)
  case deadReckoningLimit => exact .inl (via_execDeadReckoningLimit (hA.of rfl) h _ _)
  case chFaultClear => exact .inl (via_execChFaultClear (hA.of rfl) h _ _)
  case chCfgWrite => exact .inl (via_execChCfgWrite (hA.of rfl) h _ _ _)
  case triggerEdge => exact .inl (via_execTriggerEdge (hA.of rfl) h _ _ _)
  case triggerLatchComplete => exact .inl (via_execTriggerLatchComplete (hA.of rfl) h _ _)
  case lineLatchPoint => exact .inl (via_execLineLatchPoint (hA.of rfl) h _ _)
  case lineCommit => exact .inl (via_execLineCommit (hA.of rfl) h _ _)
  case lineBoundary => exact .inl (via_execLineBoundary (hA.of rfl) h _ _)
  case strobeWatchdogCut => exact .inl (via_execStrobeWatchdogCut (hA.of rfl) h _ _)
  case strobeCutRelease => exact .inl (via_execStrobeCutRelease (hA.of rfl) h _ _ _)
  case slotBankSwap => exact .inl (via_execSlotBankSwap (hA.of rfl) h _ _)
  case headTempMeasurement => exact .inl (via_execHeadTempMeasurement (hA.of rfl) h _)
  case captureArm => exact .inl (via_execCaptureArm (hA.of rfl) h _ _ _)
  case laneEnable => exact .inl (via_execLaneEnable (hA.of rfl) h _ _ _)
  case laneDisable => exact .inl (via_execLaneDisable (hA.of rfl) h _ _ _)
  case trsReceived => exact .inl (via_execTrsReceived (hA.of rfl) h _ _ _ _ _ _)
  case trainingTimeout => exact .inl (via_execTrainingTimeout (hA.of rfl) h _ _)
  case zlAckReceived => exact .inl (via_execZlAckReceived (hA.of rfl) h _ _ _ _ _ _)
  case zlAckTimeout => exact .inl (via_execZlAckTimeout (hA.of rfl) h _ _ _ _ _)
  case replayWindowEnd => exact .inl (via_execReplayWindowEnd (hA.of rfl) h _ _)
  case headerDeadline => exact .inl (via_execHeaderDeadline (hA.of rfl) h _ _)
  case returnLaneSilent => exact .inl (via_execReturnLaneSilent (hA.of rfl) h _ _)
  case headTempMsg => exact .inl (via_execHeadTempMsg (hA.of rfl) h _ _ _)
  case nchkMsg => exact .inl (via_execNchkMsg (hA.of rfl) h _ _ _)
  case hibStatusMsg => exact .inl (via_execHibStatusMsg (hA.of rfl) h _ _ _ _)
  case responseMsg => exact .inl (via_execResponseMsg (hA.of rfl) h _ _ _)
  case hibEventMsg => exact .inl (via_execHibEventMsg (hA.of rfl) h _ _ _ _)
  case spareTake => exact .inl (via_execSpareTake (hA.of rfl) h _ _)
  case spareRelease => exact .inl (via_execSpareRelease (hA.of rfl) h _ _)
  case zlHibWrite => exact .inl (via_execZlHibWrite (hA.of rfl) h _ _ _ _)
  case zlHibRead => exact .inl (via_execZlHibRead (hA.of rfl) h _ _ _ _)
  case zlNchk => exact .inl (via_execZlNchk (hA.of rfl) h _ _ _ _)
  case zlHibSpecific => exact .inl (via_execZlHibSpecific (hA.of rfl) h _ _ _ _ _)
  case telemPerWrite => exact .inl (via_execTelemPerWrite (hA.of rfl) h _ _)
  case arbRequest => exact via_execArbRequest (hA.of rfl) h _ _ _ _ _ _
  case arbGrant => exact .inl (via_execArbGrant (hA.of rfl) h _ _ _ _)
  case arbPreemption => exact .inl (via_execArbPreemption (hA.of rfl) h _ _ _ _)
  case arbHoldCut => exact .inl (via_execArbHoldCut (hA.of rfl) h _ _ _ _ _)
  case arbStarve => exact .inl (via_execArbStarve (hA.of rfl) h _ _ _)
  case dramAccess => exact .inl (via_execDramAccess (hA.of rfl) h _ _ _ _ _)
  case refreshDue => exact .inl (via_execRefreshDue (hA.of rfl) h _)
  case mr4Poll => exact .inl (via_execMr4Poll (hA.of rfl) h _ _ _)
  case rdWindowStart => exact .inl (via_execRdWindowStart (hA.of rfl) h)
  case dramInitDone => exact .inl (via_execDramInitDone (hA.of rfl) h)
  case wdqWrite => exact .inl (via_execWdqWrite (hA.of rfl) h _ _ _)
  case caratRequest => exact .inl (via_execCaratRequest (hA.of rfl) h _ _ _)
  case caratGrant => exact .inl (via_execCaratGrant (hA.of rfl) h _)
  case caratRelease => exact .inl (via_execCaratRelease (hA.of rfl) h _ _)
  case lingerExpiry => exact .inl (via_execLingerExpiry (hA.of rfl) h _ _)
  case caratStarve => exact .inl (via_execCaratStarve (hA.of rfl) h _ _)
  case caratRateWindow => exact .inl (via_execCaratRateWindow (hA.of rfl) h _)
  case thermalRound => exact .inl (via_execThermalRound (hA.of rfl) h _)
  case calRunCmd => exact .inl (via_execCalRunCmd (hA.of rfl) h _ _ _)
  case calForce => exact .inl (via_execCalForce (hA.of rfl) h _ _ _)
  case calCancel => exact .inl (via_execCalCancel (hA.of rfl) h _ _ _)
  case calUnitStart => exact .inl (via_execCalUnitStart (hA.of rfl) h _ _ _)
  case adcFitDone => exact .inl (via_execAdcFitDone (hA.of rfl) h _ _)
  case calUnitComplete => exact .inl (via_execCalUnitComplete (hA.of rfl) h _ _ _ _ _)
  case calOverdue => exact .inl (via_execCalOverdue (hA.of rfl) h _ _ _)
  case calResultWrite => exact .inl (via_execCalResultWrite (hA.of rfl) h _ _ _)
  case parClaim => exact .inl (via_execParClaim (hA.of rfl) h _ _)
  case claimCollisionCheck => exact .inl (via_execClaimCollisionCheck (hA.of rfl) h _)
  case claimRetry => exact .inl (via_execClaimRetry (hA.of rfl) h _)
  case parHandover => exact .inl (via_execParHandover (hA.of rfl) h _)
  case parResync => exact .inl (via_execParResync (hA.of rfl) h _)
  case parDetach => exact .inl (via_execParDetach (hA.of rfl) h _)
  case parAbortLocket => exact .inl (via_execParAbortLocket (hA.of rfl) h _)
  case holdInFall => exact .inl (via_execHoldInFall (hA.of rfl) h _)
  case takeoverDecision => exact .inl (via_execTakeoverDecision (hA.of rfl) h _)
  case heartbeatReceived => exact .inl (via_execHeartbeatReceived (hA.of rfl) h _ _ _)
  case heartbeatSend => exact .inl (via_execHeartbeatSend (hA.of rfl) h _)
  case actionReceived => exact .inl (via_execActionReceived (hA.of rfl) h _ _ _ _)
  case actionStamp => exact .inl (via_execActionStamp (hA.of rfl) h)
  case resolveReceived => exact .inl (via_execResolveReceived (hA.of rfl) h _ _ _)
  case telemReceived => exact .inl (via_execTelemReceived (hA.of rfl) h _ _ _)
  case digestReceived => exact .inl (via_execDigestReceived (hA.of rfl) h _ _ _ _)
  case digestWaitExpiry => exact .inl (via_execDigestWaitExpiry (hA.of rfl) h _)
  case locketReceived => exact .inl (via_execLocketReceived (hA.of rfl) h _ _ _ _ _)
  case locketPhaseComplete => exact .inl (via_execLocketPhaseComplete (hA.of rfl) h _)
  case locketMaxExpiry => exact .inl (via_execLocketMaxExpiry (hA.of rfl) h _)
  case controlReceived => exact .inl (via_execControlReceived (hA.of rfl) h _ _ _)
  case pairFrameAck => exact .inl (via_execPairFrameAck (hA.of rfl) h _ _)
  case pairFrameRetransmit => exact .inl (via_execPairFrameRetransmit (hA.of rfl) h _ _)
  case pairLinkLost => exact .inl (via_execPairLinkLost (hA.of rfl) h _)
  case graceExpiry => exact .inl (via_execGraceExpiry (hA.of rfl) h _)
  case pairLinkTraining => exact .inl (via_execPairLinkTraining (hA.of rfl) h _ _ _)
  case sbPing => exact .inl (via_execSbPing (hA.of rfl) h _)
  case sbRead => exact .inl (via_execSbRead (hA.of rfl) h _ _ _)
  case sbWrite => exact .inl (via_execSbWrite (hA.of rfl) h _ _ _)
  case sbLogRead => exact .inl (via_execSbLogRead (hA.of rfl) h _ _ _)
  case sbEvtPoll => exact .inl (via_execSbEvtPoll (hA.of rfl) h _ _ _)
  case sbAssign => exact .inl (via_execSbAssign (hA.of rfl) h _ _)
  case sbUnassign => exact .inl (via_execSbUnassign (hA.of rfl) h _)
  case sbSetRate => exact .inl (via_execSbSetRate (hA.of rfl) h _ _ _)
  case sbRateSwitch => exact .inl (via_execSbRateSwitch (hA.of rfl) h _)
  case sbEpochArm => exact .inl (via_execSbEpochArm (hA.of rfl) h _ _)
  case epochPulse => exact .inl (via_execEpochPulse (hA.of rfl) h)
  case syncInEdge => exact .inl (via_execSyncInEdge (hA.of rfl) h _)
  case syncArmExpiry => exact .inl (via_execSyncArmExpiry (hA.of rfl) h _)
  case chainInChange => exact .inl (via_execChainInChange (hA.of rfl) h _)
  case logFromWrite => exact .inl (via_execLogFromWrite (hA.of rfl) h _ _)
  case tapExtest => exact .inl (via_execTapExtest (hA.of rfl) h _)
  case tapIdcode => exact .inl (via_execTapIdcode (hA.of rfl) h)
  case tapSamplePreload => exact .inl (via_execTapSamplePreload (hA.of rfl) h _ _)
  case tapExtestPulse => exact .inl (via_execTapExtestPulse (hA.of rfl) h _)
  case tapExtestTrain => exact .inl (via_execTapExtestTrain (hA.of rfl) h _)
  case tapDbgreset => exact .inl (via_execTapDbgreset (hA.of rfl) h)
  case tapRegaccess => exact .inl (via_execTapRegaccess (hA.of rfl) h _ _)
  case tapBypass => exact .inl (via_execTapBypass (hA.of rfl) h _)
  case prbsStart => exact .inl (via_execPrbsStart (hA.of rfl) h _ _)
  case prbsRunEnd => exact .inl (via_execPrbsRunEnd (hA.of rfl) h _ _ _)
  case regaccessLock => exact .inl (via_execRegaccessLock (hA.of rfl) h _)
  case diagLaneBert => exact .inl (via_execDiagLaneBert (hA.of rfl) h)
  case diagAdcCapture => exact .inl (via_execDiagAdcCapture (hA.of rfl) h _)
  case diagEyeScan => exact .inl (via_execDiagEyeScan (hA.of rfl) h _)
  case diagSensorDump => exact .inl (via_execDiagSensorDump (hA.of rfl) h)
  case resetNRelease => exact .inl (via_execResetNRelease (hA.of rfl) h)
  case auxOscillatorReturn => exact .inl (via_execAuxOscillatorReturn (hA.of rfl) h)
  case pcieConfigWrite => exact .inl (via_execPcieConfigWrite (hA.of rfl) h _ _ _)
  case pcieLinkRecovery => exact .inl (via_execPcieLinkRecovery (hA.of rfl) h _ _ _)
  case bar2Write => exact .inl (via_execBar2Write (hA.of rfl) h _ _)
  case fireEdge => exact .inl (via_execFireEdge (hA.of rfl) h _ _)
  case firePulseEnd => exact .inl (via_execFirePulseEnd (hA.of rfl) h _ _)
  case zlTransmissionEnd => exact .inl (via_execZlTransmissionEnd (hA.of rfl) h _ _)
  case holdInRise => exact .inl (via_execHoldInRise (hA.of rfl) h _)
  case badTelemetryFrame => exact .inl (via_execBadTelemetryFrame (hA.of rfl) h _ _ _)
  case pairFrameCrcError => exact .inl (via_execPairFrameCrcError (hA.of rfl) h)
  case encoderSignalError => exact .inl (via_execEncoderSignalError (hA.of rfl) h _)
  case sbInvalidFrame => exact .inl (via_execSbInvalidFrame (hA.of rfl) h _)
  case sbUnusableRequest => exact .inl (via_execSbUnusableRequest (hA.of rfl) h _ _ _)
  case tapTestLogicReset => exact .inl (via_execTapTestLogicReset (hA.of rfl) h)

theorem exec_runs (c : Instr) (s : State) : Runs 4194303 s (exec c s) ∨ exec c s = .fault .noSuchAddress := by
  have hA : Sub 4194303 4194303 := Sub.refl _
  have h : Via 4194303 s s := Via.refl _ _
  by_cases hp : c = .vauxPowerOn
  · subst hp
    exact .inl (via_execVauxPowerOn (hA.of rfl) h)
  by_cases hr : c = .vauxReturn
  · subst hr
    exact .inl (via_execVauxReturn (hA.of rfl) h)
  exact (exec_forward c s hp hr).imp_left fun ⟨t, e, v⟩ => ⟨t, e, v.mono (by unfold Sub; rfl)⟩

end Sys2Proof.Machine
end

