-- ==== Sys2Proof/WellFormed.lean ====
section
/-!
DEFINITION. Sys2Proof/WellFormed.lean: which terms are commands: every bar, lane, ring, slot, page or offset is one that the block has, and data have the length that
the command's event gives them. A sender of register accesses is the host, the side-band or the JTAG port.
-/
namespace Sys2Proof

/-- A master that accesses registers from outside (Table 4.5). -/
def Master.outside : Master → Bool
  | .host | .sideband | .debug => true
  | .claspEngine | .pairApply => false

/-- Well-formed commands. -/
def Instr.wf : Instr → Bool
  | .vauxPowerOn => true
  | .vauxBrownOut => true
  | .vinValid => true
  | .vinBrownOut => true
  | .regulatorFault rails _ => rails.all fun k => decide (k < 6)
  | .regulatorRestart => true
  | .regulatorStartSuccess => true
  | .trimLoadComplete _ _ straps => straps.length == 4
  | .railsInRegulation => true
  | .islandClockQualified island _ => decide (island < 8)
  | .dramTrainingComplete results => results.length == 16
  | .resetN => true
  | .perstNAssert => true
  | .perstNDeassert => true
  | .clockFailure islands => islands.all fun x => decide (1 ≤ x.1) && decide (x.1 < 8)
  | .auxOscillatorFailure _ => true
  | .fabricLockUp island _ => decide (island < 8)
  | .trimInvalid => true
  | .devtimeSave _ => true
  | .swrstCore m => m.outside
  | .swrstCoreMem m => m.outside
  | .swrstAll m => m.outside
  | .bootContinue m => m.outside
  | .islHoldSet m island => m.outside && decide (island < 8) && decide (4 ≤ island) && decide (island < 7)
  | .islHoldClear m island => m.outside && decide (island < 8) && decide (4 ≤ island) && decide (island < 7)
  | .blockEnable m page block => m.outside && decide (page < 52) && decide (block < 2 ^ 24)
  | .blockDisable m page block => m.outside && decide (page < 52) && decide (block < 2 ^ 24)
  | .blockSrst m page block => m.outside && decide (page < 52) && decide (block < 2 ^ 24)
  | .drainComplete page => decide (page < 52)
  | .evtPendClear m page _ _ => m.outside && decide (page < 52)
  | .evtForce m page _ => m.outside && decide (page < 52)
  | .registerWrite m a bytes => m.outside && decide (a < 0x4000000) && !bytes.isEmpty
  | .loHalfRead m a => m.outside && decide (a < 0x4000000) && a % 4 == 0
  | .loHalfWrite m a _ => m.outside && decide (a < 0x4000000) && a % 4 == 0
  | .hiHalfWrite m a _ => m.outside && decide (a < 0x4000000) && a % 4 == 0
  | .popRead m n => m.outside && decide (n < 64)
  | .latCntRead m t => m.outside && decide (t < 4)
  | .cmpFracRead m b => m.outside && decide (b < 8)
  | .line64LoRead m b => m.outside && decide (b < 8)
  | .evtLostRead m => m.outside
  | .arrayWindowWrite m a _ => m.outside && decide (a < 0x4000000) && a % 4 == 0
  | .outputEnable m pad => m.outside && decide (pad < 32) && pad != 15
  | .outputDisable m pad => m.outside && decide (pad < 32) && pad != 15
  | .restFollowDone pad samples => decide (pad < 35) && pad != 15 && (samples.all fun l => l.length == 16)
  | .claspOpen m k => m.outside && decide (k < 16)
  | .claspData m k _ => m.outside && decide (k < 16)
  | .claspCommit m k => m.outside && decide (k < 16)
  | .claspAbort m k => m.outside && decide (k < 16)
  | .claspFree m k => m.outside && decide (k < 16)
  | .claspCommitPoint k => decide (k < 16)
  | .claspApplyComplete k => decide (k < 16)
  | .claspBatchDescriptor r => decide (r < 4)
  | .claspListFetched r _ => decide (r < 4)
  | .pcieLinkUp _ _ _ => true
  | .hotReset => true
  | .dataLinkDown => true
  | .submissionDoorbell n _ => decide (n < 64)
  | .recordRingConsWrite n _ => decide (n < 64)
  | .ringEnable n _ => decide (n < 64)
  | .ringDisable n _ => decide (n < 64)
  | .descriptorFetched n bytes => decide (n < 64) && bytes.length == 32
  | .dmaReadError n _ _ => decide (n < 64)
  | .coalesceTimeout _ n => decide (n < 64)
  | .heldRecordFlush n => decide (n < 64)
  | .wdtKick _ => true
  | .wdtWarn _ => true
  | .wdtExpired _ => true
  | .wdtStop m _ => m.outside
  | .jobStart k => decide (k < 4)
  | .jobEnd k => decide (k < 4)
  | .jobStop k => decide (k < 4)
  | .tileLoad b => decide (b < 8)
  | .tileStream b => decide (b < 8)
  | .tilePrint b => decide (b < 8)
  | .tileFree b => decide (b < 8)
  | .loadReadComplete b _ => decide (b < 8)
  | .printPassEnd b => decide (b < 8)
  | .planeReleaseComplete b p => decide (b < 8) && decide (p < 64)
  | .tileDecodeDone lane => decide (lane < 32)
  | .tileCopyDone b => decide (b < 8)
  | .laneStallResume lane => decide (lane ≤ 32)
  | .codecEncodeTile k _ _ => decide (k < 4)
  | .codecEncodeStream k _ _ => decide (k < 4)
  | .codecDecodeTile k _ _ => decide (k < 4)
  | .codecDecodeStream k _ _ => decide (k < 4)
  | .codecResume k _ _ => decide (k < 4)
  | .codecDiscard k _ _ => decide (k < 4)
  | .codecJobComplete k => decide (k < 4)
  | .screeningComplete b => decide (b < 8)
  | .maskCheck m sets => m.outside && decide (sets < 4)
  | .maskCheckDone k => decide (k < 2)
  | .passCmd m bars => m.outside && decide (bars < 256)
  | .densityReport b => decide (b < 8)
  | .densityStaged b _ => decide (b < 8)
  | .nzcLoadDone => true
  | .encoderEdge _ n _ _ => decide (n < 4)
  | .sincosSample _ n _ _ phase _ => decide (n < 4) && decide (phase < 4096)
  | .zeroTimeout _ n => decide (n < 4)
  | .deadReckoningLimit _ n => decide (n < 4)
  | .chFaultClear m n => m.outside && decide (n < 4)
  | .chCfgWrite m n _ => m.outside && decide (n < 4)
  | .triggerEdge _ k _ => decide (k < 4)
  | .triggerLatchComplete _ k => decide (k < 4)
  | .lineLatchPoint _ b => decide (b < 8)
  | .lineCommit _ b => decide (b < 8)
  | .lineBoundary _ b => decide (b < 8)
  | .strobeWatchdogCut _ nn => decide (nn < 72)
  | .strobeCutRelease m b bits => m.outside && decide (b < 8) && decide (bits < 512)
  | .slotBankSwap m b => m.outside && decide (b < 8)
  | .headTempMeasurement b => decide (b < 8)
  | .captureArm m b _ => m.outside && decide (b < 8)
  | .laneEnable m b k => m.outside && decide (b < 8) && decide (k < 9)
  | .laneDisable m b k => m.outside && decide (b < 8) && decide (k < 9)
  | .trsReceived _ nn _ _ _ _ => decide (nn < 72)
  | .trainingTimeout _ nn => decide (nn < 72)
  | .zlAckReceived _ nn typ k id status => decide (nn < 72) && decide (1 ≤ typ) && decide (typ ≤ 3) && decide (k < 8) && decide (id < 65536) && decide (status < 4)
  | .zlAckTimeout _ nn typ k id => decide (nn < 72) && decide (1 ≤ typ) && decide (typ ≤ 3) && decide (k < 8) && decide (id < 65536)
  | .replayWindowEnd _ nn => decide (nn < 72)
  | .headerDeadline _ nn => decide (nn < 72)
  | .returnLaneSilent _ nn => decide (nn < 72)
  | .headTempMsg _ nn p => decide (nn < 72) && decide (p.length ≤ 64)
  | .nchkMsg _ nn p => decide (nn < 72) && decide (p.length ≤ 64)
  | .hibStatusMsg _ nn port p => decide (nn < 72) && decide (p.length ≤ 64) && decide (port < 8)
  | .responseMsg _ nn p => decide (nn < 72) && decide (p.length ≤ 64)
  | .hibEventMsg _ nn _ p => decide (nn < 72) && decide (p.length ≤ 64)
  | .spareTake m b => m.outside && decide (b < 8)
  | .spareRelease m b => m.outside && decide (b < 8)
  | .zlHibWrite m b lane len => m.outside && decide (b < 8) && decide (lane < 9) && decide (len ≤ 64)
  | .zlHibRead m b lane len => m.outside && decide (b < 8) && decide (lane < 9) && decide (len ≤ 64)
  | .zlNchk m b lane len => m.outside && decide (b < 8) && decide (lane < 9) && decide (len ≤ 64)
  | .zlHibSpecific m b lane op len => m.outside && decide (b < 8) && decide (lane < 9) && decide (len ≤ 64) && decide (op < 64)
  | .telemPerWrite m _ => m.outside
  | .arbRequest _ inst r _ _ _ => decide (inst < 3) && decide (r < 10)
  | .arbGrant _ inst _ _ => decide (inst < 3)
  | .arbPreemption _ inst _ _ => decide (inst < 3)
  | .arbHoldCut _ inst r _ _ => decide (inst < 3) && decide (r < 10)
  | .arbStarve _ inst r => decide (inst < 3) && decide (r < 10)
  | .dramAccess _ port ce ue _ => decide (port < 10) && decide (ce < 256) && decide (ue < 256)
  | .refreshDue bank => decide (bank < 256)
  | .mr4Poll ch rate _ => decide (ch < 16) && decide (rate < 256)
  | .rdWindowStart => true
  | .dramInitDone => true
  | .wdqWrite m ch _ => m.outside && decide (ch < 16)
  | .caratRequest _ c u => decide (c < 8) && decide (u < 32)
  | .caratGrant _ => true
  | .caratRelease c u => decide (c < 8) && decide (u < 32)
  | .lingerExpiry _ lane => decide (lane < 32)
  | .caratStarve _ c => decide (c < 8)
  | .caratRateWindow _ => true
  | .thermalRound sites => sites.length == 16
  | .calRunCmd m inst units => m.outside && decide (inst < 5) && decide (units < 512)
  | .calForce m inst units => m.outside && decide (inst < 5) && decide (units < 512)
  | .calCancel m inst units => m.outside && decide (inst < 5) && decide (units < 512)
  | .calUnitStart _ inst u => decide (inst < 5) && decide (u < 9)
  | .adcFitDone _ c => decide (c < 4)
  | .calUnitComplete _ inst u _ _ => decide (inst < 5) && decide (u < 9)
  | .calOverdue _ inst u => decide (inst < 5) && decide (u < 9)
  | .calResultWrite m a _ => m.outside && decide (a < 0x4000000) && a % 4 == 0
  | .parClaim _ m => m.all Master.outside
  | .claimCollisionCheck _ => true
  | .claimRetry _ => true
  | .parHandover m => m.outside
  | .parResync m => m.all Master.outside
  | .parDetach m => m.outside
  | .parAbortLocket m => m.outside
  | .holdInFall _ => true
  | .takeoverDecision _ => true
  | .heartbeatReceived _ h _ => decide (h.seq < 65536)
  | .heartbeatSend _ => true
  | .actionReceived _ h _ _ => decide (h.seq < 65536)
  | .actionStamp => true
  | .resolveReceived _ h _ => decide (h.seq < 65536)
  | .telemReceived _ h _ => decide (h.seq < 65536)
  | .digestReceived _ h _ _ => decide (h.seq < 65536)
  | .digestWaitExpiry _ => true
  | .locketReceived _ h _ _ _ => decide (h.seq < 65536)
  | .locketPhaseComplete _ => true
  | .locketMaxExpiry _ => true
  | .controlReceived _ h _ => decide (h.seq < 65536)
  | .pairFrameAck _ seq => decide (seq < 65536)
  | .pairFrameRetransmit _ seq => decide (seq < 65536)
  | .pairLinkLost _ => true
  | .graceExpiry _ => true
  | .pairLinkTraining _ passed _ => passed.all fun j => decide (j < 4)
  | .sbPing addr => decide (addr ≤ 0x7F)
  | .sbRead addr _ n => decide (addr ≤ 0x7F) && decide (n < 256)
  | .sbWrite addr _ ws => decide (addr ≤ 0x7F) && decide (ws.length ≤ 255)
  | .sbLogRead addr _ max => decide (addr ≤ 0x7F) && decide (max < 256)
  | .sbEvtPoll addr _ max => decide (addr ≤ 0x7F) && decide (max < 256)
  | .sbAssign addr new => decide (addr ≤ 0x7F) && decide (new < 256)
  | .sbUnassign _ => true
  | .sbSetRate _ _ _ => true
  | .sbRateSwitch _ => true
  | .sbEpochArm _ _ => true
  | .epochPulse => true
  | .syncInEdge _ => true
  | .syncArmExpiry _ => true
  | .chainInChange _ => true
  | .logFromWrite m _ => m.outside
  | .tapExtest _ => true
  | .tapIdcode => true
  | .tapSamplePreload _ _ => true
  | .tapExtestPulse _ => true
  | .tapExtestTrain _ => true
  | .tapDbgreset => true
  | .tapRegaccess a _ => decide (a < 0x4000000)
  | .tapBypass code => decide (code < 256)
  | .prbsStart m _ => m.outside
  | .prbsRunEnd _ errs _ => decide (errs < 2 ^ 32)
  | .regaccessLock m => m.outside
  | .diagLaneBert => true
  | .diagAdcCapture _ => true
  | .diagEyeScan _ => true
  | .diagSensorDump => true
  | .vauxReturn => true
  | .resetNRelease => true
  | .auxOscillatorReturn => true
  | .pcieConfigWrite _ _ _ => true
  | .pcieLinkRecovery _ _ _ => true
  | .bar2Write _ _ => true
  | .fireEdge _ nn => decide (nn < 72)
  | .firePulseEnd _ nn => decide (nn < 72)
  | .zlTransmissionEnd _ nn => decide (nn < 72)
  | .holdInRise _ => true
  | .badTelemetryFrame _ nn _ => decide (nn < 72)
  | .pairFrameCrcError => true
  | .encoderSignalError n => decide (n < 4)
  | .sbInvalidFrame _ => true
  | .sbUnusableRequest addr cmd payload => decide (addr ≤ 0x7F) && decide (cmd < 256) && decide (payload.length ≤ 1024)
  | .tapTestLogicReset => true

end Sys2Proof
end

