-- ==== Sys2Proof/Tests/Slice0.lean ====
section
/-!
SUPPORT. Sys2Proof/Tests/Slice0.lean: an ill-formed term for each check of WellFormed, worked examples of the spec, and for each clause of each statement a state and operands that
meet its hypotheses together.
-/
namespace Sys2Proof.Tests

open Sys2Proof Sys2Proof.Machine

-- Every test evaluates in the kernel; elaborated one after another they keep the number of threads small.
set_option Elab.async false

/-! ### WellFormed -/

/-- Ill-formed terms, one for each check, from `regulatorFault` to `loHalfWrite`. -/
def ill1 : List Instr :=
  [.regulatorFault [6] false, .trimLoadComplete false 0 (List.replicate 3 default), .islandClockQualified 8 false, .dramTrainingComplete (List.replicate 15 default),
   .clockFailure [(0, 0)], .clockFailure [(8, 0)], .fabricLockUp 8 0, .swrstCore .claspEngine, .swrstCoreMem .claspEngine, .swrstAll .claspEngine,
   .bootContinue .claspEngine, .islHoldSet .claspEngine 4, .islHoldSet .host 8, .islHoldSet .host 3, .islHoldSet .host 7, .islHoldClear .claspEngine 4,
   .islHoldClear .host 8, .islHoldClear .host 3, .islHoldClear .host 7, .blockEnable .claspEngine 0 0, .blockEnable .host 52 0, .blockEnable .host 0 (2 ^ 24),
   .blockDisable .claspEngine 0 0, .blockDisable .host 52 0, .blockDisable .host 0 (2 ^ 24), .blockSrst .claspEngine 0 0, .blockSrst .host 52 0,
   .blockSrst .host 0 (2 ^ 24), .drainComplete 52, .evtPendClear .claspEngine 0 0 0, .evtPendClear .host 52 0 0, .evtForce .claspEngine 0 0, .evtForce .host 52 0,
   .registerWrite .claspEngine 0 [some 0], .registerWrite .host 0x4000000 [some 0], .registerWrite .host 0 [], .loHalfRead .claspEngine 0, .loHalfRead .host 0x4000000,
   .loHalfRead .host 2, .loHalfWrite .claspEngine 0 0]

theorem test_wf_refuses1 : (ill1.all fun c => !c.wf) = true := by decide +kernel

/-- Ill-formed terms, one for each check, from `loHalfWrite` to `claspListFetched`. -/
def ill2 : List Instr :=
  [.loHalfWrite .host 0x4000000 0, .loHalfWrite .host 2 0, .hiHalfWrite .claspEngine 0 0, .hiHalfWrite .host 0x4000000 0, .hiHalfWrite .host 2 0,
   .popRead .claspEngine 0, .popRead .host 64, .latCntRead .claspEngine 0, .latCntRead .host 4, .cmpFracRead .claspEngine 0, .cmpFracRead .host 8,
   .line64LoRead .claspEngine 0, .line64LoRead .host 8, .evtLostRead .claspEngine, .arrayWindowWrite .claspEngine 0 0, .arrayWindowWrite .host 0x4000000 0,
   .arrayWindowWrite .host 2 0, .outputEnable .claspEngine 0, .outputEnable .host 32, .outputEnable .host 15, .outputDisable .claspEngine 0, .outputDisable .host 32,
   .outputDisable .host 15, .restFollowDone 35 [], .restFollowDone 15 [], .restFollowDone 0 [[.low]], .claspOpen .claspEngine 0, .claspOpen .host 16,
   .claspData .claspEngine 0 0, .claspData .host 16 0, .claspCommit .claspEngine 0, .claspCommit .host 16, .claspAbort .claspEngine 0, .claspAbort .host 16,
   .claspFree .claspEngine 0, .claspFree .host 16, .claspCommitPoint 16, .claspApplyComplete 16, .claspBatchDescriptor 4, .claspListFetched 4 []]

theorem test_wf_refuses2 : (ill2.all fun c => !c.wf) = true := by decide +kernel

/-- Ill-formed terms, one for each check, from `submissionDoorbell` to `encoderEdge`. -/
def ill3 : List Instr :=
  [.submissionDoorbell 64 0, .recordRingConsWrite 64 0, .ringEnable 64 0, .ringDisable 64 0, .descriptorFetched 64 (List.replicate 32 default),
   .descriptorFetched 0 (List.replicate 31 default), .dmaReadError 64 0 .timeout, .coalesceTimeout 0 64, .heldRecordFlush 64, .wdtStop .claspEngine 0, .jobStart 4,
   .jobEnd 4, .jobStop 4, .tileLoad 8, .tileStream 8, .tilePrint 8, .tileFree 8, .loadReadComplete 8 [], .printPassEnd 8, .planeReleaseComplete 8 0,
   .planeReleaseComplete 0 64, .tileDecodeDone 32, .tileCopyDone 8, .laneStallResume 33, .codecEncodeTile 4 [] [], .codecEncodeStream 4 [] [], .codecDecodeTile 4 [] [],
   .codecDecodeStream 4 [] [], .codecResume 4 [] [], .codecDiscard 4 [] [], .codecJobComplete 4, .screeningComplete 8, .maskCheck .claspEngine 0, .maskCheck .host 4,
   .maskCheckDone 2, .passCmd .claspEngine 0, .passCmd .host 256, .densityReport 8, .densityStaged 8 [], .encoderEdge 0 4 false false]

theorem test_wf_refuses3 : (ill3.all fun c => !c.wf) = true := by decide +kernel

/-- Ill-formed terms, one for each check, from `sincosSample` to `zlAckTimeout`. -/
def ill4 : List Instr :=
  [.sincosSample 0 4 0 0 0 false, .sincosSample 0 0 0 0 4096 false, .zeroTimeout 0 4, .deadReckoningLimit 0 4, .chFaultClear .claspEngine 0, .chFaultClear .host 4,
   .chCfgWrite .claspEngine 0 0, .chCfgWrite .host 4 0, .triggerEdge 0 4 false, .triggerLatchComplete 0 4, .lineLatchPoint 0 8, .lineCommit 0 8, .lineBoundary 0 8,
   .strobeWatchdogCut 0 72, .strobeCutRelease .claspEngine 0 0, .strobeCutRelease .host 8 0, .strobeCutRelease .host 0 512, .slotBankSwap .claspEngine 0,
   .slotBankSwap .host 8, .headTempMeasurement 8, .captureArm .claspEngine 0 0, .captureArm .host 8 0, .laneEnable .claspEngine 0 0, .laneEnable .host 8 0,
   .laneEnable .host 0 9, .laneDisable .claspEngine 0 0, .laneDisable .host 8 0, .laneDisable .host 0 9, .trsReceived 0 72 0 false 0 0, .trainingTimeout 0 72,
   .zlAckReceived 0 72 1 0 0 0, .zlAckReceived 0 0 0 0 0 0, .zlAckReceived 0 0 4 0 0 0, .zlAckReceived 0 0 1 8 0 0, .zlAckReceived 0 0 1 0 65536 0,
   .zlAckReceived 0 0 1 0 0 4, .zlAckTimeout 0 72 1 0 0, .zlAckTimeout 0 0 0 0 0, .zlAckTimeout 0 0 4 0 0, .zlAckTimeout 0 0 1 8 0]

theorem test_wf_refuses4 : (ill4.all fun c => !c.wf) = true := by decide +kernel

/-- Ill-formed terms, one for each check, from `zlAckTimeout` to `arbGrant`. -/
def ill5 : List Instr :=
  [.zlAckTimeout 0 0 1 0 65536, .replayWindowEnd 0 72, .headerDeadline 0 72, .returnLaneSilent 0 72, .headTempMsg 0 72 [], .headTempMsg 0 0 (List.replicate 65 0),
   .nchkMsg 0 72 [], .nchkMsg 0 0 (List.replicate 65 0), .hibStatusMsg 0 72 0 [], .hibStatusMsg 0 0 0 (List.replicate 65 0), .hibStatusMsg 0 0 8 [],
   .responseMsg 0 72 [], .responseMsg 0 0 (List.replicate 65 0), .hibEventMsg 0 72 0 [], .hibEventMsg 0 0 0 (List.replicate 65 0), .spareTake .claspEngine 0,
   .spareTake .host 8, .spareRelease .claspEngine 0, .spareRelease .host 8, .zlHibWrite .claspEngine 0 0 0, .zlHibWrite .host 8 0 0, .zlHibWrite .host 0 9 0,
   .zlHibWrite .host 0 0 65, .zlHibRead .claspEngine 0 0 0, .zlHibRead .host 8 0 0, .zlHibRead .host 0 9 0, .zlHibRead .host 0 0 65, .zlNchk .claspEngine 0 0 0,
   .zlNchk .host 8 0 0, .zlNchk .host 0 9 0, .zlNchk .host 0 0 65, .zlHibSpecific .claspEngine 0 0 0 0, .zlHibSpecific .host 8 0 0 0, .zlHibSpecific .host 0 9 0 0,
   .zlHibSpecific .host 0 0 0 65, .zlHibSpecific .host 0 0 64 0, .telemPerWrite .claspEngine 0, .arbRequest 0 3 0 0 false .tile, .arbRequest 0 0 10 0 false .tile,
   .arbGrant 0 3 0 0]

theorem test_wf_refuses5 : (ill5.all fun c => !c.wf) = true := by decide +kernel

/-- Ill-formed terms, one for each check, from `arbPreemption` to `parClaim`. -/
def ill6 : List Instr :=
  [.arbPreemption 0 3 0 0, .arbHoldCut 0 3 0 0 0, .arbHoldCut 0 0 10 0 0, .arbStarve 0 3 0, .arbStarve 0 0 10, .dramAccess 0 10 0 0 0, .dramAccess 0 0 256 0 0,
   .dramAccess 0 0 0 256 0, .refreshDue 256, .mr4Poll 16 0 false, .mr4Poll 0 256 false, .wdqWrite .claspEngine 0 0, .wdqWrite .host 16 0, .caratRequest 0 8 0,
   .caratRequest 0 0 32, .caratRelease 8 0, .caratRelease 0 32, .lingerExpiry 0 32, .caratStarve 0 8, .thermalRound (List.replicate 15 ⟨0, 0, false⟩),
   .calRunCmd .claspEngine 0 0, .calRunCmd .host 5 0, .calRunCmd .host 0 512, .calForce .claspEngine 0 0, .calForce .host 5 0, .calForce .host 0 512,
   .calCancel .claspEngine 0 0, .calCancel .host 5 0, .calCancel .host 0 512, .calUnitStart 0 5 0, .calUnitStart 0 0 9, .adcFitDone 0 4, .calUnitComplete 0 5 0 false [],
   .calUnitComplete 0 0 9 false [], .calOverdue 0 5 0, .calOverdue 0 0 9, .calResultWrite .claspEngine 0 0, .calResultWrite .host 0x4000000 0, .calResultWrite .host 2 0,
   .parClaim 0 (some .pairApply)]

theorem test_wf_refuses6 : (ill6.all fun c => !c.wf) = true := by decide +kernel

/-- Ill-formed terms, one for each check, from `parHandover` to `sbUnusableRequest`. -/
def ill7 : List Instr :=
  [.parHandover .claspEngine, .parResync (some .pairApply), .parDetach .claspEngine, .parAbortLocket .claspEngine, .heartbeatReceived 0 { seq := 65536 } {},
   .actionReceived 0 { seq := 65536 } 0 .handover, .resolveReceived 0 { seq := 65536 } (.densityLine 0 0), .telemReceived 0 { seq := 65536 } (.densityLine 0 0),
   .digestReceived 0 { seq := 65536 } (.line 0 0) 0, .locketReceived 0 { seq := 65536 } 0 0 .start, .controlReceived 0 { seq := 65536 } .resync, .pairFrameAck 0 65536,
   .pairFrameRetransmit 0 65536, .pairLinkTraining 0 [4] 0, .sbPing 128, .sbRead 128 0 0, .sbRead 0 0 256, .sbWrite 128 0 [], .sbWrite 0 0 (List.replicate 256 0),
   .sbLogRead 128 0 0, .sbLogRead 0 0 256, .sbEvtPoll 128 0 0, .sbEvtPoll 0 0 256, .sbAssign 128 0, .sbAssign 0 256, .logFromWrite .claspEngine 0,
   .tapRegaccess 0x4000000 none, .tapBypass 256, .prbsStart .claspEngine 0, .prbsRunEnd 0 (2 ^ 32) false, .regaccessLock .claspEngine, .fireEdge 0 72,
   .firePulseEnd 0 72, .zlTransmissionEnd 0 72, .badTelemetryFrame 0 72 false, .encoderSignalError 4, .sbUnusableRequest 128 0 [], .sbUnusableRequest 0 256 [],
   .sbUnusableRequest 0 0 (List.replicate 1025 0)]

theorem test_wf_refuses7 : (ill7.all fun c => !c.wf) = true := by decide +kernel

/-- Well-formed terms of the same commands, from which the ill-formed ones differ in one operand each. -/
def well1 : List Instr :=
  [.regulatorFault [] false, .trimLoadComplete false 0 (List.replicate 4 default), .islandClockQualified 0 false, .dramTrainingComplete (List.replicate 16 default),
   .clockFailure [], .fabricLockUp 0 0, .swrstCore .host, .swrstCoreMem .host, .swrstAll .host, .bootContinue .host, .islHoldSet .host 4, .islHoldClear .host 4,
   .blockEnable .host 0 0, .blockDisable .host 0 0, .blockSrst .host 0 0, .drainComplete 0, .evtPendClear .host 0 0 0, .evtForce .host 0 0,
   .registerWrite .host 0 [some 0], .loHalfRead .host 0, .loHalfWrite .host 0 0, .hiHalfWrite .host 0 0, .popRead .host 0, .latCntRead .host 0, .cmpFracRead .host 0,
   .line64LoRead .host 0, .evtLostRead .host, .arrayWindowWrite .host 0 0, .outputEnable .host 0, .outputDisable .host 0, .restFollowDone 0 [], .claspOpen .host 0,
   .claspData .host 0 0, .claspCommit .host 0, .claspAbort .host 0, .claspFree .host 0, .claspCommitPoint 0, .claspApplyComplete 0, .claspBatchDescriptor 0,
   .claspListFetched 0 [], .submissionDoorbell 0 0, .recordRingConsWrite 0 0, .ringEnable 0 0, .ringDisable 0 0, .descriptorFetched 0 (List.replicate 32 default),
   .dmaReadError 0 0 .timeout, .coalesceTimeout 0 0, .heldRecordFlush 0, .wdtStop .host 0, .jobStart 0, .jobEnd 0, .jobStop 0, .tileLoad 0, .tileStream 0, .tilePrint 0,
   .tileFree 0, .loadReadComplete 0 [], .printPassEnd 0, .planeReleaseComplete 0 0, .tileDecodeDone 0]

theorem test_wf_accepts1 : (well1.all fun c => c.wf) = true := by decide +kernel

/-- Well-formed terms of the same commands, from which the ill-formed ones differ in one operand each. -/
def well2 : List Instr :=
  [.tileCopyDone 0, .laneStallResume 0, .codecEncodeTile 0 [] [], .codecEncodeStream 0 [] [], .codecDecodeTile 0 [] [], .codecDecodeStream 0 [] [], .codecResume 0 [] [],
   .codecDiscard 0 [] [], .codecJobComplete 0, .screeningComplete 0, .maskCheck .host 0, .maskCheckDone 0, .passCmd .host 0, .densityReport 0, .densityStaged 0 [],
   .encoderEdge 0 0 false false, .sincosSample 0 0 0 0 0 false, .zeroTimeout 0 0, .deadReckoningLimit 0 0, .chFaultClear .host 0, .chCfgWrite .host 0 0,
   .triggerEdge 0 0 false, .triggerLatchComplete 0 0, .lineLatchPoint 0 0, .lineCommit 0 0, .lineBoundary 0 0, .strobeWatchdogCut 0 0, .strobeCutRelease .host 0 0,
   .slotBankSwap .host 0, .headTempMeasurement 0, .captureArm .host 0 0, .laneEnable .host 0 0, .laneDisable .host 0 0, .trsReceived 0 0 0 false 0 0,
   .trainingTimeout 0 0, .zlAckReceived 0 0 1 0 0 0, .zlAckTimeout 0 0 1 0 0, .replayWindowEnd 0 0, .headerDeadline 0 0, .returnLaneSilent 0 0, .headTempMsg 0 0 [],
   .nchkMsg 0 0 [], .hibStatusMsg 0 0 0 [], .responseMsg 0 0 [], .hibEventMsg 0 0 0 [], .spareTake .host 0, .spareRelease .host 0, .zlHibWrite .host 0 0 0,
   .zlHibRead .host 0 0 0, .zlNchk .host 0 0 0, .zlHibSpecific .host 0 0 0 0, .telemPerWrite .host 0, .arbRequest 0 0 0 0 false .tile, .arbGrant 0 0 0 0,
   .arbPreemption 0 0 0 0, .arbHoldCut 0 0 0 0 0, .arbStarve 0 0 0, .dramAccess 0 0 0 0 0, .refreshDue 0, .mr4Poll 0 0 false]

theorem test_wf_accepts2 : (well2.all fun c => c.wf) = true := by decide +kernel

/-- Well-formed terms of the same commands, from which the ill-formed ones differ in one operand each. -/
def well3 : List Instr :=
  [.wdqWrite .host 0 0, .caratRequest 0 0 0, .caratRelease 0 0, .lingerExpiry 0 0, .caratStarve 0 0, .thermalRound (List.replicate 16 ⟨0, 0, false⟩),
   .calRunCmd .host 0 0, .calForce .host 0 0, .calCancel .host 0 0, .calUnitStart 0 0 0, .adcFitDone 0 0, .calUnitComplete 0 0 0 false [], .calOverdue 0 0 0,
   .calResultWrite .host 0 0, .parClaim 0 none, .parHandover .host, .parResync none, .parDetach .host, .parAbortLocket .host, .heartbeatReceived 0 {} {},
   .actionReceived 0 {} 0 .handover, .resolveReceived 0 {} (.densityLine 0 0), .telemReceived 0 {} (.densityLine 0 0), .digestReceived 0 {} (.line 0 0) 0,
   .locketReceived 0 {} 0 0 .start, .controlReceived 0 {} .resync, .pairFrameAck 0 0, .pairFrameRetransmit 0 0, .pairLinkTraining 0 [] 0, .sbPing 0, .sbRead 0 0 0,
   .sbWrite 0 0 [], .sbLogRead 0 0 0, .sbEvtPoll 0 0 0, .sbAssign 0 0, .logFromWrite .host 0, .tapRegaccess 0 none, .tapBypass 0, .prbsStart .host 0,
   .prbsRunEnd 0 0 false, .regaccessLock .host, .fireEdge 0 0, .firePulseEnd 0 0, .zlTransmissionEnd 0 0, .badTelemetryFrame 0 0 false, .encoderSignalError 0,
   .sbUnusableRequest 0 0 []]

theorem test_wf_accepts3 : (well3.all fun c => c.wf) = true := by decide +kernel

/-! ### States and tools -/

/-- A state with some registers set. -/
def withRegs (s : State) (l : List (Nat × Word)) : State := l.foldl (fun s x => s.setReg x.1 x.2) s

/-- A unit that stands alone, READY, with good supplies, every island running and the host's BARs open. -/
def ready : State :=
  withRegs { State.reset with
    aux := { State.reset.aux with
      vin := true, perstLow := false, railsUp := true, seq := .idle, todo := [], phases := List.replicate 8 .released }
    host := { link := .l0, configReady := true, busMaster := true, memSpace := true } }
    [(R.DEV_DEVSTATE, 7)]

/-- The same unit in AUXONLY. -/
def auxOnly : State := withRegs ready [(R.DEV_DEVSTATE, 1)]

/-- A state whose AUX part is changed. -/
def withAux (s : State) (f : Aux → Aux) : State := s.modAux f

/-- The row of a register, with its indices. -/
def rowAt (a : Nat) : RegRow × Nat × Nat := (regRow a).getD (⟨0, [], false, false, false, []⟩, 0, 0)

theorem row_spec {a : Nat} (h : (regRow a).isSome = true) : regRow a = some ((rowAt a).1, (rowAt a).2.1, (rowAt a).2.2) := by
  obtain ⟨x, hx⟩ := Option.isSome_iff_exists.mp h
  simp [rowAt, hx]

/-- `State.Direct` as a check. -/
def directB (s : State) (m : Master) (a : Nat) (w : Word) : Bool :=
  s.reaches m && s.aux.heldAcc.isEmpty && s.aux.sbWait.isNone && s.pix.fabric.holders.isEmpty && decide (placeOf a = .page (a / 0x1000)) && s.pageUp (a / 0x1000)
    && (!s.paired || !s.lockstepWrite (.page (a / 0x1000)) a w) && !s.pageHeld (a / 0x1000)
    && (!sideband m || (!s.sbDenied (.page (a / 0x1000)) a && !wdtReg a))

theorem direct_of {s : State} {m : Master} {a : Nat} {w : Word} (h : directB s m a w = true) : s.Direct m a w := by
  simp only [directB, Bool.and_eq_true, Bool.or_eq_true, Bool.not_eq_true', List.isEmpty_iff, Option.isNone_iff_eq_none, decide_eq_true_eq] at h
  obtain ⟨⟨⟨⟨⟨⟨⟨⟨h1, h2⟩, h3⟩, h4⟩, h5⟩, h6⟩, h7⟩, h8⟩, h9⟩ := h
  exact ⟨h1, ⟨h2, h3⟩, h4, h5, h6, h7, h8, fun h => h9.resolve_left (by simp [h])⟩

/-- `State.DirectRead` as a check. -/
def directReadB (s : State) (m : Master) (a : Nat) : Bool :=
  s.reaches m && s.aux.heldAcc.isEmpty && s.aux.sbWait.isNone && s.pix.fabric.holders.isEmpty && decide (placeOf a = .page (a / 0x1000)) && s.pageUp (a / 0x1000)
    && !s.pageHeld (a / 0x1000)

theorem directRead_of {s : State} {m : Master} {a : Nat} (h : directReadB s m a = true) : s.DirectRead m a := by
  simp only [directReadB, Bool.and_eq_true, Bool.not_eq_true', List.isEmpty_iff, Option.isNone_iff_eq_none, decide_eq_true_eq] at h
  obtain ⟨⟨⟨⟨⟨⟨h1, h2⟩, h3⟩, h4⟩, h5⟩, h6⟩, h7⟩ := h
  exact ⟨h1, ⟨h2, h3⟩, h4, h5, h6, h7⟩

/-- Sixteen samples of each of nine signals, at rest or high. -/
def restSamples : List (List PadSample) := List.replicate 9 (List.replicate 16 .low)
def highSamples : List (List PadSample) := List.replicate 9 (List.replicate 16 .high)

/-- The unit with pad `p` in its rest-follow sequence. -/
def follows (p : Nat) : State := withAux ready fun a => { a with pads := updNth a.pads p fun _ => .follow 0 none }

/-- A state whose `pix`, `fire`, `zl`, `host` or `mem` part is changed. -/
def withPix (s : State) (f : Pix → Pix) : State := s.modPix f
def withHost (s : State) (f : HostIf → HostIf) : State := s.modHost f

/-- Ring `n` runs and holds the fetched descriptors `l`. -/
def withRing (s : State) (n : Nat) (l : List Desc) : State :=
  (s.put (F.DMA_RING_STAT_RUNNING n) 1).modHost fun h => { h with rings := updNth h.rings n fun r => { r with descs := l } }

/-- Clasp slot `k` in state `st` with the entries `l`. -/
def withSlot (s : State) (k st : Nat) (l : List (Nat × Word)) : State :=
  (s.put (F.CLS_STATUS_STATE k) st).modSlot k fun q => { q with entries := l }

/-- Descriptors of Tables 4.17, 5.12, 6.4 and 6.8 with the given fields. -/
def batchDesc (count : Nat) : Desc := { bytes := List.replicate 8 0 ++ leBytes 2 count ++ List.replicate 22 0 }
def jobDesc (id kind bars : Nat) : Desc := { bytes := leBytes 2 id ++ leBytes 1 kind ++ leBytes 1 bars ++ List.replicate 28 0 }
def tileDesc (op plane len count height : Nat) : Desc :=
  { bytes := List.replicate 8 0 ++ leBytes 4 len ++ leBytes 1 op ++ leBytes 1 plane ++ leBytes 2 0 ++ leBytes 4 count ++ leBytes 4 height ++ List.replicate 8 0 }
def codecDesc (op : Nat) : Desc := { bytes := List.replicate 22 0 ++ leBytes 1 op ++ List.replicate 9 0 }

/-- The unit with bar 0 ready for a job: its engine is enabled and its line clock runs. -/
def armable : State :=
  withRegs ready [(R.CTRL P_LCK, 1), (R.CTRL (P_FIRE 0), 1), (R.LCK_BAR_CFG 0, 1), (R.LCK_SPACING_LO 0, 0x10000), (R.CTRL P_IMG, 1), (R.CTRL P_CDC, 1)]

/-- The unit with stream 0's job on bar 0. -/
def inAJob : State :=
  withPix (withRegs armable [(R.DEV_DEVSTATE, 9)]) fun p => { p with
    jobs := [some { id := 5, bars := 1, started := true }, none, none, none], bars := updNth p.bars 0 fun _ => some { stream := 0 } }

/-- The unit with the image store on: 128 MiB, a contone ring of 4 bands for bar 0. -/
def imaging : State := withRegs armable [(R.IMG_STORE_SIZE, 64), (R.IMG_CRING_CFG 0, 4)]

/-- A FILL tile of one line in column `c`, and a plane that holds a row of them. -/
def fillTile (c : Nat) : Tile := { kind := 3, col := c, rawLen := if c = 48 then 512 else 1024 }
def withPlane (s : State) (f : Plane → Plane) : State := s.modPlane 0 0 f
def rowPlane : State := withPlane imaging fun p => { p with tiles := (List.range 49).map fillTile }

/-- The header of a RAW tile of one line in column `c` of bar 0 (Table 6.1). -/
def rawHeader (c : Nat) : List Byte := leBytes 4 0x00125A41 ++ leBytes 4 c ++ leBytes 4 1023 ++ leBytes 4 0

/-- A lane of the pool that holds a tile, with its carats. -/
def laneTile (stall : Option Nat) (bands : Nat) : State :=
  { withRegs imaging [(R.IMG_CRING_CFG 0, BitVec.ofNat 32 bands)] with
    hsk := { imaging.hsk with cheld := [{ cons := 1, unit := 3 }] }
    pix := { imaging.pix with pool := { holders := [{ r := 0, lane := 3, stallFrom := stall, work := .tile { tile := fillTile 0 } }] } } }

/-- The unit with a job on CODEC ring 8, whose lane and carats it holds unless its end is fixed. -/
def codecBusy (j : CodecJob) : State :=
  { withRing armable 8 [{ codecDesc j.op with taken := true }] with
    hsk := { armable.hsk with cheld := [{ cons := 5, unit := 3 }] }
    pix := { armable.pix with
      pool := { holders := if j.fixed.isSome then [] else [{ r := 8, lane := 3, work := .codec 0 }] }
      img := { armable.pix.img with codec := updNth armable.pix.img.codec 0 fun c => { c with job := some j } } } }

/-- A NZC descriptor of ring 16 (Table 8.5) with `count` densities and trigger web count `wc`. -/
def densDesc (count wc : Nat) : Desc := { bytes := List.replicate 12 0 ++ leBytes 4 count ++ leBytes 8 wc ++ List.replicate 8 0 }

/-- The unit with the web moving forward at one count in 100 ticks on channel 0, web count 100 at tick 1000, and bar 0's next compare position at 101. -/
def moving (s : State) : State :=
  { withRegs s [(R.CTRL P_POS, 1), (R.POS_CH_CFG 0, 1), (R.POS_STAT 0, 0x11), (R.POS_POS_LO 0, 100), (R.POS_WEB_COUNT_LO, 100), (R.LCK_CMP_LO 0, 101),
      (R.LCK_SPACING_LO 0, 0), (R.LCK_SPACING_HI 0, 2)] with
    devtime := 1000
    fire := { s.fire with
      hwm := 100, webEdges := [(1000, 100), (900, 99)], chans := updNth s.fire.chans 0 fun c => { c with last := some (1000, 100), ivals := [(100, 1)], fresh := false } } }

/-- A state whose channel, trigger, line clock or engine is changed. -/
def withChan (s : State) (n : Nat) (f : Chan → Chan) : State := { s with fire := { s.fire with chans := updNth s.fire.chans n f } }
def withTrig (s : State) (l : List (Nat × Nat)) : State := { s with fire := { s.fire with trigs := updNth s.fire.trigs 0 fun q => { q with edges := l } } }
def withClk (s : State) (b : Nat) (f : LineClk → LineClk) : State := { s with fire := { s.fire with clks := updNth s.fire.clks b f } }
def withBar (s : State) (b : Nat) (f : FireBar → FireBar) : State := { s with fire := { s.fire with bars := updNth s.fire.bars b f } }

/-- Channel 1 in sine-cosine mode with its amplitude in range and a phase; its offsets are 0 and its gains 1. -/
def sincos : State :=
  withChan { ready with regs := ready.regs ++ [(R.CTRL P_POS, 1), (R.POS_CH_CFG 1, 0x00080002), (R.POS_AMP_NOM 1, 0x1000), (R.POS_AMP_CFG 1, 0x6408),
    (R.POS_STAT 1, 0x10), (R.CAL_ADC_OFF 1, 0), (R.CAL_ADC_GAIN 1, 0x40004000)] } 1 fun c => { c with phase := some 0 }

/-- The unit with the outputs of bar 0 driving. -/
def driving (s : State) : State := withAux s fun a => { a with pads := updNth a.pads 0 fun _ => .driving (List.replicate 9 false) }

/-- Bar 0 in its job, its line `l` sent and committed for tick 1000. -/
def lineReady (l : Nat) : State :=
  withBar (withClk (withPix (driving inAJob) fun p => { p with bars := updNth p.bars 0 fun _ => some { first := some l } }) 0
    fun c => { c with commit := some { line := l, tB := 64000, inJob := true } }) 0 fun f => { f with sent := some { line := l } }

/-- ZaroLink lane `nn` enabled and in state `st`. -/
def withLane (s : State) (nn st : Nat) (f : ZLane → ZLane) : State :=
  { (s.put (F.LSTATE nn) st).setReg (R.ZLB_LANE_EN (nn / 9)) (BitVec.ofNat 32 (2 ^ (nn % 9))) with zl := { s.zl with lanes := updNth s.zl.lanes nn f } }

/-- A line frame of line 7 with its chunks in the given states. -/
def frame (l : List AckState) : ZFrame := { line := 7, header := .good, chunks := l, windowOpen := true }

/-- The unit with 4 MiB of DRAM on channel 0, and what the front end's arbiter, the fabric or the pool holds. -/
def dramReady : State := withRegs ready [(R.MEM_STAT, 0x20000), (R.MEM_CH_MAP, 0x10000)]
def withArb (i : Nat) (a : ArbInst) : State := dramReady.setArb i a
def access (a : Nat) (write : Bool) (data : List (Option Byte)) : Work := .access a write 0 data
def withMem (s : State) (f : Mem → Mem) : State := s.modMem f

/-- A state whose HSK part is changed. -/
def withHsk (s : State) (f : Hsk → Hsk) : State := s.modHsk f

/-- A unit of a pair in role `r` (Table 2.5), its link up. -/
def pairUnit (r : Nat) : State := withRegs ready [(R.DEV_DEVSTATE, BitVec.ofNat 32 (7 + 16 * r)), (R.PLK_LINK_STAT, 1), (R.PAR_STAT, 0)]
def withPlk (s : State) (f : Plk → Plk) : State := s.modPlk f

/-- The standby or detached unit in step with an active. -/
def inStep (r : Nat) : State := withPlk (withRegs (pairUnit r) [(R.PAR_STAT, 0x00100000)]) fun p => { p with aligned := true }

/-- Bar 0 in its job: its line 0, committed for tick 1000, and line 1 are blank, and the boundary of line 2 is predicted 20 µs later; a FIRE_DLY run is pending. -/
def zoned : State :=
  withPix (withClk (withRegs (moving inAJob) [(R.CAL_ITEM_STAT 0, 1), (R.LCK_SPACING_HI 0, 40)]) 0 fun c => { c with commit := some { tB := 64000 } }) fun p =>
    { p with scn := updNth p.scn 0 fun k => { k with fifo := [{ line := 0, words := [0] }, { line := 1, words := [0] }] } }

/-- The tile of a work, and the only bar that is in a job. -/
def tileOf (w : Work) : TileJob := match w with | .tile j => j | _ => default
theorem oneRun {s : State} {x : BarRun} (h : s.pix.bars = some x :: List.replicate 7 none) (b : Nat) (r : BarRun) (hr : s.run b = some r) : r = x := by
  simp only [State.run, nth, h] at hr
  rcases b with _ | b
  · exact (Option.some.inj hr).symm
  · rw [List.getD_cons_succ, List.getD_eq_getElem?_getD, List.getElem?_replicate] at hr
    split at hr <;> cases hr

/-- The unit as the front of its chain, with an address. -/
def chained : State := withRegs ready [(R.CHN_STAT, 1), (R.CHN_ADDR, 5), (R.ACCESS P_CDC, 1)]
def front : State := withRegs ready [(R.CHN_STAT, 1)]

/-- A DIAG descriptor (Table 19.11), and the unit with one on ring 62. -/
def diagDesc (op target param : Nat) : Desc := { bytes := List.replicate 8 0 ++ leBytes 4 8192 ++ leBytes 1 op ++ leBytes 1 target ++ leBytes 2 param ++ List.replicate 16 0 }
def diag (op target param : Nat) : State := withRing ready 62 [diagDesc op target param]

/-! ### The spec's worked examples -/

/-- "123456789" in ASCII. -/
def digits : List Byte := [0x31, 0x32, 0x33, 0x34, 0x35, 0x36, 0x37, 0x38, 0x39]

/-- R400: the check value of CRC-16/CCITT-FALSE. -/
theorem test_crc16_check : crc16 digits = 0x29B1 := by decide +kernel

/-- R155: the check value of CRC-32C. -/
theorem test_crc32c_check : crc32c digits = 0xE3069283 := by decide +kernel

/-- Table 6.3: the ten bytes of the swatch, and the eight bytes of its stream. -/
def swatch : List Byte := [0x80, 0x80, 0x80, 0x80, 0x80, 0x80, 0x40, 0x40, 0x80, 0x80]
def swatchStream : List Byte := [0x80, 0x04, 0x0E, 0x04, 0x02, 0x44, 0x60, 0x40]

/-- Table 6.3: the stream decodes to the swatch, with END in its last byte. -/
theorem test_azd_decode : (decodeTile swatchStream 10).1 = some swatch := by decide +kernel

/-- Table 6.3: the swatch encodes to the stream, under the policy of the reset values of Table 6.2. -/
theorem test_azd_encode : bytesOfBitsPad (azdEncode 20 ⟨1, 0x10, 0x300⟩ {} swatch 100 0 100 0).enc.bits = swatchStream := by decide +kernel

/-- Table 7.5, row Upsampling: column 50,001 lies between samples 128 and 140. -/
theorem test_dot_upsampling : sampleAt false true (fun k => if k = 25000 then 128 else if k = 25001 then 140 else 0) 50001 = 131 := by decide +kernel

/-- Table 7.5, rows Gain, Offset and Curve 0: 2,055 without the offset, 2,023 with it, which curve 0 leaves. -/
theorem test_dot_tone : toneLevel 131 2000 0 = 2055 ∧ toneLevel 131 2000 (-8) = 2023 ∧ curveAt (fun i => 512 * i) 2023 = 2023 := by decide +kernel

/-- Table 7.5, rows Mask cell, Thresholds and History: cell 8, a small drop, and entry 6 of the bank of R261; the uncorrected tone prints medium. -/
theorem test_dot_size : bayer 296 437 = 8 ∧ sizeOf_ (fun k => nth [0, 90, 127, 200] k) 8 2023 = 1 ∧ sizeOf_ (fun k => nth [0, 90, 127, 200] k) 8 2055 = 2
    ∧ variantOf 0x90909000 1 true false = 1 := by decide +kernel

/-- Table 7.6 and R207: the contone line under row 48 at line 7,000, at 1,200 and 1,600 lpi, and the span of 624 lines. -/
theorem test_contone_rows : contoneLine {} 7000 48 = 3476 ∧ contoneLine { pRes := 1600 } 7000 64 = 2601 ∧ spanOf 1248 600 1200 = 624 ∧ spanOf 1664 600 1600 = 624 := by
  decide +kernel

/-- Table 8.7: INTEG, DELTA and G* after reports 1 to 3, at 40.0 °C. -/
theorem test_density_loop : foldInteg 0 0x80 41 = 1312 ∧ foldInteg 1312 0x80 21 = 1984 ∧ foldInteg 1984 0x80 9 = 2272 ∧ deltaOf 0 0 1312 = 10 ∧ deltaOf 0 0 2272 = 18
    ∧ gainRaw (massM 10 0x28F 640 640) = 2009 ∧ gainRaw (massM 18 0x28F 640 640) = 1978 := by decide +kernel

/-- Table 8.7: the head at 43.0 °C takes G* from 1,971 to 1,916, and report 6 to 1,909. -/
theorem test_density_temperature : gainRaw (massM 20 0x28F 640 640) = 1971 ∧ gainRaw (massM 20 0x28F 640 688) = 1916 ∧ gainRaw (massM 22 0x28F 640 688) = 1909 := by
  decide +kernel

/-- Table 14.4: the segments' slots and the slots' loads for B = 2,000 firing carats. -/
theorem test_phase_spreading : assignSlots 4 true (fun _ => 0) 2000 (fun g => 4096 * nth [1500, 1200, 900, 1800, 400, 300, 1100, 200] g)
    = ([1, 2, 3, 0, 1, 2, 3, 0], [4096 * 2000, 4096 * 1900, 4096 * 1500, 4096 * 2000]) := by decide +kernel

/-- Table 10.2: bar 5 with NOM_PERIOD 2,540 and FRAC 0x40, when the line before fired at tick `f`. -/
def bar5 (f : Nat) : State := withBar (withRegs ready [(R.FIRE_DEFER 5, 0x400009EC)]) 5 fun b => { b with lastLine := some (0, 64 * f, 64 * f) }

/-- Table 10.2: line 15 (92.177 µs) is deferred to 93.75 µs, line 16 (98.323 µs) is dropped with cause 0, and line 17 (104.468 µs) fires at its boundary. -/
theorem test_overspeed : ((bar5 35000).fireCommit 5 15 (64 * 36871) {}).drop = none ∧ ((bar5 35000).fireCommit 5 15 (64 * 36871) {}).fireAt = 64 * 37500
    ∧ ((bar5 37500).fireCommit 5 16 (64 * 39329) {}).drop = some 0 ∧ ((bar5 37500).fireCommit 5 17 (64 * 41787) {}).fireAt = 64 * 41787
    ∧ ((bar5 37500).fireCommit 5 17 (64 * 41787) {}).drop = none := by decide +kernel

/-- Table 12.7, in ticks: lanes 0 to 27 hold tiles of bars (7 of bar 4), lanes 28 to 31 codec jobs; bar 4 panics at 4,925 µs. -/
def pool : State :=
  let tile (b lane dl : Nat) : Req := { r := b, lane := lane, deadline := dl, work := .tile { bar := b } }
  { withRegs imaging [(R.IMG_CRING_CFG 4, 0x00070004)] with pix := { imaging.pix with pool := {
      waiting := [tile 4 0 (4925 * 400)]
      holders := (List.range 28).map (fun k => tile (if k < 7 then 4 else 1) k (4900 * 400))
        ++ [(28, 4950), (29, 4970), (30, 4990), (31, 5030)].map fun (x : Nat × Nat) => { r := 8, lane := x.1, deadline := x.2 * 400, work := .codec (x.1 - 28) } } } }

/-- Table 12.7: bar 4 takes lane 31, and the codec job waits again with its stamp of 5,030 µs. -/
theorem test_pool_preemption : (match exec (.arbPreemption (4925 * 400 + 1) 2 0 0) pool with
    | .next t => (t.pix.pool.waiting.map fun q => (q.r, q.deadline)) == [(8, 5030 * 400)] && (t.laneHolder 31).any (fun q => q.r == 4) && t.get (F.ARB_REQ_CNT_PREEMPTS 2 8) == 1
    | _ => false) = true := by decide +kernel

/-- Table 12.7: the same request before its panic, at 5,200 µs, preempts nothing. -/
theorem test_pool_margin : (match exec (.arbPreemption (4925 * 400 + 1) 2 0 0) { pool with pix := { pool.pix with pool := { pool.pix.pool with
      waiting := [{ r := 4, deadline := 5200 * 400, work := .tile { bar := 4 } }] } } } with
    | .next t => t.pix.pool.holders == pool.pix.pool.holders | _ => false) = true := by decide +kernel

/-- Table 5.12: TILE ring 2 with 256 entries and PROD = DONE = 0xFFFF_FFFE. -/
def ring2 : State :=
  withRegs armable [(R.DMA_RING_BASE_LO 2, 0x10000), (R.DMA_RING_CFG 2, 0x14040528), (R.DMA_RING_STAT 2, 1), (R.DMA_RING_PROD 2, 0xFFFFFFFE), (R.DMA_RING_CONS 2, 0xFFFFFFFE),
    (R.DMA_RING_DONE 2, 0xFFFFFFFE)]

/-- Table 5.12: the doorbell's checks pass across the wrap. -/
theorem test_ring_wrap : (match exec (.submissionDoorbell 2 2) ring2 with
    | .next t => t.reg (R.DMA_RING_PROD 2) == 2 && t.ringRunning 2 | _ => false) = true := by decide +kernel

/-- Table 5.12: index 0xFFFF_FFFF is slot 0xFF, at BASE + 0x1FE0, and CONS wraps to 0 behind it. -/
theorem test_ring_slot : (match exec (.descriptorFetched 2 []) (withRegs ring2 [(R.DMA_RING_PROD 2, 2), (R.DMA_RING_CONS 2, 0xFFFFFFFF)]) with
    | .next t => t.out == [.dmaRead 1 2 0x11FE0 32] && t.reg (R.DMA_RING_CONS 2) == 0 | _ => false) = true := by decide +kernel

/-- The worked reading of R8: after DEVTIME_LO reads 0xFFFF_FFF0, DEVTIME_HI reads the captured half, whatever ticks lie between. -/
theorem test_capture : (match exec (.loHalfRead .host R.TMB_DEVTIME_LO) { ready with devtime := 0x7FFFFFFF0 } with
    | .next t => (match exec (.loHalfRead .host R.TMB_DEVTIME_HI) { t with devtime := 0x800000010 } with
      | .next u => u.out == [.readReply .host 7, .readReply .host 0xFFFFFFF0] | _ => false)
    | _ => false) = true := by decide +kernel

/-- Table 14.5 gives one round the sixteen sites; R346: the sixteenth measurement at THROTTLE enters it. -/
theorem test_throttle_sixteenth : ((withHsk ready fun h => { h with enter := [15, 0, 0] }).threshold 0 0x5F0).2 = some true
    ∧ ((withHsk ready fun h => { h with enter := [14, 0, 0] }).threshold 0 0x5F0).2 = none := by decide +kernel

/-! ### Witnesses: for each clause of each statement that has hypotheses, a state and operands that meet them together -/

theorem witness_Supplies :
    (∃ (s : State), s.aux.phases.length = 8)
    ∧ (∃ (s : State), s.quiet)
    ∧ (∃ (s : State), s.aux.vaux = false ∧ s.aux.phases.length = 8)
    ∧ (∃ (s : State), s.aux.vaux = true ∧ s.aux.vin = false ∧ s.dev = .auxonly ∧ s.quiet)
    ∧ (∃ (s : State), s.aux.vaux = true ∧ s.aux.vin = true ∧ s.aux.railsUp = true ∧ s.quiet)
    ∧ (∃ (s : State), s.aux.vaux = true ∧ s.aux.vin = true ∧ s.quiet)
    ∧ (∃ (s : State), s.aux.vaux = true ∧ s.aux.vin = true ∧ s.aux.faultWait = true ∧ s.dev = .auxonly ∧ s.quiet)
    ∧ (∃ (s : State), s.aux.vaux = true ∧ s.aux.railsUp = true) :=
  ⟨⟨.reset, by decide +kernel⟩,
   ⟨ready, ⟨rfl, rfl⟩⟩,
   ⟨withAux ready fun a => { a with vaux := false }, by decide +kernel, by decide +kernel⟩,
   ⟨withAux auxOnly fun a => { a with vin := false }, by decide +kernel, by decide +kernel, by decide +kernel, ⟨rfl, rfl⟩⟩,
   ⟨ready, by decide +kernel, by decide +kernel, by decide +kernel, ⟨rfl, rfl⟩⟩,
   ⟨ready, by decide +kernel, by decide +kernel, ⟨rfl, rfl⟩⟩,
   ⟨withAux auxOnly fun a => { a with faultWait := true }, by decide +kernel, by decide +kernel, by decide +kernel, by decide +kernel, ⟨rfl, rfl⟩⟩,
   ⟨ready, by decide +kernel, by decide +kernel⟩⟩

theorem witness_ReleaseSequence :
    (∃ (s : State), s.aux.vaux = true ∧ s.aux.seq = .trim ∧ s.aux.vin = true ∧ s.aux.railsUp = false ∧ s.on F.PWR_REG_FAULT_LATCHED = false ∧ s.quiet)
    ∧ (∃ (whole : Bool) (crc : Word) (s : State), s.aux.vaux = true ∧ s.aux.seq = .trim ∧ (whole = false ∨ crc ≠ Config.otpCrc) ∧ s.get F.TRM_TRIM_STAT_FAIL_CNT = 2 ∧ s.quiet)
    ∧ (∃ (i : Nat) (s : State), s.aux.vaux = true ∧ s.aux.seq = .rails ∧ s.dev ≠ .resethold ∧ s.aux.todo.head? = some i ∧ i < 2 ∧ s.quiet)
    ∧ (∃ (i : Nat) (s : State), s.aux.vaux = true ∧ i < s.aux.phases.length ∧ (s.aux.seq = .clock i ∨ s.phase i = .releaseHeld) ∧ s.quiet)
    ∧ (∃ (l : List ChannelTrained) (s : State), s.aux.vaux = true ∧ s.aux.seq = .training ∧ ((l.take 16).countP fun x => decide (x.result = 1)) < 8 ∧ s.quiet)
    ∧ (∃ (m : Master) (i : Nat) (j : Nat) (s : State), s.Direct m R.RSC_BOOT_CTRL 1 ∧ s.aux.seq = .bootHold j ∧ s.aux.todo.head? = some i ∧ s.islHeld i = false ∧ s.aux.holdMark = false) :=
  ⟨⟨withAux .reset fun a => { a with vin := true }, by decide +kernel, by decide +kernel, by decide +kernel, by decide +kernel, by decide +kernel, ⟨rfl, rfl⟩⟩,
   ⟨false, 0, withRegs .reset [(R.TRM_TRIM_STAT, 0x8)], by decide +kernel, by decide +kernel, by decide +kernel, by decide +kernel, ⟨rfl, rfl⟩⟩,
   ⟨1, withAux .reset fun a => { a with vin := true, seq := .rails }, by decide +kernel, by decide +kernel, by decide +kernel, by decide +kernel, by decide +kernel, ⟨rfl, rfl⟩⟩,
   ⟨2, withAux .reset fun a => { a with seq := .clock 2 }, by decide +kernel, by decide +kernel, by decide +kernel, ⟨rfl, rfl⟩⟩,
   ⟨[], withAux .reset fun a => { a with seq := .training }, by decide +kernel, by decide +kernel, by decide +kernel, ⟨rfl, rfl⟩⟩,
   ⟨.host, 3, 2, withAux ready fun a => { a with seq := .bootHold 2, todo := [3] }, direct_of (by decide +kernel), by decide +kernel, by decide +kernel, by decide +kernel, by decide +kernel⟩⟩

theorem witness_ResetPins :
    (∃ (s : State), s.aux.vaux = true ∧ s.dev ≠ .resethold ∧ s.aux.phases.length = 8)
    ∧ (∃ (s : State), s.aux.vaux = true ∧ s.aux.resetN = true ∧ s.dev ≠ .resethold ∧ s.quiet)
    ∧ (∃ (s : State), s.aux.vaux = true ∧ s.aux.perstLow = false ∧ s.quiet)
    ∧ (∃ (s : State), s.aux.perstLow = true ∧ s.quiet) :=
  ⟨⟨ready, by decide +kernel, by decide +kernel, by decide +kernel⟩,
   ⟨withAux ready fun a => { a with resetN := true }, by decide +kernel, by decide +kernel, by decide +kernel, ⟨rfl, rfl⟩⟩,
   ⟨ready, by decide +kernel, by decide +kernel, ⟨rfl, rfl⟩⟩,
   ⟨.reset, by decide +kernel, ⟨rfl, rfl⟩⟩⟩

theorem witness_Resets :
    (∃ (i : Nat) (s : State), s.aux.vaux = true ∧ 1 ≤ i ∧ i ≤ 7 ∧ s.dev ≠ .resethold ∧ s.quiet)
    ∧ (∃ (i : Nat) (s : State), s.aux.vaux = true ∧ 1 ≤ i ∧ i ≤ 7 ∧ s.dev ≠ .resethold ∧ s.quiet)
    ∧ (∃ (s : State), s.aux.vaux = true ∧ s.dev ≠ .resethold ∧ s.quiet)
    ∧ (∃ (s : State), s.aux.vaux = true ∧ s.aux.osc = true ∧ s.quiet)
    ∧ (∃ (s : State), s.aux.vaux = true ∧ s.aux.osc = false ∧ s.dev ≠ .resethold ∧ s.quiet)
    ∧ (∃ (s : State), s.aux.vaux = true)
    ∧ (∃ (m : Master) (s : State), s.dev ≠ .resethold ∧ s.Direct m R.RSC_SWRST 0xA5C30001)
    ∧ (∃ (m : Master) (s : State), s.dev ≠ .resethold ∧ s.Direct m R.RSC_SWRST 0xA5C30002)
    ∧ (∃ (m : Master) (s : State), s.dev ≠ .resethold ∧ s.Direct m R.RSC_SWRST 0xA5C30003) :=
  ⟨⟨3, ready, by decide +kernel, by decide +kernel, by decide +kernel, by decide +kernel, ⟨rfl, rfl⟩⟩,
   ⟨3, ready, by decide +kernel, by decide +kernel, by decide +kernel, by decide +kernel, ⟨rfl, rfl⟩⟩,
   ⟨ready, by decide +kernel, by decide +kernel, ⟨rfl, rfl⟩⟩,
   ⟨ready, by decide +kernel, by decide +kernel, ⟨rfl, rfl⟩⟩,
   ⟨withAux ready fun a => { a with osc := false }, by decide +kernel, by decide +kernel, by decide +kernel, ⟨rfl, rfl⟩⟩,
   ⟨ready, by decide +kernel⟩,
   ⟨.host, ready, by decide +kernel, direct_of (by decide +kernel)⟩,
   ⟨.host, ready, by decide +kernel, direct_of (by decide +kernel)⟩,
   ⟨.host, ready, by decide +kernel, direct_of (by decide +kernel)⟩⟩

theorem witness_BlockControlAndReset :
    (∃ (m : Master) (page : Nat) (block : Nat) (s : State), s.Direct m (R.CTRL page) (BitVec.ofNat 32 (256 * block + 1)) ∧ s.on (F.S_FAULT page) = false ∧ s.on (F.S_DRAINING page) = false ∧ s.on (F.S_IDLE page) = true)
    ∧ (∃ (m : Master) (page : Nat) (block : Nat) (s : State), s.Direct m (R.CTRL page) (BitVec.ofNat 32 (256 * block)) ∧ page ≠ P_PAR ∧ s.on (F.S_DRAINING page) = false ∧ s.on (F.S_IDLE page) = false)
    ∧ (∃ (m : Master) (block : Nat) (s : State), s.Direct m (R.CTRL P_PAR) (BitVec.ofNat 32 (256 * block)) ∧ ¬ (s.role = .active ∧ s.dev.inJob = true) ∧ s.on (F.S_DRAINING P_PAR) = false ∧ s.on (F.S_IDLE P_PAR) = false)
    ∧ (∃ (page : Nat) (s : State), s.pageUp page = true ∧ page < 0x34 ∧ page ≠ P_NZC ∧ s.on (F.S_DRAINING page) = true ∧ s.on (F.S_REARM page) = false)
    ∧ (∃ (page : Nat) (s : State), s.pageUp page = true ∧ page < 0x34 ∧ page ≠ P_NZC ∧ s.on (F.S_DRAINING page) = true ∧ s.on (F.S_REARM page) = true)
    ∧ (∃ (s : State), s.pageUp P_NZC = true ∧ s.on (F.S_DRAINING P_NZC) = true)
    ∧ (∃ (m : Master) (page : Nat) (block : Nat) (s : State), s.Direct m (R.CTRL page) (BitVec.ofNat 32 (256 * block + 2)) ∧ page ≠ P_CAL ∧ page ≠ P_CRT ∧ s.on (F.S_IDLE page) = true)
    ∧ (∃ (m : Master) (page : Nat) (block : Nat) (s : State), s.Direct m (R.CTRL page) (BitVec.ofNat 32 (256 * block + 2)) ∧ (page = P_CAL ∨ page = P_CRT) ∧ s.on (F.S_IDLE page) = true)
    ∧ (∃ (m : Master) (block : Nat) (s : State), s.Direct m (R.CTRL P_PAR) (BitVec.ofNat 32 (256 * block + 2)) ∧ s.on (F.S_IDLE P_PAR) = true)
    ∧ (∃ (m : Master) (page : Nat) (block : Nat) (s : State), s.Direct m (R.CTRL page) (BitVec.ofNat 32 (256 * block + 2)) ∧ s.on (F.S_IDLE page) = false) :=
  ⟨⟨.host, P_TMB, 0, withRegs ready [(R.STATE P_TMB, 1)], direct_of (by decide +kernel), by decide +kernel, by decide +kernel, by decide +kernel⟩,
   ⟨.host, P_IMG, 0, withRegs ready [(R.STATE P_IMG, 0), (R.CTRL P_IMG, 1)], direct_of (by decide +kernel), by decide +kernel, by decide +kernel, by decide +kernel⟩,
   ⟨.host, 0, withRegs ready [(R.STATE P_PAR, 0), (R.CTRL P_PAR, 1), (R.DEV_DEVSTATE, 0x37)], direct_of (by decide +kernel), by decide +kernel, by decide +kernel, by decide +kernel⟩,
   ⟨P_IMG, withRegs ready [(R.STATE P_IMG, 2)], by decide +kernel, by decide +kernel, by decide +kernel, by decide +kernel, by decide +kernel⟩,
   ⟨P_IMG, withRegs ready [(R.STATE P_IMG, 6)], by decide +kernel, by decide +kernel, by decide +kernel, by decide +kernel, by decide +kernel⟩,
   ⟨withRegs ready [(R.STATE P_NZC, 2)], by decide +kernel, by decide +kernel⟩,
   ⟨.host, P_IMG, 0, withRegs ready [(R.STATE P_IMG, 1), (R.IMG_STORE_BASE, 0x40)], direct_of (by decide +kernel), by decide +kernel, by decide +kernel, by decide +kernel⟩,
   ⟨.host, P_CAL, 0, withRegs ready [(R.STATE P_CAL, 1)], direct_of (by decide +kernel), by decide +kernel, by decide +kernel⟩,
   ⟨.host, 0, withRegs ready [(R.STATE P_PAR, 1), (R.DEV_STRAPS, 1)], direct_of (by decide +kernel), by decide +kernel⟩,
   ⟨.host, P_IMG, 0, withRegs ready [(R.STATE P_IMG, 0), (R.CTRL P_IMG, 1)], direct_of (by decide +kernel), by decide +kernel⟩⟩

theorem witness_IslandHoldAndEvents :
    (∃ (m : Master) (i : Nat) (s : State), s.Direct m R.RSC_ISL_HOLD (s.reg R.RSC_ISL_HOLD ||| BitVec.ofNat 32 (2 ^ i)) ∧ 4 ≤ i ∧ i ≤ 6 ∧ s.islHeld i = false ∧ s.dev.inJob = false ∧ i < s.aux.phases.length)
    ∧ (∃ (m : Master) (i : Nat) (s : State), s.Direct m R.RSC_ISL_HOLD (s.reg R.RSC_ISL_HOLD ||| BitVec.ofNat 32 (2 ^ i)) ∧ 4 ≤ i ∧ i ≤ 6 ∧ s.islHeld i = false ∧ s.dev.inJob = true)
    ∧ (∃ (m : Master) (i : Nat) (s : State), s.Direct m R.RSC_ISL_HOLD (s.reg R.RSC_ISL_HOLD &&& ~~~(BitVec.ofNat 32 (2 ^ i))) ∧ 4 ≤ i ∧ i ≤ 6 ∧ s.islHeld i = true ∧ s.phase i = .inReset ∧ s.aux.todo.contains i = false ∧ s.dev ≠ .auxonly ∧ s.dev ≠ .resethold ∧ s.aux.seq = .idle ∧ i < s.aux.phases.length)
    ∧ (∃ (m : Master) (page : Nat) (w : Word) (same : Word) (s : State), s.Direct m (R.EVT_PEND page) (w &&& ~~~same))
    ∧ (∃ (m : Master) (page : Nat) (w : Word) (s : State), s.Direct m (R.EVT_FORCE page) w) :=
  ⟨⟨.host, 5, ready, direct_of (by decide +kernel), by decide +kernel, by decide +kernel, by decide +kernel, by decide +kernel, by decide +kernel⟩,
   ⟨.host, 5, withRegs ready [(R.DEV_DEVSTATE, 9)], direct_of (by decide +kernel), by decide +kernel, by decide +kernel, by decide +kernel, by decide +kernel⟩,
   ⟨.host, 5, withAux (withRegs ready [(R.RSC_ISL_HOLD, 0x20)]) fun a => { a with phases := updNth a.phases 5 fun _ => .inReset }, direct_of (by decide +kernel), by decide +kernel, by decide +kernel, by decide +kernel, by decide +kernel, by decide +kernel, by decide +kernel, by decide +kernel, by decide +kernel, by decide +kernel⟩,
   ⟨.host, P_IMG, 0x30, 0x10, withRegs ready [(R.EVT_PEND P_IMG, 0x70), (R.EVT_RAW P_IMG, 0x70)], direct_of (by decide +kernel)⟩,
   ⟨.host, P_IMG, 0x30, withRegs ready [(R.EVT_MASK P_IMG, 0x70)], direct_of (by decide +kernel)⟩⟩

theorem witness_RegisterWrites :
    (∃ (m : Master) (a : Nat) (i : Nat) (j : Nat) (r : RegRow) (b0 : Byte) (b1 : Byte) (b2 : Byte) (b3 : Byte) (s : State), s.Direct m a (wordOf b0 b1 b2 b3) ∧ a % 4 = 0 ∧ regRow a = some (r, i, j) ∧ 0x040 ≤ a % 0x1000 ∧ a / 0x1000 ∈ [P_PWR, P_CLK, P_TRM, P_TMB, P_HIF, P_SBP, P_CHN, P_PLK, P_CDC, P_IMG, P_MEM, P_ARB] ∧ r.claspOnly = false ∧ r.pair = false ∧ s.openBits a = 0 ∧ onlyReadOnly r a i (s.live a) (wordOf b0 b1 b2 b3) = false ∧ rowInRange r (wordOf b0 b1 b2 b3) = true ∧ s.writeBars m a i j r.off (wordOf b0 b1 b2 b3) = none ∧ (∀ l, loOf a = some l → s.heldLo m l = none))
    ∧ (∃ (m : Master) (a : Nat) (s : State), s.reaches m = true ∧ s.quiet ∧ s.pix.fabric.holders = [] ∧ placeOf (4 * (a / 4)) = .page (a / 0x1000) ∧ s.pageUp (a / 0x1000) = true)
    ∧ (∃ (m : Master) (a : Nat) (i : Nat) (j : Nat) (r : RegRow) (b0 : Byte) (b1 : Byte) (b2 : Byte) (b3 : Byte) (s : State), s.Direct m a (wordOf b0 b1 b2 b3) ∧ a % 4 = 0 ∧ regRow a = some (r, i, j) ∧ 0x040 ≤ a % 0x1000 ∧ a / 0x1000 ≠ P_CLS ∧ r.claspOnly = false ∧ s.openBits a = 0 ∧ a ≠ R.DEV_GPIO_IN ∧ wdtReg a = false ∧ onlyReadOnly r a i (s.live a) (wordOf b0 b1 b2 b3) = true)
    ∧ (∃ (a : Nat) (b0 : Byte) (b1 : Byte) (b2 : Byte) (b3 : Byte) (s : State), s.reaches .host = true ∧ s.quiet ∧ s.pix.fabric.holders = [] ∧ placeOf a = .page (a / 0x1000) ∧ s.pageUp (a / 0x1000) = true ∧ a % 4 = 0 ∧ s.role = .standby ∧ s.lockstepWrite (.page (a / 0x1000)) a (wordOf b0 b1 b2 b3) = true) :=
  ⟨⟨.host, R.IMG_STORE_BASE, (rowAt (R.IMG_STORE_BASE)).2.1, (rowAt (R.IMG_STORE_BASE)).2.2, (rowAt (R.IMG_STORE_BASE)).1, 1, 2, 3, 4, ready, direct_of (by decide +kernel), by decide +kernel, row_spec (by decide +kernel), by decide +kernel, by decide +kernel, by decide +kernel, by decide +kernel, by decide +kernel, by decide +kernel, by decide +kernel, by decide +kernel, fun _ _ => rfl⟩,
   ⟨.host, R.IMG_STORE_BASE + 1, ready, by decide +kernel, ⟨rfl, rfl⟩, by decide +kernel, by decide +kernel, by decide +kernel⟩,
   ⟨.host, R.IMG_STORE_FREE, (rowAt (R.IMG_STORE_FREE)).2.1, (rowAt (R.IMG_STORE_FREE)).2.2, (rowAt (R.IMG_STORE_FREE)).1, 0xFF, 0xFF, 0xFF, 0xFF, ready, direct_of (by decide +kernel), by decide +kernel, row_spec (by decide +kernel), by decide +kernel, by decide +kernel, by decide +kernel, by decide +kernel, by decide +kernel, by decide +kernel, by decide +kernel⟩,
   ⟨R.IMG_STORE_BASE, 1, 0, 0, 0, withRegs ready [(R.DEV_DEVSTATE, 0x27)], by decide +kernel, ⟨rfl, rfl⟩, by decide +kernel, by decide +kernel, by decide +kernel, by decide +kernel, by decide +kernel, by decide +kernel⟩⟩

theorem witness_HalfAccesses :
    (∃ (m : Master) (a : Nat) (i : Nat) (j : Nat) (r : RegRow) (s : State), s.DirectRead m a ∧ regRow a = some (r, i, j) ∧ r.pair = true ∧ captureSet a = [] ∧ captureOf a = none ∧ s.captured m a = none ∧ s.openBits a = 0 ∧ a ≠ R.EVT_LOST ∧ ¬ (a / 0x1000 = P_DMA ∧ 0x800 ≤ a % 0x1000 ∧ a % 0x20 = 0x18))
    ∧ (∃ (m : Master) (a : Nat) (i : Nat) (j : Nat) (r : RegRow) (w : Word) (s : State), s.DirectRead m a ∧ regRow a = some (r, i, j) ∧ captureSet a = [] ∧ captureOf a = none ∧ s.captured m a = some w)
    ∧ (∃ (m : Master) (a : Nat) (i : Nat) (j : Nat) (r : RegRow) (w : Word) (s : State), s.Direct m a w ∧ regRow a = some (r, i, j) ∧ 0x040 ≤ a % 0x1000 ∧ a / 0x1000 ∉ [P_CLS, P_CAL, P_MCH] ∧ r.pair = true ∧ r.claspOnly = false ∧ rwBits r a i ≠ 0 ∧ s.openBits a = 0 ∧ onlyReadOnly r a i (s.live a) w = false ∧ rowInRange r w = true ∧ s.writeBars m a i j r.off w = none)
    ∧ (∃ (m : Master) (a : Nat) (i : Nat) (j : Nat) (k : Nat) (l : Nat) (r : RegRow) (q : RegRow) (w : Word) (v : Word) (s : State), s.Direct m (a + 4) w ∧ regRow (a + 4) = some (r, i, j) ∧ regRow a = some (q, k, l) ∧ 0x040 ≤ (a + 4) % 0x1000 ∧ a / 0x1000 = (a + 4) / 0x1000 ∧ a / 0x1000 ∈ [P_EVT, P_HIF, P_SBP, P_CDC, P_IMG, P_PLK] ∧ q.pair = true ∧ r.pair = false ∧ r.claspOnly = false ∧ s.openBits (a + 4) = 0 ∧ onlyReadOnly r (a + 4) i (s.live (a + 4)) w = false ∧ rowInRange r w = true ∧ s.writeBars m (a + 4) i j r.off w = none ∧ a + 4 ≠ R.EVT_LOG_FROM ∧ s.heldLo m a = some v) :=
  ⟨⟨.host, R.TMB_DEVTIME_LO, (rowAt (R.TMB_DEVTIME_LO)).2.1, (rowAt (R.TMB_DEVTIME_LO)).2.2, (rowAt (R.TMB_DEVTIME_LO)).1, withRegs ready [], directRead_of (by decide +kernel), row_spec (by decide +kernel), by decide +kernel, by decide +kernel, by decide +kernel, by decide +kernel, by decide +kernel, by decide +kernel, by decide +kernel⟩,
   ⟨.host, R.TMB_DEVTIME_LO + 4, (rowAt ((R.TMB_DEVTIME_LO + 4))).2.1, (rowAt ((R.TMB_DEVTIME_LO + 4))).2.2, (rowAt ((R.TMB_DEVTIME_LO + 4))).1, 5, withAux ready fun a => { a with capt := [(.host, R.TMB_DEVTIME_LO + 4, 5)] }, directRead_of (by decide +kernel), row_spec (by decide +kernel), by decide +kernel, by decide +kernel, by decide +kernel⟩,
   ⟨.host, R.CDC_CTX_BASE_LO 2, (rowAt ((R.CDC_CTX_BASE_LO 2))).2.1, (rowAt ((R.CDC_CTX_BASE_LO 2))).2.2, (rowAt ((R.CDC_CTX_BASE_LO 2))).1, 5, ready, direct_of (by decide +kernel), row_spec (by decide +kernel), by decide +kernel, by decide +kernel, by decide +kernel, by decide +kernel, by decide +kernel, by decide +kernel, by decide +kernel, by decide +kernel, by decide +kernel⟩,
   ⟨.host, R.CDC_CTX_BASE_LO 2, (rowAt (((R.CDC_CTX_BASE_LO 2) + 4))).2.1, (rowAt (((R.CDC_CTX_BASE_LO 2) + 4))).2.2, (rowAt ((R.CDC_CTX_BASE_LO 2))).2.1, (rowAt ((R.CDC_CTX_BASE_LO 2))).2.2, (rowAt (((R.CDC_CTX_BASE_LO 2) + 4))).1, (rowAt ((R.CDC_CTX_BASE_LO 2))).1, 5, 6, withAux ready fun a => { a with holdLo := [(.host, R.CDC_CTX_BASE_LO 2, 6)] }, direct_of (by decide +kernel), row_spec (by decide +kernel), row_spec (by decide +kernel), by decide +kernel, by decide +kernel, by decide +kernel, by decide +kernel, by decide +kernel, by decide +kernel, by decide +kernel, by decide +kernel, by decide +kernel, by decide +kernel, by decide +kernel, by decide +kernel⟩⟩

theorem witness_ReadsAndWindows :
    (∃ (m : Master) (k : Nat) (s : State), s.DirectRead m (R.POS_LAT_CNT k) ∧ k < 4)
    ∧ (∃ (m : Master) (b : Nat) (s : State), s.DirectRead m (R.LCK_CMP_FRAC b) ∧ b < 8)
    ∧ (∃ (m : Master) (b : Nat) (s : State), s.DirectRead m (R.TMB_LINE64_LO b) ∧ b < 8)
    ∧ (∃ (m : Master) (s : State), s.DirectRead m R.EVT_LOST ∧ s.captured m R.EVT_LOST = none)
    ∧ (∃ (a : Nat) (b : Nat) (s : State), s.reaches .host = true ∧ s.quiet ∧ s.pix.fabric.holders = [] ∧ s.up 3 = true ∧ s.role = .solo ∧ placeOf a = .tone b ∧ s.inJob b = false)
    ∧ (∃ (a : Nat) (b : Nat) (s : State), s.reaches .host = true ∧ s.quiet ∧ s.pix.fabric.holders = [] ∧ s.up 3 = true ∧ s.role = .solo ∧ placeOf a = .history b ∧ a / 8 % 2 ≠ s.setInForce b)
    ∧ (∃ (a : Nat) (b : Nat) (s : State), s.reaches .host = true ∧ s.quiet ∧ s.pix.fabric.holders = [] ∧ s.up 3 = true ∧ s.role = .solo ∧ placeOf a = .history b ∧ a / 8 % 2 = s.setInForce b)
    ∧ (∃ (m : Master) (l : List Rec) (r : Rec) (s : State), s.Direct m R.EVT_LOG_FROM (s.reg R.SBP_LOG_SEQ - 1) ∧ s.aux.log = l ++ [r] ∧ s.ringRunning 61 = true ∧ s.dmaOk = true ∧ s.ringFill 61 < s.ringSize 61 ∧ (s.rt 61).held = []) :=
  ⟨⟨.host, 3, withRegs ready [(R.POS_LAT_CNT 3, 9)], directRead_of (by decide +kernel), by decide +kernel⟩,
   ⟨.host, 7, ready, directRead_of (by decide +kernel), by decide +kernel⟩,
   ⟨.sideband, 7, ready, directRead_of (by decide +kernel), by decide +kernel⟩,
   ⟨.host, ready, directRead_of (by decide +kernel), by decide +kernel⟩,
   ⟨0x1000000, 0, ready, by decide +kernel, ⟨rfl, rfl⟩, by decide +kernel, by decide +kernel, by decide +kernel, by decide +kernel, by decide +kernel⟩,
   ⟨0x1700008, 0, withRegs ready [], by decide +kernel, ⟨rfl, rfl⟩, by decide +kernel, by decide +kernel, by decide +kernel, by decide +kernel, by decide +kernel⟩,
   ⟨0x1700000, 0, withRegs ready [], by decide +kernel, ⟨rfl, rfl⟩, by decide +kernel, by decide +kernel, by decide +kernel, by decide +kernel, by decide +kernel⟩,
   ⟨.host, [], State.resetRec, { withRegs ready [(R.DMA_RING_STAT 61, 1), (R.DMA_RING_CFG 61, 8)] with devtime := 5 }, direct_of (by decide +kernel), by decide +kernel, by decide +kernel, by decide +kernel, by decide +kernel, by decide +kernel⟩⟩

theorem witness_OutputPads :
    (∃ (m : Master) (p : Nat) (s : State), (p < 15 ∨ 16 ≤ p ∧ p < 32) ∧ s.Direct m (enableBit p).1 (s.reg (enableBit p).1 ||| BitVec.ofNat 32 (2 ^ (enableBit p).2)) ∧ s.pad p = .rest ∧ p < s.aux.pads.length ∧ s.padAllowed p = true ∧ s.inStop = false)
    ∧ (∃ (m : Master) (p : Nat) (s : State), (p < 15 ∨ 16 ≤ p ∧ p < 32) ∧ s.Direct m (enableBit p).1 (s.reg (enableBit p).1 &&& ~~~(BitVec.ofNat 32 (2 ^ (enableBit p).2))) ∧ p < s.aux.pads.length ∧ (p < 8 → s.pulsing p = false))
    ∧ (∃ (p : Nat) (at_ : Nat) (held : Option Bool) (samples : List (List PadSample)) (s : State), s.up 0 = true ∧ p < 8 ∧ p < s.aux.pads.length ∧ s.pad p = .follow at_ held ∧ (∀ i < 9, decided (nth samples i) = some false))
    ∧ (∃ (p : Nat) (at_ : Nat) (i : Nat) (held : Option Bool) (samples : List (List PadSample)) (s : State), s.up 0 = true ∧ p < 8 ∧ p < s.aux.pads.length ∧ s.pad p = .follow at_ held ∧ i < 9 ∧ decided (nth samples i) ≠ some false)
    ∧ (∃ (p : Nat) (at_ : Nat) (level : Bool) (held : Option Bool) (samples : List (List PadSample)) (s : State), s.up 0 = true ∧ 16 ≤ p ∧ p < 32 ∧ p < s.aux.pads.length ∧ s.pad p = .follow at_ held ∧ decided (nth samples 0) = some level)
    ∧ (∃ (p : Nat) (at_ : Nat) (l0 : Bool) (l1 : Bool) (l2 : Bool) (held : Option Bool) (samples : List (List PadSample)) (s : State), s.up 0 = true ∧ 8 ≤ p ∧ p < 12 ∧ p < s.aux.pads.length ∧ s.pad p = .follow at_ held ∧ decided (nth samples 0) = some l0 ∧ decided (nth samples 1) = some l1 ∧ decided (nth samples 2) = some l2)
    ∧ (∃ (p : Nat) (at_ : Nat) (held : Option Bool) (samples : List (List PadSample)) (s : State), s.up 0 = true ∧ 12 ≤ p ∧ p < 15 ∧ p < s.aux.pads.length ∧ s.pad p = .follow at_ held ∧ decided (nth samples 0) = none) :=
  ⟨⟨.host, 0, ready, by decide +kernel, direct_of (by decide +kernel), by decide +kernel, by decide +kernel, by decide +kernel, by decide +kernel⟩,
   ⟨.host, 0, withRegs ready [(R.DEV_OUTGRP_EN, 1)], by decide +kernel, direct_of (by decide +kernel), by decide +kernel, by decide +kernel⟩,
   ⟨0, 0, none, restSamples, follows 0, by decide +kernel, by decide +kernel, by decide +kernel, by decide +kernel, by decide +kernel⟩,
   ⟨7, 0, 8, none, [], follows 7, by decide +kernel, by decide +kernel, by decide +kernel, by decide +kernel, by decide +kernel, by decide +kernel⟩,
   ⟨31, 0, true, none, highSamples, follows 31, by decide +kernel, by decide +kernel, by decide +kernel, by decide +kernel, by decide +kernel, by decide +kernel⟩,
   ⟨11, 0, true, true, true, none, highSamples, follows 11, by decide +kernel, by decide +kernel, by decide +kernel, by decide +kernel, by decide +kernel, by decide +kernel, by decide +kernel, by decide +kernel⟩,
   ⟨14, 0, none, [], follows 14, by decide +kernel, by decide +kernel, by decide +kernel, by decide +kernel, by decide +kernel, by decide +kernel⟩⟩

theorem witness_AccessWrites :
    (∃ (p : Nat) (i : Nat) (j : Nat) (r : RegRow) (b0 : Byte) (b1 : Byte) (b2 : Byte) (b3 : Byte) (s : State), s.Direct .host (R.ACCESS p) (wordOf b0 b1 b2 b3) ∧ regRow (R.ACCESS p) = some (r, i, j) ∧ onlyReadOnly r (R.ACCESS p) i (s.live (R.ACCESS p)) (wordOf b0 b1 b2 b3) = false)
    ∧ (∃ (m : Master) (p : Nat) (s : State), (m = .sideband ∨ m = .debug) ∧ s.reaches m = true ∧ s.quiet ∧ s.pix.fabric.holders = [] ∧ p < 0x34 ∧ s.pageUp p = true)
    ∧ (∃ (addr : Nat) (p : Nat) (s : State), s.sbAlive = true ∧ addr ≠ 0x3F ∧ s.sbMine addr = true ∧ s.quiet ∧ s.pix.fabric.holders = [] ∧ p < 0x34 ∧ p ≠ P_SBP ∧ s.pageUp p = true ∧ s.pageHeld p = false)
    ∧ (∃ (m : Master), (m = .claspEngine ∨ m = .pairApply))
    ∧ (∃ (p : Nat), p < 0x34) :=
  ⟨⟨0x10, (rowAt ((R.ACCESS 0x10))).2.1, (rowAt ((R.ACCESS 0x10))).2.2, (rowAt ((R.ACCESS 0x10))).1, 2, 0, 0, 0, ready, direct_of (by decide +kernel), row_spec (by decide +kernel), by decide +kernel⟩,
   ⟨.sideband, 0x10, ready, Or.inl rfl, by decide +kernel, ⟨rfl, rfl⟩, by decide +kernel, by decide +kernel, by decide +kernel⟩,
   ⟨5, 0x10, withRegs ready [(R.CHN_ADDR, 5)], by decide +kernel, by decide +kernel, by decide +kernel, ⟨rfl, rfl⟩, by decide +kernel, by decide +kernel, by decide +kernel, by decide +kernel, by decide +kernel⟩,
   ⟨.claspEngine, Or.inl rfl⟩,
   ⟨0x10, by decide +kernel⟩⟩

theorem witness_PopReads :
    (∃ (m : Master) (n : Nat) (s : State), s.DirectRead m (R.DMA_RING_POP n) ∧ n < 64 ∧ isSubmission n = false ∧ (s.rt n).claim ≠ (s.reg (R.DMA_RING_PROD n)).toNat ∧ n < s.host.rings.length ∧ s.captured m (R.DMA_RING_POP n) = none)
    ∧ (∃ (m : Master) (n : Nat) (s : State), s.DirectRead m (R.DMA_RING_POP n) ∧ n < 64 ∧ isSubmission n = false ∧ (s.rt n).claim = (s.reg (R.DMA_RING_PROD n)).toNat ∧ s.captured m (R.DMA_RING_POP n) = none)
    ∧ (∃ (m : Master) (n : Nat) (s : State), s.DirectRead m (R.DMA_RING_POP n) ∧ n < 64 ∧ isSubmission n = true ∧ s.captured m (R.DMA_RING_POP n) = none)
    ∧ (∃ (n : Nat) (w : Word) (s : State), s.Direct .host (R.DMA_RING_CONS n) w ∧ n < 64 ∧ isSubmission n = false ∧ s.consPast n w = false ∧ (s.rt n).held = [] ∧ n < s.host.rings.length) :=
  ⟨⟨.host, 28, withRegs ready [(R.DMA_RING_PROD 28, 3)], directRead_of (by decide +kernel), by decide +kernel, by decide +kernel, by decide +kernel, by decide +kernel, by decide +kernel⟩,
   ⟨.host, 28, ready, directRead_of (by decide +kernel), by decide +kernel, by decide +kernel, by decide +kernel, by decide +kernel⟩,
   ⟨.host, 0, withRegs ready [(R.DMA_RING_PROD 0, 3)], directRead_of (by decide +kernel), by decide +kernel, by decide +kernel, by decide +kernel⟩,
   ⟨28, 2, withRegs ready [(R.DMA_RING_PROD 28, 3), (R.DMA_RING_CFG 28, 8)], direct_of (by decide +kernel), by decide +kernel, by decide +kernel, by decide +kernel, by decide +kernel, by decide +kernel⟩⟩

theorem witness_ClaspCommands :
    (∃ (m : Master) (k : Nat) (s : State), s.Direct m (R.CLS_CMD k) 1 ∧ k < 16 ∧ k < s.pix.slots.length ∧ slotOwner m k = true ∧ (s.slotState k = clFree ∨ s.slotState k = clDone ∨ s.slotState k = clAborted))
    ∧ (∃ (m : Master) (k : Nat) (w : Word) (s : State), s.Direct m (R.CLS_DATA k) w ∧ k < 16 ∧ k < s.pix.slots.length ∧ slotOwner m k = true ∧ s.slotState k = clOpen ∧ claspCapable (s.reg (R.CLS_ADDR k)).toNat = true ∧ ((s.slot k).entries.any fun e => e.1 == (s.reg (R.CLS_ADDR k)).toNat) = false ∧ (s.slot k).entries.length < 256 ∧ (8 ≤ k → s.on ⟨R.ACCESS ((s.reg (R.CLS_ADDR k)).toNat / 0x1000), 0, 0⟩ = true))
    ∧ (∃ (m : Master) (k : Nat) (s : State), s.Direct m (R.CLS_CMD k) 2 ∧ k < 16 ∧ k < s.pix.slots.length ∧ slotOwner m k = true ∧ s.slotState k = clOpen ∧ s.clPassed k = false)
    ∧ (∃ (m : Master) (k : Nat) (s : State), s.Direct m (R.CLS_CMD k) 3 ∧ k < 16 ∧ slotOwner m k = true ∧ (s.slotState k = clOpen ∨ s.slotState k = clArmed) ∧ (s.slot k).desc = none)
    ∧ (∃ (m : Master) (k : Nat) (s : State), s.Direct m (R.CLS_CMD k) 4 ∧ k < 16 ∧ k < s.pix.slots.length ∧ slotOwner m k = true ∧ (s.slotState k = clDone ∨ s.slotState k = clAborted)) :=
  ⟨⟨.host, 0, ready, direct_of (by decide +kernel), by decide +kernel, by decide +kernel, by decide +kernel, by decide +kernel⟩,
   ⟨.host, 0, 0x700, withRegs (withSlot ready 0 clOpen []) [(R.CLS_ADDR 0, 0x19040)], direct_of (by decide +kernel), by decide +kernel, by decide +kernel, by decide +kernel, by decide +kernel, by decide +kernel, by decide +kernel, by decide +kernel, by decide +kernel⟩,
   ⟨.host, 0, withSlot ready 0 clOpen [(0x19040, 5)], direct_of (by decide +kernel), by decide +kernel, by decide +kernel, by decide +kernel, by decide +kernel, by decide +kernel⟩,
   ⟨.host, 0, withSlot ready 0 clOpen [(0x19040, 5)], direct_of (by decide +kernel), by decide +kernel, by decide +kernel, by decide +kernel, by decide +kernel⟩,
   ⟨.host, 0, withSlot ready 0 clDone [], direct_of (by decide +kernel), by decide +kernel, by decide +kernel, by decide +kernel, by decide +kernel⟩⟩

theorem witness_ClaspApplies :
    (∃ (k : Nat) (a : Nat) (i : Nat) (j : Nat) (w : Word) (r : RegRow) (s : State), s.up 3 = true ∧ s.quiet ∧ k < 16 ∧ k < s.pix.slots.length ∧ s.role = .solo ∧ s.slotState k = clArmed ∧ s.clCond k = 0 ∧ (∀ n < 16, n ≠ k → s.slotState n ≠ clOpen ∧ s.slotState n ≠ clArmed) ∧ (s.slot k).entries = [(a, w)] ∧ s.pageUp (a / 0x1000) = true ∧ isCmp a = false ∧ regRow a = some (r, i, j) ∧ s.entryRefused r a w = none ∧ a / 0x1000 ∈ [P_NZC, P_IMG, P_POS, P_ARB, P_CDC])
    ∧ (∃ (k : Nat) (a : Nat) (w : Word) (s : State), s.up 3 = true ∧ s.quiet ∧ k < 16 ∧ s.slotState k = clApplying ∧ (s.slot k).desc = none ∧ (s.slot k).entries = [(a, w)])
    ∧ (∃ (r : Nat) (d : Desc) (s : State), s.up 3 = true ∧ s.quiet ∧ r < 4 ∧ s.pix.slots.length = 16 ∧ s.nextDesc (24 + r) = some d ∧ s.ringRunning (24 + r) = true ∧ (s.slot (12 + r)).desc = none ∧ 1 ≤ bcCount d ∧ bcCount d ≤ 256)
    ∧ (∃ (r : Nat) (data : List Byte) (d : Desc) (s : State), s.up 3 = true ∧ s.quiet ∧ r < 4 ∧ s.pix.slots.length = 16 ∧ (s.slot (12 + r)).fetching = true ∧ s.slotState (12 + r) = clOpen ∧ (s.slot (12 + r)).entries = [] ∧ ((s.rt (24 + r)).descs.find? fun d => some d.idx == (s.slot (12 + r)).desc) = some d ∧ bcCount d = 1 ∧ s.clCond (12 + r) = 0 ∧ claspCapable (leAt data 0 4) = true) :=
  ⟨⟨0, 0x19040, (rowAt (0x19040)).2.1, (rowAt (0x19040)).2.2, 5, (rowAt (0x19040)).1, withSlot ready 0 clArmed [(0x19040, 5)], by decide +kernel, ⟨rfl, rfl⟩, by decide +kernel, by decide +kernel, by decide +kernel, by decide +kernel, by decide +kernel, by decide +kernel, by decide +kernel, by decide +kernel, by decide +kernel, row_spec (by decide +kernel), by decide +kernel, by decide +kernel⟩,
   ⟨0, 0x19040, 5, withSlot ready 0 clApplying [(0x19040, 5)], by decide +kernel, ⟨rfl, rfl⟩, by decide +kernel, by decide +kernel, by decide +kernel, by decide +kernel⟩,
   ⟨0, ((withRing ready 24 [batchDesc 1]).nextDesc (24 + 0)).getD default, withRing ready 24 [batchDesc 1], by decide +kernel, ⟨rfl, rfl⟩, by decide +kernel, by decide +kernel, by decide +kernel, by decide +kernel, by decide +kernel, by decide +kernel, by decide +kernel⟩,
   ⟨0, leBytes 4 0x19040 ++ leBytes 4 5, ((((withPix (withSlot (withRing ready 24 [{ batchDesc 1 with taken := true }]) 12 clOpen []) fun p => { p with slots := updNth p.slots 12 fun q => { q with desc := some 0, fetching := true } }).rt (24 + 0)).descs.find? fun d => some d.idx == ((withPix (withSlot (withRing ready 24 [{ batchDesc 1 with taken := true }]) 12 clOpen []) fun p => { p with slots := updNth p.slots 12 fun q => { q with desc := some 0, fetching := true } }).slot (12 + 0)).desc)).getD default, withPix (withSlot (withRing ready 24 [{ batchDesc 1 with taken := true }]) 12 clOpen []) fun p => { p with slots := updNth p.slots 12 fun q => { q with desc := some 0, fetching := true } }, by decide +kernel, ⟨rfl, rfl⟩, by decide +kernel, by decide +kernel, by decide +kernel, by decide +kernel, by decide +kernel, by decide +kernel, by decide +kernel, by decide +kernel, by decide +kernel⟩⟩

theorem witness_PcieAndBar2 :
    (∃ (s : State), s.up 7 = true ∧ s.aux.perstLow = false ∧ s.host.link = .down ∧ s.host.inReset = false ∧ s.host.busMaster = false ∧ s.quiet)
    ∧ (∃ (s : State), s.up 7 = true ∧ s.aux.perstLow = false ∧ s.host.link ≠ .down ∧ s.quiet)
    ∧ (∃ (c : Instr) (s : State), c ∈ [.hotReset, .dataLinkDown] ∧ s.hostUp = true ∧ s.host.link ≠ .down ∧ s.quiet)
    ∧ (∃ (s : State), s.hostUp = true ∧ s.host.link ≠ .down ∧ s.host.configReady = true)
    ∧ (∃ (s : State), s.hostUp = true ∧ s.host.link = .l0)
    ∧ (∃ (s : State), s.hostUp = true ∧ s.host.link = .recovery)
    ∧ (∃ (a : Nat) (s : State), s.barOpen = true ∧ a < 0x10000000 ∧ s.on F.HIF_APERTURE_WP = false ∧ s.up 2 = true ∧ s.get F.MEM_STAT_USABLE_2M ≠ 0)
    ∧ (∃ (a : Nat) (l : List (Option Byte)) (s : State), s.barOpen = true ∧ l ≠ [] ∧ a + l.length ≤ 0x10000000 ∧ s.on F.HIF_APERTURE_WP = true) :=
  ⟨⟨withHost ready fun h => { h with link := .down, busMaster := false }, by decide +kernel, by decide +kernel, by decide +kernel, by decide +kernel, by decide +kernel, ⟨rfl, rfl⟩⟩,
   ⟨ready, by decide +kernel, by decide +kernel, by decide +kernel, ⟨rfl, rfl⟩⟩,
   ⟨.hotReset, ready, by decide +kernel, by decide +kernel, by decide +kernel, ⟨rfl, rfl⟩⟩,
   ⟨ready, by decide +kernel, by decide +kernel, by decide +kernel⟩,
   ⟨ready, by decide +kernel, by decide +kernel⟩,
   ⟨withHost ready fun h => { h with link := .recovery }, by decide +kernel, by decide +kernel⟩,
   ⟨0xFFFFFFF, withRegs ready [(R.MEM_STAT, 0x400000), (R.HIF_APERTURE, 0)], by decide +kernel, by decide +kernel, by decide +kernel, by decide +kernel, by decide +kernel⟩,
   ⟨0x10, [some 1, none], withRegs ready [(R.HIF_APERTURE, 0x10000)], by decide +kernel, by decide +kernel, by decide +kernel, by decide +kernel⟩⟩

theorem witness_RingRegisters :
    (∃ (n : Nat) (w : Word) (s : State), s.Direct .host (R.DMA_RING_PROD n) w ∧ n < 64 ∧ isSubmission n = true ∧ (w - s.reg (R.DMA_RING_PROD n)).toNat ≤ s.ringSize n ∧ (w - s.reg (R.DMA_RING_DONE n)).toNat ≤ s.ringSize n)
    ∧ (∃ (n : Nat) (w : Word) (s : State), s.Direct .host (R.DMA_RING_PROD n) w ∧ n < 64 ∧ isSubmission n = true ∧ w ≠ s.reg (R.DMA_RING_PROD n) ∧ (s.ringSize n < (w - s.reg (R.DMA_RING_PROD n)).toNat ∨ s.ringSize n < (w - s.reg (R.DMA_RING_DONE n)).toNat))
    ∧ (∃ (n : Nat) (w : Word) (s : State), s.Direct .host (R.DMA_RING_CONS n) w ∧ n < 64 ∧ isSubmission n = false ∧ s.consPast n w = false ∧ (s.rt n).held = [])
    ∧ (∃ (n : Nat) (w : Word) (s : State), s.Direct .host (R.DMA_RING_CONS n) w ∧ n < 64 ∧ isSubmission n = false ∧ s.consPast n w = true)
    ∧ (∃ (n : Nat) (cfg : Word) (s : State), s.Direct .host (R.DMA_RING_CFG n) (cfg ||| 0x20#32) ∧ n < 64 ∧ n < s.host.rings.length ∧ s.ringRunning n = false ∧ bit (s.reg (R.DMA_RING_CFG n)).toNat 5 = false ∧ (s.reg (R.DMA_RING_BASE_LO n)).toNat % 32 = 0 ∧ 4 ≤ getBits 4 0 cfg ∧ getBits 4 0 cfg ≤ 16)
    ∧ (∃ (n : Nat) (cfg : Word) (s : State), s.Direct .host (R.DMA_RING_CFG n) (cfg ||| 0x20#32) ∧ n < 64 ∧ isSubmission n = true ∧ s.ringRunning n = false ∧ bit (s.reg (R.DMA_RING_CFG n)).toNat 5 = false ∧ ((s.reg (R.DMA_RING_BASE_LO n)).toNat % 32 ≠ 0 ∨ getBits 4 0 cfg < 4 ∨ 16 < getBits 4 0 cfg))
    ∧ (∃ (n : Nat) (cfg : Word) (s : State), s.Direct .host (R.DMA_RING_CFG n) (cfg &&& ~~~0x20#32) ∧ n < 64 ∧ n < s.host.rings.length ∧ isSubmission n = false ∧ bit (s.reg (R.DMA_RING_CFG n)).toNat 5 = true ∧ (s.ringRunning n = true → getBits 4 0 cfg = s.get (F.DMA_RING_CFG_LOG2_SIZE n)))
    ∧ (∃ (n : Nat) (cfg : Word) (s : State), s.Direct .host (R.DMA_RING_CFG n) (cfg &&& ~~~0x20#32) ∧ (8 ≤ n ∧ n < 12 ∨ n = 62) ∧ n < s.host.rings.length ∧ bit (s.reg (R.DMA_RING_CFG n)).toNat 5 = true ∧ (s.ringRunning n = true → getBits 4 0 cfg = s.get (F.DMA_RING_CFG_LOG2_SIZE n)) ∧ (s.rt n).descs = []) :=
  ⟨⟨0, 4, withRegs ready [(R.DMA_RING_CFG 0, 4)], direct_of (by decide +kernel), by decide +kernel, by decide +kernel, by decide +kernel, by decide +kernel⟩,
   ⟨0, 40, withRing (withRegs ready [(R.DMA_RING_CFG 0, 4)]) 0 [], direct_of (by decide +kernel), by decide +kernel, by decide +kernel, by decide +kernel, by decide +kernel⟩,
   ⟨28, 2, withRegs ready [(R.DMA_RING_PROD 28, 3), (R.DMA_RING_CFG 28, 8)], direct_of (by decide +kernel), by decide +kernel, by decide +kernel, by decide +kernel, by decide +kernel⟩,
   ⟨28, 4, withRegs ready [(R.DMA_RING_PROD 28, 3), (R.DMA_RING_CFG 28, 8)], direct_of (by decide +kernel), by decide +kernel, by decide +kernel, by decide +kernel⟩,
   ⟨28, 8, ready, direct_of (by decide +kernel), by decide +kernel, by decide +kernel, by decide +kernel, by decide +kernel, by decide +kernel, by decide +kernel, by decide +kernel⟩,
   ⟨0, 3, ready, direct_of (by decide +kernel), by decide +kernel, by decide +kernel, by decide +kernel, by decide +kernel, by decide +kernel⟩,
   ⟨28, 0, withRegs ready [(R.DMA_RING_CFG 28, 0x28)], direct_of (by decide +kernel), by decide +kernel, by decide +kernel, by decide +kernel, by decide +kernel, by decide +kernel⟩,
   ⟨8, 8, withRing (withRegs ready [(R.DMA_RING_CFG 8, 0x28)]) 8 [], direct_of (by decide +kernel), by decide +kernel, by decide +kernel, by decide +kernel, by decide +kernel, by decide +kernel⟩⟩

theorem witness_RingTraffic :
    (∃ (n : Nat) (s : State), s.hostUp = true ∧ n < 64 ∧ n < s.host.rings.length ∧ isSubmission n = true ∧ s.ringRunning n = true ∧ (s.rt n).disabling = false ∧ s.dmaOk = true ∧ s.reg (R.DMA_RING_CONS n) ≠ s.reg (R.DMA_RING_PROD n) ∧ (s.reg (R.DMA_RING_CONS n) - s.reg (R.DMA_RING_DONE n)).toNat < 8)
    ∧ (∃ (n : Nat) (s : State), s.hostUp = true ∧ n < 64 ∧ isSubmission n = true ∧ s.ringRunning n = true ∧ s.pix.img.refetchFail = false ∧ s.quiet)
    ∧ (∃ (t0 : Nat) (n : Nat) (s : State), s.hostUp = true ∧ n < s.host.rings.length ∧ s.on (F.DMA_RING_CFG_IRQ_EN n) = true ∧ s.get (F.DMA_RING_CFG_COAL_TIME n) ≠ 0 ∧ (s.rt n).unsig ≠ 0 ∧ (s.rt n).unsigSince + s.get (F.DMA_RING_CFG_COAL_TIME n) * 400 ≤ max s.devtime t0 ∧ s.dmaOk = true ∧ s.on (F.MSIX_MASK (s.get (F.DMA_RING_CFG_VECTOR n))) = false)
    ∧ (∃ (n : Nat) (e : List Byte) (s : State), s.hostUp = true ∧ n < 64 ∧ n < s.host.rings.length ∧ isSubmission n = false ∧ s.ringRunning n = true ∧ s.dmaOk = true ∧ (s.rt n).held = [e] ∧ (s.rt n).descs = [] ∧ (s.rt n).disabling = false ∧ s.ringFill n < s.ringSize n) :=
  ⟨⟨0, withRing (withRegs ready [(R.DMA_RING_CFG 0, 4), (R.DMA_RING_PROD 0, 2)]) 0 [], by decide +kernel, by decide +kernel, by decide +kernel, by decide +kernel, by decide +kernel, by decide +kernel, by decide +kernel, by decide +kernel, by decide +kernel⟩,
   ⟨0, withRing ready 0 [], by decide +kernel, by decide +kernel, by decide +kernel, by decide +kernel, by decide +kernel, ⟨rfl, rfl⟩⟩,
   ⟨4000000, 0, withHost (withRegs ready [(R.DMA_RING_CFG 0, 0x02000124), (0x80C, 0)]) fun h => { h with rings := updNth h.rings 0 fun r => { r with unsig := 1 } }, by decide +kernel, by decide +kernel, by decide +kernel, by decide +kernel, by decide +kernel, by decide +kernel, by decide +kernel, by decide +kernel⟩,
   ⟨28, List.replicate 32 7, withHost (withRing (withRegs ready [(R.DMA_RING_CFG 28, 4)]) 28 []) fun h => { h with rings := updNth h.rings 28 fun r => { r with held := [List.replicate 32 7] } }, by decide +kernel, by decide +kernel, by decide +kernel, by decide +kernel, by decide +kernel, by decide +kernel, by decide +kernel, by decide +kernel, by decide +kernel, by decide +kernel⟩⟩

theorem witness_Watchdog :
    (∃ (w : Word) (s : State), s.Direct .host R.DEV_WDT_KICK w ∧ getBits 31 16 w = 0x4B1C ∧ s.on F.DEV_WDT_CTRL_EN = true)
    ∧ (∃ (w : Word) (s : State), s.Direct .host R.DEV_WDT_KICK w ∧ getBits 31 16 w ≠ 0x4B1C)
    ∧ (∃ (t0 : Nat) (s : State), s.up 0 = true ∧ s.on F.DEV_WDT_CTRL_EN = true ∧ s.on F.DEV_WDT_STAT_WARNED = false ∧ s.aux.wdtStart + s.get F.DEV_WDT_PERIOD_PERIOD * 20000 ≤ max s.devtime t0)
    ∧ (∃ (t0 : Nat) (s : State), s.up 0 = true ∧ s.on F.DEV_WDT_CTRL_EN = true ∧ s.aux.wdtStart + s.get F.DEV_WDT_PERIOD_PERIOD * 40000 ≤ max s.devtime t0 ∧ s.dev ≠ .resethold ∧ s.quiet)
    ∧ (∃ (m : Master) (s : State), s.Direct m R.RSC_WDT_STOP 0x3C5A0001#32) :=
  ⟨⟨0x4B1C0001, withRegs ready [(R.DEV_WDT_CTRL, 1)], direct_of (by decide +kernel), by decide +kernel, by decide +kernel⟩,
   ⟨0x4B1D0001, withRegs ready [(R.DEV_WDT_CTRL, 1)], direct_of (by decide +kernel), by decide +kernel⟩,
   ⟨0xFFFFFFFF, withRegs ready [(R.DEV_WDT_CTRL, 1)], by decide +kernel, by decide +kernel, by decide +kernel, by decide +kernel⟩,
   ⟨0xFFFFFFFF, withRegs ready [(R.DEV_WDT_CTRL, 1)], by decide +kernel, by decide +kernel, by decide +kernel, by decide +kernel, ⟨rfl, rfl⟩⟩,
   ⟨.host, withRegs ready [(R.DEV_WDT_CTRL, 1)], direct_of (by decide +kernel)⟩⟩

theorem witness_JobMarkers :
    (∃ (k : Nat) (d : Desc) (s : State), s.up 3 = true ∧ s.role = .solo ∧ k < 4 ∧ s.pix.jobs.length = 4 ∧ s.pix.bars.length = 8 ∧ s.jobHead k = some d ∧ jmBad d = false ∧ jmKind d = 1 ∧ s.startAhead k d = true ∧ s.startReady k d = true ∧ s.dev = .ready ∧ s.jobs = [])
    ∧ (∃ (k : Nat) (d : Desc) (s : State), s.up 3 = true ∧ s.role = .active ∧ s.startQueued k = false ∧ s.jobHead k = some d ∧ jmBad d = false ∧ jmKind d = 1 ∧ s.startAhead k d = true ∧ s.startReady k d = true)
    ∧ (∃ (k : Nat) (d : Desc) (s : State), s.up 3 = true ∧ s.hostUp = true ∧ s.role = .solo ∧ k < 4 ∧ s.jobHead k = some d ∧ jmBad d = true)
    ∧ (∃ (k : Nat) (d : Desc) (j : Machine.Job) (s : State), s.up 3 = true ∧ k < s.pix.jobs.length ∧ s.jobHead k = some d ∧ jmBad d = false ∧ jmKind d = 2 ∧ s.job k = some j ∧ j.id = jmId d ∧ j.hadStop = false ∧ j.hadEnd = false ∧ (∀ b ∈ s.streamBars k, s.hasLines b = true))
    ∧ (∃ (k : Nat) (d : Desc) (j : Machine.Job) (s : State), s.up 3 = true ∧ k < s.pix.jobs.length ∧ s.jobHead k = some d ∧ jmBad d = false ∧ jmKind d = 3 ∧ s.job k = some j ∧ j.id = jmId d ∧ j.hadStop = false ∧ j.started = true ∧ (∀ b ∈ s.streamBars k, s.hasLines b = true))
    ∧ (∃ (k : Nat) (d : Desc) (j : Machine.Job) (s : State), s.up 3 = true ∧ k < 4 ∧ s.pix.jobs.length = 4 ∧ s.jobHead k = some d ∧ jmBad d = false ∧ jmKind d = 3 ∧ s.job k = some j ∧ j.id = jmId d ∧ j.hadStop = false ∧ j.started = false) :=
  ⟨⟨0, ((withRing armable 56 [jobDesc 5 1 1]).jobHead 0).getD default, withRing armable 56 [jobDesc 5 1 1], by decide +kernel, by decide +kernel, by decide +kernel, by decide +kernel, by decide +kernel, by decide +kernel, by decide +kernel, by decide +kernel, by decide +kernel, by decide +kernel, by decide +kernel, by decide +kernel⟩,
   ⟨0, ((withRegs (withRing armable 56 [jobDesc 5 1 1]) [(R.DEV_DEVSTATE, 0x17)]).jobHead 0).getD default, withRegs (withRing armable 56 [jobDesc 5 1 1]) [(R.DEV_DEVSTATE, 0x17)], by decide +kernel, by decide +kernel, by decide +kernel, by decide +kernel, by decide +kernel, by decide +kernel, by decide +kernel, by decide +kernel⟩,
   ⟨0, ((withRing armable 56 [jobDesc 5 0 1]).jobHead 0).getD default, withRing armable 56 [jobDesc 5 0 1], by decide +kernel, by decide +kernel, by decide +kernel, by decide +kernel, by decide +kernel, by decide +kernel⟩,
   ⟨0, ((withRing inAJob 56 [jobDesc 5 2 1]).jobHead 0).getD default, ((withRing inAJob 56 [jobDesc 5 2 1]).job 0).getD default, withRing inAJob 56 [jobDesc 5 2 1], by decide +kernel, by decide +kernel, by decide +kernel, by decide +kernel, by decide +kernel, by decide +kernel, by decide +kernel, by decide +kernel, by decide +kernel, by decide +kernel⟩,
   ⟨0, ((withRing inAJob 56 [jobDesc 5 3 1]).jobHead 0).getD default, ((withRing inAJob 56 [jobDesc 5 3 1]).job 0).getD default, withRing inAJob 56 [jobDesc 5 3 1], by decide +kernel, by decide +kernel, by decide +kernel, by decide +kernel, by decide +kernel, by decide +kernel, by decide +kernel, by decide +kernel, by decide +kernel, by decide +kernel⟩,
   ⟨0, ((withPix (withRing inAJob 56 [jobDesc 5 3 1]) fun p => { p with jobs := [some { id := 5, bars := 1 }, none, none, none] }).jobHead 0).getD default, ((withPix (withRing inAJob 56 [jobDesc 5 3 1]) fun p => { p with jobs := [some { id := 5, bars := 1 }, none, none, none] }).job 0).getD default, withPix (withRing inAJob 56 [jobDesc 5 3 1]) fun p => { p with jobs := [some { id := 5, bars := 1 }, none, none, none] }, by decide +kernel, by decide +kernel, by decide +kernel, by decide +kernel, by decide +kernel, by decide +kernel, by decide +kernel, by decide +kernel, by decide +kernel, by decide +kernel⟩⟩

theorem witness_TileDescriptors :
    (∃ (b : Nat) (d : Desc) (s : State), s.up 3 = true ∧ b < 8 ∧ s.pix.img.rings.length = 8 ∧ s.pix.img.planes.length = 512 ∧ s.imgOn = true ∧ s.ringLive b = true ∧ (s.img b).fetch = none ∧ (s.pix.img.refetch.any fun x => x.1 == b) = false ∧ s.nextFetch b = some d ∧ tdOp d = 1 ∧ tdValid d = true ∧ s.hasStore = true ∧ 16 ≤ leAt d.bytes 8 4 ∧ bit (tdFlags d) 2 = false ∧ s.loadWaits b d = false)
    ∧ (∃ (b : Nat) (d : Desc) (s : State), s.up 3 = true ∧ b < 8 ∧ s.pix.img.rings.length = 8 ∧ s.imgOn = true ∧ s.ringLive b = true ∧ (s.img b).fetch = none ∧ (s.pix.img.refetch.any fun x => x.1 == b) = false ∧ s.nextFetch b = some d ∧ tdOp d = 2 ∧ tdValid d = true ∧ s.hasStore = true ∧ 16 ≤ leAt d.bytes 8 4 ∧ bit (tdFlags d) 2 = false)
    ∧ (∃ (b : Nat) (d : Desc) (s : State), s.up 3 = true ∧ b < 8 ∧ s.pix.img.rings.length = 8 ∧ s.imgOn = true ∧ s.ringLive b = true ∧ (s.img b).print = none ∧ (s.img b).openBand = none ∧ ((s.openDescs b).find? fun e => !e.taken && tdOp e == 3) = some d ∧ s.placementAhead b d.idx = false ∧ (((s.rt b).descs.takeWhile fun e => decide (e.idx ≠ d.idx)).any fun e => e.result.isNone && tdOp e == 1 && tdPlane e == tdPlane d) = false ∧ tdValid d = true ∧ s.printReady b (tdPlane d) (tdHeight d) = true)
    ∧ (∃ (b : Nat) (d : Desc) (s : State), s.up 3 = true ∧ b < 8 ∧ s.pix.img.planes.length = 512 ∧ s.imgOn = true ∧ s.ringLive b = true ∧ ((s.openDescs b).find? fun e => !e.taken && tdOp e == 4) = some d ∧ (((s.rt b).descs.takeWhile fun e => decide (e.idx ≠ d.idx)).any fun e => e.result.isNone && tdOp e == 1 && tdPlane e == tdPlane d) = false ∧ tdValid d = true) :=
  ⟨⟨0, ((withRing imaging 0 [tileDesc 1 0 32 1 0]).nextFetch 0).getD default, withRing imaging 0 [tileDesc 1 0 32 1 0], by decide +kernel, by decide +kernel, by decide +kernel, by decide +kernel, by decide +kernel, by decide +kernel, by decide +kernel, by decide +kernel, by decide +kernel, by decide +kernel, by decide +kernel, by decide +kernel, by decide +kernel, by decide +kernel, by decide +kernel⟩,
   ⟨0, ((withRing imaging 0 [tileDesc 2 0 32 0 0]).nextFetch 0).getD default, withRing imaging 0 [tileDesc 2 0 32 0 0], by decide +kernel, by decide +kernel, by decide +kernel, by decide +kernel, by decide +kernel, by decide +kernel, by decide +kernel, by decide +kernel, by decide +kernel, by decide +kernel, by decide +kernel, by decide +kernel, by decide +kernel⟩,
   ⟨0, ((((withRing rowPlane 0 [tileDesc 3 0 0 1 1]).openDescs 0).find? fun e => !e.taken && tdOp e == 3)).getD default, withRing rowPlane 0 [tileDesc 3 0 0 1 1], by decide +kernel, by decide +kernel, by decide +kernel, by decide +kernel, by decide +kernel, by decide +kernel, by decide +kernel, by decide +kernel, by decide +kernel, by decide +kernel, by decide +kernel, by decide +kernel⟩,
   ⟨0, ((((withRing rowPlane 0 [tileDesc 4 0 0 0 0]).openDescs 0).find? fun e => !e.taken && tdOp e == 4)).getD default, withRing rowPlane 0 [tileDesc 4 0 0 0 0], by decide +kernel, by decide +kernel, by decide +kernel, by decide +kernel, by decide +kernel, by decide +kernel, by decide +kernel, by decide +kernel⟩⟩

theorem witness_LoadsAndPlanes :
    (∃ (b : Nat) (data : List Byte) (f : Fetch) (t0 : Tile) (s : State), s.up 3 = true ∧ b < 8 ∧ s.pix.img.rings.length = 8 ∧ s.pix.img.planes.length = 512 ∧ s.imgOn = true ∧ s.role = .solo ∧ s.pix.img.refetchFail = false ∧ (s.img b).fetch = some f ∧ f.reading = true ∧ f.fromDram = false ∧ f.stream = false ∧ f.verify = false ∧ f.locket = false ∧ f.stopping = false ∧ f.plane < 64 ∧ 2 ≤ f.tilesLeft ∧ 16 + t0.payBytes ≤ data.length ∧ s.parseTile b (data.take 16) = some t0 ∧ (f.off + 16 + t0.payBytes + 15) / 16 * 16 + 16 ≤ f.len ∧ f.off + 16 + t0.payBytes ≤ f.len ∧ t0.pages ≤ s.storeFree ∧ 1 ≤ s.dirFree)
    ∧ (∃ (b : Nat) (data : List Byte) (f : Fetch) (s : State), s.up 3 = true ∧ s.hostUp = true ∧ b < 8 ∧ s.pix.img.rings.length = 8 ∧ s.imgOn = true ∧ s.pix.img.refetchFail = false ∧ (s.img b).fetch = some f ∧ f.reading = true ∧ f.fromDram = false ∧ f.locket = false ∧ isStale f.idx = false ∧ 16 ≤ data.length ∧ s.parseTile b (data.take 16) = none)
    ∧ (∃ (b : Nat) (p : Print) (s : State), s.up 3 = true ∧ b < 8 ∧ s.pix.img.rings.length = 8 ∧ (s.img b).print = some p ∧ isStale p.idx = false ∧ (p.height + 63) / 64 ≤ p.row ∧ p.passLx + p.height ≤ (s.img b).wrLx ∧ p.count = 0 ∧ ((((s.rt b).descs.dropWhile fun d => decide (d.idx ≠ p.idx)).drop 1).any fun d => tdOp d == 2 || tdOp d == 3) = false)
    ∧ (∃ (b : Nat) (p : Print) (s : State), s.up 3 = true ∧ b < 8 ∧ s.pix.img.rings.length = 8 ∧ (s.img b).print = some p ∧ (p.height + 63) / 64 ≤ p.row ∧ p.passLx + p.height ≤ (s.img b).wrLx ∧ p.count ≠ 0 ∧ p.count ≤ p.done + 1)
    ∧ (∃ (b : Nat) (p : Nat) (d : Desc) (s : State), s.up 3 = true ∧ b < 8 ∧ p < 64 ∧ s.pix.img.planes.length = 512 ∧ s.imgOn = true ∧ (s.plane b p).freeing = true ∧ ((s.rt b).descs.find? fun e => e.taken && e.result.isNone && tdOp e == 4 && tdPlane e == p) = some d ∧ (((s.rt b).descs.takeWhile fun e => decide (e.idx ≠ d.idx)).any fun e => e.result.isNone && tdOp e == 3 && tdPlane e == p) = false ∧ (s.img b).print = none) :=
  ⟨⟨0, rawHeader 0 ++ List.replicate 1024 7, (((withPix (withRing imaging 0 [{ tileDesc 1 0 2080 2 0 with taken := true }]) fun p => { p with img := { p.img with rings := updNth p.img.rings 0 fun r => { r with fetch := some { plane := 0, len := 2080, tilesLeft := 2, reading := true } } } }).img 0).fetch).getD default, ((withPix (withRing imaging 0 [{ tileDesc 1 0 2080 2 0 with taken := true }]) fun p => { p with img := { p.img with rings := updNth p.img.rings 0 fun r => { r with fetch := some { plane := 0, len := 2080, tilesLeft := 2, reading := true } } } }).parseTile 0 ((rawHeader 0 ++ List.replicate 1024 7).take 16)).getD default, withPix (withRing imaging 0 [{ tileDesc 1 0 2080 2 0 with taken := true }]) fun p => { p with img := { p.img with rings := updNth p.img.rings 0 fun r => { r with fetch := some { plane := 0, len := 2080, tilesLeft := 2, reading := true } } } }, by decide +kernel, by decide +kernel, by decide +kernel, by decide +kernel, by decide +kernel, by decide +kernel, by decide +kernel, by decide +kernel, by decide +kernel, by decide +kernel, by decide +kernel, by decide +kernel, by decide +kernel, by decide +kernel, by decide +kernel, by decide +kernel, by decide +kernel, by decide +kernel, by decide +kernel, by decide +kernel, by decide +kernel, by decide +kernel⟩,
   ⟨0, List.replicate 16 0, (((withPix (withRing imaging 0 [{ tileDesc 1 0 2080 2 0 with taken := true }]) fun p => { p with img := { p.img with rings := updNth p.img.rings 0 fun r => { r with fetch := some { plane := 0, len := 2080, tilesLeft := 2, reading := true } } } }).img 0).fetch).getD default, withPix (withRing imaging 0 [{ tileDesc 1 0 2080 2 0 with taken := true }]) fun p => { p with img := { p.img with rings := updNth p.img.rings 0 fun r => { r with fetch := some { plane := 0, len := 2080, tilesLeft := 2, reading := true } } } }, by decide +kernel, by decide +kernel, by decide +kernel, by decide +kernel, by decide +kernel, by decide +kernel, by decide +kernel, by decide +kernel, by decide +kernel, by decide +kernel, by decide +kernel, by decide +kernel, by decide +kernel⟩,
   ⟨0, (((withPix (withRing imaging 0 [{ tileDesc 3 0 0 0 1 with taken := true }]) fun p => { p with img := { p.img with rings := updNth p.img.rings 0 fun r => { r with wrLx := 1, print := some { height := 1, row := 1 } } } }).img 0).print).getD default, withPix (withRing imaging 0 [{ tileDesc 3 0 0 0 1 with taken := true }]) fun p => { p with img := { p.img with rings := updNth p.img.rings 0 fun r => { r with wrLx := 1, print := some { height := 1, row := 1 } } } }, by decide +kernel, by decide +kernel, by decide +kernel, by decide +kernel, by decide +kernel, by decide +kernel, by decide +kernel, by decide +kernel, by decide +kernel⟩,
   ⟨0, (((withPix (withRing imaging 0 [{ tileDesc 3 0 0 1 1 with taken := true }]) fun p => { p with img := { p.img with rings := updNth p.img.rings 0 fun r => { r with wrLx := 1, print := some { height := 1, row := 1, count := 1 } } } }).img 0).print).getD default, withPix (withRing imaging 0 [{ tileDesc 3 0 0 1 1 with taken := true }]) fun p => { p with img := { p.img with rings := updNth p.img.rings 0 fun r => { r with wrLx := 1, print := some { height := 1, row := 1, count := 1 } } } }, by decide +kernel, by decide +kernel, by decide +kernel, by decide +kernel, by decide +kernel, by decide +kernel, by decide +kernel, by decide +kernel⟩,
   ⟨0, 0, ((((withPlane (withRing rowPlane 0 [{ tileDesc 4 0 0 0 0 with taken := true }]) fun p => { p with freeing := true }).rt 0).descs.find? fun e => e.taken && e.result.isNone && tdOp e == 4 && tdPlane e == 0)).getD default, withPlane (withRing rowPlane 0 [{ tileDesc 4 0 0 0 0 with taken := true }]) fun p => { p with freeing := true }, by decide +kernel, by decide +kernel, by decide +kernel, by decide +kernel, by decide +kernel, by decide +kernel, by decide +kernel, by decide +kernel, by decide +kernel⟩⟩

theorem witness_TilePlacement :
    (∃ (k : Nat) (q : Req) (j : TileJob) (s : State), s.up 3 = true ∧ s.laneHolder k = some q ∧ q.work = .tile j ∧ s.holdsCarats 1 k = true ∧ q.stallFrom = none ∧ s.tileSlots j = true)
    ∧ (∃ (k : Nat) (q : Req) (j : TileJob) (s : State), s.up 3 = true ∧ s.laneHolder k = some q ∧ q.work = .tile j ∧ s.holdsCarats 1 k = true ∧ q.stallFrom = none ∧ s.tileSlots j = false)
    ∧ (∃ (b : Nat) (j : TileJob) (s : State) (s' : State), s.up 3 = true ∧ s.pix.img.copy = none ∧ s.nextTile b = (some j, s') ∧ j.tile.kind ≠ 1 ∧ s'.tileSlots j = true)
    ∧ (∃ (b : Nat) (j : TileJob) (s : State) (s' : State), s.up 3 = true ∧ s.pix.img.copy = none ∧ s.nextTile b = (some j, s') ∧ j.tile.kind ≠ 1 ∧ s'.tileSlots j = false)
    ∧ (∃ (j : TileJob) (s : State), s.up 3 = true ∧ s.pix.img.copy = some j ∧ s.tileSlots j = true)
    ∧ (∃ (k : Nat) (t0 : Nat) (q : Req) (j : TileJob) (s : State), s.up 3 = true ∧ k ≠ 32 ∧ s.laneHolder k = some q ∧ q.work = .tile j ∧ q.stallFrom = some t0 ∧ s.tileSlots j = true) :=
  ⟨⟨3, ((laneTile none 4).laneHolder 3).getD default, { tile := fillTile 0 }, laneTile none 4, by decide +kernel, by decide +kernel, by decide +kernel, by decide +kernel, by decide +kernel, by decide +kernel⟩,
   ⟨3, ((laneTile none 0).laneHolder 3).getD default, { tile := fillTile 0 }, laneTile none 0, by decide +kernel, by decide +kernel, by decide +kernel, by decide +kernel, by decide +kernel, by decide +kernel⟩,
   ⟨0, ((withPix imaging fun p => { p with img := { p.img with rings := updNth p.img.rings 0 fun r => { r with streams := [(0, fillTile 0)] } } }).nextTile 0).1.getD default, withPix imaging fun p => { p with img := { p.img with rings := updNth p.img.rings 0 fun r => { r with streams := [(0, fillTile 0)] } } }, ((withPix imaging fun p => { p with img := { p.img with rings := updNth p.img.rings 0 fun r => { r with streams := [(0, fillTile 0)] } } }).nextTile 0).2, by decide +kernel, by decide +kernel, by decide +kernel, by decide +kernel, by decide +kernel⟩,
   ⟨0, ((withPix imaging fun p => { p with img := { p.img with rings := updNth p.img.rings 0 fun r => { r with print := some { height := 64, passLx := 250 } }, planes := updNth p.img.planes 0 fun q => { q with tiles := [{ fillTile 0 with rawLen := 65536 }] } } }).nextTile 0).1.getD default, withPix imaging fun p => { p with img := { p.img with rings := updNth p.img.rings 0 fun r => { r with print := some { height := 64, passLx := 250 } }, planes := updNth p.img.planes 0 fun q => { q with tiles := [{ fillTile 0 with rawLen := 65536 }] } } }, ((withPix imaging fun p => { p with img := { p.img with rings := updNth p.img.rings 0 fun r => { r with print := some { height := 64, passLx := 250 } }, planes := updNth p.img.planes 0 fun q => { q with tiles := [{ fillTile 0 with rawLen := 65536 }] } } }).nextTile 0).2, by decide +kernel, by decide +kernel, by decide +kernel, by decide +kernel, by decide +kernel⟩,
   ⟨((withPix imaging fun p => { p with img := { p.img with copy := some { tile := fillTile 0 }, copyStalled := true } }).pix.img.copy).getD default, withPix imaging fun p => { p with img := { p.img with copy := some { tile := fillTile 0 }, copyStalled := true } }, by decide +kernel, by decide +kernel, by decide +kernel⟩,
   ⟨3, 7, ((laneTile (some 7) 4).laneHolder 3).getD default, { tile := fillTile 0 }, laneTile (some 7) 4, by decide +kernel, by decide +kernel, by decide +kernel, by decide +kernel, by decide +kernel, by decide +kernel⟩⟩

theorem witness_CodecJobs :
    (∃ (k : Nat) (d : Desc) (s : State), s.up 3 = true ∧ s.enabled P_CDC = true ∧ k < s.pix.img.codec.length ∧ (s.codec k).job = none ∧ s.nextDesc (8 + k) = some d ∧ cdOp d = 1)
    ∧ (∃ (k : Nat) (d : Desc) (s : State), s.up 3 = true ∧ s.enabled P_CDC = true ∧ k < s.pix.img.codec.length ∧ (s.codec k).job = none ∧ s.nextDesc (8 + k) = some d ∧ cdOp d = 2)
    ∧ (∃ (k : Nat) (d : Desc) (s : State), s.up 3 = true ∧ s.enabled P_CDC = true ∧ k < s.pix.img.codec.length ∧ (s.codec k).job = none ∧ s.nextDesc (8 + k) = some d ∧ cdOp d = 3)
    ∧ (∃ (k : Nat) (d : Desc) (s : State), s.up 3 = true ∧ s.enabled P_CDC = true ∧ k < s.pix.img.codec.length ∧ (s.codec k).job = none ∧ s.nextDesc (8 + k) = some d ∧ cdOp d = 4)
    ∧ (∃ (k : Nat) (d : Desc) (s : State), s.up 3 = true ∧ s.enabled P_CDC = true ∧ k < s.pix.img.codec.length ∧ (s.codec k).job = none ∧ s.nextDesc (8 + k) = some d ∧ cdOp d = 5)
    ∧ (∃ (k : Nat) (d : Desc) (s : State), s.up 3 = true ∧ s.enabled P_CDC = true ∧ k < s.pix.img.codec.length ∧ (s.codec k).job = none ∧ s.nextDesc (8 + k) = some d ∧ cdOp d = 6)
    ∧ (∃ (k : Nat) (j : CodecJob) (s : State), s.up 3 = true ∧ k < 4 ∧ s.pix.img.codec.length = 4 ∧ (s.codec k).job = some j ∧ j.fixed = none ∧ j.resume = none ∧ j.op = 3 ∧ j.bad = false ∧ j.dstDram = true ∧ s.jobCanEnd k j = true)
    ∧ (∃ (k : Nat) (j : CodecJob) (s : State), s.up 3 = true ∧ k < 4 ∧ s.pix.img.codec.length = 4 ∧ j.slot < (s.codec k).slots.length ∧ (s.codec k).job = some j ∧ j.fixed = some csDiscarded ∧ s.codecLane k = none)
    ∧ (∃ (k : Nat) (j : CodecJob) (s : State), s.up 3 = true ∧ k < 4 ∧ s.pix.img.codec.length = 4 ∧ (s.codec k).job = some j ∧ j.fixed = some csBadContext ∧ s.codecLane k = none) :=
  ⟨⟨0, ((withRing armable 8 [codecDesc 1]).nextDesc (8 + 0)).getD default, withRing armable 8 [codecDesc 1], by decide +kernel, by decide +kernel, by decide +kernel, by decide +kernel, by decide +kernel, by decide +kernel⟩,
   ⟨1, ((withRing armable 9 [codecDesc 2]).nextDesc (8 + 1)).getD default, withRing armable 9 [codecDesc 2], by decide +kernel, by decide +kernel, by decide +kernel, by decide +kernel, by decide +kernel, by decide +kernel⟩,
   ⟨2, ((withRing armable 10 [codecDesc 3]).nextDesc (8 + 2)).getD default, withRing armable 10 [codecDesc 3], by decide +kernel, by decide +kernel, by decide +kernel, by decide +kernel, by decide +kernel, by decide +kernel⟩,
   ⟨3, ((withRing armable 11 [codecDesc 4]).nextDesc (8 + 3)).getD default, withRing armable 11 [codecDesc 4], by decide +kernel, by decide +kernel, by decide +kernel, by decide +kernel, by decide +kernel, by decide +kernel⟩,
   ⟨0, ((withRing armable 8 [codecDesc 5]).nextDesc (8 + 0)).getD default, withRing armable 8 [codecDesc 5], by decide +kernel, by decide +kernel, by decide +kernel, by decide +kernel, by decide +kernel, by decide +kernel⟩,
   ⟨0, ((withRing armable 8 [codecDesc 6]).nextDesc (8 + 0)).getD default, withRing armable 8 [codecDesc 6], by decide +kernel, by decide +kernel, by decide +kernel, by decide +kernel, by decide +kernel, by decide +kernel⟩,
   ⟨0, (((codecBusy { idx := 0, op := 3, dstDram := true, dst := 64, input := rawHeader 0 ++ List.replicate 1024 7 }).codec 0).job).getD default, codecBusy { idx := 0, op := 3, dstDram := true, dst := 64, input := rawHeader 0 ++ List.replicate 1024 7 }, by decide +kernel, by decide +kernel, by decide +kernel, by decide +kernel, by decide +kernel, by decide +kernel, by decide +kernel, by decide +kernel, by decide +kernel, by decide +kernel⟩,
   ⟨0, (((codecBusy { idx := 0, op := 6, fixed := some csDiscarded }).codec 0).job).getD default, codecBusy { idx := 0, op := 6, fixed := some csDiscarded }, by decide +kernel, by decide +kernel, by decide +kernel, by decide +kernel, by decide +kernel, by decide +kernel, by decide +kernel⟩,
   ⟨0, (((codecBusy { idx := 0, op := 5, fixed := some csBadContext }).codec 0).job).getD default, codecBusy { idx := 0, op := 5, fixed := some csBadContext }, by decide +kernel, by decide +kernel, by decide +kernel, by decide +kernel, by decide +kernel, by decide +kernel⟩⟩

theorem witness_ScreeningAndCorrection :
    (∃ (b : Nat) (q : ScreenJob) (s : State), s.up 3 = true ∧ b < 8 ∧ s.pix.scn.length = 8 ∧ (s.scn b).job = some q ∧ q.dead = false ∧ (s.scn b).fifo.length ≤ 3)
    ∧ (∃ (m : Master) (sets : Nat) (s : State), s.Direct m R.SCN_MASK_CMD (BitVec.ofNat 32 sets))
    ∧ (∃ (k : Nat) (s : State), s.up 3 = true ∧ k < 2 ∧ k ∈ s.pix.maskChk)
    ∧ (∃ (m : Master) (bars : Nat) (s : State), s.Direct m R.NZC_PASS_CMD (BitVec.ofNat 32 bars) ∧ (∀ b < 8, bit bars b = true → s.inJob b = false))
    ∧ (∃ (b : Nat) (q : Desc) (s : State), s.up 3 = true ∧ b < 8 ∧ s.pix.nzc.length = 8 ∧ s.enabled P_NZC = true ∧ (s.nz b).dens = none ∧ s.nextDesc (16 + b) = some q ∧ leAt q.bytes 0 8 % 64 = 0 ∧ leAt q.bytes 12 4 ≠ 0 ∧ leAt q.bytes 8 4 + leAt q.bytes 12 4 ≤ nozzles ∧ leAt q.bytes 25 1 = 0 ∧ leAt q.bytes 16 8 ≤ s.webCount ∧ s.get64 (R.NZC_LAST_WC_LO b) + s.get64 (R.NZC_SETTLE_LO b) ≤ leAt q.bytes 16 8)
    ∧ (∃ (b : Nat) (q : Desc) (s : State), s.up 3 = true ∧ b < 8 ∧ s.pix.nzc.length = 8 ∧ s.enabled P_NZC = true ∧ (s.nz b).dens = none ∧ s.nextDesc (16 + b) = some q ∧ leAt q.bytes 0 8 % 64 = 0 ∧ leAt q.bytes 12 4 ≠ 0 ∧ leAt q.bytes 8 4 + leAt q.bytes 12 4 ≤ nozzles ∧ leAt q.bytes 25 1 = 0 ∧ leAt q.bytes 16 8 ≤ s.webCount ∧ leAt q.bytes 16 8 < s.get64 (R.NZC_LAST_WC_LO b) + s.get64 (R.NZC_SETTLE_LO b))
    ∧ (∃ (b : Nat) (d : Dens) (s : State), s.up 3 = true ∧ b < 8 ∧ s.pix.nzc.length = 8 ∧ (s.nz b).dens = some d ∧ d.staged = false)
    ∧ (∃ (s : State), s.up 3 = true ∧ s.pix.nzc.length = 8 ∧ s.on F.NZC_LOADING = true) :=
  ⟨⟨0, (((withPix armable fun p => { p with scn := updNth p.scn 0 fun q => { q with job := some { line := 5 } } }).scn 0).job).getD default, withPix armable fun p => { p with scn := updNth p.scn 0 fun q => { q with job := some { line := 5 } } }, by decide +kernel, by decide +kernel, by decide +kernel, by decide +kernel, by decide +kernel, by decide +kernel⟩,
   ⟨.host, 3, ready, direct_of (by decide +kernel)⟩,
   ⟨1, withPix ready fun p => { p with maskChk := [0, 1] }, by decide +kernel, by decide +kernel, by decide +kernel⟩,
   ⟨.host, 3, ready, direct_of (by decide +kernel), by decide +kernel⟩,
   ⟨0, ((withRing (withRegs ready [(R.CTRL P_NZC, 1), (R.POS_WEB_COUNT_LO, 0x50), (R.NZC_SETTLE_LO 0, 0x20)]) 16 [densDesc 8 0x40]).nextDesc (16 + 0)).getD default, withRing (withRegs ready [(R.CTRL P_NZC, 1), (R.POS_WEB_COUNT_LO, 0x50), (R.NZC_SETTLE_LO 0, 0x20)]) 16 [densDesc 8 0x40], by decide +kernel, by decide +kernel, by decide +kernel, by decide +kernel, by decide +kernel, by decide +kernel, by decide +kernel, by decide +kernel, by decide +kernel, by decide +kernel, by decide +kernel, by decide +kernel⟩,
   ⟨0, ((withRing (withRegs ready [(R.CTRL P_NZC, 1), (R.POS_WEB_COUNT_LO, 0x50), (R.NZC_SETTLE_LO 0, 0x41)]) 16 [densDesc 8 0x40]).nextDesc (16 + 0)).getD default, withRing (withRegs ready [(R.CTRL P_NZC, 1), (R.POS_WEB_COUNT_LO, 0x50), (R.NZC_SETTLE_LO 0, 0x41)]) 16 [densDesc 8 0x40], by decide +kernel, by decide +kernel, by decide +kernel, by decide +kernel, by decide +kernel, by decide +kernel, by decide +kernel, by decide +kernel, by decide +kernel, by decide +kernel, by decide +kernel, by decide +kernel⟩,
   ⟨0, (((withPix ready fun p => { p with nzc := updNth p.nzc 0 fun q => { q with dens := some { count := 2 } } }).nz 0).dens).getD default, withPix ready fun p => { p with nzc := updNth p.nzc 0 fun q => { q with dens := some { count := 2 } } }, by decide +kernel, by decide +kernel, by decide +kernel, by decide +kernel, by decide +kernel⟩,
   ⟨ready.put F.NZC_LOADING 1, by decide +kernel, by decide +kernel, by decide +kernel⟩⟩

theorem witness_Encoders :
    (∃ (n : Nat) (fwd : Bool) (d : Int) (pos : Int) (s : State), s.counting n = true ∧ n < 4 ∧ s.fire.chans.length = 4 ∧ s.chMode n = modeQuad ∧ d = (if fwd = s.on (F.POS_CH_CFG_INVERT n) then -1 else 1) ∧ pos = s.getInt64 (R.POS_POS_LO n) + d)
    ∧ (∃ (n : Nat) (fwd : Bool) (d : Int) (s : State), s.counting n = true ∧ n < 4 ∧ s.fire.chans.length = 4 ∧ s.chMode n = modeTooth ∧ s.get (F.POS_TW_CFG_REFKIND n) = 0 ∧ d = (if (if s.on (F.POS_CH_CFG_TW_DIR n) then fwd else true) = s.on (F.POS_CH_CFG_INVERT n) then -1 else 1))
    ∧ (∃ (t0 : Nat) (n : Nat) (fwd : Bool) (e : Nat × Int) (d : Int) (s : State), s.counting n = true ∧ n < 4 ∧ s.fire.chans.length = 4 ∧ s.role = .solo ∧ s.chMode n = modeTooth ∧ s.get (F.POS_TW_CFG_REFKIND n) = 1 ∧ s.speedValid n = true ∧ (s.chan n).last = some e ∧ s.get (F.POS_TW_CFG_GAP_RATIO n) * (s.speedSum n).1 ≤ 64 * (t0 - e.1) * (s.speedSum n).2 ∧ d = (if (if s.on (F.POS_CH_CFG_TW_DIR n) then fwd else true) = s.on (F.POS_CH_CFG_INVERT n) then -1 else 1))
    ∧ (∃ (n : Nat) (s : State), s.counting n = true ∧ n < 4 ∧ s.fire.chans.length = 4 ∧ s.chMode n = modeSincos ∧ (s.chan n).adc = none ∧ s.get (F.POS_AMP_NOM n) ≠ 0)
    ∧ (∃ (t0 : Nat) (n : Nat) (sin : Int) (cos : Int) (phase : Nat) (p : Int) (q : Int) (d : Int) (s : State), s.counting n = true ∧ n < 4 ∧ s.fire.chans.length = 4 ∧ s.chMode n = modeSincos ∧ (s.chan n).adc = none ∧ ((s.atTime t0).amplitude n sin cos).on (F.POS_STAT_AMP_OK n) = true ∧ s.adcTrim n = false ∧ (s.chan n).dr = none ∧ (s.chan n).phase = some p ∧ (s.chan n).rejoin = 0 ∧ (sdiff 12 phase (s.chan n).meas).natAbs ≤ 512 ∧ q = p + 16 * sdiff 12 phase (s.chan n).meas ∧ d = phaseCount (s.get (F.POS_CH_CFG_LOG2_INTERP n)) q - phaseCount (s.get (F.POS_CH_CFG_LOG2_INTERP n)) p)
    ∧ (∃ (t0 : Nat) (n : Nat) (sin : Int) (cos : Int) (phase : Nat) (p : Int) (s : State), s.counting n = true ∧ n < 4 ∧ s.fire.chans.length = 4 ∧ s.chMode n = modeSincos ∧ (s.chan n).adc = none ∧ ((s.atTime t0).amplitude n sin cos).on (F.POS_STAT_AMP_OK n) = true ∧ s.adcTrim n = false ∧ (s.chan n).dr = none ∧ (s.chan n).phase = some p ∧ 512 < (sdiff 12 phase (s.chan n).meas).natAbs) :=
  ⟨⟨0, true, (if true = (moving ready).on (F.POS_CH_CFG_INVERT 0) then -1 else 1), (moving ready).getInt64 (R.POS_POS_LO 0) + ((if true = (moving ready).on (F.POS_CH_CFG_INVERT 0) then -1 else 1)), moving ready, by decide +kernel, by decide +kernel, by decide +kernel, by decide +kernel, by decide +kernel, by decide +kernel⟩,
   ⟨1, true, (if (if (withRegs ready [(R.CTRL P_POS, 1), (R.POS_CH_CFG 1, 0x3)]).on (F.POS_CH_CFG_TW_DIR 1) then true else true) = (withRegs ready [(R.CTRL P_POS, 1), (R.POS_CH_CFG 1, 0x3)]).on (F.POS_CH_CFG_INVERT 1) then -1 else 1), withRegs ready [(R.CTRL P_POS, 1), (R.POS_CH_CFG 1, 0x3)], by decide +kernel, by decide +kernel, by decide +kernel, by decide +kernel, by decide +kernel, by decide +kernel⟩,
   ⟨5000, 0, true, (((withRegs (moving ready) [(R.POS_CH_CFG 0, 3), (R.POS_TW_CFG 0, 0x00110140)]).chan 0).last).getD default, (if (if (withRegs (moving ready) [(R.POS_CH_CFG 0, 3), (R.POS_TW_CFG 0, 0x00110140)]).on (F.POS_CH_CFG_TW_DIR 0) then true else true) = (withRegs (moving ready) [(R.POS_CH_CFG 0, 3), (R.POS_TW_CFG 0, 0x00110140)]).on (F.POS_CH_CFG_INVERT 0) then -1 else 1), withRegs (moving ready) [(R.POS_CH_CFG 0, 3), (R.POS_TW_CFG 0, 0x00110140)], by decide +kernel, by decide +kernel, by decide +kernel, by decide +kernel, by decide +kernel, by decide +kernel, by decide +kernel, by decide +kernel, by decide +kernel, by decide +kernel⟩,
   ⟨1, sincos, by decide +kernel, by decide +kernel, by decide +kernel, by decide +kernel, by decide +kernel, by decide +kernel⟩,
   ⟨2000, 1, 30000, -200, 100, ((sincos.chan 1).phase).getD default, (((sincos.chan 1).phase).getD default) + 16 * sdiff 12 100 (sincos.chan 1).meas, phaseCount (sincos.get (F.POS_CH_CFG_LOG2_INTERP 1)) ((((sincos.chan 1).phase).getD default) + 16 * sdiff 12 100 (sincos.chan 1).meas) - phaseCount (sincos.get (F.POS_CH_CFG_LOG2_INTERP 1)) (((sincos.chan 1).phase).getD default), sincos, by decide +kernel, by decide +kernel, by decide +kernel, by decide +kernel, by decide +kernel, by decide +kernel, by decide +kernel, by decide +kernel, by decide +kernel, by decide +kernel, by decide +kernel, by decide +kernel, by decide +kernel⟩,
   ⟨2000, 1, 30000, -200, 1000, ((sincos.chan 1).phase).getD default, sincos, by decide +kernel, by decide +kernel, by decide +kernel, by decide +kernel, by decide +kernel, by decide +kernel, by decide +kernel, by decide +kernel, by decide +kernel, by decide +kernel⟩⟩

theorem witness_ChannelStates :
    (∃ (n : Nat) (s : State), s.up 4 = true ∧ s.enabled P_POS = true ∧ (s.chMode n = modeQuad ∨ s.chMode n = modeTooth))
    ∧ (∃ (t0 : Nat) (n : Nat) (e : Nat × Int) (s : State), s.counting n = true ∧ n < 4 ∧ s.fire.chans.length = 4 ∧ (s.chan n).last = some e ∧ e.1 + s.get (F.POS_ZERO_TO n) * 400 ≤ t0 ∧ s.get (F.POS_STAT_SPEEDST n) ≠ flStill)
    ∧ (∃ (t0 : Nat) (n : Nat) (d : Nat × Int × Int) (s : State), s.up 4 = true ∧ n < 4 ∧ s.fire.chans.length = 4 ∧ (s.chan n).dr = some d ∧ d.1 + s.get (F.POS_AMP_CFG_DR_MAX n) * 400 < t0)
    ∧ (∃ (m : Master) (n : Nat) (s : State), s.Direct m (R.POS_STAT n) 0x80 ∧ n < 4 ∧ s.fire.chans.length = 4 ∧ s.on (F.POS_STAT_FAULT n) = true)
    ∧ (∃ (m : Master) (n : Nat) (w : Word) (s : State), s.Direct m (R.POS_CH_CFG n) w ∧ n < 4 ∧ s.fire.chans.length = 4 ∧ (∀ r i j, regRow (R.POS_CH_CFG n) = some (r, i, j) → rowInRange r w = true) ∧ (s.anyJob = false ∨ s.chMode n = getBits 2 0 w))
    ∧ (∃ (m : Master) (n : Nat) (w : Word) (s : State), s.Direct m (R.POS_CH_CFG n) w ∧ n < 4 ∧ (∀ r i j, regRow (R.POS_CH_CFG n) = some (r, i, j) → rowInRange r w = true) ∧ s.anyJob = true ∧ s.chMode n ≠ getBits 2 0 w) :=
  ⟨⟨0, moving ready, by decide +kernel, by decide +kernel, by decide +kernel⟩,
   ⟨4000000000, 0, (((moving ready).chan 0).last).getD default, moving ready, by decide +kernel, by decide +kernel, by decide +kernel, by decide +kernel, by decide +kernel, by decide +kernel⟩,
   ⟨40000000, 1, (((withChan sincos 1 fun c => { c with dr := some (7, 0, 5) }).chan 1).dr).getD default, withChan sincos 1 fun c => { c with dr := some (7, 0, 5) }, by decide +kernel, by decide +kernel, by decide +kernel, by decide +kernel, by decide +kernel⟩,
   ⟨.host, 1, withRegs sincos [(R.POS_STAT 1, 0x80)], direct_of (by decide +kernel), by decide +kernel, by decide +kernel, by decide +kernel⟩,
   ⟨.host, 1, 0x00080002, sincos, direct_of (by decide +kernel), by decide +kernel, by decide +kernel, fun _ _ _ h => by rw [row_spec (by decide +kernel)] at h; cases h; decide +kernel, by decide +kernel⟩,
   ⟨.host, 1, 0x00080001, withPix sincos fun p => { p with bars := updNth p.bars 0 fun _ => some {} }, direct_of (by decide +kernel), by decide +kernel, fun _ _ _ h => by rw [row_spec (by decide +kernel)] at h; cases h; decide +kernel, by decide +kernel, by decide +kernel⟩⟩

theorem witness_TriggerLatches :
    (∃ (k : Nat) (rising : Bool) (s : State), s.up 4 = true ∧ s.enabled P_POS = true ∧ k < s.fire.trigs.length ∧ bit (s.get (F.POS_TRIG_CFG_EDGE k)) (if rising then 0 else 1) = true)
    ∧ (∃ (k : Nat) (rising : Bool) (s : State), s.up 4 = true ∧ bit (s.get (F.POS_TRIG_CFG_EDGE k)) (if rising then 0 else 1) = false)
    ∧ (∃ (t0 : Nat) (k : Nat) (e : Nat) (f : Nat) (due : Nat) (p : Nat) (rest : List (Nat × Nat)) (s : State), s.up 4 = true ∧ s.enabled P_POS = true ∧ k < 4 ∧ s.fire.trigs.length = 4 ∧ (nth s.fire.trigs k).edges = (e, f) :: rest ∧ s.latchDue k = some due ∧ due ≤ t0 ∧ s.phaseBars k = [] ∧ p = s.webPosAt e)
    ∧ (∃ (t0 : Nat) (k : Nat) (b : Nat) (e : Nat) (f : Nat) (due : Nat) (v : Nat) (rest : List (Nat × Nat)) (s : State), s.up 4 = true ∧ s.enabled P_POS = true ∧ s.role = .solo ∧ k < 4 ∧ s.fire.trigs.length = 4 ∧ s.fire.clks.length = 8 ∧ (nth s.fire.trigs k).edges = (e, f) :: rest ∧ s.latchDue k = some due ∧ due ≤ t0 ∧ s.phaseBars k = [b] ∧ v = s.phaseTarget k b (s.webPosAt e) ∧ (s.atTime t0).phaseOk b v 0 = true)
    ∧ (∃ (t0 : Nat) (k : Nat) (b : Nat) (e : Nat) (f : Nat) (due : Nat) (v : Nat) (rest : List (Nat × Nat)) (s : State), s.up 4 = true ∧ s.enabled P_POS = true ∧ s.role = .solo ∧ k < 4 ∧ s.fire.trigs.length = 4 ∧ (nth s.fire.trigs k).edges = (e, f) :: rest ∧ s.latchDue k = some due ∧ due ≤ t0 ∧ s.phaseBars k = [b] ∧ v = s.phaseTarget k b (s.webPosAt e) ∧ (s.atTime t0).phaseOk b v 0 = false) :=
  ⟨⟨0, true, withRegs (moving ready) [(R.POS_TRIG_CFG 0, 1)], by decide +kernel, by decide +kernel, by decide +kernel, by decide +kernel⟩,
   ⟨0, false, withRegs (moving ready) [(R.POS_TRIG_CFG 0, 1)], by decide +kernel, by decide +kernel⟩,
   ⟨2000, 0, 950, 970, ((withTrig (moving ready) [(950, 970)]).latchDue 0).getD default, (withTrig (moving ready) [(950, 970)]).webPosAt 950, [], withTrig (moving ready) [(950, 970)], by decide +kernel, by decide +kernel, by decide +kernel, by decide +kernel, by decide +kernel, by decide +kernel, by decide +kernel, by decide +kernel, by decide +kernel⟩,
   ⟨2000, 0, 0, 950, 970, ((withTrig (withRegs (moving armable) [(R.POS_TRIG_CFG 0, 0x01010001), (R.POS_DIST_HI 0, 200)]) [(950, 970)]).latchDue 0).getD default, (withTrig (withRegs (moving armable) [(R.POS_TRIG_CFG 0, 0x01010001), (R.POS_DIST_HI 0, 200)]) [(950, 970)]).phaseTarget 0 0 ((withTrig (withRegs (moving armable) [(R.POS_TRIG_CFG 0, 0x01010001), (R.POS_DIST_HI 0, 200)]) [(950, 970)]).webPosAt 950), [], withTrig (withRegs (moving armable) [(R.POS_TRIG_CFG 0, 0x01010001), (R.POS_DIST_HI 0, 200)]) [(950, 970)], by decide +kernel, by decide +kernel, by decide +kernel, by decide +kernel, by decide +kernel, by decide +kernel, by decide +kernel, by decide +kernel, by decide +kernel, by decide +kernel, by decide +kernel, by decide +kernel⟩,
   ⟨2000, 0, 0, 950, 970, ((withTrig (withRegs (moving armable) [(R.POS_TRIG_CFG 0, 0x01010001)]) [(950, 970)]).latchDue 0).getD default, (withTrig (withRegs (moving armable) [(R.POS_TRIG_CFG 0, 0x01010001)]) [(950, 970)]).phaseTarget 0 0 ((withTrig (withRegs (moving armable) [(R.POS_TRIG_CFG 0, 0x01010001)]) [(950, 970)]).webPosAt 950), [], withTrig (withRegs (moving armable) [(R.POS_TRIG_CFG 0, 0x01010001)]) [(950, 970)], by decide +kernel, by decide +kernel, by decide +kernel, by decide +kernel, by decide +kernel, by decide +kernel, by decide +kernel, by decide +kernel, by decide +kernel, by decide +kernel, by decide +kernel⟩⟩

theorem witness_LineClock :
    (∃ (t0 : Nat) (b : Nat) (x : Nat) (s : State), s.up 4 = true ∧ b < s.fire.clks.length ∧ s.predict b 0 = some x ∧ (s.clk b).commit = none ∧ (s.clk b).latched = none ∧ x ≤ 64 * (max s.devtime t0 + 400))
    ∧ (∃ (t0 : Nat) (b : Nat) (x : Nat) (te : Nat) (w : Nat) (tl : Nat) (s : State), s.up 4 = true ∧ b < s.fire.clks.length ∧ s.predict b 0 = some x ∧ s.webEdge = some (te, w) ∧ (s.clk b).commit = none ∧ s.withinCap (s.cmp b) = true ∧ (s.clk b).latched = some tl ∧ max (max x (64 * (te + 96))) (64 * (tl + 360)) ≤ 64 * (max s.devtime t0 + 96))
    ∧ (∃ (t0 : Nat) (b : Nat) (c : Commit) (s : State), s.up 4 = true ∧ b < 8 ∧ s.fire.clks.length = 8 ∧ s.role = .solo ∧ s.plk.locket = none ∧ (s.clk b).commit = some c ∧ c.tB ≤ 64 * max s.devtime t0 ∧ (s.clk b).phq = [] ∧ (s.clk b).cmpSet = [] ∧ s.run b = none)
    ∧ (∃ (t0 : Nat) (b : Nat) (c : Commit) (s : State), s.up 4 = true ∧ (s.clk b).commit = some c ∧ 64 * max s.devtime t0 < c.tB)
    ∧ (∃ (t0 : Nat) (b : Nat) (l0 : Nat) (c : Commit) (r : BarRun) (j : Machine.Job) (q : Sent) (s : State), s.up 4 = true ∧ b < 8 ∧ s.fire.clks.length = 8 ∧ s.fire.bars.length = 8 ∧ s.role = .solo ∧ s.dev = .printing ∧ s.plk.locket = none ∧ (s.clk b).commit = some c ∧ c.tB ≤ 64 * max s.devtime t0 ∧ (s.clk b).phq = [] ∧ (s.clk b).cmpSet = [] ∧ s.run b = some r ∧ r.first = some l0 ∧ r.endTarget = none ∧ r.covers c.line = true ∧ s.job r.stream = some j ∧ (s.fbar b).sent = some q ∧ q.line = c.line ∧ q.control = true ∧ c.drop = none ∧ s.enabled (P_FIRE b) = true ∧ s.groupDrives b = true) :=
  ⟨⟨1000, 0, ((moving armable).predict 0 0).getD default, moving armable, by decide +kernel, by decide +kernel, by decide +kernel, by decide +kernel, by decide +kernel, by decide +kernel⟩,
   ⟨2000, 0, ((withClk (moving armable) 0 fun c => { c with latched := some 1000 }).predict 0 0).getD default, 1000, 100, (((withClk (moving armable) 0 fun c => { c with latched := some 1000 }).clk 0).latched).getD default, withClk (moving armable) 0 fun c => { c with latched := some 1000 }, by decide +kernel, by decide +kernel, by decide +kernel, by decide +kernel, by decide +kernel, by decide +kernel, by decide +kernel, by decide +kernel⟩,
   ⟨1000, 0, (((withClk armable 0 fun c => { c with commit := some { tB := 64000 } }).clk 0).commit).getD default, withClk armable 0 fun c => { c with commit := some { tB := 64000 } }, by decide +kernel, by decide +kernel, by decide +kernel, by decide +kernel, by decide +kernel, by decide +kernel, by decide +kernel, by decide +kernel, by decide +kernel, by decide +kernel⟩,
   ⟨999, 0, (((withClk armable 0 fun c => { c with commit := some { tB := 64000 } }).clk 0).commit).getD default, withClk armable 0 fun c => { c with commit := some { tB := 64000 } }, by decide +kernel, by decide +kernel, by decide +kernel⟩,
   ⟨1000, 0, ((((lineReady 0).run 0).getD default).first).getD default, (((lineReady 0).clk 0).commit).getD default, ((lineReady 0).run 0).getD default, ((lineReady 0).job (((lineReady 0).run 0).getD default).stream).getD default, (((lineReady 0).fbar 0).sent).getD default, lineReady 0, by decide +kernel, by decide +kernel, by decide +kernel, by decide +kernel, by decide +kernel, by decide +kernel, by decide +kernel, by decide +kernel, by decide +kernel, by decide +kernel, by decide +kernel, by decide +kernel, by decide +kernel, by decide +kernel, by decide +kernel, by decide +kernel, by decide +kernel, by decide +kernel, by decide +kernel, by decide +kernel, by decide +kernel, by decide +kernel⟩⟩

theorem witness_Firing :
    (∃ (t0 : Nat) (nn : Nat) (p : Pulse) (lv : List Bool) (s : State), s.up 4 = true ∧ nn / 9 < s.fire.bars.length ∧ nn / 9 < s.aux.pads.length ∧ ((s.fbar (nn / 9)).pulses.find? fun p => decide (p.nn = nn) && !p.active && decide (p.at64 / 64 ≤ t0)) = some p ∧ s.pad (nn / 9) = .driving lv ∧ bit (s.fbar (nn / 9)).cutHeld (nn % 9) = false)
    ∧ (∃ (t0 : Nat) (nn : Nat) (p : Pulse) (s : State), s.up 4 = true ∧ nn / 9 < s.fire.bars.length ∧ ((s.fbar (nn / 9)).pulses.find? fun p => decide (p.nn = nn) && !p.active && decide (p.at64 / 64 ≤ t0)) = some p ∧ (s.groupDrives (nn / 9) = false ∨ bit (s.fbar (nn / 9)).cutHeld (nn % 9) = true))
    ∧ (∃ (t0 : Nat) (nn : Nat) (p : Pulse) (s : State), s.up 4 = true ∧ nn / 9 < s.fire.bars.length ∧ ((s.fbar (nn / 9)).pulses.find? fun p => decide (p.nn = nn) && p.active && decide (p.at64 / 64 + p.width ≤ t0)) = some p)
    ∧ (∃ (t0 : Nat) (nn : Nat) (p : Pulse) (s : State), s.up 4 = true ∧ nn < 72 ∧ s.fire.bars.length = 8 ∧ ((s.fbar (nn / 9)).pulses.find? fun p => decide (p.nn = nn) && p.active && decide (p.at64 / 64 + s.get (F.FIRE_WDOG (nn / 9)) ≤ t0)) = some p)
    ∧ (∃ (m : Master) (b : Nat) (bits : Nat) (s : State), s.Direct m (R.FIRE_CUT b) (BitVec.ofNat 32 bits) ∧ b < 8)
    ∧ (∃ (m : Master) (b : Nat) (s : State), s.Direct m (R.FIRE_SEL_CMD b) 1 ∧ b < 8 ∧ s.fire.clks.length = 8 ∧ (s.role = .solo ∨ s.role = .detached))
    ∧ (∃ (b : Nat) (h : Nat) (x : Head × Option Nat) (s : State), s.up 4 = true ∧ s.enabled (P_FIRE b) = true ∧ s.role = .solo ∧ b < s.fire.bars.length ∧ h < 64 ∧ (s.fbar b).heads.length = 64 ∧ s.headUsed b h = true ∧ x = headStep (signedOf 16 (s.get (F.FIRE_HTEMP_LIMIT b))) (signedOf 16 (s.get (F.FIRE_HTEMP_WARN b))) (s.get (F.FIRE_HTEMP_CFG_HYST b)) (s.get (F.FIRE_HTEMP_CFG_DWELL b)) (s.headTheta b h) (nth (s.fbar b).heads h))
    ∧ (∃ (s : State), s.role = .standby)
    ∧ (∃ (m : Master) (b : Nat) (w : Word) (s : State), s.Direct m (R.FIRE_CAP_CTRL b) (w ||| 0x80000000#32) ∧ b < 8 ∧ s.fire.bars.length = 8 ∧ getBits 15 0 w ≠ 0) :=
  ⟨⟨1000, 0, ((((withBar (driving ready) 0 fun f => { f with pulses := [{ at64 := 64000, width := 400 }] }).fbar (0 / 9)).pulses.find? fun p => decide (p.nn = 0) && !p.active && decide (p.at64 / 64 ≤ 1000))).getD default, List.replicate 9 false, withBar (driving ready) 0 fun f => { f with pulses := [{ at64 := 64000, width := 400 }] }, by decide +kernel, by decide +kernel, by decide +kernel, by decide +kernel, by decide +kernel, by decide +kernel⟩,
   ⟨1000, 0, ((((withBar ready 0 fun f => { f with pulses := [{ at64 := 64000, width := 400 }] }).fbar (0 / 9)).pulses.find? fun p => decide (p.nn = 0) && !p.active && decide (p.at64 / 64 ≤ 1000))).getD default, withBar ready 0 fun f => { f with pulses := [{ at64 := 64000, width := 400 }] }, by decide +kernel, by decide +kernel, by decide +kernel, by decide +kernel⟩,
   ⟨1400, 0, ((((withBar (driving ready) 0 fun f => { f with pulses := [{ at64 := 64000, width := 400, active := true }] }).fbar (0 / 9)).pulses.find? fun p => decide (p.nn = 0) && p.active && decide (p.at64 / 64 + p.width ≤ 1400))).getD default, withBar (driving ready) 0 fun f => { f with pulses := [{ at64 := 64000, width := 400, active := true }] }, by decide +kernel, by decide +kernel, by decide +kernel⟩,
   ⟨100000, 0, ((((withBar (driving ready) 0 fun f => { f with pulses := [{ at64 := 64000, width := 400, active := true }] }).fbar (0 / 9)).pulses.find? fun p => decide (p.nn = 0) && p.active && decide (p.at64 / 64 + (withBar (driving ready) 0 fun f => { f with pulses := [{ at64 := 64000, width := 400, active := true }] }).get (F.FIRE_WDOG (0 / 9)) ≤ 100000))).getD default, withBar (driving ready) 0 fun f => { f with pulses := [{ at64 := 64000, width := 400, active := true }] }, by decide +kernel, by decide +kernel, by decide +kernel, by decide +kernel⟩,
   ⟨.host, 0, 5, withRegs ready [(R.FIRE_CUT 0, 5)], direct_of (by decide +kernel), by decide +kernel⟩,
   ⟨.host, 0, ready, direct_of (by decide +kernel), by decide +kernel, by decide +kernel, by decide +kernel⟩,
   ⟨0, 63, headStep (signedOf 16 ((withRegs ready [(R.CTRL (P_FIRE 0), 1), (R.FIRE_HMAP 0 7 3, 0)]).get (F.FIRE_HTEMP_LIMIT 0))) (signedOf 16 ((withRegs ready [(R.CTRL (P_FIRE 0), 1), (R.FIRE_HMAP 0 7 3, 0)]).get (F.FIRE_HTEMP_WARN 0))) ((withRegs ready [(R.CTRL (P_FIRE 0), 1), (R.FIRE_HMAP 0 7 3, 0)]).get (F.FIRE_HTEMP_CFG_HYST 0)) ((withRegs ready [(R.CTRL (P_FIRE 0), 1), (R.FIRE_HMAP 0 7 3, 0)]).get (F.FIRE_HTEMP_CFG_DWELL 0)) ((withRegs ready [(R.CTRL (P_FIRE 0), 1), (R.FIRE_HMAP 0 7 3, 0)]).headTheta 0 63) (nth ((withRegs ready [(R.CTRL (P_FIRE 0), 1), (R.FIRE_HMAP 0 7 3, 0)]).fbar 0).heads 63), withRegs ready [(R.CTRL (P_FIRE 0), 1), (R.FIRE_HMAP 0 7 3, 0)], by decide +kernel, by decide +kernel, by decide +kernel, by decide +kernel, by decide +kernel, by decide +kernel, by decide +kernel, by decide +kernel⟩,
   ⟨withRegs ready [(R.DEV_DEVSTATE, 0x27)], by decide +kernel⟩,
   ⟨.host, 0, 0x00FF0004, ready, direct_of (by decide +kernel), by decide +kernel, by decide +kernel, by decide +kernel⟩⟩

theorem witness_LaneEnables :
    (∃ (m : Master) (b : Nat) (k : Nat) (p : Nat) (s : State), b < 8 ∧ k < 9 ∧ s.Direct m (R.ZLB_LANE_EN b) (s.reg (R.ZLB_LANE_EN b) ||| BitVec.ofNat 32 (2 ^ k)) ∧ s.zl.lanes.length = 72 ∧ bit (s.reg (R.ZLB_LANE_EN b)).toNat k = false ∧ p = (if s.on (F.ZLB_TX_PRESET_FORCE b k) then s.get (F.ZLB_TX_PRESET_VALUE b k) else (s.lane (9 * b + k)).okPreset))
    ∧ (∃ (m : Master) (b : Nat) (k : Nat) (s : State), b < 8 ∧ k < 9 ∧ s.Direct m (R.ZLB_LANE_EN b) (s.reg (R.ZLB_LANE_EN b) &&& ~~~(BitVec.ofNat 32 (2 ^ k))) ∧ s.zl.lanes.length = 72 ∧ bit (s.reg (R.ZLB_LANE_EN b)).toNat k = true ∧ s.laneState (9 * b + k) ∈ [zLock, zCheck, zMeasure, zActive] ∧ (s.laneState (9 * b + k) = zActive → ∀ x, (s.lane (9 * b + k)).newest = some x → x.closed = true))
    ∧ (∃ (m : Master) (b : Nat) (k : Nat) (x : ZFrame) (s : State), b < 8 ∧ k < 9 ∧ s.Direct m (R.ZLB_LANE_EN b) (s.reg (R.ZLB_LANE_EN b) &&& ~~~(BitVec.ofNat 32 (2 ^ k))) ∧ s.zl.lanes.length = 72 ∧ bit (s.reg (R.ZLB_LANE_EN b)).toNat k = true ∧ s.laneState (9 * b + k) = zActive ∧ (s.lane (9 * b + k)).newest = some x ∧ x.closed = false) :=
  ⟨⟨.host, 0, 8, (if ready.on (F.ZLB_TX_PRESET_FORCE 0 8) then ready.get (F.ZLB_TX_PRESET_VALUE 0 8) else (ready.lane (9 * 0 + 8)).okPreset), ready, by decide +kernel, by decide +kernel, direct_of (by decide +kernel), by decide +kernel, by decide +kernel, by decide +kernel⟩,
   ⟨.host, 0, 0, withLane ready 0 zActive fun l => { l with frames := [{ frame [] with closed := true }] }, by decide +kernel, by decide +kernel, direct_of (by decide +kernel), by decide +kernel, by decide +kernel, by decide +kernel, fun _ x h => by cases h; rfl⟩,
   ⟨.host, 0, 0, (((withLane ready 0 zActive fun l => { l with frames := [frame []] }).lane (9 * 0 + 0)).newest).getD default, withLane ready 0 zActive fun l => { l with frames := [frame []] }, by decide +kernel, by decide +kernel, direct_of (by decide +kernel), by decide +kernel, by decide +kernel, by decide +kernel, by decide +kernel, by decide +kernel⟩⟩

theorem witness_LaneTraining :
    (∃ (nn : Nat) (s : State), s.up 5 = true ∧ nn < 72 ∧ s.zl.lanes.length = 72 ∧ s.laneState nn = zLock)
    ∧ (∃ (nn : Nat) (s : State), s.up 5 = true ∧ nn < 72 ∧ s.zl.lanes.length = 72 ∧ s.laneState nn = zCheck)
    ∧ (∃ (nn : Nat) (errs : Nat) (rx : Nat) (p : Nat) (ps : List Nat) (s : State), s.up 5 = true ∧ nn < 72 ∧ s.zl.lanes.length = 72 ∧ s.laneState nn = zCheck ∧ (errs ≠ 0 ∨ rx ≠ 0) ∧ (s.lane nn).presets = p :: ps)
    ∧ (∃ (t0 : Nat) (nn : Nat) (p : Nat) (ps : List Nat) (s : State), s.up 5 = true ∧ nn < 72 ∧ s.zl.lanes.length = 72 ∧ (s.laneState nn = zLock ∨ s.laneState nn = zCheck) ∧ (s.lane nn).deadline ≤ max s.devtime t0 ∧ (s.lane nn).presets = p :: ps)
    ∧ (∃ (t0 : Nat) (nn : Nat) (s : State), s.up 5 = true ∧ nn < 72 ∧ s.zl.lanes.length = 72 ∧ (s.laneState nn = zLock ∨ s.laneState nn = zCheck ∨ s.laneState nn = zMeasure) ∧ (s.lane nn).deadline ≤ max s.devtime t0 ∧ (s.lane nn).presets = [] ∧ (s.lane nn).retrain = false)
    ∧ (∃ (nn : Nat) (s : State), s.up 5 = true ∧ nn < 72 ∧ s.zl.lanes.length = 72 ∧ s.laneState nn = zActive ∧ (s.lane nn).disabling = false) :=
  ⟨⟨5, withLane ready 5 zLock id, by decide +kernel, by decide +kernel, by decide +kernel, by decide +kernel⟩,
   ⟨5, withLane ready 5 zCheck id, by decide +kernel, by decide +kernel, by decide +kernel, by decide +kernel⟩,
   ⟨5, 1, 0, 3, [4], withLane ready 5 zCheck fun l => { l with presets := [3, 4] }, by decide +kernel, by decide +kernel, by decide +kernel, by decide +kernel, by decide +kernel, by decide +kernel⟩,
   ⟨1000, 5, 3, [4], withLane ready 5 zLock fun l => { l with presets := [3, 4] }, by decide +kernel, by decide +kernel, by decide +kernel, by decide +kernel, by decide +kernel, by decide +kernel⟩,
   ⟨1000, 5, withLane ready 5 zMeasure id, by decide +kernel, by decide +kernel, by decide +kernel, by decide +kernel, by decide +kernel, by decide +kernel, by decide +kernel⟩,
   ⟨5, withLane ready 5 zActive id, by decide +kernel, by decide +kernel, by decide +kernel, by decide +kernel, by decide +kernel⟩⟩

theorem witness_LaneAcks :
    (∃ (nn : Nat) (id : Nat) (x : ZFrame) (s : State), s.up 5 = true ∧ nn < 72 ∧ s.zl.lanes.length = 72 ∧ s.laneState nn = zActive ∧ s.frameOf nn id = some x)
    ∧ (∃ (nn : Nat) (k : Nat) (id : Nat) (x : ZFrame) (s : State), s.up 5 = true ∧ nn < 72 ∧ s.zl.lanes.length = 72 ∧ s.laneState nn = zActive ∧ s.frameOf nn id = some x ∧ k < x.chunks.length ∧ nth x.chunks k ≠ .lost)
    ∧ (∃ (nn : Nat) (k : Nat) (id : Nat) (x : ZFrame) (s : State), s.up 5 = true ∧ nn < 72 ∧ s.zl.lanes.length = 72 ∧ s.laneState nn = zActive ∧ s.frameOf nn id = some x ∧ k < x.chunks.length ∧ nth x.chunks k ≠ .lost ∧ nth x.chunks k ≠ .good ∧ x.closed = false)
    ∧ (∃ (nn : Nat) (k : Nat) (id : Nat) (x : ZFrame) (s : State), s.up 5 = true ∧ nn < 72 ∧ s.zl.lanes.length = 72 ∧ s.laneState nn = zActive ∧ s.frameOf nn id = some x ∧ k < x.chunks.length ∧ nth x.chunks k ≠ .lost ∧ nth x.chunks k ≠ .good ∧ x.closed = true)
    ∧ (∃ (nn : Nat) (id : Nat) (status : Nat) (c : ZCtl) (s : State), s.up 5 = true ∧ nn < 72 ∧ s.zl.lanes.length = 72 ∧ s.laneState nn = zActive ∧ (status = 0 ∨ status = 3) ∧ ((s.lane nn).ctl.find? fun c => decide (c.seq = id)) = some c ∧ c.mailbox = true)
    ∧ (∃ (t0 : Nat) (nn : Nat) (k : Nat) (id : Nat) (e : Nat) (x : ZFrame) (s : State), s.up 5 = true ∧ nn < 72 ∧ s.zl.lanes.length = 72 ∧ s.laneState nn = zActive ∧ s.frameOf nn id = some x ∧ k < x.chunks.length ∧ nth x.chunks k = .waiting e ∧ x.closed = true ∧ s.ackDue nn e ≤ max s.devtime t0)
    ∧ (∃ (t0 : Nat) (nn : Nat) (k : Nat) (id : Nat) (e : Nat) (x : ZFrame) (s : State), s.up 5 = true ∧ nn < 72 ∧ s.frameOf nn id = some x ∧ nth x.chunks k = .waiting e ∧ max s.devtime t0 < s.ackDue nn e) :=
  ⟨⟨0, 7, ((withLane ready 0 zActive fun l => { l with frames := [frame (List.replicate 8 (.waiting 5))] }).frameOf 0 7).getD default, withLane ready 0 zActive fun l => { l with frames := [frame (List.replicate 8 (.waiting 5))] }, by decide +kernel, by decide +kernel, by decide +kernel, by decide +kernel, by decide +kernel⟩,
   ⟨0, 7, 7, ((withLane ready 0 zActive fun l => { l with frames := [frame (List.replicate 8 (.waiting 5))] }).frameOf 0 7).getD default, withLane ready 0 zActive fun l => { l with frames := [frame (List.replicate 8 (.waiting 5))] }, by decide +kernel, by decide +kernel, by decide +kernel, by decide +kernel, by decide +kernel, by decide +kernel, by decide +kernel⟩,
   ⟨0, 7, 7, ((withLane ready 0 zActive fun l => { l with frames := [frame (List.replicate 8 (.waiting 5))] }).frameOf 0 7).getD default, withLane ready 0 zActive fun l => { l with frames := [frame (List.replicate 8 (.waiting 5))] }, by decide +kernel, by decide +kernel, by decide +kernel, by decide +kernel, by decide +kernel, by decide +kernel, by decide +kernel, by decide +kernel, by decide +kernel⟩,
   ⟨0, 7, 7, ((withLane ready 0 zActive fun l => { l with frames := [{ frame (List.replicate 8 (.waiting 5)) with closed := true }] }).frameOf 0 7).getD default, withLane ready 0 zActive fun l => { l with frames := [{ frame (List.replicate 8 (.waiting 5)) with closed := true }] }, by decide +kernel, by decide +kernel, by decide +kernel, by decide +kernel, by decide +kernel, by decide +kernel, by decide +kernel, by decide +kernel, by decide +kernel⟩,
   ⟨0, 3, 0, ((((withLane ready 0 zActive fun l => { l with ctl := [{ seq := 3, opc := 1, mailbox := true, sentAt := some 5 }] }).lane 0).ctl.find? fun c => decide (c.seq = 3))).getD default, withLane ready 0 zActive fun l => { l with ctl := [{ seq := 3, opc := 1, mailbox := true, sentAt := some 5 }] }, by decide +kernel, by decide +kernel, by decide +kernel, by decide +kernel, by decide +kernel, by decide +kernel, by decide +kernel⟩,
   ⟨100000, 0, 7, 7, 5, ((withLane ready 0 zActive fun l => { l with frames := [{ frame (List.replicate 8 (.waiting 5)) with closed := true }] }).frameOf 0 7).getD default, withLane ready 0 zActive fun l => { l with frames := [{ frame (List.replicate 8 (.waiting 5)) with closed := true }] }, by decide +kernel, by decide +kernel, by decide +kernel, by decide +kernel, by decide +kernel, by decide +kernel, by decide +kernel, by decide +kernel, by decide +kernel⟩,
   ⟨4, 0, 7, 7, 5, ((withLane ready 0 zActive fun l => { l with frames := [frame (List.replicate 8 (.waiting 5))] }).frameOf 0 7).getD default, withLane ready 0 zActive fun l => { l with frames := [frame (List.replicate 8 (.waiting 5))] }, by decide +kernel, by decide +kernel, by decide +kernel, by decide +kernel, by decide +kernel⟩⟩

theorem witness_ReplayWindows :
    (∃ (t0 : Nat) (nn : Nat) (e : Nat) (x : ZFrame) (s : State), s.up 5 = true ∧ nn < 72 ∧ s.zl.lanes.length = 72 ∧ (s.lane nn).busy = some (.payload, e) ∧ e ≤ 6400 * max s.devtime t0 + 6399 ∧ (s.lane nn).newest = some x ∧ x.absent = false ∧ x.closed = false)
    ∧ (∃ (t0 : Nat) (nn : Nat) (e : Nat) (n : Nat) (x : ZFrame) (s : State), s.up 5 = true ∧ nn < 72 ∧ s.zl.lanes.length = 72 ∧ s.laneState nn = zActive ∧ s.rplEnd nn = some e ∧ e ≤ 6400 * max s.devtime t0 + 6399 ∧ (s.lane nn).newest = some x ∧ x.closed = false ∧ x.absent = false ∧ x.chunks.length = 8 ∧ (s.lane nn).disabling = false ∧ (s.lane nn).lossy + 1 < s.get F.ZLK_CFG_ERR_LINES ∧ n = ((List.range 8).filter fun k => decide (nth x.chunks k ≠ .good)).length)
    ∧ (∃ (t0 : Nat) (nn : Nat) (e : Nat) (x : ZFrame) (s : State), s.up 5 = true ∧ nn < 72 ∧ s.zl.lanes.length = 72 ∧ s.laneState nn = zActive ∧ s.hdrEnd nn = some e ∧ e ≤ 6400 * max s.devtime t0 + 6399 ∧ (s.lane nn).newest = some x ∧ x.closed = false ∧ x.header ≠ .good ∧ (s.lane nn).disabling = false) :=
  ⟨⟨1000, 0, 6400000, (((withLane ready 0 zActive fun l => { l with busy := some (.payload, 6400000), frames := [frame (List.replicate 8 .unsent)] }).lane 0).newest).getD default, withLane ready 0 zActive fun l => { l with busy := some (.payload, 6400000), frames := [frame (List.replicate 8 .unsent)] }, by decide +kernel, by decide +kernel, by decide +kernel, by decide +kernel, by decide +kernel, by decide +kernel, by decide +kernel, by decide +kernel⟩,
   ⟨1000, 0, ((withLane (withClk armable 0 fun c => { c with commit := some { tB := 64000 } }) 0 zActive fun l => { l with frames := [frame (.unchecked :: List.replicate 7 .good)] }).rplEnd 0).getD default, ((List.range 8).filter fun k => decide (nth ((((withLane (withClk armable 0 fun c => { c with commit := some { tB := 64000 } }) 0 zActive fun l => { l with frames := [frame (.unchecked :: List.replicate 7 .good)] }).lane 0).newest).getD default).chunks k ≠ .good)).length, (((withLane (withClk armable 0 fun c => { c with commit := some { tB := 64000 } }) 0 zActive fun l => { l with frames := [frame (.unchecked :: List.replicate 7 .good)] }).lane 0).newest).getD default, withLane (withClk armable 0 fun c => { c with commit := some { tB := 64000 } }) 0 zActive fun l => { l with frames := [frame (.unchecked :: List.replicate 7 .good)] }, by decide +kernel, by decide +kernel, by decide +kernel, by decide +kernel, by decide +kernel, by decide +kernel, by decide +kernel, by decide +kernel, by decide +kernel, by decide +kernel, by decide +kernel, by decide +kernel, by decide +kernel⟩,
   ⟨1000, 0, ((withLane (withClk armable 0 fun c => { c with commit := some { tB := 64000 } }) 0 zActive fun l => { l with frames := [{ frame (List.replicate 8 .good) with header := .unchecked }] }).hdrEnd 0).getD default, (((withLane (withClk armable 0 fun c => { c with commit := some { tB := 64000 } }) 0 zActive fun l => { l with frames := [{ frame (List.replicate 8 .good) with header := .unchecked }] }).lane 0).newest).getD default, withLane (withClk armable 0 fun c => { c with commit := some { tB := 64000 } }) 0 zActive fun l => { l with frames := [{ frame (List.replicate 8 .good) with header := .unchecked }] }, by decide +kernel, by decide +kernel, by decide +kernel, by decide +kernel, by decide +kernel, by decide +kernel, by decide +kernel, by decide +kernel, by decide +kernel, by decide +kernel⟩⟩

theorem witness_Telemetry :
    (∃ (nn : Nat) (p : List Byte) (s : State), s.up 5 = true ∧ nn < 72 ∧ p.length ≤ 64 ∧ s.zl.heads.length = 512)
    ∧ (∃ (nn : Nat) (i : Nat) (p : List Byte) (s : State), s.up 5 = true ∧ nn < 72 ∧ p.length ≤ 64 ∧ s.up 3 = true ∧ s.role ≠ .standby ∧ s.pix.nzc.length = 8 ∧ i < leAt p 2 2 ∧ bit (leAt p (4 + i / 8) 1) (i % 8) = true ∧ 12416 * s.laneSeg nn + leAt p 0 2 + i < nozzles)
    ∧ (∃ (nn : Nat) (port : Nat) (p : List Byte) (s : State), s.up 5 = true ∧ nn < 72 ∧ p.length ≤ 64 ∧ s.zl.lanes.length = 72 ∧ s.laneState nn = zMeasure ∧ (s.lane nn).pings = 16 ∧ bit (leAt p 5 1) port = true)
    ∧ (∃ (nn : Nat) (port : Nat) (p : List Byte) (s : State), s.up 5 = true ∧ nn < 72 ∧ p.length ≤ 64 ∧ s.zl.lanes.length = 72 ∧ s.laneState nn = zActive ∧ (s.lane nn).disabling = false ∧ bit (leAt p 5 1) port = false)
    ∧ (∃ (nn : Nat) (p : List Byte) (s : State), s.up 5 = true ∧ nn < 72 ∧ p.length ≤ 64 ∧ s.up 4 = true ∧ s.role = .solo ∧ s.fire.bars.length = 8)
    ∧ (∃ (nn : Nat) (p : List Byte) (s : State), s.up 5 = true ∧ nn < 72 ∧ p.length ≤ 64)
    ∧ (∃ (nn : Nat) (typ : Nat) (p : List Byte) (s : State), s.up 5 = true ∧ nn < 72 ∧ p.length ≤ 64 ∧ (typ = 5 ∨ (0x80 ≤ typ ∧ typ ≤ 0xFF)))
    ∧ (∃ (t0 : Nat) (nn : Nat) (port : Nat) (typ : Nat) (p : List Byte) (c : Instr) (s : State), s.up 5 = true ∧ nn < 72 ∧ (64 < p.length ∧ c ∈ [.headTempMsg t0 nn p, .nchkMsg t0 nn p, .hibStatusMsg t0 nn port p, .responseMsg t0 nn p, .hibEventMsg t0 nn typ p] ∨ c = .hibEventMsg t0 nn typ p ∧ typ ≠ 5 ∧ ¬ (0x80 ≤ typ ∧ typ ≤ 0xFF) ∨ c = .badTelemetryFrame t0 nn false))
    ∧ (∃ (nn : Nat) (s : State), s.up 5 = true ∧ nn < 72)
    ∧ (∃ (m : Master) (w : Word) (s : State), s.Direct m R.ZLK_TELEM_PER w ∧ s.zl.lanes.length = 72 ∧ (1 ≤ getBits 15 0 w ∧ getBits 15 0 w ≤ 100) ∧ (1 ≤ getBits 23 16 w ∧ getBits 23 16 w ≤ 10)) :=
  ⟨⟨0, List.replicate 18 3, ready, by decide +kernel, by decide +kernel, by decide +kernel, by decide +kernel⟩,
   ⟨0, 0, leBytes 2 5 ++ leBytes 2 1 ++ [1], ready, by decide +kernel, by decide +kernel, by decide +kernel, by decide +kernel, by decide +kernel, by decide +kernel, by decide +kernel, by decide +kernel, by decide +kernel⟩,
   ⟨0, 0, List.replicate 18 0xFF, withLane ready 0 zMeasure fun l => { l with pings := 16 }, by decide +kernel, by decide +kernel, by decide +kernel, by decide +kernel, by decide +kernel, by decide +kernel, by decide +kernel⟩,
   ⟨0, 0, List.replicate 18 0, withLane ready 0 zActive id, by decide +kernel, by decide +kernel, by decide +kernel, by decide +kernel, by decide +kernel, by decide +kernel, by decide +kernel⟩,
   ⟨0, List.replicate 18 3, ready, by decide +kernel, by decide +kernel, by decide +kernel, by decide +kernel, by decide +kernel, by decide +kernel⟩,
   ⟨0, List.replicate 18 3, ready, by decide +kernel, by decide +kernel, by decide +kernel⟩,
   ⟨0, 5, List.replicate 18 3, ready, by decide +kernel, by decide +kernel, by decide +kernel, Or.inl rfl⟩,
   ⟨1000, 0, 0, 6, List.replicate 65 3, .headTempMsg 1000 0 (List.replicate 65 3), ready, by decide +kernel, by decide +kernel, by decide +kernel⟩,
   ⟨0, ready, by decide +kernel, by decide +kernel⟩,
   ⟨.host, 0x00010001, ready, direct_of (by decide +kernel), by decide +kernel, by decide +kernel, by decide +kernel⟩⟩

theorem witness_SparingAndMailbox :
    (∃ (m : Master) (b : Nat) (g : Nat) (s : State), s.Direct m (R.ZLB_SPARE_CMD b) 1 ∧ b < 8 ∧ g = s.get (F.ZLB_SPARE_CFG_SEG b) ∧ s.spareReady b g = true)
    ∧ (∃ (m : Master) (b : Nat) (s : State), s.Direct m (R.ZLB_SPARE_CMD b) 1 ∧ b < 8 ∧ s.spareReady b (s.get (F.ZLB_SPARE_CFG_SEG b)) = false)
    ∧ (∃ (m : Master) (b : Nat) (s : State), s.Direct m (R.ZLB_SPARE_CMD b) 2 ∧ b < 8 ∧ s.on (F.ZLB_SPARE_STAT_SERVING b) = true ∧ s.laneState (9 * b + s.get (F.ZLB_SPARE_STAT_SEG b)) = zActive)
    ∧ (∃ (m : Master) (b : Nat) (s : State), s.Direct m (R.ZLB_SPARE_CMD b) 2 ∧ b < 8 ∧ s.on (F.ZLB_SPARE_STAT_SERVING b) = true ∧ s.laneState (9 * b + s.get (F.ZLB_SPARE_STAT_SEG b)) ≠ zActive)
    ∧ (∃ (m : Master) (b : Nat) (lane : Nat) (len : Nat) (s : State), s.Direct m (R.ZLB_CMD_CTRL b) (mailboxWord lane 1 len) ∧ b < 8 ∧ lane < 9 ∧ len ≤ 64 ∧ s.zl.lanes.length = 72 ∧ s.on (F.ZLB_CMD_CTRL_GO b) = false ∧ s.laneState (9 * b + lane) = zActive)
    ∧ (∃ (m : Master) (b : Nat) (lane : Nat) (len : Nat) (s : State), s.Direct m (R.ZLB_CMD_CTRL b) (mailboxWord lane 1 len) ∧ b < 8 ∧ lane < 9 ∧ len ≤ 64 ∧ s.on (F.ZLB_CMD_CTRL_GO b) = false ∧ s.laneState (9 * b + lane) ≠ zActive)
    ∧ (∃ (m : Master) (b : Nat) (lane : Nat) (len : Nat) (s : State), s.Direct m (R.ZLB_CMD_CTRL b) (mailboxWord lane 2 len) ∧ b < 8 ∧ lane < 9 ∧ len ≤ 64 ∧ s.zl.lanes.length = 72 ∧ s.on (F.ZLB_CMD_CTRL_GO b) = false ∧ s.laneState (9 * b + lane) = zActive)
    ∧ (∃ (m : Master) (b : Nat) (lane : Nat) (len : Nat) (s : State), s.Direct m (R.ZLB_CMD_CTRL b) (mailboxWord lane 2 len) ∧ b < 8 ∧ lane < 9 ∧ len ≤ 64 ∧ s.on (F.ZLB_CMD_CTRL_GO b) = false ∧ s.laneState (9 * b + lane) ≠ zActive)
    ∧ (∃ (m : Master) (b : Nat) (lane : Nat) (len : Nat) (s : State), s.Direct m (R.ZLB_CMD_CTRL b) (mailboxWord lane 4 len) ∧ b < 8 ∧ lane < 9 ∧ len ≤ 64 ∧ s.zl.lanes.length = 72 ∧ s.on (F.ZLB_CMD_CTRL_GO b) = false ∧ s.laneState (9 * b + lane) = zActive)
    ∧ (∃ (m : Master) (b : Nat) (lane : Nat) (len : Nat) (s : State), s.Direct m (R.ZLB_CMD_CTRL b) (mailboxWord lane 4 len) ∧ b < 8 ∧ lane < 9 ∧ len ≤ 64 ∧ s.on (F.ZLB_CMD_CTRL_GO b) = false ∧ s.laneState (9 * b + lane) ≠ zActive)
    ∧ (∃ (op : Nat) (m : Master) (b : Nat) (lane : Nat) (len : Nat) (s : State), op < 64 ∧ s.Direct m (R.ZLB_CMD_CTRL b) (mailboxWord lane (0x40 + op) len) ∧ b < 8 ∧ lane < 9 ∧ len ≤ 64 ∧ s.zl.lanes.length = 72 ∧ s.on (F.ZLB_CMD_CTRL_GO b) = false ∧ s.laneState (9 * b + lane) = zActive)
    ∧ (∃ (op : Nat) (m : Master) (b : Nat) (lane : Nat) (len : Nat) (s : State), op < 64 ∧ s.Direct m (R.ZLB_CMD_CTRL b) (mailboxWord lane (0x40 + op) len) ∧ b < 8 ∧ lane < 9 ∧ len ≤ 64 ∧ s.on (F.ZLB_CMD_CTRL_GO b) = false ∧ s.laneState (9 * b + lane) ≠ zActive) :=
  ⟨⟨.host, 0, (withRegs (withLane ready 8 zActive id) [(R.ZLB_SPARE_CFG 0, 0x13)]).get (F.ZLB_SPARE_CFG_SEG 0), withRegs (withLane ready 8 zActive id) [(R.ZLB_SPARE_CFG 0, 0x13)], direct_of (by decide +kernel), by decide +kernel, by decide +kernel, by decide +kernel⟩,
   ⟨.host, 0, ready, direct_of (by decide +kernel), by decide +kernel, by decide +kernel⟩,
   ⟨.host, 0, withRegs (withLane ready 3 zActive id) [(R.ZLB_SPARE_STAT 0, 0x31)], direct_of (by decide +kernel), by decide +kernel, by decide +kernel, by decide +kernel⟩,
   ⟨.host, 0, withRegs ready [(R.ZLB_SPARE_STAT 0, 0x31)], direct_of (by decide +kernel), by decide +kernel, by decide +kernel, by decide +kernel⟩,
   ⟨.host, 0, 3, 8, withLane ready 3 zActive id, direct_of (by decide +kernel), by decide +kernel, by decide +kernel, by decide +kernel, by decide +kernel, by decide +kernel, by decide +kernel⟩,
   ⟨.host, 0, 3, 8, ready, direct_of (by decide +kernel), by decide +kernel, by decide +kernel, by decide +kernel, by decide +kernel, by decide +kernel⟩,
   ⟨.host, 0, 3, 8, withLane ready 3 zActive id, direct_of (by decide +kernel), by decide +kernel, by decide +kernel, by decide +kernel, by decide +kernel, by decide +kernel, by decide +kernel⟩,
   ⟨.host, 0, 3, 8, ready, direct_of (by decide +kernel), by decide +kernel, by decide +kernel, by decide +kernel, by decide +kernel, by decide +kernel⟩,
   ⟨.host, 0, 3, 8, withLane ready 3 zActive id, direct_of (by decide +kernel), by decide +kernel, by decide +kernel, by decide +kernel, by decide +kernel, by decide +kernel, by decide +kernel⟩,
   ⟨.host, 0, 3, 8, ready, direct_of (by decide +kernel), by decide +kernel, by decide +kernel, by decide +kernel, by decide +kernel, by decide +kernel⟩,
   ⟨63, .host, 0, 3, 8, withLane ready 3 zActive id, by decide +kernel, direct_of (by decide +kernel), by decide +kernel, by decide +kernel, by decide +kernel, by decide +kernel, by decide +kernel, by decide +kernel⟩,
   ⟨63, .host, 0, 3, 8, ready, by decide +kernel, direct_of (by decide +kernel), by decide +kernel, by decide +kernel, by decide +kernel, by decide +kernel, by decide +kernel⟩⟩

theorem witness_ArbiterRequests :
    (∃ (t0 : Nat) (r : Nat) (need : Nat) (addr : Nat) (dl : Nat) (panic : Bool) (s : State), s.up 2 = true ∧ r < 10 ∧ addr < s.dramSize ∧ (panic = false ∨ 3 ≤ r) ∧ dl = (if s.on (F.ARB_REQ_CFG_SELF 0 r) then need - s.get (F.ARB_REQ_CFG_OFFSET 0 r) else max s.devtime t0 + s.get (F.ARB_REQ_CFG_OFFSET 0 r)))
    ∧ (∃ (r : Nat) (addr : Nat) (s : State), s.up 2 = true ∧ r < 3 ∧ addr < s.dramSize)
    ∧ (∃ (addr : Nat) (s : State), s.up 2 = true ∧ s.dramSize ≤ addr)
    ∧ (∃ (t0 : Nat) (r : Nat) (need : Nat) (n : Nat) (dl : Nat) (s : State), s.up 3 = true ∧ r < 6 ∧ 1 ≤ n ∧ (n ≤ (if r = 0 then 256 else if r = 2 ∨ r = 3 then 1 else 16)) ∧ dl = (if s.on (F.ARB_REQ_CFG_SELF 1 r) then need - s.get (F.ARB_REQ_CFG_OFFSET 1 r) else max s.devtime t0 + s.get (F.ARB_REQ_CFG_OFFSET 1 r)))
    ∧ (∃ (t0 : Nat) (r : Nat) (j : TileJob) (s : State) (s' : State), s.up 3 = true ∧ r < 8 ∧ (s.atTime t0).nextTile r = (some j, s') ∧ j.tile.kind = 1)
    ∧ (∃ (k : Nat) (s : State), s.up 3 = true ∧ k < 4 ∧ s.codecWants k = true) :=
  ⟨⟨1000, 2, 5000, 0x1FFFFF, (if dramReady.on (F.ARB_REQ_CFG_SELF 0 2) then 5000 - dramReady.get (F.ARB_REQ_CFG_OFFSET 0 2) else max dramReady.devtime 1000 + dramReady.get (F.ARB_REQ_CFG_OFFSET 0 2)), false, dramReady, by decide +kernel, by decide +kernel, by decide +kernel, by decide +kernel, by decide +kernel⟩,
   ⟨2, 0x1FFFFF, dramReady, by decide +kernel, by decide +kernel, by decide +kernel⟩,
   ⟨0x400000, dramReady, by decide +kernel, by decide +kernel⟩,
   ⟨1000, 0, 5000, 256, (if ready.on (F.ARB_REQ_CFG_SELF 1 0) then 5000 - ready.get (F.ARB_REQ_CFG_OFFSET 1 0) else max ready.devtime 1000 + ready.get (F.ARB_REQ_CFG_OFFSET 1 0)), ready, by decide +kernel, by decide +kernel, by decide +kernel, by decide +kernel, by decide +kernel⟩,
   ⟨1000, 0, ((((withPlane imaging fun p => { p with tiles := [{ fillTile 0 with kind := 1 }] }).modImg 0 fun r => { r with print := some { plane := 0, height := 1, count := 1 } }).atTime 1000).nextTile 0).1.getD default, (withPlane imaging fun p => { p with tiles := [{ fillTile 0 with kind := 1 }] }).modImg 0 fun r => { r with print := some { plane := 0, height := 1, count := 1 } }, ((((withPlane imaging fun p => { p with tiles := [{ fillTile 0 with kind := 1 }] }).modImg 0 fun r => { r with print := some { plane := 0, height := 1, count := 1 } }).atTime 1000).nextTile 0).2, by decide +kernel, by decide +kernel, by decide +kernel, by decide +kernel⟩,
   ⟨3, { armable with pix := { armable.pix with img := { armable.pix.img with codec := updNth armable.pix.img.codec 3 fun c => { c with job := some { op := 3 } } } } }, by decide +kernel, by decide +kernel, by decide +kernel⟩⟩

theorem witness_ArbiterGrants :
    (∃ (i : Nat) (lane : Nat) (s : State), i < 3 ∧ s.up (arbIsland i) = true ∧ (∀ p ∈ (s.arb i).waiting, p.r < 16) ∧ (∃ p ∈ (s.arb i).waiting, s.arbRoom i lane p = true))
    ∧ (∃ (t0 : Nat) (i : Nat) (q : Req) (h : Req) (s : State), (i = 1 ∨ i = 2) ∧ s.up 3 = true ∧ h.r < 16 ∧ q.r < 16 ∧ nearest ((s.arb i).waiting.filter fun q => !(s.victims i q).isEmpty && (i == 1 || decide (32 ≤ (s.arb 2).holders.length))) = some q ∧ victimOf (s.victims i q) = some h ∧ (s.atTime t0).overHold i h = false)
    ∧ (∃ (t0 : Nat) (i : Nat) (r : Nat) (lane : Nat) (h : Req) (s : State), (i = 1 ∨ i = 2) ∧ s.up 3 = true ∧ h.r < 16 ∧ ((s.arb i).holders.find? fun h => decide (h.r = r) && (i == 1 || decide (h.lane = lane)) && (s.atTime t0).overHold i h && !(i == 1 && r == 0)) = some h)
    ∧ (∃ (t0 : Nat) (i : Nat) (r : Nat) (q : Req) (s : State), i < 3 ∧ r < 16 ∧ s.up (arbIsland i) = true ∧ s.pageUp P_ARB = true ∧ ((s.arb i).waiting.find? fun q => decide (q.r = r) && !q.starved && decide (q.deadline + s.get (F.ARB_STARVE i) ≤ max s.devtime t0)) = some q) :=
  ⟨⟨0, 0, withArb 0 { waiting := [{ r := 3, deadline := 9, work := access 0 false [] }, { r := 1, deadline := 5, work := access 64 true [] }] }, by decide +kernel, by decide +kernel, by decide +kernel, by decide +kernel⟩,
   ⟨1000000, 1, { r := 1, deadline := 9, work := .batch 1 }, { r := 5, deadline := 1000000, granted := 999990, work := .batch 1 }, withArb 1 { waiting := [{ r := 1, deadline := 9, work := .batch 1 }], holders := [{ r := 5, deadline := 1000000, granted := 999990, work := .batch 1 }] }, by decide +kernel, by decide +kernel, by decide +kernel, by decide +kernel, by decide +kernel, by decide +kernel, by decide +kernel⟩,
   ⟨100000000, 1, 5, 0, ((((withRegs (withArb 1 { holders := [{ r := 5, deadline := 9, granted := 9, work := .batch 1 }] }) [(R.ARB_MAX_HOLD 1 5, 100)]).arb 1).holders.find? fun h => decide (h.r = 5) && (1 == 1 || decide (h.lane = 0)) && ((withRegs (withArb 1 { holders := [{ r := 5, deadline := 9, granted := 9, work := .batch 1 }] }) [(R.ARB_MAX_HOLD 1 5, 100)]).atTime 100000000).overHold 1 h && !(1 == 1 && 5 == 0))).getD default, withRegs (withArb 1 { holders := [{ r := 5, deadline := 9, granted := 9, work := .batch 1 }] }) [(R.ARB_MAX_HOLD 1 5, 100)], by decide +kernel, by decide +kernel, by decide +kernel, by decide +kernel⟩,
   ⟨100000000, 0, 3, ((((withArb 0 { waiting := [{ r := 3, deadline := 9, work := access 0 false [] }] }).arb 0).waiting.find? fun q => decide (q.r = 3) && !q.starved && decide (q.deadline + (withArb 0 { waiting := [{ r := 3, deadline := 9, work := access 0 false [] }] }).get (F.ARB_STARVE 0) ≤ max (withArb 0 { waiting := [{ r := 3, deadline := 9, work := access 0 false [] }] }).devtime 100000000))).getD default, withArb 0 { waiting := [{ r := 3, deadline := 9, work := access 0 false [] }] }, by decide +kernel, by decide +kernel, by decide +kernel, by decide +kernel, by decide +kernel⟩⟩

theorem witness_DramAccesses :
    (∃ (a : Nat) (q : Req) (data : List (Option Byte)) (s : State), s.up 2 = true ∧ s.role = .solo ∧ s.dramHolder 4 = some q ∧ q.work = .access a false 0 data ∧ s.mem.bad.contains (a / 64) = false)
    ∧ (∃ (port : Nat) (a : Nat) (who : Nat) (q : Req) (data : List (Option Byte)) (s : State), s.up 2 = true ∧ s.role = .solo ∧ port ≠ 6 ∧ port ≠ 7 ∧ s.dramHolder port = some q ∧ q.work = .access a true who data ∧ data ≠ [])
    ∧ (∃ (port : Nat) (ce : Nat) (ue : Nat) (a : Nat) (who : Nat) (q : Req) (data : List (Option Byte)) (s : State), s.up 2 = true ∧ s.role = .solo ∧ port ≠ 6 ∧ port ≠ 7 ∧ s.dramHolder port = some q ∧ q.work = .access a false who data ∧ s.mem.inited.contains (a / 0x200000) = true ∧ s.mem.bad.contains (a / 64) = false ∧ ce % 256 ≠ 0 ∧ ue % 256 = 0)
    ∧ (∃ (ue : Nat) (a : Nat) (q : Req) (data : List (Option Byte)) (s : State), s.up 2 = true ∧ s.role = .solo ∧ s.dramHolder 4 = some q ∧ q.work = .access a false 0 data ∧ s.mem.inited.contains (a / 0x200000) = true ∧ ue % 256 ≠ 0) :=
  ⟨⟨0x80, ((withArb 0 { holders := [{ r := 4, work := access 0x80 false [] }] }).dramHolder 4).getD default, [], withArb 0 { holders := [{ r := 4, work := access 0x80 false [] }] }, by decide +kernel, by decide +kernel, by decide +kernel, by decide +kernel, by decide +kernel⟩,
   ⟨4, 0x81, 0, ((withArb 0 { holders := [{ r := 4, work := access 0x81 true [some 1, none, some 3] }] }).dramHolder 4).getD default, [some 1, none, some 3], withArb 0 { holders := [{ r := 4, work := access 0x81 true [some 1, none, some 3] }] }, by decide +kernel, by decide +kernel, by decide +kernel, by decide +kernel, by decide +kernel, by decide +kernel, by decide +kernel⟩,
   ⟨4, 3, 0, 0x80, 0, ((withMem (withArb 0 { holders := [{ r := 4, work := access 0x80 false [] }] }) fun m => { m with inited := [0] }).dramHolder 4).getD default, [], withMem (withArb 0 { holders := [{ r := 4, work := access 0x80 false [] }] }) fun m => { m with inited := [0] }, by decide +kernel, by decide +kernel, by decide +kernel, by decide +kernel, by decide +kernel, by decide +kernel, by decide +kernel, by decide +kernel, by decide +kernel, by decide +kernel⟩,
   ⟨1, 0x80, ((withMem (withArb 0 { holders := [{ r := 4, work := access 0x80 false [] }] }) fun m => { m with inited := [0] }).dramHolder 4).getD default, [], withMem (withArb 0 { holders := [{ r := 4, work := access 0x80 false [] }] }) fun m => { m with inited := [0] }, by decide +kernel, by decide +kernel, by decide +kernel, by decide +kernel, by decide +kernel, by decide +kernel⟩⟩

theorem witness_DramUpkeep :
    (∃ (bank : Nat) (s : State), s.up 2 = true ∧ bank < 256 ∧ s.mem.postponed.length = 256 ∧ s.bankWaiting bank = false ∧ s.bankBusy bank = false)
    ∧ (∃ (bank : Nat) (s : State), s.up 2 = true ∧ bank < 256 ∧ s.mem.postponed.length = 256 ∧ s.bankBusy bank = true)
    ∧ (∃ (bank : Nat) (s : State), s.up 2 = true ∧ bank < 256 ∧ s.mem.postponed.length = 256 ∧ s.bankWaiting bank = true ∧ s.bankBusy bank = false ∧ 7 ≤ s.postponed bank)
    ∧ (∃ (ch : Nat) (s : State), s.up 2 = true ∧ ch < 16 ∧ bit (s.get F.MEM_CH_MAP_USED) ch = true)
    ∧ (∃ (s : State), s.up 2 = true)
    ∧ (∃ (s : State), s.up 2 = true ∧ s.get F.MEM_STAT_USABLE_2M ≠ 0 ∧ s.on F.MEM_STAT_INIT_DONE = false)
    ∧ (∃ (m : Master) (ch : Nat) (w : Word) (s : State), s.Direct m (R.MCH_WDQ ch) w ∧ ch < 16 ∧ s.calRun 4 0 = none ∧ getBits 23 16 w = s.get (F.MCH_WDQ_TRAINED ch) ∧ (getBits 7 0 w ≤ s.get (F.MCH_WDQ_TRAINED ch) + 16 ∧ s.get (F.MCH_WDQ_TRAINED ch) ≤ getBits 7 0 w + 16))
    ∧ (∃ (m : Master) (ch : Nat) (w : Word) (s : State), s.Direct m (R.MCH_WDQ ch) w ∧ ch < 16 ∧ ((s.calRun 4 0).isSome = true ∨ s.get (F.MCH_WDQ_TRAINED ch) + 16 < getBits 7 0 w ∨ getBits 7 0 w + 16 < s.get (F.MCH_WDQ_TRAINED ch))) :=
  ⟨⟨255, dramReady, by decide +kernel, by decide +kernel, by decide +kernel, by decide +kernel, by decide +kernel⟩,
   ⟨dramReady.dramBank 0x80, withArb 0 { holders := [{ r := 4, work := access 0x80 false [] }] }, by decide +kernel, by decide +kernel, by decide +kernel, by decide +kernel⟩,
   ⟨dramReady.dramBank 0x80, withMem (withArb 0 { waiting := [{ r := 4, work := access 0x80 false [] }] }) fun m => { m with postponed := List.replicate 256 8 }, by decide +kernel, by decide +kernel, by decide +kernel, by decide +kernel, by decide +kernel, by decide +kernel⟩,
   ⟨0, dramReady, by decide +kernel, by decide +kernel, by decide +kernel⟩,
   ⟨dramReady, by decide +kernel⟩,
   ⟨dramReady, by decide +kernel, by decide +kernel, by decide +kernel⟩,
   ⟨.host, 15, 0x00400050, withRegs dramReady [(R.MCH_WDQ 15, 0x00400040)], direct_of (by decide +kernel), by decide +kernel, by decide +kernel, by decide +kernel, by decide +kernel⟩,
   ⟨.host, 15, 0x00400051, withRegs dramReady [(R.MCH_WDQ 15, 0x00400040)], direct_of (by decide +kernel), by decide +kernel, by decide +kernel⟩⟩

theorem witness_Carats :
    (∃ (t0 : Nat) (c : Nat) (u : Nat) (dl : Nat) (s : State), s.up 1 = true ∧ c < 8 ∧ c ≠ 1 ∧ s.caratNeed c u = true ∧ s.holdsCarats c u = false ∧ s.waitsCarats c u = false ∧ dl = max s.devtime t0 + s.get (F.CRT_CONS_CFG_OFFSET c))
    ∧ (∃ (u : Nat) (q : Req) (j : TileJob) (s : State), s.up 1 = true ∧ s.up 3 = true ∧ s.laneHolder u = some q ∧ q.work = .tile j ∧ s.holdsCarats 1 u = false ∧ s.waitsCarats 1 u = false)
    ∧ (∃ (s : State), s.up 1 = true ∧ (∀ p ∈ s.hsk.cwait, p.cons < 8) ∧ s.hsk.cwait ≠ [])
    ∧ (∃ (s : State), s.up 1 = true ∧ s.hsk.cwait.length ≤ 64)
    ∧ (∃ (c : Nat) (u : Nat) (s : State), s.up 1 = true ∧ s.caratNeed c u = false ∧ ((c ≠ 1 ∧ c ≠ 5) ∨ (s.lingering u = false ∧ s.laneHolder u = none)))
    ∧ (∃ (t0 : Nat) (k : Nat) (t1 : Nat) (s : State), s.up 1 = true ∧ k < s.pix.img.lanes.length ∧ (nth s.pix.img.lanes k).linger = some t1 ∧ t1 + s.get F.CRT_LINGER ≤ max s.devtime t0)
    ∧ (∃ (t0 : Nat) (k : Nat) (t1 : Nat) (s : State), (nth s.pix.img.lanes k).linger = some t1 ∧ max s.devtime t0 < t1 + s.get F.CRT_LINGER)
    ∧ (∃ (t0 : Nat) (c : Nat) (q : CReq) (s : State), s.up 1 = true ∧ c < 8 ∧ (s.hsk.cwait.find? fun q => decide (q.cons = c) && !q.starved && decide (q.deadline + s.get F.CRT_STARVE ≤ max s.devtime t0)) = some q) :=
  ⟨⟨1000, 3, 0, max dramReady.devtime 1000 + dramReady.get (F.CRT_CONS_CFG_OFFSET 3), dramReady, by decide +kernel, by decide +kernel, by decide +kernel, by decide +kernel, by decide +kernel, by decide +kernel, by decide +kernel⟩,
   ⟨3, ((withHsk (laneTile none 4) fun h => { h with cheld := [] }).laneHolder 3).getD default, tileOf (((withHsk (laneTile none 4) fun h => { h with cheld := [] }).laneHolder 3).getD default).work, withHsk (laneTile none 4) fun h => { h with cheld := [] }, by decide +kernel, by decide +kernel, by decide +kernel, by decide +kernel, by decide +kernel, by decide +kernel⟩,
   ⟨withHsk dramReady fun h => { h with cwait := [{ cons := 2, unit := 3, deadline := 8 }, { cons := 3, unit := 3, deadline := 7 }] }, by decide +kernel, by decide +kernel, by decide +kernel⟩,
   ⟨withHsk dramReady fun h => { h with cwait := [{ cons := 2, unit := 3, deadline := 8 }, { cons := 3, unit := 3, deadline := 7 }, { cons := 2, unit := 4, deadline := 8 }], grants := [(900, 3)] }, by decide +kernel, by decide +kernel⟩,
   ⟨2, 3, withHsk dramReady fun h => { h with cheld := [{ cons := 2, unit := 3, deadline := 8 }, { cons := 3, unit := 0 }] }, by decide +kernel, by decide +kernel, by decide +kernel⟩,
   ⟨1000000, 31, ((nth (({ ready with hsk := { ready.hsk with cheld := [{ cons := 1, unit := 31 }] } } : State).setLinger 31 (some 5)).pix.img.lanes 31).linger).getD default, ({ ready with hsk := { ready.hsk with cheld := [{ cons := 1, unit := 31 }] } } : State).setLinger 31 (some 5), by decide +kernel, by decide +kernel, by decide +kernel, by decide +kernel⟩,
   ⟨1000, 31, ((nth (({ ready with hsk := { ready.hsk with cheld := [{ cons := 1, unit := 31 }] } } : State).setLinger 31 (some 900)).pix.img.lanes 31).linger).getD default, ({ ready with hsk := { ready.hsk with cheld := [{ cons := 1, unit := 31 }] } } : State).setLinger 31 (some 900), by decide +kernel, by decide +kernel⟩,
   ⟨100000000, 3, (((withHsk dramReady fun h => { h with cwait := [{ cons := 3, unit := 3, deadline := 7 }] }).hsk.cwait.find? fun q => decide (q.cons = 3) && !q.starved && decide (q.deadline + (withHsk dramReady fun h => { h with cwait := [{ cons := 3, unit := 3, deadline := 7 }] }).get F.CRT_STARVE ≤ max (withHsk dramReady fun h => { h with cwait := [{ cons := 3, unit := 3, deadline := 7 }] }).devtime 100000000))).getD default, withHsk dramReady fun h => { h with cwait := [{ cons := 3, unit := 3, deadline := 7 }] }, by decide +kernel, by decide +kernel, by decide +kernel⟩⟩

theorem witness_ThermalRounds :
    (∃ (sites : List SiteSample) (s : State), s.up 1 = true ∧ s.role = .solo ∧ (s.thermalRound sites).2.crit ≠ some true)
    ∧ (∃ (i : Nat) (thr : Int) (s : State), thr = signedOf 16 (nth s.hsk.thr i))
    ∧ (∃ (i : Nat) (thr : Int) (s : State), thr = signedOf 16 (nth s.hsk.thr i))
    ∧ (∃ (sites : List SiteSample) (s : State), s.up 1 = true ∧ s.role = .solo ∧ s.dev.inJob = true ∧ s.pix.jobs.length = 4 ∧ s.pix.bars.length = 8 ∧ (∀ b r, s.run b = some r → r.stream < 4 ∧ (s.job r.stream).isSome = true) ∧ (s.thermalRound sites).2.stop = some true ∧ (s.thermalRound sites).2.crit ≠ some true)
    ∧ (∃ (sites : List SiteSample) (s : State), s.up 1 = true ∧ s.role = .solo ∧ s.aux.vaux = true ∧ s.quiet ∧ (s.thermalRound sites).2.crit = some true) :=
  ⟨⟨List.replicate 16 ⟨700, 400, false⟩, ready, by decide +kernel, by decide +kernel, by decide +kernel⟩,
   ⟨2, signedOf 16 (nth (withHsk ready fun h => { h with enter := [15, 15, 15] }).hsk.thr 2), withHsk ready fun h => { h with enter := [15, 15, 15] }, by decide +kernel⟩,
   ⟨0, signedOf 16 (nth (withHsk (withRegs ready [(R.THM_TSTATE, 1)]) fun h => { h with leave := [15, 15, 15] }).hsk.thr 0), withHsk (withRegs ready [(R.THM_TSTATE, 1)]) fun h => { h with leave := [15, 15, 15] }, by decide +kernel⟩,
   ⟨List.replicate 16 ⟨700, 0x6A0, false⟩, withHsk (withRegs inAJob [(R.THM_SITE_EN, 0xFFFF)]) fun h => { h with enter := [0, 15, 0] }, by decide +kernel, by decide +kernel, by decide +kernel, by decide +kernel, by decide +kernel, fun b r h => by cases oneRun rfl b r h; decide +kernel, by decide +kernel, by decide +kernel⟩,
   ⟨List.replicate 16 ⟨700, 0x740, false⟩, withHsk (withRegs ready [(R.THM_SITE_EN, 0xFFFF)]) fun h => { h with enter := [0, 0, 15] }, by decide +kernel, by decide +kernel, by decide +kernel, ⟨rfl, rfl⟩, by decide +kernel⟩⟩

theorem witness_CalibrationRuns :
    (∃ (i : Nat) (u : Nat) (s : State), s.up 1 = true ∧ u < calUnits i ∧ s.calRun i u = none ∧ s.calPending i u = true ∧ s.calCircuit i u = true ∧ ¬ (i = 0 ∧ s.inJob u = true))
    ∧ (∃ (u : Nat) (l : Nat) (t1 : Nat) (s : State), s.up 1 = true ∧ u < 8 ∧ s.calRun 0 u = none ∧ s.calPending 0 u = true ∧ s.calCircuit 0 u = true ∧ s.inJob u = true ∧ s.zone u = some (l, t1))
    ∧ (∃ (i : Nat) (u : Nat) (s : State), s.up 1 = true ∧ s.calRun i u = none ∧ (s.calPending i u = false ∨ s.calCircuit i u = false))
    ∧ (∃ (t0 : Nat) (c : Nat) (t1 : Nat) (r : CalRun) (s : State), s.up 1 = true ∧ s.calRun 2 c = some r ∧ r.phase = .fit ∧ s.speedValid c = true ∧ r.since = some t1 ∧ t1 + 819200 ≤ max s.devtime t0)
    ∧ (∃ (t0 : Nat) (i : Nat) (u : Nat) (t1 : Nat) (ws : List Word) (r : CalRun) (s : State), s.up 1 = true ∧ i < 5 ∧ u < calUnits i ∧ s.calRun i u = some r ∧ (r.phase = .run ∨ r.phase = .trim) ∧ r.since = some t1 ∧ t1 + calTicks i ≤ max s.devtime t0 ∧ (((s.calRegs i u).zip ws).all fun x => s.calInRange x.1 x.2) = true ∧ (i = 1 → ∀ x ∈ s.hsk.broken, x = 0))
    ∧ (∃ (t0 : Nat) (i : Nat) (u : Nat) (t1 : Nat) (ws : List Word) (r : CalRun) (s : State), s.up 1 = true ∧ i < 5 ∧ u < calUnits i ∧ s.calRun i u = some r ∧ (r.phase = .run ∨ r.phase = .trim) ∧ r.since = some t1 ∧ t1 + calTicks i ≤ max s.devtime t0 ∧ (((s.calRegs i u).zip ws).all fun x => s.calInRange x.1 x.2) = true)
    ∧ (∃ (t0 : Nat) (i : Nat) (u : Nat) (x : Nat × Nat × Nat) (s : State), s.up 1 = true ∧ i < 5 ∧ (s.hsk.pendSince.find? fun x => x.1 == i && x.2.1 == u) = some x ∧ x.2.2 + s.get F.CAL_PEND_MAX * 1000 * 400000 < max s.devtime t0 ∧ (i, u) ∉ s.hsk.overdue) :=
  ⟨⟨0, 7, withRegs ready [(R.CAL_ITEM_STAT 0, 0x80)], by decide +kernel, by decide +kernel, by decide +kernel, by decide +kernel, by decide +kernel, by decide +kernel⟩,
   ⟨0, ((zoned.zone 0).getD default).1, ((zoned.zone 0).getD default).2, zoned, by decide +kernel, by decide +kernel, by decide +kernel, by decide +kernel, by decide +kernel, by decide +kernel, by decide +kernel⟩,
   ⟨0, 7, withRegs ready [(R.CAL_ITEM_STAT 0, 0)], by decide +kernel, by decide +kernel, by decide +kernel⟩,
   ⟨1000000, 1, ((((withHsk (withRegs sincos [(R.POS_STAT 1, 0x11)]) fun h => { h with runs := [{ item := 2, unit := 1, phase := .fit, since := some 5 }] }).calRun 2 1).getD default).since).getD default, ((withHsk (withRegs sincos [(R.POS_STAT 1, 0x11)]) fun h => { h with runs := [{ item := 2, unit := 1, phase := .fit, since := some 5 }] }).calRun 2 1).getD default, withHsk (withRegs sincos [(R.POS_STAT 1, 0x11)]) fun h => { h with runs := [{ item := 2, unit := 1, phase := .fit, since := some 5 }] }, by decide +kernel, by decide +kernel, by decide +kernel, by decide +kernel, by decide +kernel, by decide +kernel⟩,
   ⟨1000000, 1, 0, ((((withHsk (withRegs ready [(R.CAL_RUNNING 1, 1)]) fun h => { h with runs := [{ item := 1, since := some 5 }] }).calRun 1 0).getD default).since).getD default, List.replicate 16 0x1FF, ((withHsk (withRegs ready [(R.CAL_RUNNING 1, 1)]) fun h => { h with runs := [{ item := 1, since := some 5 }] }).calRun 1 0).getD default, withHsk (withRegs ready [(R.CAL_RUNNING 1, 1)]) fun h => { h with runs := [{ item := 1, since := some 5 }] }, by decide +kernel, by decide +kernel, by decide +kernel, by decide +kernel, by decide +kernel, by decide +kernel, by decide +kernel, by decide +kernel, by decide +kernel⟩,
   ⟨1000000, 1, 0, ((((withHsk (withRegs ready [(R.CAL_RUNNING 1, 1)]) fun h => { h with runs := [{ item := 1, since := some 5 }] }).calRun 1 0).getD default).since).getD default, List.replicate 16 0x1FF, ((withHsk (withRegs ready [(R.CAL_RUNNING 1, 1)]) fun h => { h with runs := [{ item := 1, since := some 5 }] }).calRun 1 0).getD default, withHsk (withRegs ready [(R.CAL_RUNNING 1, 1)]) fun h => { h with runs := [{ item := 1, since := some 5 }] }, by decide +kernel, by decide +kernel, by decide +kernel, by decide +kernel, by decide +kernel, by decide +kernel, by decide +kernel, by decide +kernel⟩,
   ⟨100000000000000, 2, 1, (((withHsk (withRegs ready [(R.CAL_PEND_MAX, 1)]) fun h => { h with pendSince := [(2, 1, 5)] }).hsk.pendSince.find? fun x => x.1 == 2 && x.2.1 == 1)).getD default, withHsk (withRegs ready [(R.CAL_PEND_MAX, 1)]) fun h => { h with pendSince := [(2, 1, 5)] }, by decide +kernel, by decide +kernel, by decide +kernel, by decide +kernel, by decide +kernel⟩⟩

theorem witness_CalibrationRegisters :
    (∃ (m : Master) (i : Nat) (u : Nat) (units : Nat) (s : State), s.Direct m (R.CAL_ITEM_CMD i) (BitVec.ofNat 32 (units * 0x10000 + 1)) ∧ i < 5 ∧ u < calUnits i ∧ units < 512 ∧ bit units u = true ∧ s.calRun i u = none)
    ∧ (∃ (m : Master) (i : Nat) (u : Nat) (units : Nat) (s : State), s.Direct m (R.CAL_ITEM_CMD i) (BitVec.ofNat 32 (units * 0x10000 + 2)) ∧ s.role = .solo ∧ i < 5 ∧ u < calUnits i ∧ units < 512 ∧ bit units u = true ∧ s.calRun i u = none ∧ s.calCircuit i u = true ∧ (i = 0 → s.inJob u = false))
    ∧ (∃ (m : Master) (u : Nat) (units : Nat) (s : State), s.Direct m (R.CAL_ITEM_CMD 0) (BitVec.ofNat 32 (units * 0x10000 + 2)) ∧ s.role = .solo ∧ u < 8 ∧ units < 512 ∧ bit units u = true ∧ s.fire.clks.length = 8 ∧ s.calRun 0 u = none ∧ s.calCircuit 0 u = true ∧ s.inJob u = true)
    ∧ (∃ (m : Master) (i : Nat) (u : Nat) (units : Nat) (s : State), s.Direct m (R.CAL_ITEM_CMD i) (BitVec.ofNat 32 (units * 0x10000 + 4)) ∧ i < 5 ∧ u < calUnits i ∧ units < 512 ∧ bit units u = true ∧ s.calPending i u = true)
    ∧ (∃ (m : Master) (a : Nat) (i : Nat) (u : Nat) (k : Nat) (j : Nat) (r : RegRow) (w : Word) (s : State), s.Direct m a w ∧ a / 0x1000 = P_CAL ∧ calUnitOf a = some (i, u) ∧ regRow a = some (r, k, j) ∧ onlyReadOnly r a k (s.live a) w = false ∧ rowInRange r w = true ∧ s.calRun i u = none ∧ s.calInRange a w = true)
    ∧ (∃ (m : Master) (a : Nat) (i : Nat) (u : Nat) (w : Word) (s : State), s.Direct m a w ∧ a / 0x1000 = P_CAL ∧ calUnitOf a = some (i, u) ∧ ((s.calRun i u).isSome = true ∨ s.calInRange a w = false)) :=
  ⟨⟨.host, 0, 7, 0x1FF, ready, direct_of (by decide +kernel), by decide +kernel, by decide +kernel, by decide +kernel, by decide +kernel, by decide +kernel⟩,
   ⟨.host, 0, 7, 0x80, ready, direct_of (by decide +kernel), by decide +kernel, by decide +kernel, by decide +kernel, by decide +kernel, by decide +kernel, by decide +kernel, by decide +kernel, by decide +kernel⟩,
   ⟨.host, 0, 0x81, inAJob, direct_of (by decide +kernel), by decide +kernel, by decide +kernel, by decide +kernel, by decide +kernel, by decide +kernel, by decide +kernel, by decide +kernel, by decide +kernel⟩,
   ⟨.host, 0, 7, 0x80, withHsk (withRegs ready [(R.CAL_ITEM_STAT 0, 0x80)]) fun h => { h with pendSince := [(0, 7, 5)] }, direct_of (by decide +kernel), by decide +kernel, by decide +kernel, by decide +kernel, by decide +kernel, by decide +kernel⟩,
   ⟨.host, R.CAL_TAPCAL 71, ((calUnitOf (R.CAL_TAPCAL 71)).getD default).1, ((calUnitOf (R.CAL_TAPCAL 71)).getD default).2, (rowAt ((R.CAL_TAPCAL 71))).2.1, (rowAt ((R.CAL_TAPCAL 71))).2.2, (rowAt ((R.CAL_TAPCAL 71))).1, 640, { ready with regs := ready.regs ++ [(R.CAL_TAPCAL 71, 700)] }, direct_of (by decide +kernel), by decide +kernel, by decide +kernel, row_spec (by decide +kernel), by decide +kernel, by decide +kernel, by decide +kernel, by decide +kernel⟩,
   ⟨.host, R.CAL_TAPCAL 71, ((calUnitOf (R.CAL_TAPCAL 71)).getD default).1, ((calUnitOf (R.CAL_TAPCAL 71)).getD default).2, 639, ready, direct_of (by decide +kernel), by decide +kernel, by decide +kernel, by decide +kernel⟩⟩

theorem witness_PairClaims :
    (∃ (t0 : Nat) (m : Master) (s : State), (s.atTime t0).Direct m R.PAR_CMD (parWord 1) ∧ s.role = .detached ∧ s.unitClash = false ∧ NoOneHolds s (max s.devtime t0) ∧ s.plk.peerClaim = none ∧ s.aux.pads.length = 35)
    ∧ (∃ (t0 : Nat) (s : State), s.up 6 = true ∧ s.role = .detached ∧ s.on F.PAR_CFG_AUTO_CLAIM = true ∧ s.on F.DEV_STRAPS_ROLE_PREF = true ∧ s.unitClash = false ∧ NoOneHolds s (max s.devtime t0) ∧ s.plk.peerClaim = none ∧ s.aux.pads.length = 35)
    ∧ (∃ (t0 : Nat) (m : Master) (s : State), (s.atTime t0).Direct m R.PAR_CMD (parWord 1) ∧ s.role = .detached ∧ s.unitClash = false ∧ ¬ NoOneHolds s (max s.devtime t0))
    ∧ (∃ (t0 : Nat) (m : Master) (s : State), (s.atTime t0).Direct m R.PAR_CMD (parWord 1) ∧ s.role ≠ .detached)
    ∧ (∃ (t0 : Nat) (due : Nat) (s : State), s.up 6 = true ∧ s.plk.claim = .raised due ∧ due ≤ max s.devtime t0 ∧ s.on F.PAR_STAT_HOLD_IN = false)
    ∧ (∃ (t0 : Nat) (due : Nat) (s : State), s.up 6 = true ∧ s.plk.claim = .raised due ∧ due ≤ max s.devtime t0 ∧ s.on F.PAR_STAT_HOLD_IN = true ∧ s.aux.pads.length = 35)
    ∧ (∃ (t0 : Nat) (due : Nat) (s : State), s.up 6 = true ∧ s.plk.claim = .backOff due ∧ due ≤ max s.devtime t0 ∧ s.role = .detached ∧ NoOneHolds s (max s.devtime t0) ∧ s.plk.peerClaim = none ∧ s.aux.pads.length = 35)
    ∧ (∃ (t0 : Nat) (due : Nat) (s : State), s.plk.claim = .backOff due ∧ max s.devtime t0 < due) :=
  ⟨⟨10000, .host, pairUnit 3, direct_of (by decide +kernel), by decide +kernel, by decide +kernel, ⟨⟨0, by decide +kernel⟩, nofun⟩, by decide +kernel, by decide +kernel⟩,
   ⟨10000, withRegs (pairUnit 3) [(R.PAR_CFG, 1), (R.DEV_STRAPS, 1)], by decide +kernel, by decide +kernel, by decide +kernel, by decide +kernel, by decide +kernel, ⟨⟨0, by decide +kernel⟩, nofun⟩, by decide +kernel, by decide +kernel⟩,
   ⟨7000, .host, pairUnit 3, direct_of (by decide +kernel), by decide +kernel, by decide +kernel, fun ⟨⟨x, h, h'⟩, _⟩ => by cases h; revert h'; decide +kernel⟩,
   ⟨7000, .host, pairUnit 1, direct_of (by decide +kernel), by decide +kernel⟩,
   ⟨7000, 50, withPlk (pairUnit 1) fun p => { p with claim := .raised 50 }, by decide +kernel, by decide +kernel, by decide +kernel, by decide +kernel⟩,
   ⟨7000, 50, withPlk (withRegs (pairUnit 1) [(R.PAR_STAT, 0x200)]) fun p => { p with claim := .raised 50, collisions := 2 }, by decide +kernel, by decide +kernel, by decide +kernel, by decide +kernel, by decide +kernel⟩,
   ⟨10000, 50, withPlk (pairUnit 3) fun p => { p with claim := .backOff 50 }, by decide +kernel, by decide +kernel, by decide +kernel, by decide +kernel, ⟨⟨0, by decide +kernel⟩, nofun⟩, by decide +kernel, by decide +kernel⟩,
   ⟨10000, 10001, withPlk (pairUnit 3) fun p => { p with claim := .backOff 10001 }, by decide +kernel, by decide +kernel⟩⟩

theorem witness_StampedActions :
    (∃ (a : Nat) (b0 : Byte) (b1 : Byte) (b2 : Byte) (b3 : Byte) (s : State), s.reaches .host = true ∧ s.pix.fabric.holders = [] ∧ s.quiet ∧ s.pageUp (a / 0x1000) = true ∧ a % 4 = 0 ∧ placeOf a = .page (a / 0x1000) ∧ s.role = .active ∧ s.lockstepWrite (.page (a / 0x1000)) a (wordOf b0 b1 b2 b3) = true)
    ∧ (∃ (a : Nat) (i : Nat) (j : Nat) (r : RegRow) (m : Master) (w : Word) (q : QAction) (l : List QAction) (s : State), s.up 6 = true ∧ s.plk.actions = q :: l ∧ q.act = .writes m [(a, w)] ∧ s.quiet ∧ s.pix.fabric.holders = [] ∧ a / 0x1000 = P_CDC ∧ a % 4 = 0 ∧ placeOf a = .page P_CDC ∧ s.pageUp P_CDC = true ∧ s.pageHeld P_CDC = false ∧ regRow a = some (r, i, j) ∧ 0x040 ≤ a % 0x1000 ∧ r.claspOnly = false ∧ r.pair = false ∧ s.openBits a = 0 ∧ onlyReadOnly r a i (s.live a) w = false ∧ rowInRange r w = true ∧ s.writeBars m a i j r.off w = none ∧ (∀ l, loOf a = some l → s.heldLo m l = none))
    ∧ (∃ (m : Master) (s : State), s.Direct m R.PAR_CMD (parWord 2) ∧ s.role = .active ∧ s.linkUp = true ∧ s.get F.PAR_STAT_PEER_ROLE = 2)
    ∧ (∃ (m : Master) (s : State), s.Direct m R.PAR_CMD (parWord 2) ∧ (s.role = .detached ∨ s.role = .solo ∨ (s.role = .active ∧ (s.linkUp = false ∨ s.get F.PAR_STAT_PEER_ROLE ≠ 2))))
    ∧ (∃ (m : Master) (s : State), s.Direct m R.PAR_CMD (parWord 2) ∧ s.role = .standby ∧ s.linkUp = true)
    ∧ (∃ (q : QAction) (l : List QAction) (s : State), s.up 6 = true ∧ s.plk.actions = q :: l ∧ q.act = .handover ∧ s.role = .active ∧ s.plk.locket = none ∧ s.quiet ∧ s.pix.fabric.holders = [] ∧ s.aux.pads.length = 35)
    ∧ (∃ (t0 : Nat) (h : PairHdr) (stamp : Int) (s : State), NewFrame s h ∧ (s.role = .standby ∨ s.role = .detached) ∧ ((max s.devtime t0 : Nat) : Int) + 200 ≤ s.fromPair stamp)
    ∧ (∃ (t0 : Nat) (h : PairHdr) (stamp : Int) (s : State), NewFrame s h ∧ (s.role = .standby ∨ s.role = .detached) ∧ s.fromPair stamp < ((max s.devtime t0 : Nat) : Int) + 200) :=
  ⟨⟨R.CDC_JOB_LANES, 1, 0, 0, 0, pairUnit 1, by decide +kernel, by decide +kernel, ⟨rfl, rfl⟩, by decide +kernel, by decide +kernel, by decide +kernel, by decide +kernel, by decide +kernel⟩,
   ⟨R.CDC_JOB_LANES, (rowAt (R.CDC_JOB_LANES)).2.1, (rowAt (R.CDC_JOB_LANES)).2.2, (rowAt (R.CDC_JOB_LANES)).1, .host, 3, ((withPlk (pairUnit 2) fun p => { p with actions := [{ stamp := 50, act := .writes .host [(R.CDC_JOB_LANES, 3)] }] }).plk.actions.headD default), [], withPlk (pairUnit 2) fun p => { p with actions := [{ stamp := 50, act := .writes .host [(R.CDC_JOB_LANES, 3)] }] }, by decide +kernel, by decide +kernel, by decide +kernel, ⟨rfl, rfl⟩, by decide +kernel, by decide +kernel, by decide +kernel, by decide +kernel, by decide +kernel, by decide +kernel, row_spec (by decide +kernel), by decide +kernel, by decide +kernel, by decide +kernel, by decide +kernel, by decide +kernel, by decide +kernel, by decide +kernel, fun _ _ => rfl⟩,
   ⟨.host, withRegs (pairUnit 1) [(R.PAR_STAT, 0x00200000)], direct_of (by decide +kernel), by decide +kernel, by decide +kernel, by decide +kernel⟩,
   ⟨.host, pairUnit 3, direct_of (by decide +kernel), by decide +kernel⟩,
   ⟨.host, pairUnit 2, direct_of (by decide +kernel), by decide +kernel, by decide +kernel⟩,
   ⟨((withPlk (pairUnit 1) fun p => { p with actions := [{ stamp := 50, act := .handover }] }).plk.actions.headD default), [], withPlk (pairUnit 1) fun p => { p with actions := [{ stamp := 50, act := .handover }] }, by decide +kernel, by decide +kernel, by decide +kernel, by decide +kernel, by decide +kernel, ⟨rfl, rfl⟩, by decide +kernel, by decide +kernel⟩,
   ⟨1000, {}, 2000, pairUnit 2, ⟨by decide +kernel, nofun⟩, by decide +kernel, by decide +kernel⟩,
   ⟨1000, {}, 1199, pairUnit 2, ⟨by decide +kernel, nofun⟩, by decide +kernel, by decide +kernel⟩⟩

theorem witness_HoldAndTakeover :
    (∃ (s : State), s.up 6 = true)
    ∧ (∃ (s : State), s.up 6 = true)
    ∧ (∃ (t0 : Nat) (x : Nat) (s : State), s.up 6 = true ∧ s.role = .standby ∧ s.plk.holdFell = some x ∧ x + 1200 ≤ max s.devtime t0 ∧ s.aux.pads.length = 35 ∧ (∀ y : Int, s.plk.lastHolding = some y → y < (x : Int)))
    ∧ (∃ (t0 : Nat) (x : Nat) (y : Int) (s : State), s.up 6 = true ∧ s.role = .standby ∧ s.plk.holdFell = some x ∧ x + 1200 ≤ max s.devtime t0 ∧ s.plk.lastHolding = some y ∧ (x : Int) ≤ y)
    ∧ (∃ (t0 : Nat) (x : Nat) (s : State), s.up 6 = true ∧ s.role = .detached ∧ s.dev.inJob = false ∧ s.plk.holdFell = some x ∧ x + 1200 ≤ max s.devtime t0 ∧ (∀ y : Int, s.plk.lastHolding = some y → y < (x : Int)))
    ∧ (∃ (t0 : Nat) (x : Nat) (s : State), s.plk.holdFell = some x ∧ max s.devtime t0 < x + 1200)
    ∧ (∃ (m : Master) (s : State), s.Direct m R.PAR_CMD (parWord 4) ∧ s.role = .standby)
    ∧ (∃ (m : Master) (s : State), s.Direct m R.PAR_CMD (parWord 4) ∧ s.role ≠ .standby) :=
  ⟨⟨pairUnit 2, by decide +kernel⟩,
   ⟨pairUnit 2, by decide +kernel⟩,
   ⟨2000, ((withPlk (pairUnit 2) fun p => { p with holdFell := some 800, lastHolding := some 700 }).plk.holdFell).getD default, withPlk (pairUnit 2) fun p => { p with holdFell := some 800, lastHolding := some 700 }, by decide +kernel, by decide +kernel, by decide +kernel, by decide +kernel, by decide +kernel, fun y h => by cases h; decide⟩,
   ⟨2000, ((withPlk (pairUnit 2) fun p => { p with holdFell := some 800, lastHolding := some 800 }).plk.holdFell).getD default, 800, withPlk (pairUnit 2) fun p => { p with holdFell := some 800, lastHolding := some 800 }, by decide +kernel, by decide +kernel, by decide +kernel, by decide +kernel, by decide +kernel, by decide +kernel⟩,
   ⟨2000, ((withPlk (pairUnit 3) fun p => { p with holdFell := some 800 }).plk.holdFell).getD default, withPlk (pairUnit 3) fun p => { p with holdFell := some 800 }, by decide +kernel, by decide +kernel, by decide +kernel, by decide +kernel, by decide +kernel, nofun⟩,
   ⟨1999, 800, withPlk (pairUnit 3) fun p => { p with holdFell := some 800 }, by decide +kernel, by decide +kernel⟩,
   ⟨.host, pairUnit 2, direct_of (by decide +kernel), by decide +kernel⟩,
   ⟨.host, pairUnit 1, direct_of (by decide +kernel), by decide +kernel⟩⟩

theorem witness_PairLink :
    (∃ (s : State), s.linkUp = true ∧ s.quiet)
    ∧ (∃ (seq : Nat) (f : PairFrame) (s : State), s.linkUp = true ∧ (s.plk.unacked.find? fun f => decide (f.seq = seq)) = some f ∧ f.sends < 4 ∧ s.quiet)
    ∧ (∃ (seq : Nat) (f : PairFrame) (s : State), s.linkUp = true ∧ (s.plk.unacked.find? fun f => decide (f.seq = seq)) = some f ∧ 4 ≤ f.sends ∧ s.quiet)
    ∧ (∃ (s : State), s.linkUp = true)
    ∧ (∃ (t0 : Nat) (s : State), s.linkUp = true ∧ s.plk.lastValid + s.get F.PAR_TIMING_LINK_TO * 400 ≤ max s.devtime t0 ∧ s.quiet)
    ∧ (∃ (t0 : Nat) (x : Nat) (s : State), s.up 6 = true ∧ s.role = .standby ∧ s.linkUp = false ∧ s.plk.holdFell = none ∧ s.plk.graceEnd = some x ∧ x ≤ max s.devtime t0)
    ∧ (∃ (passed : List Nat) (s : State), s.up 6 = true ∧ s.linkUp = false ∧ 2 ≤ ((List.range 4).filter fun j => passed.contains j && bit (s.get F.PLK_LANE_EN) j).length)
    ∧ (∃ (passed : List Nat) (s : State), s.up 6 = true ∧ s.linkUp = false ∧ ((List.range 4).filter fun j => passed.contains j && bit (s.get F.PLK_LANE_EN) j).length < 2) :=
  ⟨⟨withPlk (pairUnit 2) fun p => { p with unacked := [{ seq := 5 }, { seq := 6 }] }, by decide +kernel, ⟨rfl, rfl⟩⟩,
   ⟨5, (((withPlk (pairUnit 2) fun p => { p with unacked := [{ seq := 5, sends := 3 }, { seq := 6 }] }).plk.unacked.find? fun f => decide (f.seq = 5))).getD default, withPlk (pairUnit 2) fun p => { p with unacked := [{ seq := 5, sends := 3 }, { seq := 6 }] }, by decide +kernel, by decide +kernel, by decide +kernel, ⟨rfl, rfl⟩⟩,
   ⟨5, (((withPlk (pairUnit 2) fun p => { p with unacked := [{ seq := 5, sends := 4 }, { seq := 6 }] }).plk.unacked.find? fun f => decide (f.seq = 5))).getD default, withPlk (pairUnit 2) fun p => { p with unacked := [{ seq := 5, sends := 4 }, { seq := 6 }] }, by decide +kernel, by decide +kernel, by decide +kernel, ⟨rfl, rfl⟩⟩,
   ⟨pairUnit 1, by decide +kernel⟩,
   ⟨1000000, pairUnit 1, by decide +kernel, by decide +kernel, ⟨rfl, rfl⟩⟩,
   ⟨1000000, ((withPlk (withRegs (pairUnit 2) [(R.PLK_LINK_STAT, 0)]) fun p => { p with graceEnd := some 5 }).plk.graceEnd).getD default, withPlk (withRegs (pairUnit 2) [(R.PLK_LINK_STAT, 0)]) fun p => { p with graceEnd := some 5 }, by decide +kernel, by decide +kernel, by decide +kernel, by decide +kernel, by decide +kernel, by decide +kernel⟩,
   ⟨[0, 3], withRegs ready [(R.PLK_LANE_EN, 0xF)], by decide +kernel, by decide +kernel, by decide +kernel⟩,
   ⟨[0, 3, 2, 1], withRegs (pairUnit 3) [(R.PLK_LANE_EN, 0x8), (R.PLK_LINK_STAT, 0)], by decide +kernel, by decide +kernel, by decide +kernel⟩⟩

theorem witness_PairFrames :
    (∃ (h : PairHdr) (s : State), NewFrame s h)
    ∧ (∃ (x : Nat) (h : PairHdr) (s : State), s.linkUp = true ∧ s.plk.rxSeq = some x ∧ sdiff 16 h.seq x ≤ 0)
    ∧ (∃ (s : State), s.linkUp = true)
    ∧ (∃ (b : Nat) (h : PairHdr) (s : State), NewFrame s h ∧ (s.role = .standby ∨ s.role = .detached) ∧ b < 8 ∧ s.fire.clks.length = 8)
    ∧ (∃ (b : Nat) (h : PairHdr) (r : Resolve) (s : State), NewFrame s h ∧ (s.role = .standby ∨ s.role = .detached) ∧ s.up 3 = true ∧ b < 8 ∧ s.pix.nzc.length = 8 ∧ ((∃ l x, r = .headTemps b l x) ∨ (∃ l x, r = .nchkMarks b l x) ∨ (∃ l, r = .densityLine b l) ∨ ∃ l x, r = .nzcWrites b l x))
    ∧ (∃ (d : Nat) (h : PairHdr) (k : DigKey) (w : DigWait) (s : State), NewFrame s h ∧ s.paired = true ∧ (s.plk.ownDigs.find? fun w => decide (w.key = k)) = some w ∧ w.digest = d)
    ∧ (∃ (d : Nat) (h : PairHdr) (k : DigKey) (w : DigWait) (s : State), NewFrame s h ∧ s.paired = true ∧ (s.plk.ownDigs.find? fun w => decide (w.key = k)) = some w ∧ w.digest ≠ d ∧ s.plk.locket = none)
    ∧ (∃ (h : PairHdr) (k : DigKey) (s : State), NewFrame s h ∧ s.paired = true ∧ (s.plk.ownDigs.find? fun w => decide (w.key = k)) = none)
    ∧ (∃ (t0 : Nat) (ring : Nat) (idx : Nat) (ord : Nat) (d : Nat) (due : Nat) (s : State), s.up 6 = true ∧ { key := .tile ring idx ord, digest := d, due := due } ∈ s.plk.ownDigs ∧ due ≤ max s.devtime t0) :=
  ⟨⟨{}, pairUnit 2, ⟨by decide +kernel, nofun⟩⟩,
   ⟨((withPlk (pairUnit 2) fun p => { p with rxSeq := some 5 }).plk.rxSeq).getD default, { seq := 5 }, withPlk (pairUnit 2) fun p => { p with rxSeq := some 5 }, by decide +kernel, by decide +kernel, by decide +kernel⟩,
   ⟨withPlk (pairUnit 2) fun p => { p with txSeq := 65535, locket := some { phase := 3 } }, by decide +kernel⟩,
   ⟨7, {}, pairUnit 2, ⟨by decide +kernel, nofun⟩, by decide +kernel, by decide +kernel, by decide +kernel⟩,
   ⟨7, {}, .densityLine 7 5, pairUnit 3, ⟨by decide +kernel, nofun⟩, by decide +kernel, by decide +kernel, by decide +kernel, by decide +kernel, .inr (.inr (.inl ⟨5, rfl⟩))⟩,
   ⟨7, {}, .line 0 5, (((withPlk (pairUnit 2) fun p => { p with ownDigs := [{ key := .line 0 5, digest := 7 }] }).plk.ownDigs.find? fun w => decide (w.key = (.line 0 5)))).getD default, withPlk (pairUnit 2) fun p => { p with ownDigs := [{ key := .line 0 5, digest := 7 }] }, ⟨by decide +kernel, nofun⟩, by decide +kernel, by decide +kernel, by decide +kernel⟩,
   ⟨8, {}, .line 0 5, (((withPlk (pairUnit 2) fun p => { p with ownDigs := [{ key := .line 0 5, digest := 7 }] }).plk.ownDigs.find? fun w => decide (w.key = (.line 0 5)))).getD default, withPlk (pairUnit 2) fun p => { p with ownDigs := [{ key := .line 0 5, digest := 7 }] }, ⟨by decide +kernel, nofun⟩, by decide +kernel, by decide +kernel, by decide +kernel, by decide +kernel⟩,
   ⟨{}, .line 0 5, pairUnit 2, ⟨by decide +kernel, nofun⟩, by decide +kernel, by decide +kernel⟩,
   ⟨1000, 8, 5, 6, 7, 50, withPlk (pairUnit 2) fun p => { p with ownDigs := [{ key := .tile 8 5 6, digest := 7, due := 50 }] }, by decide +kernel, by decide +kernel, by decide +kernel⟩⟩

theorem witness_Lockets :
    (∃ (m : Master) (s : State), s.Direct m R.PAR_CMD (parWord 3) ∧ s.role = .detached ∧ s.unitClash = false)
    ∧ (∃ (s : State), s.up 6 = true ∧ s.role = .detached ∧ s.on F.PAR_CFG_AUTO_RESYNC = true ∧ s.unitClash = false ∧ s.linkUp = true ∧ s.get F.PAR_STAT_PEER_ROLE = 1 ∧ s.alignedNow = true ∧ s.plk.locket = none)
    ∧ (∃ (g : Nat) (h : PairHdr) (s : State), NewFrame s h ∧ s.role = .active ∧ s.plk.locket = none ∧ g = (s.get F.PAR_LOCKET_GEN + 1) % 65536)
    ∧ (∃ (h : PairHdr) (s : State), NewFrame s h ∧ s.role = .detached ∧ s.alignedNow = true ∧ s.unitClash = false ∧ s.plk.locket = none)
    ∧ (∃ (h : PairHdr) (k : Locket) (s : State), NewFrame s h ∧ s.plk.locket = some k ∧ k.sender = false ∧ s.up 2 = true)
    ∧ (∃ (p : Nat) (h : PairHdr) (k : Locket) (s : State), NewFrame s h ∧ s.plk.locket = some k ∧ k.sender = false ∧ k.phase < p ∧ p < 5)
    ∧ (∃ (h : PairHdr) (k : Locket) (s : State), NewFrame s h ∧ s.plk.locket = some k ∧ k.sender = false ∧ k.phase < 5 ∧ s.role = .detached)
    ∧ (∃ (k : Locket) (s : State), s.linkUp = true ∧ s.plk.locket = some k ∧ k.sender = true ∧ k.phase < 3 ∧ s.phaseOver k = true)
    ∧ (∃ (k : Locket) (s : State), s.plk.locket = some k ∧ s.phaseOver k = false)
    ∧ (∃ (t0 : Nat) (k : Locket) (s : State), s.up 6 = true ∧ s.plk.locket = some k ∧ k.phase = 1 ∧ k.started + s.get F.PAR_TIMING_LOCKET_MAX * 4000000 ≤ max s.devtime t0)
    ∧ (∃ (m : Master) (k : Locket) (s : State), s.Direct m R.PAR_CMD (parWord 5) ∧ (s.role = .active ∨ s.role = .detached) ∧ s.plk.locket = some k) :=
  ⟨⟨.host, inStep 3, direct_of (by decide +kernel), by decide +kernel, by decide +kernel⟩,
   ⟨withRegs (inStep 3) [(R.PAR_CFG, 2)], by decide +kernel, by decide +kernel, by decide +kernel, by decide +kernel, by decide +kernel, by decide +kernel, by decide +kernel, by decide +kernel⟩,
   ⟨((pairUnit 1).get F.PAR_LOCKET_GEN + 1) % 65536, {}, pairUnit 1, ⟨by decide +kernel, nofun⟩, by decide +kernel, by decide +kernel, by decide +kernel⟩,
   ⟨{}, inStep 3, ⟨by decide +kernel, nofun⟩, by decide +kernel, by decide +kernel, by decide +kernel, by decide +kernel⟩,
   ⟨{}, ((withPlk (inStep 3) fun p => { p with locket := some { gen := 5, sender := false } }).plk.locket).getD default, withPlk (inStep 3) fun p => { p with locket := some { gen := 5, sender := false } }, ⟨by decide +kernel, nofun⟩, by decide +kernel, by decide +kernel, by decide +kernel⟩,
   ⟨2, {}, ((withPlk (inStep 3) fun p => { p with locket := some { gen := 5, sender := false } }).plk.locket).getD default, withPlk (inStep 3) fun p => { p with locket := some { gen := 5, sender := false } }, ⟨by decide +kernel, nofun⟩, by decide +kernel, by decide +kernel, by decide +kernel, by decide +kernel⟩,
   ⟨{}, ((withPlk (inStep 3) fun p => { p with locket := some { gen := 5, sender := false, phase := 4 } }).plk.locket).getD default, withPlk (inStep 3) fun p => { p with locket := some { gen := 5, sender := false, phase := 4 } }, ⟨by decide +kernel, nofun⟩, by decide +kernel, by decide +kernel, by decide +kernel, by decide +kernel⟩,
   ⟨((withPlk (pairUnit 1) fun p => { p with locket := some { gen := 5 } }).plk.locket).getD default, withPlk (pairUnit 1) fun p => { p with locket := some { gen := 5 } }, by decide +kernel, by decide +kernel, by decide +kernel, by decide +kernel, by decide +kernel⟩,
   ⟨((withPlk (pairUnit 1) fun p => { p with locket := some { gen := 5, dirty := [3] } }).plk.locket).getD default, withPlk (pairUnit 1) fun p => { p with locket := some { gen := 5, dirty := [3] } }, by decide +kernel, by decide +kernel⟩,
   ⟨4000000000, ((withPlk (pairUnit 1) fun p => { p with locket := some { gen := 5 } }).plk.locket).getD default, withPlk (pairUnit 1) fun p => { p with locket := some { gen := 5 } }, by decide +kernel, by decide +kernel, by decide +kernel, by decide +kernel⟩,
   ⟨.host, ((withPlk (pairUnit 1) fun p => { p with locket := some { gen := 5 } }).plk.locket).getD default, withPlk (pairUnit 1) fun p => { p with locket := some { gen := 5 } }, direct_of (by decide +kernel), by decide +kernel, by decide +kernel⟩⟩

theorem witness_SidebandRequests :
    (∃ (addr : Nat) (s : State), s.sbAlive = true ∧ addr ≠ 0x3F ∧ s.sbMine addr = true)
    ∧ (∃ (addr : Nat) (s : State), addr ≠ 0x3F ∧ (s.sbAlive = false ∨ s.sbMine addr = false))
    ∧ (∃ (addr : Nat) (off : Nat) (i : Nat) (j : Nat) (r : RegRow) (s : State), s.sbAlive = true ∧ addr ≠ 0x3F ∧ s.sbMine addr = true ∧ s.DirectRead .sideband off ∧ off % 4 = 0 ∧ regRow off = some (r, i, j) ∧ r.pair = false ∧ off / 0x1000 ∈ [P_PWR, P_CLK, P_TRM, P_CDC, P_IMG, P_NZC] ∧ captureSet off = [] ∧ captureOf off = none ∧ s.captured .sideband off = none ∧ s.openBits off = 0)
    ∧ (∃ (addr : Nat) (off : Nat) (n : Nat) (s : State), s.sbAlive = true ∧ addr ≠ 0x3F ∧ s.sbMine addr = true ∧ sbRange off n = false)
    ∧ (∃ (addr : Nat) (a : Nat) (i : Nat) (j : Nat) (r : RegRow) (w : Word) (s : State), s.sbAlive = true ∧ addr ≠ 0x3F ∧ s.sbMine addr = true ∧ s.Direct .sideband a w ∧ a % 4 = 0 ∧ regRow a = some (r, i, j) ∧ 0x040 ≤ a % 0x1000 ∧ a / 0x1000 ∈ [P_PWR, P_CDC, P_IMG] ∧ r.claspOnly = false ∧ r.pair = false ∧ s.openBits a = 0 ∧ onlyReadOnly r a i (s.live a) w = false ∧ rowInRange r w = true ∧ s.writeBars .sideband a i j r.off w = none ∧ (∀ l, loOf a = some l → s.heldLo .sideband l = none))
    ∧ (∃ (addr : Nat) (a : Nat) (s : State), s.sbAlive = true ∧ addr ≠ 0x3F ∧ s.sbMine addr = true ∧ s.quiet ∧ a % 4 = 0 ∧ placeOf a = .page (a / 0x1000) ∧ s.pageUp (a / 0x1000) = true ∧ s.pageHeld (a / 0x1000) = false ∧ s.on ⟨R.ACCESS (a / 0x1000), 0, 0⟩ = false ∧ a / 0x1000 ≠ P_SBP)
    ∧ (∃ (addr : Nat) (seq : Nat) (max : Nat) (d : Nat) (s : State), s.sbAlive = true ∧ addr ≠ 0x3F ∧ s.sbMine addr = true ∧ 1 ≤ max ∧ max ≤ 31 ∧ sdiff 32 (s.reg R.SBP_LOG_SEQ).toNat seq = d ∧ 1 ≤ d ∧ d ≤ s.aux.log.length)
    ∧ (∃ (addr : Nat) (ack : Nat) (max : Nat) (q : List Rec) (s : State), s.sbAlive = true ∧ addr ≠ 0x3F ∧ s.sbMine addr = true ∧ max ≤ 31 ∧ q = (s.aux.evq.filter fun r => decide (0 ≤ sdiff 16 r.seq ack)))
    ∧ (∃ (addr : Nat) (cmd : Nat) (st : Nat) (l : List Byte) (s : State), s.sbAlive = true ∧ addr ≠ 0x3F ∧ s.sbMine addr = true ∧ sbUnusable addr cmd l = some st)
    ∧ (∃ (s : State), s.sbAlive = true) :=
  ⟨⟨5, chained, by decide +kernel, by decide +kernel, by decide +kernel⟩,
   ⟨5, ready, by decide +kernel, by decide +kernel⟩,
   ⟨5, R.CDC_JOB_LANES, (rowAt (R.CDC_JOB_LANES)).2.1, (rowAt (R.CDC_JOB_LANES)).2.2, (rowAt (R.CDC_JOB_LANES)).1, chained, by decide +kernel, by decide +kernel, by decide +kernel, directRead_of (by decide +kernel), by decide +kernel, row_spec (by decide +kernel), by decide +kernel, by decide +kernel, by decide +kernel, by decide +kernel, by decide +kernel, by decide +kernel⟩,
   ⟨5, 2, 1, chained, by decide +kernel, by decide +kernel, by decide +kernel, by decide +kernel⟩,
   ⟨5, R.CDC_JOB_LANES, (rowAt (R.CDC_JOB_LANES)).2.1, (rowAt (R.CDC_JOB_LANES)).2.2, (rowAt (R.CDC_JOB_LANES)).1, 3, chained, by decide +kernel, by decide +kernel, by decide +kernel, direct_of (by decide +kernel), by decide +kernel, row_spec (by decide +kernel), by decide +kernel, by decide +kernel, by decide +kernel, by decide +kernel, by decide +kernel, by decide +kernel, by decide +kernel, by decide +kernel, fun _ _ => rfl⟩,
   ⟨5, R.CDC_JOB_LANES, withRegs chained [(R.ACCESS P_CDC, 0)], by decide +kernel, by decide +kernel, by decide +kernel, ⟨rfl, rfl⟩, by decide +kernel, by decide +kernel, by decide +kernel, by decide +kernel, by decide +kernel, by decide +kernel⟩,
   ⟨5, 6, 31, 1, withAux (withRegs chained [(R.SBP_LOG_SEQ, 7)]) fun a => { a with log := [{ code := 7 }] }, by decide +kernel, by decide +kernel, by decide +kernel, by decide +kernel, by decide +kernel, by decide +kernel, by decide +kernel, by decide +kernel⟩,
   ⟨5, 3, 31, ((withAux chained fun a => { a with evq := [{ seq := 2, code := 7 }, { seq := 3, code := 7 }, { seq := 4, code := 8 }], evqSeq := 5 }).aux.evq.filter fun r => decide (0 ≤ sdiff 16 r.seq 3)), withAux chained fun a => { a with evq := [{ seq := 2, code := 7 }, { seq := 3, code := 7 }, { seq := 4, code := 8 }], evqSeq := 5 }, by decide +kernel, by decide +kernel, by decide +kernel, by decide +kernel, by decide +kernel⟩,
   ⟨5, 0x7E, (sbUnusable 5 0x7E []).getD default, [], chained, by decide +kernel, by decide +kernel, by decide +kernel, by decide +kernel⟩,
   ⟨chained, by decide +kernel⟩⟩

theorem witness_ChainAndEpoch :
    (∃ (new : Nat) (s : State), s.sbAlive = true ∧ s.front = true ∧ 1 ≤ new ∧ new ≤ 62 ∧ s.aux.pads.length = 35)
    ∧ (∃ (s : State), s.sbAlive = true ∧ s.aux.pads.length = 35)
    ∧ (∃ (key : Nat) (s : State), s.sbAlive = true ∧ key ≠ 0xC3A5)
    ∧ (∃ (rate : Nat) (s : State), s.sbAlive = true ∧ rate < 4)
    ∧ (∃ (t0 : Nat) (rate : Nat) (x : Nat) (s : State), s.sbAlive = true ∧ s.aux.rateNext = some (rate, x) ∧ x ≤ max s.devtime t0)
    ∧ (∃ (s : State), s.sbAlive = true ∧ s.aux.vin = true ∧ s.on F.CHN_SYNC_CFG_EN = true)
    ∧ (∃ (s : State), s.sbAlive = true ∧ (s.aux.vin = false ∨ s.on F.CHN_SYNC_CFG_EN = false))
    ∧ (∃ (e : Nat) (s : State), s.sbAlive = true ∧ s.aux.arm = some (e, none))
    ∧ (∃ (t0 : Nat) (e : Nat) (due : Nat) (s : State), s.sbAlive = true ∧ s.aux.arm = some (e, some due) ∧ t0 ≤ due)
    ∧ (∃ (t0 : Nat) (e : Nat) (due : Nat) (s : State), s.sbAlive = true ∧ s.aux.arm = some (e, some due) ∧ due ≤ max s.devtime t0)
    ∧ (∃ (s : State), s.sbAlive = true) :=
  ⟨⟨62, front, by decide +kernel, by decide +kernel, by decide +kernel, by decide +kernel, by decide +kernel⟩,
   ⟨chained, by decide +kernel, by decide +kernel⟩,
   ⟨0xC3A4, chained, by decide +kernel, by decide +kernel⟩,
   ⟨3, chained, by decide +kernel, by decide +kernel⟩,
   ⟨1000, 3, 50, withAux chained fun a => { a with rateNext := some (3, 50) }, by decide +kernel, by decide +kernel, by decide +kernel⟩,
   ⟨withRegs chained [(R.CHN_SYNC_CFG, 1)], by decide +kernel, by decide +kernel, by decide +kernel⟩,
   ⟨chained, by decide +kernel, by decide +kernel⟩,
   ⟨5000, withAux (withRegs chained [(R.CHN_SYNC_CFG, 3)]) fun a => { a with arm := some (5000, none) }, by decide +kernel, by decide +kernel⟩,
   ⟨1000, 5000, 1000, withAux (withRegs chained [(R.CHN_SYNC_CFG, 5)]) fun a => { a with arm := some (5000, some 1000) }, by decide +kernel, by decide +kernel, by decide +kernel⟩,
   ⟨1000, 5000, 1000, withAux (withRegs chained [(R.CHN_SYNC_CFG, 1)]) fun a => { a with arm := some (5000, some 1000) }, by decide +kernel, by decide +kernel, by decide +kernel⟩,
   ⟨ready, by decide +kernel⟩⟩

theorem witness_JtagPort :
    (∃ (cells : Option (List Bool)) (s : State) (c : Instr) (ir : Nat), s.aux.vaux = true ∧ (c, ir) ∈ [(Instr.tapExtest cells, 0x00), (.tapExtestPulse cells, 0x08), (.tapExtestTrain cells, 0x09)])
    ∧ (∃ (s : State), s.aux.vaux = true)
    ∧ (∃ (s : State), s.aux.vaux = true)
    ∧ (∃ (code : Nat) (s : State), s.aux.vaux = true ∧ code < 256 ∧ irListed code = false)
    ∧ (∃ (s : State), s.aux.vaux = true ∧ s.aux.pads.length = 35 ∧ irDrives s.aux.tap.ir = true)
    ∧ (∃ (s : State), s.aux.vaux = true ∧ irDrives s.aux.tap.ir = false)
    ∧ (∃ (s : State), s.aux.vaux = true ∧ s.dev ≠ .resethold ∧ s.quiet)
    ∧ (∃ (a : Nat) (i : Nat) (j : Nat) (r : RegRow) (s : State), s.aux.vaux = true ∧ s.aux.regLock = false ∧ s.DirectRead .debug a ∧ regRow a = some (r, i, j) ∧ r.pair = false ∧ a / 0x1000 ∈ [P_PWR, P_CLK, P_TRM, P_CDC, P_IMG, P_NZC] ∧ captureSet a = [] ∧ captureOf a = none ∧ s.captured .debug a = none ∧ s.openBits a = 0)
    ∧ (∃ (a : Nat) (i : Nat) (j : Nat) (r : RegRow) (w : Word) (s : State), s.aux.vaux = true ∧ s.aux.regLock = false ∧ s.Direct .debug a w ∧ regRow a = some (r, i, j) ∧ 0x040 ≤ a % 0x1000 ∧ a / 0x1000 ∈ [P_PWR, P_CDC, P_IMG] ∧ r.claspOnly = false ∧ r.pair = false ∧ s.openBits a = 0 ∧ onlyReadOnly r a i (s.live a) w = false ∧ rowInRange r w = true ∧ s.writeBars .debug a i j r.off w = none ∧ (∀ l, loOf a = some l → s.heldLo .debug l = none))
    ∧ (∃ (s : State), s.aux.vaux = true ∧ s.aux.regLock = true)
    ∧ (∃ (m : Master) (s : State), s.Direct m R.DBG_LOCK 1) :=
  ⟨⟨none, ready, .tapExtestPulse none, 0x08, by decide +kernel, by decide +kernel⟩,
   ⟨ready, by decide +kernel⟩,
   ⟨ready, by decide +kernel⟩,
   ⟨0xFF, ready, by decide +kernel, by decide +kernel, by decide +kernel⟩,
   ⟨withAux ready fun a => { a with tap := { a.tap with ir := 8 } }, by decide +kernel, by decide +kernel, by decide +kernel⟩,
   ⟨driving ready, by decide +kernel, by decide +kernel⟩,
   ⟨ready, by decide +kernel, by decide +kernel, ⟨rfl, rfl⟩⟩,
   ⟨R.NZC_TSTALE, (rowAt (R.NZC_TSTALE)).2.1, (rowAt (R.NZC_TSTALE)).2.2, (rowAt (R.NZC_TSTALE)).1, ready, by decide +kernel, by decide +kernel, directRead_of (by decide +kernel), row_spec (by decide +kernel), by decide +kernel, by decide +kernel, by decide +kernel, by decide +kernel, by decide +kernel, by decide +kernel⟩,
   ⟨R.CDC_JOB_LANES, (rowAt (R.CDC_JOB_LANES)).2.1, (rowAt (R.CDC_JOB_LANES)).2.2, (rowAt (R.CDC_JOB_LANES)).1, 3, chained, by decide +kernel, by decide +kernel, direct_of (by decide +kernel), row_spec (by decide +kernel), by decide +kernel, by decide +kernel, by decide +kernel, by decide +kernel, by decide +kernel, by decide +kernel, by decide +kernel, by decide +kernel, fun _ _ => rfl⟩,
   ⟨withAux ready fun a => { a with regLock := true }, by decide +kernel, by decide +kernel⟩,
   ⟨.host, ready, direct_of (by decide +kernel)⟩⟩

theorem witness_Diagnostics :
    (∃ (m : Master) (w : Word) (s : State), s.Direct m R.DBG_PRBS_CFG w ∧ 1 ≤ getBits 31 16 w ∧ getBits 9 8 w ≤ 2 ∧ getBits 6 0 w ≤ 75 ∧ (bit w.toNat 12 || bit w.toNat 13) = true ∧ s.prbsRefused w = false)
    ∧ (∃ (m : Master) (w : Word) (s : State), s.Direct m R.DBG_PRBS_CFG w ∧ 1 ≤ getBits 31 16 w ∧ getBits 9 8 w ≤ 2 ∧ getBits 6 0 w ≤ 75 ∧ s.prbsRefused w = true)
    ∧ (∃ (t0 : Nat) (r : Prbs) (s : State), s.up 3 = true ∧ s.pix.prbs = some r ∧ r.desc = none ∧ r.due ≤ max s.devtime t0)
    ∧ (∃ (d : Desc) (s : State), NextDiag s d ∧ dgInvalid d = false ∧ dgOp d = 1 ∧ s.pix.prbs = none ∧ s.laneInUse (dgTarget d) = false)
    ∧ (∃ (d : Desc) (s : State), NextDiag s d ∧ dgInvalid d = false ∧ dgOp d = 1 ∧ (s.pix.prbs.isSome = true ∨ s.laneInUse (dgTarget d) = true))
    ∧ (∃ (d : Desc) (s : State), NextDiag s d ∧ dgInvalid d = false ∧ dgOp d = 2)
    ∧ (∃ (d : Desc) (s : State), NextDiag s d ∧ dgInvalid d = false ∧ dgOp d = 3)
    ∧ (∃ (d : Desc) (s : State), NextDiag s d ∧ dgInvalid d = false ∧ dgOp d = 4)
    ∧ (∃ (d : Desc) (s : State), NextDiag s d ∧ dgInvalid d = true) :=
  ⟨⟨.host, 0x0001104B, ready, direct_of (by decide +kernel), by decide +kernel, by decide +kernel, by decide +kernel, by decide +kernel, by decide +kernel⟩,
   ⟨.host, 0x00011048, pairUnit 0, direct_of (by decide +kernel), by decide +kernel, by decide +kernel, by decide +kernel, by decide +kernel⟩,
   ⟨1000, ((withPix (withRegs ready [(R.DBG_PRBS_CFG, 0x2000)]) fun p => { p with prbs := some { lane := 3, due := 5 } }).pix.prbs).getD default, withPix (withRegs ready [(R.DBG_PRBS_CFG, 0x2000)]) fun p => { p with prbs := some { lane := 3, due := 5 } }, by decide +kernel, by decide +kernel, by decide +kernel, by decide +kernel⟩,
   ⟨diagDesc 1 75 65535, diag 1 75 65535, ⟨by decide +kernel, by decide +kernel, by decide +kernel, rfl, [], rfl⟩, by decide +kernel, by decide +kernel, by decide +kernel, by decide +kernel⟩,
   ⟨diagDesc 1 75 65535, withPix (diag 1 75 65535) fun p => { p with prbs := some {} }, ⟨by decide +kernel, by decide +kernel, by decide +kernel, rfl, [], rfl⟩, by decide +kernel, by decide +kernel, by decide +kernel⟩,
   ⟨diagDesc 2 3 8, diag 2 3 8, ⟨by decide +kernel, by decide +kernel, by decide +kernel, rfl, [], rfl⟩, by decide +kernel, by decide +kernel⟩,
   ⟨diagDesc 3 75 0, diag 3 75 0, ⟨by decide +kernel, by decide +kernel, by decide +kernel, rfl, [], rfl⟩, by decide +kernel, by decide +kernel⟩,
   ⟨diagDesc 4 75 0, diag 4 75 0, ⟨by decide +kernel, by decide +kernel, by decide +kernel, rfl, [], rfl⟩, by decide +kernel, by decide +kernel⟩,
   ⟨diagDesc 3 76 0, diag 3 76 0, ⟨by decide +kernel, by decide +kernel, by decide +kernel, rfl, [], rfl⟩, by decide +kernel⟩⟩

theorem witness_StepTakesFrontCommand :
    (∃ s : State, s.pending = [] ∧ s.aux.vaux = true ∧ s.plk.slew = 0) ∧ ∃ s : State, s.pending = [] ∧ s.aux.vaux = false :=
  ⟨⟨ready, rfl, rfl, rfl⟩, withAux ready fun a => { a with vaux := false }, rfl, rfl⟩

/-- The unit without VAUX, every island in reset. -/
def unlit : State := withAux State.reset fun a => { a with vaux := false, phases := List.replicate 8 .inReset }

theorem witness_CommandFrames : ∃ (c : Instr) (s t : State), broad c = false ∧ exec c s = .next t ∧ storesDram c = false ∧ drivesPads c = false ∧ usesLanes c = false :=
  ⟨.tapIdcode, ready, _, rfl, rfl, rfl, rfl, rfl⟩

theorem witness_StepKeepsForm : ∃ s t : State, s.memOk ∧ s.sized ∧ step s = .next t :=
  ⟨State.reset, _, by decide +kernel, by unfold State.sized Aux.sized Mem.sized Pix.sized Img.sized Fire.sized Zl.sized HostIf.sized; decide +kernel, rfl⟩

theorem witness_DevtimeNeverDecreases : ∃ s t : State, s.pending.head? ≠ some .vauxPowerOn ∧ s.pending.head? ≠ some .vauxReturn ∧ step s = .next t :=
  ⟨{ ready with pending := [.holdInRise 5] }, _, by decide, by decide, rfl⟩

theorem witness_DarkDeviceIsInert : ∃ (c : Instr) (s t : State), s.aux.vaux = false ∧ (∀ i, s.up i = false) ∧ s.quiet ∧ c ≠ .vauxPowerOn ∧ c ≠ .vauxReturn ∧ c ≠ .vauxBrownOut
    ∧ exec c s = .next t :=
  ⟨.holdInRise 5, unlit, _, rfl, fun i => by
    unfold State.up State.phase
    simp only [unlit, withAux, State.modAux, nth, List.getD_eq_getElem?_getD, List.getElem?_replicate]
    split <;> rfl, ⟨rfl, rfl⟩, by decide, by decide, by decide, rfl⟩

end Sys2Proof.Tests
end

namespace Sys2Proof.Machine

open Sys2Proof

/-! ## Writes of ACCESS (R95)

A write of ACCESS stores its word if the host makes it, and with the side-band's permissions it is refused. That a refusal only reports is `tell_errCode`; `Tells` counts
ERR_CODE among what reporting writes, so that ERR_CODE stays as the refusal set it is shown apart. -/

/-! ### Reporting leaves ERR_CODE alone -/

section
variable (s : State) (p : Nat)

theorem setReg_errCode (a : Nat) (w : Word) (h : a % 0x1000 ≠ 0x02C) : (s.setReg a w).reg (R.ERR_CODE p) = s.reg (R.ERR_CODE p) :=
  s.reg_setReg_other _ _ _ (by unfold R.ERR_CODE; omega)

theorem put_errCode (f : Fld) (v : Nat) (h : f.addr % 0x1000 ≠ 0x02C) : (s.put f v).reg (R.ERR_CODE p) = s.reg (R.ERR_CODE p) :=
  setReg_errCode s p _ _ h

theorem sendMsix_errCode (v : Nat) (hv : v < 128) : (s.sendMsix v).reg (R.ERR_CODE p) = s.reg (R.ERR_CODE p) := by
  have hpba : (F.PBA v).addr % 0x1000 ≠ 0x02C := by unfold F.PBA; dsimp only; omega
  unfold State.sendMsix
  split
  · rfl
  · split
    · exact put_errCode s p _ _ hpba
    · rfl

theorem ringItem_errCode (n : Nat) : (s.ringItem n).reg (R.ERR_CODE p) = s.reg (R.ERR_CODE p) := by
  unfold State.ringItem
  dsimp only
  split
  · split
    · exact sendMsix_errCode (s.modRt n _) p _ (getBits_lt 15 9 _)
    · rfl
  · rfl

theorem statusWrite_errCode (n : Nat) : (s.statusWrite n).reg (R.ERR_CODE p) = s.reg (R.ERR_CODE p) := by
  unfold State.statusWrite
  split
  · rfl
  · split <;> rfl

theorem ringProd_ne_errCode (n : Nat) (hn : n < 64) : R.DMA_RING_PROD n % 0x1000 ≠ 0x02C := by
  unfold R.DMA_RING_PROD
  omega

theorem ringStat_ne_errCode (n : Nat) : R.DMA_RING_STAT n % 0x1000 ≠ 0x02C := by
  unfold R.DMA_RING_STAT
  omega

theorem ringWriteEntry_errCode (n : Nat) (hn : n < 64) (e : List Byte) : (s.ringWriteEntry n e).reg (R.ERR_CODE p) = s.reg (R.ERR_CODE p) := by
  unfold State.ringWriteEntry State.ringFullFlag
  rw [ringItem_errCode, statusWrite_errCode, put_errCode _ _ _ _ (ringStat_ne_errCode n), setReg_errCode _ _ _ _ (ringProd_ne_errCode n hn)]
  rfl

theorem ringPut_errCode (n : Nat) (hn : n < 64) (e : List Byte) : (s.ringPut n e).1.reg (R.ERR_CODE p) = s.reg (R.ERR_CODE p) := by
  unfold State.ringPut State.satAdd
  split
  · rfl
  · split
    · exact ringWriteEntry_errCode s p n hn e
    · split
      · rfl
      · dsimp only
        rw [statusWrite_errCode, put_errCode _ _ _ _ (ringStat_ne_errCode n)]

theorem evtFlags_errCode (q b : Nat) : (s.evtFlags q b).reg (R.ERR_CODE p) = s.reg (R.ERR_CODE p) := by
  have hraw : R.EVT_RAW q % 0x1000 ≠ 0x02C := by unfold R.EVT_RAW; omega
  have hpend : R.EVT_PEND q % 0x1000 ≠ 0x02C := by unfold R.EVT_PEND; omega
  unfold State.evtFlags State.setBit
  dsimp only
  split
  · rw [put_errCode _ _ _ _ hpend, put_errCode _ _ _ _ hraw]
  · exact put_errCode _ _ _ _ hraw

theorem evqPut_errCode (r : Rec) : (s.evqPut r).1.reg (R.ERR_CODE p) = s.reg (R.ERR_CODE p) := by
  unfold State.evqPut State.evqCount State.satAdd
  split <;> exact put_errCode _ _ _ _ (by decide)

theorem aggPut_errCode (r : Rec) (u : Nat) : (s.aggPut r u).1.reg (R.ERR_CODE p) = s.reg (R.ERR_CODE p) := by
  have hnext := put_errCode s p F.EVT_SEQ_NEXT (s.get F.EVT_SEQ_NEXT + 1) (by decide)
  unfold State.aggPut State.wrapAdd State.satAdd
  dsimp only
  split
  · exact hnext
  · exact (put_errCode _ _ F.EVT_LOST _ (by decide)).trans hnext

theorem sendPair_errCode (m : PairMsg) : (s.sendPair m).reg (R.ERR_CODE p) = s.reg (R.ERR_CODE p) := by
  unfold State.sendPair
  split
  · dsimp only
    split <;> rfl
  · rfl

theorem pairPut_errCode (r : Rec) : (s.pairPut r).1.reg (R.ERR_CODE p) = s.reg (R.ERR_CODE p) := by
  unfold State.pairPut State.satAdd
  split
  · exact sendPair_errCode s p _
  · exact put_errCode s p F.EVT_LOST _ (by decide)

end

/-- A choice between two states keeps a register that both have. -/
theorem ite_reg {c : Prop} [Decidable c] {a : Nat} {t u : State} {w : Word} (ht : t.reg a = w) (hu : u.reg a = w) : (if c then t else u).reg a = w := by
  split
  · exact ht
  · exact hu

theorem routeRec_errCode (p k route : Nat) (r : Rec) (s : State) : (State.routeRec k s route r).reg (R.ERR_CODE p) = s.reg (R.ERR_CODE p) := by
  induction k generalizing s route r with
  | zero => rfl
  | succ k ih =>
    unfold State.routeRec
    extract_lets raiseIn x1 s1 x2 s2 x3
    have hr : ∀ x q b, (raiseIn x q b).reg (R.ERR_CODE p) = x.reg (R.ERR_CODE p) := by
      intro x q b
      unfold raiseIn
      extract_lets e t
      exact ite_reg ((ih _ _ _).trans (evtFlags_errCode x p q b)) (evtFlags_errCode x p q b)
    have h1 : s1.reg (R.ERR_CODE p) = s.reg (R.ERR_CODE p) := by
      have hx := evqPut_errCode s p r
      exact ite_reg (ite_reg ((hr _ _ _).trans hx) hx) rfl
    have h2 : s2.reg (R.ERR_CODE p) = s.reg (R.ERR_CODE p) := by
      have hx := (aggPut_errCode s1 p r (route % 4)).trans h1
      exact ite_reg (ite_reg ((hr _ _ _).trans hx) hx) h1
    have hx := (pairPut_errCode s2 p r).trans h2
    exact ite_reg (ite_reg ((hr _ _ _).trans hx) hx) h2

theorem occur_errCode (s : State) (p : Nat) (e : Evt) : (s.occur e).reg (R.ERR_CODE p) = s.reg (R.ERR_CODE p) := by
  have hf := evtFlags_errCode s p e.page e.bit
  unfold State.occur
  exact ite_reg (ite_reg ((routeRec_errCode p _ _ _ _).trans hf) hf) rfl

theorem deliver_errCode (s : State) (p : Nat) : s.deliver.reg (R.ERR_CODE p) = s.reg (R.ERR_CODE p) := by
  unfold State.deliver
  refine foldS_reg _ _ _ (fun e t => ?_) _
  have hx := ringPut_errCode t p (28 + e.1 % 4) (by omega) e.2.bytes
  exact ite_reg ((occur_errCode _ p _).trans hx) hx

/-- Raising an event writes no ERR_CODE. -/
theorem raise_errCode (s : State) (p : Nat) (e : Evt) : (s.raise e).reg (R.ERR_CODE p) = s.reg (R.ERR_CODE p) :=
  (deliver_errCode _ p).trans (occur_errCode s p e)

/-! ### What a refusal reports (R96) -/

/-- ERR_CODE below its counter: the page offset, the master and the code (Table 4.5). -/
theorem errCode_names (s : State) (p off : Nat) (m : Master) (code : Nat) (hc : code < 0x400) :
    ((s.errCode p off m code).reg (R.ERR_CODE p)).toNat % 0x1000000 = off % 0x1000 * 0x1000 + masterCode m * 0x400 + code := by
  have hm : masterCode m < 4 := by cases m <;> decide
  unfold State.errCode
  extract_lets n
  rw [raise_errCode, State.reg_setReg_same, BitVec.toNat_ofNat]
  omega

/-- A refusal shows as REFUSED in the page that records it. -/
theorem errCode_shows (s : State) (p off : Nat) (m : Master) (code : Nat) (hu : s.pageUp p = true) : (s.errCode p off m code).shows p 1 = true := by
  unfold State.errCode
  extract_lets n
  exact shows_raise _ { page := p, bit := 1 } ((State.setReg_pageUp s _ _ p).trans hu) (by decide : 1 < 32)

theorem Tells.fabric {s t : State} (h : Tells s t) : t.pix.fabric = s.pix.fabric := by
  show t.pix.core.fabric = s.pix.core.fabric
  rw [h.pix]

/-! ### The register ACCESS -/

/-- The row of ACCESS in the table of header registers (Table 4.1). -/
def accessRow : RegRow := ⟨0x028, [], false, false, false, [fk 1 0 .rw 0 none]⟩

@[simp] theorem accessRow_off : accessRow.off = 0x028 := rfl
@[simp] theorem accessRow_claspOnly : accessRow.claspOnly = false := rfl
@[simp] theorem accessRow_pair : accessRow.pair = false := rfl
@[simp] theorem rowInRange_accessRow (w : Word) : rowInRange accessRow w = true := rfl

theorem regRow_header (p off : Nat) (ho : off < 0x040) (hp : p < 0x34) : regRow (p * 0x1000 + off) = findRow rowsHeader off := by
  have h1 : (p * 0x1000 + off) / 0x1000 = p := by omega
  have h2 : (p * 0x1000 + off) % 0x1000 = off := by omega
  unfold regRow
  simp only [h1, h2, hp, ho, if_true]

theorem findRow_access : findRow rowsHeader 0x028 = some (accessRow, 0, 0) := rfl

theorem regRow_access {p : Nat} (hp : p < 0x34) : regRow (R.ACCESS p) = some (accessRow, 0, 0) := by
  unfold R.ACCESS
  rw [regRow_header p 0x028 (by decide) hp, findRow_access]

theorem lt_of_regRow_access {p : Nat} {x : RegRow × Nat × Nat} (h : regRow (R.ACCESS p) = some x) : p < 0x34 := by
  refine Classical.byContradiction fun hp => ?_
  have hpage : ¬ R.ACCESS p / 0x1000 < 0x34 := by unfold R.ACCESS; omega
  unfold regRow at h
  simp only [hpage, if_false] at h
  cases h

theorem access_page (p : Nat) : R.ACCESS p / 0x1000 = p := by unfold R.ACCESS; omega

theorem access_offset (p : Nat) : R.ACCESS p % 0x1000 = 0x028 := by unfold R.ACCESS; omega

theorem access_aligned (p : Nat) : R.ACCESS p % 4 = 0 := by unfold R.ACCESS; omega

theorem placeOf_access {p : Nat} (hp : p < 0x34) : placeOf (R.ACCESS p) = .page p := by
  unfold placeOf
  rw [access_page, if_pos (by unfold R.ACCESS; omega), if_neg (by unfold R.ACCESS; omega)]

theorem access_ne_frames (p : Nat) : R.ACCESS p ∉ [R.SBP_RX_FRAMES, R.SBP_TX_FRAMES] := by
  simp only [List.mem_cons, List.not_mem_nil, or_false, not_or]
  unfold R.ACCESS R.SBP_RX_FRAMES R.SBP_TX_FRAMES
  omega

/-- Reporting leaves ACCESS as it is. -/
theorem toldReg_access (p : Nat) : toldReg (R.ACCESS p) = false := by
  unfold toldReg R.ACCESS R.SBP_EVQ R.SBP_LOG_SEQ R.EVT_SEQ R.EVT_LOST
  refine decide_eq_false ?_
  omega

theorem openBits_access (s : State) (p : Nat) : s.openBits (R.ACCESS p) = 0 := by
  have ho := access_offset p
  have hne : ∀ a, a % 0x1000 ≠ 0x028 → R.ACCESS p ≠ a := fun a ha e => ha (e ▸ ho)
  unfold State.openBits
  rw [if_neg (not_or.mpr ⟨hne _ (by decide), hne _ (by decide)⟩), if_neg (hne _ (by decide)), if_neg (hne _ (by decide))]

theorem peek_access (s : State) (p : Nat) : s.peek (R.ACCESS p) = (s.live (R.ACCESS p), s) := by
  have hgpio : R.ACCESS p ≠ R.DEV_GPIO_IN := fun e => absurd (e ▸ access_offset p) (by decide)
  unfold State.peek
  simp only [openBits_access, hgpio, if_true, if_false]

/-- ACCESS is no _HI half of a pair (R8). -/
theorem loOf_access {p : Nat} (hp : p < 0x34) : loOf (R.ACCESS p) = none := by
  have h : regRow (R.ACCESS p - 4) = some (⟨0x024, [], false, false, false, [fk 20 0 .ro 0 none]⟩, 0, 0) := regRow_header p 0x024 (by decide) hp
  unfold loOf
  rw [h]
  rfl

/-- No rule of a block stands in the way of a write of ACCESS. -/
theorem writeBars_access (s : State) (m : Master) (a i j : Nat) (w : Word) : s.writeBars m a i j 0x028 w = none := rfl

/-- A write of ACCESS does nothing beside storing its value: no block acts on the header offset 0x028. -/
theorem writeActs_access (s : State) (m : Master) (a i : Nat) (old w : Word) : s.writeActs m a i 0x028 old w = (s, none) := by
  unfold State.writeActs
  simp

/-- A write of ACCESS that is not refused for changing read-only bits stores its bits. -/
theorem storeReg_access (s : State) (m : Master) {p : Nat} (w : Word) (hp : p < 0x34)
    (hro : onlyReadOnly accessRow (R.ACCESS p) 0 (s.live (R.ACCESS p)) w = false) :
    s.storeReg m (R.ACCESS p) w = (s.setReg (R.ACCESS p) (writtenWord accessRow (R.ACCESS p) 0 (s.reg (R.ACCESS p)) w), none) := by
  unfold State.storeReg
  rw [regRow_access hp]
  simp [access_offset, access_page, peek_access, loOf_access hp, hro, writeBars_access, writeActs_access]

/-! ### Writes of ACCESS by each master -/

theorem wideWrite_word (s : State) (m : Master) (a : Nat) (b0 b1 b2 b3 : Byte) (ha : a % 4 = 0) :
    s.wideWrite m a [some b0, some b1, some b2, some b3] = s.busWrite m a (wordOf b0 b1 b2 b3) false := by
  unfold State.wideWrite
  simp [ha, wordOf]

/-- The command REGISTER_WRITE of a whole word is the access of R97. -/
theorem exec_registerWrite_word {s : State} {m : Master} {a : Nat} (b0 b1 b2 b3 : Byte) (hr : s.reaches m = true) (ha : a % 4 = 0) :
    exec (.registerWrite m a [some b0, some b1, some b2, some b3]) s = .next ((s.busWrite m a (wordOf b0 b1 b2 b3) false).1.accessed m) := by
  show execRegisterWrite _ _ _ _ = _
  unfold execRegisterWrite
  rw [if_pos hr, wideWrite_word s m a b0 b1 b2 b3 ha]

/-- A write of ACCESS with the side-band's permissions is refused in its page, whatever SB_WRITE says (R95). -/
theorem busWrite_access_denied {s : State} {m : Master} {p : Nat} (w : Word) (hm : sideband m = true) (hp : p < 0x34) (hu : s.pageUp p = true) :
    s.busWrite m (R.ACCESS p) w false = (s.errCode p (R.ACCESS p) m eSbDenied, .refused eSbDenied) := by
  have hup : s.placeUp (.page p) = true := hu
  have hden : s.sbDenied (.page p) (R.ACCESS p) = true := by
    unfold State.sbDenied
    rw [access_offset]
    rfl
  unfold State.busWrite
  simp [placeOf_access hp, hup, hm, hden, State.refuseAt, Place.owner, hu]

/-- What the refusal of a write of ACCESS leaves: all that reporting does not touch, and in the page REFUSED and ERR_CODE. -/
structure AccessRefused (s t : State) (p : Nat) : Prop where
  tells : Tells s t
  shows : t.shows p 1 = true
  code : (t.reg (R.ERR_CODE p)).toNat % 0x1000000 = 0x028 * 0x1000 + 0x400 + eSbDenied

theorem accessRefused_errCode {s : State} {m : Master} {p : Nat} (hm : sideband m = true) (hu : s.pageUp p = true) :
    AccessRefused s (s.errCode p (R.ACCESS p) m eSbDenied) p where
  tells := tell_errCode (Tells.refl s) _ _ _ _
  shows := errCode_shows s p _ m _ hu
  code := by
    have hmc : masterCode m = 1 := match m, hm with | .sideband, _ => rfl | .debug, _ => rfl
    rw [errCode_names _ _ _ _ _ (by decide), access_offset, hmc]

theorem onlyRegs_of_tells {s t : State} (h : Tells s t) (l : List Nat) : OnlyRegs s t l := fun a _ ha => h.reg a ha

/-- ACCESS is written by the host (R95). -/
theorem hostWrite_access {s : State} {p i j : Nat} {r : RegRow} {b0 b1 b2 b3 : Byte} (hd : s.Direct .host (R.ACCESS p) (wordOf b0 b1 b2 b3))
    (hrow : regRow (R.ACCESS p) = some (r, i, j)) (hro : onlyReadOnly r (R.ACCESS p) i (s.live (R.ACCESS p)) (wordOf b0 b1 b2 b3) = false) :
    exec (.registerWrite .host (R.ACCESS p) [some b0, some b1, some b2, some b3]) s
      = .next (s.setReg (R.ACCESS p) (writtenWord r (R.ACCESS p) i (s.reg (R.ACCESS p)) (wordOf b0 b1 b2 b3))) := by
  have hp := lt_of_regRow_access hrow
  rw [regRow_access hp] at hrow
  cases hrow
  have hs := storeReg_access s .host (wordOf b0 b1 b2 b3) hp hro
  rw [exec_registerWrite_word _ _ _ _ hd.reaches (access_aligned p), State.busWrite_direct hd (by rw [hs]), hs]
  exact congrArg _ (State.accessed_quiet (s := s.setReg _ _) hd.quiet hd.fabric .host)

/-- The refused write of a master with the side-band's permissions: the refusal, and no access goes on after it. -/
theorem sidebandWrite_access {s : State} {m : Master} {p : Nat} (b0 b1 b2 b3 : Byte) (hm : sideband m = true) (hr : s.reaches m = true) (hq : s.quiet)
    (hf : s.pix.fabric.holders = []) (hp : p < 0x34) (hu : s.pageUp p = true) :
    exec (.registerWrite m (R.ACCESS p) [some b0, some b1, some b2, some b3]) s = .next (s.errCode p (R.ACCESS p) m eSbDenied) := by
  have ht := (accessRefused_errCode hm hu).tells
  rw [exec_registerWrite_word _ _ _ _ hr (access_aligned p), busWrite_access_denied _ hm hp hu]
  exact congrArg _ (State.accessed_quiet (hq.of_tells ht) (by rw [ht.fabric, hf]) m)

/-! ### The side-band's WRITE (R404) -/

/-- The first word of a side-band WRITE is refused: the reply carries the code and no word applied. -/
theorem sbWriteGo_refused {s t : State} {addr off code : Nat} {w : Word} (hh : s.accHeld off = false) (hb : s.busWrite .sideband off w false = (t, .refused code)) :
    State.sbWriteGo [w] s addr off 0 = t.writeReply addr 0 (some code) := by
  unfold State.sbWriteGo
  rw [hh]
  simp only [Bool.false_eq_true, if_false, hb]

/-- A usable WRITE for this unit, while nothing waits, is counted and its words are written. -/
theorem exec_sbWrite_word {s : State} {addr off : Nat} {w : Word} (ha : s.sbAlive = true) (hc : addr ≠ 0x3F) (hm : s.sbMine addr = true) (hq : s.quiet)
    (ho : sbRange off 1 = true) : exec (.sbWrite addr off [w]) s = .next (State.sbWriteGo [w] (s.satAdd F.SBP_RX_FRAMES 1) addr off 0) := by
  have hidle : (s.satAdd F.SBP_RX_FRAMES 1).sbBusy = false := by
    obtain ⟨hacc, hwait⟩ := hq
    show (s.aux.sbWait.isSome || s.aux.heldAcc.any _) = false
    rw [hacc, hwait]
    rfl
  show Host.Outcome.next (s.sbWriteCmd addr off [w]) = _
  unfold State.sbWriteCmd State.sbTo State.runAcc
  simp [ha, hc, hm, ho, hidle]

theorem sbRange_access {p : Nat} (hp : p < 0x34) : sbRange (R.ACCESS p) 1 = true := by
  have hend : R.ACCESS p + 4 * 1 ≤ 0x4000000 := by unfold R.ACCESS; omega
  unfold sbRange
  rw [access_aligned, decide_eq_true hend]
  rfl

/-- Counting a frame of the side-band holds no page. -/
theorem pageHeld_rxFrames (s : State) (p : Nat) : (s.satAdd F.SBP_RX_FRAMES 1).pageHeld p = s.pageHeld p := by
  have hs : ∀ k, k < 16 → (s.satAdd F.SBP_RX_FRAMES 1).slotState k = s.slotState k := fun k hk =>
    s.get_put_other F.SBP_RX_FRAMES (F.CLS_STATUS_STATE k) _ (by decide) (.inl (by show R.CLS_STATUS k ≠ R.SBP_RX_FRAMES; unfold R.CLS_STATUS R.SBP_RX_FRAMES; omega))
  have hk : ∀ k, (s.satAdd F.SBP_RX_FRAMES 1).slot k = s.slot k := fun _ => rfl
  unfold State.pageHeld
  rw [Bool.eq_iff_iff, List.any_eq_true, List.any_eq_true]
  refine exists_congr fun k => and_congr_right fun hmem => ?_
  rw [hs k (List.mem_range.mp hmem), hk]

/-- A reply leaves by the side-band's pad and counts in TX_FRAMES; no other register changes. -/
theorem sbReply_reg (s : State) (addr cmd a : Nat) (l : List Byte) (h : a ≠ R.SBP_TX_FRAMES) : (s.sbReply addr cmd l).reg a = s.reg a := by
  unfold State.sbReply State.setPad
  exact s.reg_put_other F.SBP_TX_FRAMES _ a h

theorem sbReply_out (s : State) (addr cmd : Nat) (l : List Byte) : (s.sbReply addr cmd l).out = .sbReply (sbFrame addr cmd l) :: s.out := rfl

/-- A frame that only reports and is replied to changes beside that the side-band's two frame counts. -/
theorem onlyRegs_sbReply {s t : State} (h : Tells (s.satAdd F.SBP_RX_FRAMES 1) t) (addr cmd : Nat) (l : List Byte) :
    OnlyRegs s (t.sbReply addr cmd l) [R.SBP_RX_FRAMES, R.SBP_TX_FRAMES] := by
  intro a ha htold
  obtain ⟨hrx, htx⟩ : a ≠ R.SBP_RX_FRAMES ∧ a ≠ R.SBP_TX_FRAMES := by simpa using ha
  rw [sbReply_reg t addr cmd a l htx, h.reg a htold]
  exact s.reg_put_other F.SBP_RX_FRAMES _ a hrx

/-- A side-band WRITE of ACCESS is refused in its page, and the reply says so. -/
theorem sbWrite_access {s : State} {addr p : Nat} (w : Word) (ha : s.sbAlive = true) (hc : addr ≠ 0x3F) (hm : s.sbMine addr = true) (hq : s.quiet)
    (hp : p < 0x34) (hu : s.pageUp p = true) (hh : s.pageHeld p = false) :
    exec (.sbWrite addr (R.ACCESS p) [w]) s
      = .next (((s.satAdd F.SBP_RX_FRAMES 1).errCode p (R.ACCESS p) .sideband eSbDenied).sbReply addr 0x03 (leBytes 1 1 ++ leBytes 1 eSbDenied ++ leBytes 1 0)) := by
  have hfree : (s.satAdd F.SBP_RX_FRAMES 1).accHeld (R.ACCESS p) = false := by
    unfold State.accHeld
    rw [placeOf_access hp]
    exact (pageHeld_rxFrames s p).trans hh
  rw [exec_sbWrite_word ha hc hm hq (sbRange_access hp), sbWriteGo_refused hfree (busWrite_access_denied w rfl hp hu)]
  rfl

/-! ### The clasp engine and the pair-apply requester -/

/-- A master that does not reach BAR 0 makes no access. -/
theorem exec_registerWrite_unreached {s : State} {m : Master} (a : Nat) (l : List (Option Byte)) (hr : s.reaches m = false) :
    exec (.registerWrite m a l) s = .next s := by
  show execRegisterWrite _ _ _ _ = _
  unfold execRegisterWrite
  rw [hr]
  rfl

theorem claspCapable_access {p : Nat} (hp : p < 0x34) : claspCapable (R.ACCESS p) = false := by
  unfold claspCapable
  rw [regRow_access hp]
  rfl

/-- Settles O11: the host's write stores the word, one with the side-band's permissions only reports its refusal, the engines reach no register by themselves, and no clasp
entry may name the header row of ACCESS. -/
theorem accessWrites : Obligations.AccessWrites := by
  unfold Obligations.AccessWrites
  refine ⟨?host, ?sideband, ?frame, ?engines, fun _ hp => claspCapable_access hp⟩
  case host =>
    intro p i j r b0 b1 b2 b3 s hd hrow hro
    exact ⟨_, hostWrite_access hd hrow hro, s.reg_setReg_same _ _, fun a ha => s.reg_setReg_other _ a _ ha, rfl, rfl⟩
  case sideband =>
    intro m p b0 b1 b2 b3 s hm hr hq hf hp hu
    have hsb : sideband m = true := by rcases hm with rfl | rfl <;> rfl
    obtain ⟨htells, hshows, hcode⟩ := accessRefused_errCode hsb hu
    exact ⟨_, sidebandWrite_access b0 b1 b2 b3 hsb hr hq hf hp hu, htells.reg _ (toldReg_access p), hshows, hcode, onlyRegs_of_tells htells [], htells.dram⟩
  case frame =>
    intro addr p w s ha hc hm hq _ hp _ hu hh
    have hu' : (s.satAdd F.SBP_RX_FRAMES 1).pageUp p = true := (State.put_pageUp s _ _ p).trans hu
    obtain ⟨htells, hshows, hcode⟩ := accessRefused_errCode (m := .sideband) rfl hu'
    have honly := onlyRegs_sbReply htells addr 0x03 (leBytes 1 1 ++ leBytes 1 eSbDenied ++ leBytes 1 0)
    refine ⟨_, sbWrite_access w ha hc hm hq hp hu hh, honly _ (access_ne_frames p) (toldReg_access p), ?_, ?_, ?_, honly⟩
    · exact (State.shows_congr (sbReply_reg _ _ _ _ _ (by unfold R.EVT_RAW R.SBP_TX_FRAMES; omega)) 1).trans hshows
    · rw [sbReply_reg _ _ _ _ _ (by unfold R.ERR_CODE R.SBP_TX_FRAMES; omega)]
      exact hcode
    · rw [sbReply_out]
      exact List.mem_cons_self
  case engines =>
    intro m p l s hm
    have hr : s.reaches m = false := by rcases hm with rfl | rfl <;> rfl
    exact exec_registerWrite_unreached _ l hr

end Sys2Proof.Machine

namespace Sys2Proof.Machine

open Sys2Proof

/-! ## The claim index of record rings (R138)

A read of POP is one step of the claim index and nothing else; a write of CONS moves the index only up to CONS. Both reach the ring's registers the direct way, through the
rows of the ring table (Table 5.7). -/

/-! ### The rows of a ring's registers -/

/-- A row of the ring table: the register at one offset of each of the 64 rings, with no rule of R8 or of clasps. -/
def ringRow (o : Nat) (fields : List RegField) : RegRow := ⟨o, [(0x20, 64)], false, false, false, fields⟩

/-- The row of CONS (Table 5.7). -/
def ringConsRow : RegRow := ringRow 0x810 [fk 31 0 .rw 0 none]

@[simp] theorem ringConsRow_off : ringConsRow.off = 0x810 := rfl
@[simp] theorem ringConsRow_claspOnly : ringConsRow.claspOnly = false := rfl
@[simp] theorem ringConsRow_pair : ringConsRow.pair = false := rfl
@[simp] theorem rowInRange_ringConsRow (w : Word) : rowInRange ringConsRow w = true := rfl

section
variable {n o off : Nat} {c k p : Bool} {fields : List RegField} {rows : List RegRow}

/-- A row of the ring table is passed over by an offset that lies at another register of a ring. -/
theorem findRow_ring_skip (h : (off - o) % 0x20 ≠ 0) : findRow (⟨o, [(0x20, 64)], c, k, p, fields⟩ :: rows) off = findRow rows off := by
  simp [findRow, rowIndex, h]

/-- A row of the ring table holds the register of each of the 64 rings. -/
theorem findRow_ring_hit (hn : n < 64) : findRow (⟨o, [(0x20, 64)], c, k, p, fields⟩ :: rows) (o + 0x20 * n) = some (⟨o, [(0x20, 64)], c, k, p, fields⟩, n, 0) := by
  simp [findRow, rowIndex, hn]

/-- The row of an offset of page DMA beyond the header. -/
theorem regRow_dma (hl : 0x040 ≤ off) (hu : off < 0x1000) : regRow (0x9000 + off) = findRow rowsDMA off := by
  have hp : (0x9000 + off) / 0x1000 = 9 := by omega
  have ho : (0x9000 + off) % 0x1000 = off := by omega
  unfold regRow
  simp only [hp, ho, pageRows, Nat.not_lt.mpr hl, if_false]
  rcases findRow rowsDMA off with _ | ⟨r, i, j⟩ <;> rfl

theorem regRow_ringProd (hn : n < 64) : regRow (R.DMA_RING_PROD n) = some (ringRow 0x80C [fk 31 0 .rw 0 none], n, 0) := by
  have e : R.DMA_RING_PROD n = 0x9000 + (0x80C + 0x20 * n) := by unfold R.DMA_RING_PROD; omega
  rw [e, regRow_dma (by omega) (by omega)]
  simp (disch := omega) only [rowsDMA, findRow_ring_skip, findRow_ring_hit, ringRow]

theorem regRow_ringCons (hn : n < 64) : regRow (R.DMA_RING_CONS n) = some (ringConsRow, n, 0) := by
  have e : R.DMA_RING_CONS n = 0x9000 + (0x810 + 0x20 * n) := by unfold R.DMA_RING_CONS; omega
  rw [e, regRow_dma (by omega) (by omega)]
  simp (disch := omega) only [rowsDMA, findRow_ring_skip, findRow_ring_hit, ringConsRow, ringRow]

theorem regRow_ringPop (hn : n < 64) : regRow (R.DMA_RING_POP n) = some (ringRow 0x818 [fk 31 31 .ro 0 none, fk 15 0 .ro 0 none], n, 0) := by
  have e : R.DMA_RING_POP n = 0x9000 + (0x818 + 0x20 * n) := by unfold R.DMA_RING_POP; omega
  rw [e, regRow_dma (by omega) (by omega)]
  simp (disch := omega) only [rowsDMA, findRow_ring_skip, findRow_ring_hit, ringRow]

theorem ringPop_page (hn : n < 64) : R.DMA_RING_POP n / 0x1000 = P_DMA := by unfold R.DMA_RING_POP P_DMA; omega

theorem ringCons_page (hn : n < 64) : R.DMA_RING_CONS n / 0x1000 = P_DMA := by unfold R.DMA_RING_CONS P_DMA; omega

theorem ringPop_offset (hn : n < 64) : R.DMA_RING_POP n % 0x1000 = 0x818 + 0x20 * n := by unfold R.DMA_RING_POP; omega

theorem ringCons_offset (hn : n < 64) : R.DMA_RING_CONS n % 0x1000 = 0x810 + 0x20 * n := by unfold R.DMA_RING_CONS; omega

/-- PROD is no _LO half of a pair, so CONS, 4 above it, completes none (R8). -/
theorem loOf_ringCons (hn : n < 64) : loOf (R.DMA_RING_CONS n) = none := by
  have e : R.DMA_RING_CONS n - 4 = R.DMA_RING_PROD n := by unfold R.DMA_RING_CONS R.DMA_RING_PROD; omega
  unfold loOf
  rw [e, regRow_ringProd hn]
  rfl

end

/-! ### Reads of a page -/

/-- A read that goes straight to a register, and no batch of the fabric afterwards: the command is the read and its reply. -/
theorem State.cmdRead_direct {s t : State} {m : Master} {a i j : Nat} {r : RegRow} {w : Word} (hd : s.DirectRead m a) (hrow : regRow a = some (r, i, j))
    (hr : s.readPage m a r = (w, t)) (hq : t.quiet) (hf : t.pix.fabric.holders = []) : s.cmdRead m a = t.emit (.readReply m w) := by
  have hu : s.placeUp (.page (a / 0x1000)) = true := hd.up
  unfold State.cmdRead State.busRead State.readReg
  simp only [hd.reaches, hd.page, hd.held, hu, hrow, hr, if_true, Bool.not_true, Bool.false_eq_true, if_false]
  exact State.accessed_quiet (s := t.emit _) hq hf m

/-! ### POP -/

section
variable {s : State} {n : Nat}

/-- What the device holds of a ring after a change to one ring. -/
theorem State.rt_modRt (s : State) (n k : Nat) (f : RingRt → RingRt) : (s.modRt n f).rt k = if n = k ∧ k < s.host.rings.length then f (s.rt k) else s.rt k :=
  nth_updNth _ _ _ _

/-- POP of a submission ring, or of a record ring whose entries are all claimed. -/
theorem State.popRead_none (h : isSubmission n = true ∨ (s.rt n).claim = (s.reg (R.DMA_RING_PROD n)).toNat) : s.popRead n = (0, s) := by
  unfold State.popRead
  rcases h with h | h <;> simp [h]

/-- POP of a record ring with an entry that is not claimed. -/
theorem State.popRead_claims (hs : isSubmission n = false) (hc : (s.rt n).claim ≠ (s.reg (R.DMA_RING_PROD n)).toNat) :
    s.popRead n = (BitVec.ofNat 32 (0x80000000 + (s.rt n).claim % s.ringSize n), s.modRt n fun r => { r with claim := ((s.rt n).claim + 1) % 2 ^ 32 }) := by
  unfold State.popRead
  simp [hs, hc]

/-- A read of POP touches nothing but rings. -/
theorem State.popRead_tells (s : State) (n : Nat) : Tells s (s.popRead n).2 := by
  unfold State.popRead
  dsimp only
  split
  · exact Tells.refl s
  · exact tell_modRt (Tells.refl s) _ _

theorem State.readPage_ringPop {m : Master} {r : RegRow} (hn : n < 64) (hp : r.pair = false) (hc : s.captured m (R.DMA_RING_POP n) = none) :
    s.readPage m (R.DMA_RING_POP n) r = s.popRead n := by
  have hset : captureSet (R.DMA_RING_POP n) = [] := by
    unfold captureSet
    rw [ringPop_page hn]
    rfl
  have hlost : R.DMA_RING_POP n ≠ R.EVT_LOST := by unfold R.DMA_RING_POP R.EVT_LOST; omega
  have hpop : R.DMA_RING_POP n / 0x1000 = P_DMA ∧ 0x800 ≤ R.DMA_RING_POP n % 0x1000 ∧ R.DMA_RING_POP n % 0x20 = 0x18 := by
    refine ⟨ringPop_page hn, ?_, ?_⟩ <;> unfold R.DMA_RING_POP <;> omega
  have hidx : (R.DMA_RING_POP n % 0x1000 - 0x800) / 0x20 = n := by rw [ringPop_offset hn]; omega
  unfold State.readPage
  rw [hset, hc, hp]
  simp only [hlost, if_false, if_pos hpop, hidx, List.isEmpty_nil, Bool.not_true, Bool.false_eq_true]

/-- The command POP_READ is the claim and its reply. -/
theorem exec_popRead {m : Master} (hd : s.DirectRead m (R.DMA_RING_POP n)) (hn : n < 64) (hc : s.captured m (R.DMA_RING_POP n) = none) :
    exec (.popRead m n) s = .next ((s.popRead n).2.emit (.readReply m (s.popRead n).1)) := by
  have ht := s.popRead_tells n
  have hf : (s.popRead n).2.pix.fabric.holders = [] := by rw [ht.fabric, hd.fabric]
  exact congrArg _ (State.cmdRead_direct hd (regRow_ringPop hn) (State.readPage_ringPop hn rfl hc) (hd.quiet.of_tells ht) hf)

end

/-! ### CONS -/

section
variable {s : State} {n : Nat}

@[simp] theorem State.statusWrite_reg (s : State) (n a : Nat) : (s.statusWrite n).reg a = s.reg a := by
  unfold State.statusWrite
  split
  · rfl
  · split <;> rfl

/-- The status entry is due or written; what the ring has claimed and holds stays. -/
theorem State.statusWrite_rt (s : State) (n k : Nat) : ((s.statusWrite n).rt k).claim = (s.rt k).claim ∧ ((s.statusWrite n).rt k).held = (s.rt k).held := by
  have hdue : ∀ b, ((s.modRt n fun r => { r with statDue := b }).rt k).claim = (s.rt k).claim ∧ ((s.modRt n fun r => { r with statDue := b }).rt k).held = (s.rt k).held := by
    intro b
    rw [State.rt_modRt]
    split <;> exact ⟨rfl, rfl⟩
  unfold State.statusWrite
  split
  · exact ⟨rfl, rfl⟩
  · split
    · exact hdue true
    · exact hdue false

theorem State.ringFlush_nil (k : Nat) (h : (s.rt n).held = []) : s.ringFlush k n = s := by
  cases k with
  | zero => rfl
  | succ k => unfold State.ringFlush; rw [h]

/-- CONS is written `w` and the claim index follows where it would stay below (R138); what the ring reports of it comes after. -/
def State.consMove (s : State) (n : Nat) (w : Word) : State :=
  let t := s.setReg (R.DMA_RING_CONS n) w
  if (s.reg (R.DMA_RING_PROD n) - w).toNat < (s.reg (R.DMA_RING_PROD n) - BitVec.ofNat 32 (s.rt n).claim).toNat then t.modRt n fun r => { r with claim := w.toNat } else t

theorem State.consMove_reg (s : State) (n a : Nat) (w : Word) : (s.consMove n w).reg a = (s.setReg (R.DMA_RING_CONS n) w).reg a := by
  unfold State.consMove
  split <;> rfl

theorem State.consMove_held (w : Word) (h : (s.rt n).held = []) : ((s.consMove n w).rt n).held = [] := by
  unfold State.consMove
  split
  · rw [State.rt_modRt]
    split <;> exact h
  · exact h

theorem State.consMove_claim (w : Word) (hl : n < s.host.rings.length) : ((s.consMove n w).rt n).claim
    = if (s.reg (R.DMA_RING_PROD n) - w).toNat < (s.reg (R.DMA_RING_PROD n) - BitVec.ofNat 32 (s.rt n).claim).toNat then w.toNat else (s.rt n).claim := by
  unfold State.consMove
  split
  · rw [State.rt_modRt, if_pos ⟨rfl, hl⟩]
  · rfl

/-- With no record held on chip a write of CONS moves CONS and the claim index, and shows it in STAT and the status block. -/
theorem State.consWrite_of_held_nil (w : Word) (h : (s.rt n).held = []) : s.consWrite n w = ((s.consMove n w).ringFullFlag n).statusWrite n :=
  State.ringFlush_nil 64 ((State.statusWrite_rt _ n n).2.trans (State.consMove_held w h))

theorem State.consWrite_reg_cons (w : Word) (h : (s.rt n).held = []) : (s.consWrite n w).reg (R.DMA_RING_CONS n) = w := by
  have hne : R.DMA_RING_CONS n ≠ R.DMA_RING_STAT n := by unfold R.DMA_RING_CONS R.DMA_RING_STAT; omega
  rw [State.consWrite_of_held_nil w h, State.statusWrite_reg]
  unfold State.ringFullFlag
  rw [State.reg_put_other _ (F.DMA_RING_STAT_FULL n) _ _ hne, State.consMove_reg, State.reg_setReg_same]

theorem State.consWrite_claim (w : Word) (h : (s.rt n).held = []) (hl : n < s.host.rings.length) : ((s.consWrite n w).rt n).claim
    = if (s.reg (R.DMA_RING_PROD n) - w).toNat < (s.reg (R.DMA_RING_PROD n) - BitVec.ofNat 32 (s.rt n).claim).toNat then w.toNat else (s.rt n).claim := by
  rw [State.consWrite_of_held_nil w h]
  exact (State.statusWrite_rt _ n n).1.trans (State.consMove_claim w hl)

theorem toldReg_ringCons (hn : n < 64) (hs : isSubmission n = false) : toldOther (R.DMA_RING_CONS n) = true := by
  have e : R.DMA_RING_CONS n = 0x9800 + 0x20 * n + 4 * 4 := by unfold R.DMA_RING_CONS; omega
  rw [e]
  exact toldReg_ring n 4 hn hs (by decide)

/-- On a record ring a write of CONS changes only what reporting writes. -/
theorem State.consWrite_tells (w : Word) (hn : n < 64) (hs : isSubmission n = false) (h : (s.rt n).held = []) : Tells s (s.consWrite n w) := by
  have hset : Tells s (s.setReg (R.DMA_RING_CONS n) w) := tell_setReg (Tells.refl s) _ _ (toldReg_ringCons hn hs)
  rw [State.consWrite_of_held_nil w h]
  unfold State.ringFullFlag State.consMove
  exact tell_statusWrite (tell_put (tell_ite (tell_modRt hset _ _) hset) _ _ (toldReg_ringStat n hn hs)) n

/-! ### The bits and rules of CONS -/

theorem peek_ringCons (s : State) (hn : n < 64) : s.peek (R.DMA_RING_CONS n) = (s.live (R.DMA_RING_CONS n), s) := by
  have hgpio : R.DMA_RING_CONS n ≠ R.DEV_GPIO_IN := by unfold R.DMA_RING_CONS R.DEV_GPIO_IN; omega
  have hopen : s.openBits (R.DMA_RING_CONS n) = 0 := by
    unfold State.openBits R.DMA_RING_CONS R.PWR_VIN_MV R.PWR_VAUX_MV R.PLK_LOAD R.DEV_GPIO_IN
    rw [if_neg (by omega), if_neg (by omega), if_neg (by omega)]
  unfold State.peek
  simp only [hopen, hgpio, if_true, if_false]

/-- On a record ring every bit of CONS takes the value written (Table 5.8). -/
theorem rwBits_ringCons (hn : n < 64) (hs : isSubmission n = false) : rwBits ringConsRow (R.DMA_RING_CONS n) n = 0xFFFFFFFF#32 := by
  unfold rwBits
  rw [ringCons_page hn]
  simp [hs]

theorem writtenWord_ringCons (old w : Word) (hn : n < 64) (hs : isSubmission n = false) :
    writtenWord ringConsRow (R.DMA_RING_CONS n) n old w = w := by
  have h1c : rowMask ringConsRow .w1c = 0 := rfl
  have hall : w &&& 0xFFFFFFFF#32 = w := BitVec.and_allOnes
  unfold writtenWord
  rw [rwBits_ringCons hn hs, h1c]
  simp [hall]

theorem onlyReadOnly_ringCons (now w : Word) (hn : n < 64) (hs : isSubmission n = false) :
    onlyReadOnly ringConsRow (R.DMA_RING_CONS n) n now w = false := by
  have hro : roBits ringConsRow (R.DMA_RING_CONS n) n = 0 := by
    unfold roBits
    rw [rwBits_ringCons hn hs]
    rfl
  unfold onlyReadOnly
  rw [hro]
  simp

theorem writeBars_ringCons {m : Master} {j : Nat} {w : Word} (hn : n < 64) (hp : s.consPast n w = false) :
    s.writeBars m (R.DMA_RING_CONS n) n j 0x810 w = none := by
  unfold State.writeBars
  rw [ringCons_page hn]
  simp [hp, P_DMA, P_DEV, P_RSC, P_CLS, P_HIF]

theorem writeActs_ringCons {m : Master} {old w : Word} (s : State) (hn : n < 64) :
    s.writeActs m (R.DMA_RING_CONS n) n 0x810 old w = ((s.setReg (R.DMA_RING_CONS n) old).consWrite n w, none) := by
  unfold State.writeActs
  rw [ringCons_page hn]
  simp [P_DMA, P_DEV, P_RSC, P_CLS, P_EVT]

/-- A write of CONS of a record ring that does not pass PROD does what R137 and R138 say of it, from the state before the write. -/
theorem State.storeReg_ringCons {m : Master} {w : Word} (hn : n < 64) (hs : isSubmission n = false) (hp : s.consPast n w = false) :
    s.storeReg m (R.DMA_RING_CONS n) w
      = (((s.setReg (R.DMA_RING_CONS n) w).setReg (R.DMA_RING_CONS n) (s.reg (R.DMA_RING_CONS n))).consWrite n w, none) := by
  have ho := ringCons_offset hn
  have h1 : R.DMA_RING_CONS n % 0x1000 ≠ 0x008 := by omega
  have h2 : R.DMA_RING_CONS n % 0x1000 ≠ 0x014 := by omega
  have h3 : R.DMA_RING_CONS n % 0x1000 ≠ 0x01C := by omega
  unfold State.storeReg
  rw [regRow_ringCons hn]
  simp only [peek_ringCons s hn, h1, h2, h3, if_false, ringCons_page hn]
  simp [onlyReadOnly_ringCons _ w hn hs, writeBars_ringCons hn hp, loOf_ringCons hn, writtenWord_ringCons _ w hn hs, writeActs_ringCons, hn, P_DMA, P_CLS, P_CAL, P_MCH]

/-- The state that the write of CONS starts from holds the registers as they were. -/
theorem State.reg_setReg_back (s : State) (a b : Nat) (w : Word) : ((s.setReg a w).setReg a (s.reg a)).reg b = s.reg b := by
  by_cases h : b = a
  · rw [h, State.reg_setReg_same]
  · rw [State.reg_setReg_other _ _ _ _ h, State.reg_setReg_other _ _ _ _ h]

/-- The command RECORD_RING_CONS_WRITE is what CONS does from a state with the registers and rings as they are. -/
theorem exec_recordRingConsWrite {w : Word} (hd : s.Direct .host (R.DMA_RING_CONS n) w) (hn : n < 64) (hs : isSubmission n = false) (hp : s.consPast n w = false)
    (hh : (s.rt n).held = []) :
    ∃ u : State, (∀ a, u.reg a = s.reg a) ∧ u.host = s.host ∧ exec (.recordRingConsWrite n w) s = .next (u.consWrite n w) := by
  have htold := toldReg_ringCons hn hs
  have hback := tell_setReg (tell_setReg (Tells.refl s) _ w htold) _ (s.reg (R.DMA_RING_CONS n)) htold
  have ht := hback.trans (State.consWrite_tells w hn hs hh)
  exact ⟨_, fun b => s.reg_setReg_back _ b w, rfl, congrArg _ (State.cmdWrite_direct hd (State.storeReg_ringCons hn hs hp) (by rw [ht.fabric, hd.fabric]))⟩

end

/-- Settles O12: POP is one step of the claim index where an entry is unclaimed, and no change at all where none is or the ring is a submission ring; CONS takes the claim
index with it where that would stay below. -/
theorem popReads : Obligations.PopReads := by
  unfold Obligations.PopReads
  refine ⟨?claims, ?none, ?submission, ?cons⟩
  case claims =>
    intro m n s hd hn hs hne hl hc
    rw [exec_popRead hd hn hc, State.popRead_claims hs hne]
    refine ⟨_, rfl, rfl, ?_, fun k hk => ?_, rfl, rfl⟩
    · exact congrArg RingRt.claim ((s.rt_modRt n n _).trans (if_pos ⟨rfl, hl⟩))
    · exact (s.rt_modRt n k _).trans (if_neg fun h => hk h.1.symm)
  case none =>
    intro m n s hd hn _ he hc
    rw [exec_popRead hd hn hc, State.popRead_none (.inr he)]
    exact ⟨_, rfl, rfl, rfl, rfl, rfl⟩
  case submission =>
    intro m n s hd hn hs hc
    rw [exec_popRead hd hn hc, State.popRead_none (.inl hs)]
    exact ⟨_, rfl, rfl, rfl, rfl, rfl⟩
  case cons =>
    intro n w s hd hn hs hp hh hl
    obtain ⟨u, hreg, hhost, hexec⟩ := exec_recordRingConsWrite hd hn hs hp hh
    have hrt : u.rt n = s.rt n := congrArg (fun h : HostIf => nth h.rings n) hhost
    have hnil : (u.rt n).held = [] := by rw [hrt, hh]
    refine ⟨_, hexec, State.consWrite_reg_cons w hnil, ?_⟩
    rw [State.consWrite_claim w hnil (hhost ▸ hl), hreg, hrt]

end Sys2Proof.Machine

namespace Sys2Proof.Machine

open Sys2Proof

/-! ## Grants, preemption, hold cuts and starvation of the arbiter (R300 to R305, R308, R313)

The rules of one arbiter (DRAM front end, fabric or pool, Table 12.1) come first: what putting it back changes, which request `nearest` finds, and what each of `arbGive`, `arbLose`, `arbCut` and `arbStarve` does to the waiting
and the holding requests and to the registers of page ARB. Reporting changes neither, by `Tells`. -/

/-! ### The order of requests (R300) -/

theorem Req.before_iff (a b : Req) :
    a.before b = true ↔ a.deadline < b.deadline ∨ (a.deadline = b.deadline ∧ (a.raised < b.raised ∨ (a.raised = b.raised ∧ a.r < b.r))) := by
  simp [Req.before]

theorem Req.before_irrefl (a : Req) : a.before a = false := by
  simp [Req.before]

theorem Req.before_asymm {a b : Req} (h : a.before b = true) : b.before a = false := by
  rw [← Bool.not_eq_true, Req.before_iff]
  rw [Req.before_iff] at h
  omega

/-- What does not go before `b`, where `b` does not go before `c`, does not go before `c`. -/
theorem Req.not_before_trans {a b c : Req} (hab : a.before b = false) (hbc : b.before c = false) : a.before c = false := by
  rw [← Bool.not_eq_true, Req.before_iff] at *
  omega

theorem nearest_mem {l : List Req} {q : Req} (h : nearest l = some q) : q ∈ l := by
  induction l generalizing q with
  | nil => cases h
  | cons x l ih =>
    unfold nearest at h
    split at h
    · cases h
      exact List.mem_cons_self
    next b hb =>
      cases h
      split
      · exact List.mem_cons_of_mem _ (ih hb)
      · exact List.mem_cons_self

theorem nearest_eq_none_iff {l : List Req} : nearest l = none ↔ l = [] := by
  cases l with
  | nil => simp [nearest]
  | cons x l =>
    unfold nearest
    split <;> simp

/-- No request of the list goes before the one that is found. -/
theorem before_nearest {l : List Req} {q : Req} (h : nearest l = some q) : ∀ p ∈ l, p.before q = false := by
  induction l generalizing q with
  | nil => cases h
  | cons x l ih =>
    unfold nearest at h
    split at h
    next hnone =>
      cases h
      rw [nearest_eq_none_iff.mp hnone]
      intro p hp
      rw [List.mem_singleton.mp hp]
      exact x.before_irrefl
    next b hb =>
      cases h
      intro p hp
      by_cases hb' : b.before x = true
      · rw [if_pos hb']
        rcases List.mem_cons.mp hp with rfl | hp
        · exact Req.before_asymm hb'
        · exact ih hb p hp
      · rw [if_neg hb']
        rcases List.mem_cons.mp hp with rfl | hp
        · exact p.before_irrefl
        · exact Req.not_before_trans (ih hb p hp) (Bool.eq_false_iff.mpr hb')

/-! ### The registers of page ARB -/

/-- No register of an arbiter is one that reporting writes. -/
theorem toldReg_arb {a : Nat} (hl : 0x2F100 ≤ a) (hu : a < 0x30000) : toldReg a = false := by
  unfold toldReg R.SBP_EVQ R.SBP_LOG_SEQ R.EVT_SEQ R.EVT_LOST
  refine decide_eq_false ?_
  omega

section
variable {i r : Nat}

theorem arbCut_range (hi : i < 3) : 0x2F114 ≤ R.ARB_CUT i ∧ R.ARB_CUT i < 0x2F200 := by unfold R.ARB_CUT; omega

theorem arbStarved_range (hi : i < 3) : 0x2F110 ≤ R.ARB_STARVED i ∧ R.ARB_STARVED i < 0x2F200 := by unfold R.ARB_STARVED; omega

theorem arbHolding_range (hi : i < 3) : 0x2F118 ≤ R.ARB_HOLDING i ∧ R.ARB_HOLDING i < 0x2F200 := by unfold R.ARB_HOLDING; omega

theorem arbBlockMax_range (hi : i < 3) : 0x2F10C ≤ R.ARB_BLOCK_MAX i ∧ R.ARB_BLOCK_MAX i < 0x2F200 := by unfold R.ARB_BLOCK_MAX; omega

theorem arbReqCnt_range (hi : i < 3) (hr : r < 16) : 0x2F208 ≤ R.ARB_REQ_CNT i r ∧ R.ARB_REQ_CNT i r < 0x2F500 := by unfold R.ARB_REQ_CNT; omega

theorem arbLateMax_range (hi : i < 3) (hr : r < 16) : 0x2F20C ≤ R.ARB_LATE_MAX i r ∧ R.ARB_LATE_MAX i r < 0x2F500 := by unfold R.ARB_LATE_MAX; omega

theorem toldReg_arbCut (hi : i < 3) : toldReg (R.ARB_CUT i) = false := by
  have := arbCut_range hi
  exact toldReg_arb (by omega) (by omega)

theorem toldReg_arbStarved (hi : i < 3) : toldReg (R.ARB_STARVED i) = false := by
  have := arbStarved_range hi
  exact toldReg_arb (by omega) (by omega)

theorem toldReg_arbReqCnt (hi : i < 3) (hr : r < 16) : toldReg (R.ARB_REQ_CNT i r) = false := by
  have := arbReqCnt_range hi hr
  exact toldReg_arb (by omega) (by omega)

theorem toldReg_arbLateMax (hi : i < 3) (hr : r < 16) : toldReg (R.ARB_LATE_MAX i r) = false := by
  have := arbLateMax_range hi hr
  exact toldReg_arb (by omega) (by omega)

end

/-! ### An arbiter in the state -/

section
variable {s : State}

theorem State.arb_congr {t : State} (hmem : t.mem = s.mem) (hfabric : t.pix.fabric = s.pix.fabric) (hpool : t.pix.pool = s.pix.pool) (i : Nat) : t.arb i = s.arb i := by
  unfold State.arb
  rw [hmem, hfabric, hpool]

theorem Tells.arb {t : State} (h : Tells s t) (i : Nat) : t.arb i = s.arb i :=
  State.arb_congr h.mem h.fabric (show t.pix.core.pool = s.pix.core.pool by rw [h.pix]) i

end

section
variable (s : State) (i : Nat) (x : ArbInst)

@[simp] theorem State.put_arb (f : Fld) (v : Nat) : (s.put f v).arb i = s.arb i := rfl
@[simp] theorem State.setBit_arb (a b : Nat) (v : Bool) : (s.setBit a b v).arb i = s.arb i := rfl
@[simp] theorem State.satAdd_arb (f : Fld) (n : Nat) : (s.satAdd f n).arb i = s.arb i := rfl
@[simp] theorem State.peak_arb (f : Fld) (n : Nat) : (s.peak f n).arb i = s.arb i := rfl
@[simp] theorem State.atTime_arb (t : Nat) : (s.atTime t).arb i = s.arb i := rfl

@[simp] theorem State.setArb_arb : (s.setArb i x).arb i = x := by
  unfold State.setArb State.arb
  by_cases h0 : i = 0
  · simp [h0]
  · by_cases h1 : i = 1 <;> simp [h0, h1]

theorem State.setArb_reg_other {a : Nat} (h : a ≠ R.ARB_HOLDING i) : (s.setArb i x).reg a = s.reg a := by
  unfold State.setArb
  extract_lets u
  have hu : u.reg a = s.reg a := ite_reg rfl (ite_reg rfl rfl)
  rw [u.reg_put_other (F.ARB_HOLDING i) _ _ h, hu]

theorem State.setArb_get_other (f : Fld) (h : f.addr ≠ R.ARB_HOLDING i) : (s.setArb i x).get f = s.get f := by
  unfold State.get
  rw [s.setArb_reg_other i x h]

@[simp] theorem State.setArb_devtime : (s.setArb i x).devtime = s.devtime :=
  (via_setArb (Sub.refl _) (Via.refl _ s) i x).devtime rfl

@[simp] theorem State.setArb_pageUp (p : Nat) : (s.setArb i x).pageUp p = s.pageUp p := by
  unfold State.setArb
  extract_lets u
  have hu : u.pageUp p = s.pageUp p := by
    unfold u
    split
    · rfl
    · split <;> rfl
  rw [State.put_pageUp, hu]

/-- A saturating counter stops at the largest value of its field (R9). -/
theorem State.get_satAdd_same (f : Fld) (n : Nat) (h : f.hi < 32) : (s.satAdd f n).get f = min (fldMax f) (s.get f + n) := by
  have hpos : 0 < 2 ^ (f.hi + 1 - f.lo) := Nat.two_pow_pos _
  have hfit : min (fldMax f) (s.get f + n) < 2 ^ (f.hi + 1 - f.lo) := by unfold fldMax; omega
  exact s.get_put_fits f _ h hfit

theorem State.get_peak_same (f : Fld) (v : Nat) (h : f.hi < 32) : (s.peak f v).get f = max (s.get f) (min (fldMax f) v) := by
  have hpos : 0 < 2 ^ (f.hi + 1 - f.lo) := Nat.two_pow_pos _
  have hget : s.get f < 2 ^ (f.hi + 1 - f.lo) := getBits_lt _ _ _
  have hfit : max (s.get f) (min (fldMax f) v) < 2 ^ (f.hi + 1 - f.lo) := by unfold fldMax; omega
  exact s.get_put_fits f _ h hfit

/-- A bit that was set reads 1. -/
theorem State.bit_setBit_true (a b : Nat) (h : b < 32) : bit ((s.setBit a b true).reg a).toNat b = true := by
  have hreg : (s.setBit a b true).reg a = putBits b b (s.reg a) 1 := s.reg_put_same ⟨a, b, b⟩ 1
  unfold bit
  rw [hreg, testBit_putBits _ _ _ _ _ h]
  simp

end

/-! ### A grant (R300, R308, R313) -/

/-- The arbiter after `q` has been granted at `now` on `lane`. -/
def ArbInst.grant (a : ArbInst) (q : Req) (now lane : Nat) : ArbInst :=
  { waiting := a.waiting.erase q, holders := a.holders ++ [{ q with granted := now, stalled := 0, stallFrom := none, lane := lane }] }

/-- A grant without its report: the request has moved, and LATE_MAX and BLOCK_MAX have followed. -/
def State.arbGiven (s : State) (i : Nat) (q : Req) (lane blocked : Nat) : State :=
  let t := s.setArb i ((s.arb i).grant q s.devtime lane)
  (t.peak (F.ARB_LATE_MAX i q.r) (t.devtime - q.deadline)).peak (F.ARB_BLOCK_MAX i) blocked

section
variable (s : State) {i : Nat} (q : Req) (lane blocked : Nat)

theorem State.arbGiven_reg {a : Nat} (ha : a ∉ [R.ARB_HOLDING i, R.ARB_BLOCK_MAX i, R.ARB_LATE_MAX i q.r]) : (s.arbGiven i q lane blocked).reg a = s.reg a := by
  obtain ⟨hholding, hblock, hlate⟩ : a ≠ R.ARB_HOLDING i ∧ a ≠ R.ARB_BLOCK_MAX i ∧ a ≠ R.ARB_LATE_MAX i q.r := by simpa using ha
  unfold State.arbGiven State.peak
  rw [State.reg_put_other _ (F.ARB_BLOCK_MAX i) _ _ hblock, State.reg_put_other _ (F.ARB_LATE_MAX i q.r) _ _ hlate, s.setArb_reg_other i _ hholding]

theorem State.arbGiven_lateMax (hi : i < 3) (hr : q.r < 16) : (s.arbGiven i q lane blocked).get (F.ARB_LATE_MAX i q.r)
    = max (s.get (F.ARB_LATE_MAX i q.r)) (min (fldMax (F.ARB_LATE_MAX i q.r)) (s.devtime - q.deadline)) := by
  have hrange := arbLateMax_range hi hr
  have hblock : R.ARB_LATE_MAX i q.r ≠ R.ARB_BLOCK_MAX i := by have := arbBlockMax_range hi; omega
  have hholding : R.ARB_LATE_MAX i q.r ≠ R.ARB_HOLDING i := by have := arbHolding_range hi; omega
  unfold State.arbGiven
  extract_lets t
  have hkept : ((t.peak (F.ARB_LATE_MAX i q.r) (t.devtime - q.deadline)).peak (F.ARB_BLOCK_MAX i) blocked).get (F.ARB_LATE_MAX i q.r)
      = (t.peak (F.ARB_LATE_MAX i q.r) (t.devtime - q.deadline)).get (F.ARB_LATE_MAX i q.r) :=
    State.get_put_other _ (F.ARB_BLOCK_MAX i) (F.ARB_LATE_MAX i q.r) _ (show 15 < 32 by decide) (.inl hblock)
  rw [hkept, t.get_peak_same _ _ (show 23 < 32 by decide), s.setArb_get_other i _ (F.ARB_LATE_MAX i q.r) hholding, State.setArb_devtime]

theorem State.arbGive_eq : s.arbGive i q lane blocked = if (s.arbGiven i q lane blocked).get (F.ARB_WC_BLOCK i) < blocked then
    (s.arbGiven i q lane blocked).raise { page := P_ARB, bit := 6, detail := leBytes 1 i ++ leBytes 2 (min 0xFFFF blocked) } else s.arbGiven i q lane blocked := rfl

theorem State.arbGive_tells : Tells (s.arbGiven i q lane blocked) (s.arbGive i q lane blocked) := by
  rw [State.arbGive_eq]
  exact tell_ite (tell_raise (Tells.refl _) _) (Tells.refl _)

/-- Blocking beyond WC_BLOCK shows as BLOCK_OVER (R308). -/
theorem State.arbGive_shows (hi : i < 3) (hr : q.r < 16) (hup : s.pageUp P_ARB = true) (hb : s.get (F.ARB_WC_BLOCK i) < blocked) :
    (s.arbGive i q lane blocked).shows P_ARB 6 = true := by
  have hne : R.ARB_WC_BLOCK i ∉ [R.ARB_HOLDING i, R.ARB_BLOCK_MAX i, R.ARB_LATE_MAX i q.r] := by
    have := arbLateMax_range hi hr
    simp only [List.mem_cons, List.not_mem_nil, or_false]
    unfold R.ARB_WC_BLOCK R.ARB_HOLDING R.ARB_BLOCK_MAX
    omega
  have hget : (s.arbGiven i q lane blocked).get (F.ARB_WC_BLOCK i) = s.get (F.ARB_WC_BLOCK i) := congrArg (getBits 15 0) (s.arbGiven_reg q lane blocked hne)
  have hpage : (s.arbGiven i q lane blocked).pageUp P_ARB = true := (s.setArb_pageUp i _ P_ARB).trans hup
  rw [State.arbGive_eq, if_pos (hget ▸ hb)]
  exact shows_raise _ { page := P_ARB, bit := 6, detail := _ } hpage (show 6 < 32 by decide)

/-! The start of a lane (R337) changes since when it lingers and the class of its carats: no arbiter, and no register below page CRT. -/

theorem State.caratClass_arb (c j : Nat) : (s.caratClass lane c).arb j = s.arb j :=
  have h := via_caratClass (Sub.refl 33) (Via.refl 33 s) lane c
  State.arb_congr (h.mem rfl) (h.fabric rfl) (congrArg Pix.pool (h.pix rfl)) j

theorem State.setLinger_arb (time : Option Nat) (j : Nat) : (s.setLinger lane time).arb j = s.arb j := rfl

theorem State.laneStart_arb (w : Work) (j : Nat) : (s.laneStart lane w).arb j = s.arb j := by
  unfold State.laneStart
  rw [State.caratClass_arb, State.setLinger_arb]

theorem State.caratCounts_reg {a : Nat} (ha : a < 0x30000) : s.caratCounts.reg a = s.reg a := by
  have hstat : a ≠ R.CRT_CORE_STAT := by unfold R.CRT_CORE_STAT; omega
  have hpeak : a ≠ R.CRT_PEAK := by unfold R.CRT_PEAK; omega
  unfold State.caratCounts
  extract_lets g u
  have hu : u.reg a = s.reg a :=
    foldS_reg _ _ a (fun c t => t.reg_put_other (F.CRT_CONS_STAT_HELD c) _ a (show a ≠ R.CRT_CONS_STAT c by unfold R.CRT_CONS_STAT; omega)) s
  unfold State.peak
  rw [State.reg_put_other _ F.CRT_PEAK _ _ hpeak, State.reg_put_other _ F.CRT_CORE_STAT_GRANTED _ _ hstat, hu]

theorem State.laneStart_reg (w : Work) {a : Nat} (ha : a < 0x30000) : (s.laneStart lane w).reg a = s.reg a :=
  State.caratCounts_reg _ ha

/-- The arbiter after a grant. -/
theorem State.grantTo_arb : (s.grantTo i q lane blocked).arb i = (s.arb i).grant q s.devtime lane := by
  have hgive : (s.arbGive i q lane blocked).arb i = (s.arb i).grant q s.devtime lane := by
    rw [(s.arbGive_tells q lane blocked).arb]
    exact s.setArb_arb i _
  unfold State.grantTo
  dsimp only
  split
  · rw [State.laneStart_arb, hgive]
  · exact hgive

/-- Below page CRT a grant writes the registers that giving it writes. -/
theorem State.grantTo_reg_arbGive {a : Nat} (ha : a < 0x30000) : (s.grantTo i q lane blocked).reg a = (s.arbGive i q lane blocked).reg a := by
  unfold State.grantTo
  exact ite_reg (State.laneStart_reg _ _ _ ha) rfl

theorem State.grantTo_reg {a : Nat} (hu : a < 0x30000) (ht : toldReg a = false) (ha : a ∉ [R.ARB_HOLDING i, R.ARB_BLOCK_MAX i, R.ARB_LATE_MAX i q.r]) :
    (s.grantTo i q lane blocked).reg a = s.reg a := by
  rw [State.grantTo_reg_arbGive _ _ _ _ hu, (s.arbGive_tells q lane blocked).reg _ ht, s.arbGiven_reg q lane blocked ha]

/-- LATE_MAX keeps the largest lateness of a grant (R313). -/
theorem State.grantTo_lateMax (hi : i < 3) (hr : q.r < 16) : (s.grantTo i q lane blocked).get (F.ARB_LATE_MAX i q.r)
    = max (s.get (F.ARB_LATE_MAX i q.r)) (min (fldMax (F.ARB_LATE_MAX i q.r)) (s.devtime - q.deadline)) := by
  have hrange := arbLateMax_range hi hr
  have hreg : (s.grantTo i q lane blocked).reg (R.ARB_LATE_MAX i q.r) = (s.arbGiven i q lane blocked).reg (R.ARB_LATE_MAX i q.r) := by
    rw [State.grantTo_reg_arbGive _ _ _ _ (by omega), (s.arbGive_tells q lane blocked).reg _ (toldReg_arbLateMax hi hr)]
  rw [← s.arbGiven_lateMax q lane blocked hi hr]
  exact congrArg (getBits 23 0) hreg

/-- A grant counts no restart. -/
theorem State.grantTo_preempts {r : Nat} (hi : i < 3) (hr : r < 16) :
    (s.grantTo i q lane blocked).get (F.ARB_REQ_CNT_PREEMPTS i r) = s.get (F.ARB_REQ_CNT_PREEMPTS i r) := by
  have hrange := arbReqCnt_range hi hr
  have hne : R.ARB_REQ_CNT i r ∉ [R.ARB_HOLDING i, R.ARB_BLOCK_MAX i, R.ARB_LATE_MAX i q.r] := by
    simp only [List.mem_cons, List.not_mem_nil, or_false]
    unfold R.ARB_REQ_CNT R.ARB_HOLDING R.ARB_BLOCK_MAX R.ARB_LATE_MAX
    omega
  have hreg : (s.grantTo i q lane blocked).reg (R.ARB_REQ_CNT i r) = s.reg (R.ARB_REQ_CNT i r) :=
    s.grantTo_reg q lane blocked (by omega) (toldReg_arbReqCnt hi hr) hne
  exact congrArg (getBits 31 16) hreg

theorem State.grantTo_shows (hi : i < 3) (hr : q.r < 16) (hup : s.pageUp P_ARB = true) (hb : s.get (F.ARB_WC_BLOCK i) < blocked) :
    (s.grantTo i q lane blocked).shows P_ARB 6 = true :=
  (State.shows_congr (s.grantTo_reg_arbGive q lane blocked (by decide)) 6).trans (s.arbGive_shows q lane blocked hi hr hup hb)

end

/-! ### The loser of a preemption (R303) -/

section
variable (s : State) (i : Nat) (h : Req)

theorem State.arbLose_arb : (s.arbLose i h).arb i
    = { waiting := (s.arb i).waiting ++ [{ h with granted := 0, stalled := 0, stallFrom := none }], holders := (s.arb i).holders.erase h } := by
  unfold State.arbLose
  rw [State.satAdd_arb, State.setArb_arb]
  rfl

theorem State.arbLose_preempts (hi : i < 3) (hr : h.r < 16) : (s.arbLose i h).get (F.ARB_REQ_CNT_PREEMPTS i h.r)
    = min (fldMax (F.ARB_REQ_CNT_PREEMPTS i h.r)) (s.get (F.ARB_REQ_CNT_PREEMPTS i h.r) + 1) := by
  have hne : R.ARB_REQ_CNT i h.r ≠ R.ARB_HOLDING i := by
    have := arbReqCnt_range hi hr
    have := arbHolding_range hi
    omega
  unfold State.arbLose
  rw [State.get_satAdd_same _ _ _ (show 31 < 32 by decide), s.setArb_get_other i _ (F.ARB_REQ_CNT_PREEMPTS i h.r) hne]

end

/-! ### Raising work afresh and the hold cut (R299, R304) -/

section
variable (s : State) (i r need : Nat) (panic : Bool) (w : Work)

theorem State.arbRaise_holders : ((s.arbRaise i r need panic w).arb i).holders = (s.arb i).holders := by
  unfold State.arbRaise State.panicRewrite
  cases panic <;> simp

/-- Work that is raised now waits behind all other requests. -/
theorem State.arbRaise_last : ∃ q, ((s.arbRaise i r need panic w).arb i).waiting.getLast? = some q ∧ q.r = r ∧ q.work = w ∧ q.raised = s.devtime := by
  unfold State.arbRaise State.panicRewrite
  cases panic <;> simp

theorem State.arbRaise_reg_other {a : Nat} (ha : a ≠ R.ARB_HOLDING i) : (s.arbRaise i r need panic w).reg a = s.reg a := by
  unfold State.arbRaise
  extract_lets u
  have hu : u.reg a = s.reg a := ite_reg (s.setArb_reg_other i _ ha) rfl
  rw [u.setArb_reg_other i _ ha, hu]

theorem State.arbRaise_pageUp (p : Nat) : (s.arbRaise i r need panic w).pageUp p = s.pageUp p := by
  unfold State.arbRaise State.panicRewrite
  cases panic <;> simp

end

section
variable (s : State) (i : Nat) (h : Req) (need : Nat) (panic : Bool)

/-- A hold cut without its report: the work is raised again, and CUT and CUTS have followed. -/
def State.arbCutOff : State :=
  (((s.arbDone i h).arbRaise i h.r need panic h.work).setBit (R.ARB_CUT i) h.r true).satAdd (F.ARB_REQ_CNT_CUTS i h.r) 1

theorem State.arbCut_eq : s.arbCut i h need panic = (s.arbCutOff i h need panic).raise { page := P_ARB, bit := 5, detail := leBytes 1 i ++ leBytes 1 h.r } := rfl

theorem State.arbCut_tells : Tells (s.arbCutOff i h need panic) (s.arbCut i h need panic) := by
  rw [State.arbCut_eq]
  exact tell_raise (Tells.refl _) _

theorem State.arbCut_arb : (s.arbCut i h need panic).arb i = ((s.arbDone i h).arbRaise i h.r need panic h.work).arb i := (s.arbCut_tells i h need panic).arb i

theorem State.arbCut_holders : ((s.arbCut i h need panic).arb i).holders = (s.arb i).holders.erase h := by
  rw [State.arbCut_arb, State.arbRaise_holders]
  unfold State.arbDone
  rw [State.setArb_arb]
  rfl

theorem State.arbCut_last : ∃ q, ((s.arbCut i h need panic).arb i).waiting.getLast? = some q ∧ q.r = h.r ∧ q.work = h.work ∧ q.raised = s.devtime := by
  have hnow : (s.arbDone i h).devtime = s.devtime := s.setArb_devtime i _
  rw [State.arbCut_arb, ← hnow]
  exact (s.arbDone i h).arbRaise_last i h.r need panic h.work

theorem State.arbCut_shows (hup : s.pageUp P_ARB = true) : (s.arbCut i h need panic).shows P_ARB 5 = true := by
  have hpage : (s.arbCutOff i h need panic).pageUp P_ARB = true :=
    ((s.arbDone i h).arbRaise_pageUp i h.r need panic h.work P_ARB).trans ((s.setArb_pageUp i _ P_ARB).trans hup)
  rw [State.arbCut_eq]
  exact shows_raise _ { page := P_ARB, bit := 5, detail := _ } hpage (show 5 < 32 by decide)

variable {i h}

/-- CUT holds the bit of the requester that was cut off. -/
theorem State.arbCut_cut (hi : i < 3) (hr : h.r < 16) : bit ((s.arbCut i h need panic).reg (R.ARB_CUT i)).toNat h.r = true := by
  have hne : R.ARB_CUT i ≠ R.ARB_REQ_CNT i h.r := by
    have := arbCut_range hi
    have := arbReqCnt_range hi hr
    omega
  rw [(s.arbCut_tells i h need panic).reg _ (toldReg_arbCut hi)]
  unfold State.arbCutOff State.satAdd
  rw [State.reg_put_other _ (F.ARB_REQ_CNT_CUTS i h.r) _ _ hne]
  exact State.bit_setBit_true _ _ _ (by omega)

theorem State.arbCut_cuts (hi : i < 3) (hr : h.r < 16) : (s.arbCut i h need panic).get (F.ARB_REQ_CNT_CUTS i h.r)
    = min (fldMax (F.ARB_REQ_CNT_CUTS i h.r)) (s.get (F.ARB_REQ_CNT_CUTS i h.r) + 1) := by
  have hrange := arbReqCnt_range hi hr
  have hcut : R.ARB_REQ_CNT i h.r ≠ R.ARB_CUT i := by have := arbCut_range hi; omega
  have hholding : R.ARB_REQ_CNT i h.r ≠ R.ARB_HOLDING i := by have := arbHolding_range hi; omega
  have hbefore : (((s.arbDone i h).arbRaise i h.r need panic h.work).setBit (R.ARB_CUT i) h.r true).get (F.ARB_REQ_CNT_CUTS i h.r) = s.get (F.ARB_REQ_CNT_CUTS i h.r) := by
    refine congrArg (getBits 15 0) ?_
    show State.reg _ (R.ARB_REQ_CNT i h.r) = _
    unfold State.setBit State.arbDone
    rw [State.reg_put_other _ ⟨R.ARB_CUT i, h.r, h.r⟩ _ _ hcut, State.arbRaise_reg_other _ _ _ _ _ _ hholding, s.setArb_reg_other i _ hholding]
    rfl
  rw [(s.arbCut_tells i h need panic).get _ (toldReg_arbReqCnt hi hr)]
  unfold State.arbCutOff
  rw [State.get_satAdd_same _ _ _ (show 15 < 32 by decide), hbefore]

end

/-! ### Starvation (R305) -/

/-- A request that starves, without its report: it is marked, and STARVED has followed. -/
def State.arbStarved (s : State) (i r : Nat) (q : Req) : State :=
  (s.setArb i { s.arb i with waiting := (s.arb i).waiting.map fun p => if p = q then { p with starved := true } else p }).setBit (R.ARB_STARVED i) r true

section
variable (s : State) {i r : Nat} {q : Req}

theorem State.arbStarved_arb : (s.arbStarved i r q).arb i
    = { s.arb i with waiting := (s.arb i).waiting.map fun p => if p = q then { p with starved := true } else p } := by
  unfold State.arbStarved
  rw [State.setBit_arb, State.setArb_arb]

theorem State.arbStarved_pageUp (p : Nat) : (s.arbStarved i r q).pageUp p = s.pageUp p := s.setArb_pageUp i _ p

theorem State.arbStarved_reg {a : Nat} (ha : a ∉ [R.ARB_STARVED i, R.ARB_HOLDING i]) : (s.arbStarved i r q).reg a = s.reg a := by
  obtain ⟨hstarved, hholding⟩ : a ≠ R.ARB_STARVED i ∧ a ≠ R.ARB_HOLDING i := by simpa using ha
  unfold State.arbStarved State.setBit
  rw [State.reg_put_other _ ⟨R.ARB_STARVED i, r, r⟩ _ _ hstarved, s.setArb_reg_other i _ hholding]

section
variable (hfind : ((s.arb i).waiting.find? fun q => decide (q.r = r) && !q.starved && decide (q.deadline + s.get (F.ARB_STARVE i) ≤ s.devtime)) = some q)
include hfind

theorem State.arbStarve_of_find :
    s.arbStarve i r = (s.arbStarved i r q).raise { page := P_ARB, bit := 4, detail := leBytes 1 i ++ leBytes 1 r ++ leBytes 6 q.deadline } := by
  unfold State.arbStarve
  rw [hfind]
  rfl

theorem State.arbStarve_tells : Tells (s.arbStarved i r q) (s.arbStarve i r) :=
  s.arbStarve_of_find hfind ▸ tell_raise (Tells.refl _) _

theorem State.arbStarve_arb : (s.arbStarve i r).arb i
    = { s.arb i with waiting := (s.arb i).waiting.map fun p => if p = q then { p with starved := true } else p } :=
  ((s.arbStarve_tells hfind).arb i).trans s.arbStarved_arb

theorem State.arbStarve_reg {a : Nat} (ha : a ∉ [R.ARB_STARVED i, R.ARB_HOLDING i]) (ht : toldReg a = false) : (s.arbStarve i r).reg a = s.reg a :=
  ((s.arbStarve_tells hfind).reg a ht).trans (s.arbStarved_reg ha)

theorem State.arbStarve_starved (hi : i < 3) (hr : r < 16) : bit ((s.arbStarve i r).reg (R.ARB_STARVED i)).toNat r = true := by
  rw [(s.arbStarve_tells hfind).reg _ (toldReg_arbStarved hi)]
  exact State.bit_setBit_true _ _ _ (by omega)

theorem State.arbStarve_shows (hup : s.pageUp P_ARB = true) : (s.arbStarve i r).shows P_ARB 4 = true := by
  rw [s.arbStarve_of_find hfind]
  exact shows_raise _ { page := P_ARB, bit := 4, detail := _ } ((s.arbStarved_pageUp P_ARB).trans hup) (show 4 < 32 by decide)

end

end

/-! ### The commands -/

theorem Runs.dram {A : Nat} {s t : State} {o : Host.Outcome State Fault Refusal} (h : Runs A s o) (hA : A.testBit 1 = false) (ho : o = .next t) : t.dram = s.dram := by
  obtain ⟨u, hu, hvia⟩ := h
  cases hu.symm.trans ho
  exact hvia.dram hA

section
variable {s : State} {t0 i lane need blocked r : Nat} {q h : Req}

/-- ARB_GRANT grants the request that is nearest among those with room. -/
theorem exec_arbGrant (hi : i < 3) (hup : s.up (arbIsland i) = true) (hq : nearest ((s.arb i).waiting.filter fun q => s.arbRoom i lane q) = some q) :
    exec (.arbGrant t0 i lane blocked) s = .next ((s.atTime t0).grantTo i q lane blocked) := by
  have hgrant : (s.atTime t0).arbGrant i lane blocked = (s.atTime t0).grantTo i q lane blocked := by
    unfold State.arbGrant
    rw [show nearest (((s.atTime t0).arb i).waiting.filter fun q => (s.atTime t0).arbRoom i lane q) = some q from hq]
  show execArbGrant t0 i lane blocked s = _
  unfold execArbGrant
  rw [if_pos ⟨hi, hup⟩, hgrant]

/-- The fabric and the pool lie in PIX (Table 12.1). -/
theorem arbIsland_pix (hi : i = 1 ∨ i = 2) : arbIsland i = 3 := by
  rcases hi with rfl | rfl <;> rfl

/-- ARB_PREEMPTION takes the grant of a victim that has not reached its hold limit. -/
theorem exec_arbPreemption (hi : i = 1 ∨ i = 2) (hup : s.up 3 = true)
    (hq : nearest ((s.arb i).waiting.filter fun q => !(s.victims i q).isEmpty && (i == 1 || decide (32 ≤ (s.arb 2).holders.length))) = some q)
    (hv : victimOf (s.victims i q) = some h) (hover : (s.atTime t0).overHold i h = false) :
    exec (.arbPreemption t0 i need blocked) s = .next (((s.atTime t0).grantTo i q h.lane blocked).arbLose i h) := by
  have hpre : (s.atTime t0).arbPreempt i need blocked = ((s.atTime t0).grantTo i q h.lane blocked).arbLose i h := by
    unfold State.arbPreempt
    rw [show nearest (((s.atTime t0).arb i).waiting.filter fun q =>
      !((s.atTime t0).victims i q).isEmpty && (i == 1 || decide (32 ≤ ((s.atTime t0).arb 2).holders.length))) = some q from hq]
    dsimp only
    rw [show victimOf ((s.atTime t0).victims i q) = some h from hv]
    simp [hover]
  show execArbPreemption t0 i need blocked s = _
  unfold execArbPreemption
  rw [if_pos ⟨hi, arbIsland_pix hi ▸ hup⟩, hpre]

/-- A holder is cut off, and at the pool its lane lingers. -/
def State.holdCut (s : State) (i lane need : Nat) (h : Req) : State :=
  let t := s.arbCut i h need (s.workPanic h.work)
  if i = 2 then t.setLinger lane (some t.devtime) else t

/-- ARB_HOLD_CUT cuts off the holder of the requester that has kept its grant beyond MAX_HOLD. -/
theorem exec_arbHoldCut (hi : i = 1 ∨ i = 2) (hup : s.up 3 = true)
    (hfind : ((s.arb i).holders.find? fun h => decide (h.r = r) && (i == 1 || decide (h.lane = lane)) && (s.atTime t0).overHold i h && !(i == 1 && r == 0)) = some h) :
    exec (.arbHoldCut t0 i r lane need) s = .next ((s.atTime t0).holdCut i lane need h) := by
  show execArbHoldCut t0 i r lane need s = _
  unfold execArbHoldCut
  dsimp only
  rw [if_pos ⟨hi, arbIsland_pix hi ▸ hup⟩, State.atTime_arb, hfind]
  rfl

theorem State.holdCut_arb : (s.holdCut i lane need h).arb i = (s.arbCut i h need (s.workPanic h.work)).arb i := by
  unfold State.holdCut
  dsimp only
  split <;> rfl

theorem State.holdCut_reg (a : Nat) : (s.holdCut i lane need h).reg a = (s.arbCut i h need (s.workPanic h.work)).reg a := by
  unfold State.holdCut
  exact ite_reg rfl rfl

theorem exec_arbStarve (hi : i < 3) (hup : s.up (arbIsland i) = true) :
    exec (.arbStarve t0 i r) s = .next ((s.atTime t0).arbStarve i r) := by
  show execArbStarve t0 i r s = _
  unfold execArbStarve
  rw [if_pos ⟨hi, hup⟩]

end

/-- Settles O37: `nearest` finds a request that none goes before, and granting, losing a grant, being cut off and starving each move just their request; what is reported touches
neither the arbiters nor their registers. -/
theorem arbiterGrants : Obligations.ArbiterGrants := by
  unfold Obligations.ArbiterGrants
  refine ⟨?grant, ?preemption, ?holdCut, ?starve⟩
  case grant =>
    rintro t0 i lane blocked s hi hup hreq ⟨p, hp, hroom⟩
    obtain ⟨q, hq⟩ : ∃ q, nearest ((s.arb i).waiting.filter fun q => s.arbRoom i lane q) = some q :=
      Option.ne_none_iff_exists'.mp fun hnone => List.not_mem_nil (nearest_eq_none_iff.mp hnone ▸ List.mem_filter.mpr ⟨hp, hroom⟩)
    obtain ⟨hmem, hqroom⟩ := List.mem_filter.mp (nearest_mem hq)
    have hexec := exec_arbGrant (t0 := t0) (blocked := blocked) hi hup hq
    have harb := (s.atTime t0).grantTo_arb (i := i) q lane blocked
    refine ⟨_, q, hexec, hmem, hqroom, fun p hp hr => before_nearest hq p (List.mem_filter.mpr ⟨hp, hr⟩), ?_, ?_,
      (s.atTime t0).grantTo_lateMax q lane blocked hi (hreq q hmem), fun hb hpage => (s.atTime t0).grantTo_shows q lane blocked hi (hreq q hmem) hpage hb,
      (via_execArbGrant (Sub.refl _) (Via.refl _ s) t0 i lane blocked).dram rfl hexec, fun a hpage ha ht => (s.atTime t0).grantTo_reg q lane blocked ?_ ht ha⟩
    · rw [harb]
      rfl
    · rw [harb]
      rfl
    · unfold P_ARB at hpage; omega
  case preemption =>
    intro t0 i need blocked q h s hi hup hhr _ hq hv hover
    have hi3 : i < 3 := by omega
    have hexec := exec_arbPreemption (t0 := t0) (need := need) (blocked := blocked) hi hup hq hv hover
    have harb := (s.atTime t0).grantTo_arb (i := i) q h.lane blocked
    refine ⟨_, hexec, ?_, ?_, ?_, (via_execArbPreemption (Sub.refl _) (Via.refl _ s) t0 i need blocked).dram rfl hexec⟩
    · rw [State.arbLose_arb, harb]
      rfl
    · rw [State.arbLose_arb, harb]
      rfl
    · rw [State.arbLose_preempts _ _ _ hi3 hhr, (s.atTime t0).grantTo_preempts q h.lane blocked hi3 hhr, State.atTime_get]
  case holdCut =>
    intro t0 i r lane need h s hi hup hhr hfind
    have hi3 : i < 3 := by omega
    have hpage : (s.atTime t0).pageUp P_ARB = true := hup
    have hexec := exec_arbHoldCut (need := need) hi hup hfind
    refine ⟨_, hexec, ?_, ?_, ?_, ?_, ?_, (via_execArbHoldCut (Sub.refl _) (Via.refl _ s) t0 i r lane need).dram rfl hexec⟩
    · rw [State.holdCut_arb, State.arbCut_holders, State.atTime_arb]
    · rw [State.holdCut_reg]
      exact State.arbCut_cut _ _ _ hi3 hhr
    · rw [State.shows_congr (State.holdCut_reg _)]
      exact State.arbCut_shows _ _ _ _ _ hpage
    · rw [State.holdCut_arb]
      exact State.arbCut_last _ _ _ _ _
    · have hcuts := (s.atTime t0).arbCut_cuts need ((s.atTime t0).workPanic h.work) hi3 hhr
      exact (congrArg (getBits 15 0) (State.holdCut_reg _)).trans hcuts
  case starve =>
    intro t0 i r q s hi hr hup hpage hfind
    have hq : q ∈ (s.arb i).waiting := List.mem_of_find?_eq_some hfind
    have hexec := exec_arbStarve (t0 := t0) (r := r) hi hup
    have harb := (s.atTime t0).arbStarve_arb (r := r) hfind
    refine ⟨_, hexec, ?_, ?_, ?_, (s.atTime t0).arbStarve_starved hfind hi hr, (s.atTime t0).arbStarve_shows hfind hpage,
      fun a ha ht => (s.atTime t0).arbStarve_reg hfind ha ht, (via_execArbStarve (Sub.refl _) (Via.refl _ s) t0 i r).dram rfl hexec⟩
    · rw [harb]
      exact List.mem_map.mpr ⟨q, hq, if_pos rfl⟩
    · rw [harb]
      exact List.length_map _
    · rw [harb]
      rfl

end Sys2Proof.Machine

namespace Sys2Proof.Machine

open Sys2Proof

/-! ## The chain's addresses, rate and epoch (R399, R403, R407 to R409, R412, R413)

Each command of the chain is one equation: the state it stores, and the event it raises on it. `Tells` says that raising leaves what was stored; what remains is to read
registers, the chain's pad and the arm in the stored state. The pulse of the source and the edge of the other units share `State.epochTaken`, and every arm, disarm and expiry
goes through `State.setArm`. -/

/-! ### Reporting leaves the arm, 64-bit quantities and pads -/

section
variable {s u t : State}

theorem Tells.arm (h : Tells u t) : t.aux.arm = u.aux.arm := by
  show t.aux.core.arm = u.aux.core.arm
  rw [h.aux]

theorem Tells.pad (h : Tells u t) (p : Nat) : t.pad p = u.pad p := by
  unfold State.pad
  rw [h.pads]

theorem State.get64_congr {a : Nat} (hlo : t.reg a = u.reg a) (hhi : t.reg (a + 4) = u.reg (a + 4)) : t.get64 a = u.get64 a := by
  unfold State.get64
  rw [hlo, hhi]

theorem Tells.get64 (h : Tells u t) (a : Nat) (hlo : toldReg a = false) (hhi : toldReg (a + 4) = false) : t.get64 a = u.get64 a :=
  State.get64_congr (h.reg _ hlo) (h.reg _ hhi)

/-- Reporting on a state that differs from `s` in `l` only. -/
theorem Tells.onlyRegs {l : List Nat} (h : Tells u t) (hu : ∀ a, a ∉ l → u.reg a = s.reg a) : OnlyRegs s t l :=
  fun a ha htold => (h.reg a htold).trans (hu a ha)

theorem State.on_congr {f : Fld} (h : t.get f = s.get f) : t.on f = s.on f := by
  unfold State.on
  rw [h]

theorem State.on_of_get {f : Fld} {v : Bool} (h : s.get f = b2n v) : s.on f = v := by
  unfold State.on
  rw [h]
  cases v <;> rfl

end

/-! ### 64-bit quantities (R8) -/

section
variable (s : State) (lo v : Nat)

@[simp] theorem State.modAux_get64 (f : Aux → Aux) : (s.modAux f).get64 lo = s.get64 lo := rfl

@[simp] theorem State.put64_aux : (s.put64 lo v).aux = s.aux := rfl
@[simp] theorem State.put64_dram : (s.put64 lo v).dram = s.dram := rfl
@[simp] theorem State.put64_devtime : (s.put64 lo v).devtime = s.devtime := rfl
@[simp] theorem State.put64_out : (s.put64 lo v).out = s.out := rfl

@[simp] theorem State.satAdd_aux (f : Fld) (n : Nat) : (s.satAdd f n).aux = s.aux := rfl
@[simp] theorem State.satAdd_dram (f : Fld) (n : Nat) : (s.satAdd f n).dram = s.dram := rfl
@[simp] theorem State.satAdd_devtime (f : Fld) (n : Nat) : (s.satAdd f n).devtime = s.devtime := rfl
@[simp] theorem State.satAdd_out (f : Fld) (n : Nat) : (s.satAdd f n).out = s.out := rfl

theorem State.get64_put64 : (s.put64 lo v).get64 lo = v % 2 ^ 64 := by
  unfold State.get64 State.put64
  rw [State.reg_setReg_same, State.reg_setReg_other _ _ _ _ (by omega), State.reg_setReg_same, BitVec.toNat_ofNat, BitVec.toNat_ofNat]
  omega

theorem State.reg_put64_other {a : Nat} (hlo : a ≠ lo) (hhi : a ≠ lo + 4) : (s.put64 lo v).reg a = s.reg a := by
  unfold State.put64
  rw [State.reg_setReg_other _ _ _ _ hhi, State.reg_setReg_other _ _ _ _ hlo]

theorem State.get_put64_other (f : Fld) (hlo : f.addr ≠ lo) (hhi : f.addr ≠ lo + 4) : (s.put64 lo v).get f = s.get f := by
  unfold State.get
  rw [s.reg_put64_other lo v hlo hhi]

theorem State.get64_put_other (f : Fld) (hlo : lo ≠ f.addr) (hhi : lo + 4 ≠ f.addr) : (s.put f v).get64 lo = s.get64 lo :=
  State.get64_congr (s.reg_put_other f v _ hlo) (s.reg_put_other f v _ hhi)

theorem State.get64_put64_other {a : Nat} (h : lo + 4 < a) : (s.put64 lo v).get64 a = s.get64 a :=
  State.get64_congr (s.reg_put64_other lo v (by omega) (by omega)) (s.reg_put64_other lo v (by omega) (by omega))

theorem unsignedOf_lt (x : Int) : unsignedOf 64 x < 2 ^ 64 := by
  unfold unsignedOf
  omega

theorem State.get64_putInt64 (x : Int) : (s.putInt64 lo x).get64 lo = unsignedOf 64 x := by
  unfold State.putInt64
  rw [State.get64_put64, Nat.mod_eq_of_lt (unsignedOf_lt x)]

end

/-! ### The pads beyond the output groups -/

section
variable (s : State) {p : Nat} (x : PadPhase)

/-- A pad that is no output group shows in no register. -/
theorem State.setPad_eq_modAux (hp : 15 ≤ p) : s.setPad p x = s.modAux fun a => { a with pads := updNth a.pads p fun _ => x } := by
  unfold State.setPad
  simp [show ¬ (p < 12) by omega, show ¬ (p < 15) by omega]

theorem State.pad_setPad_same (hp : p < s.aux.pads.length) (hh : 15 ≤ p) : (s.setPad p x).pad p = x := by
  rw [State.setPad_eq_modAux s x hh]
  unfold State.pad
  rw [State.modAux_aux, nth_updNth]
  simp [hp]

theorem State.reg_setPad (hp : 15 ≤ p) (a : Nat) : (s.setPad p x).reg a = s.reg a := by
  rw [State.setPad_eq_modAux s x hp]
  rfl

@[simp] theorem State.setPad_power (p : Nat) : (s.setPad p x).aux.power = s.aux.power := by
  unfold State.setPad
  split <;> split <;> rfl

@[simp] theorem State.setPad_dram (p : Nat) : (s.setPad p x).dram = s.dram := by
  unfold State.setPad
  split <;> split <;> rfl

end

/-! ### The frames of the side-band -/

section
variable {s : State}

/-- While the side-band is alive, AUX runs, and with it the pages SBP and CHN. -/
theorem State.pageUp_of_sbAlive {p : Nat} (ha : s.sbAlive = true) (hp : pageIsland p = 0) : s.pageUp p = true := by
  unfold State.sbAlive at ha
  simp only [Bool.and_eq_true] at ha
  obtain ⟨⟨⟨hup, _⟩, _⟩, _⟩ := ha
  unfold State.pageUp
  rw [hp]
  exact hup

/-- An event of AUX shows on a state that differs from a live one in no supply and no island. -/
theorem shows_raise_of_sbAlive {u : State} (e : Evt) (ha : s.sbAlive = true) (hu : u.aux.power = s.aux.power) (hp : pageIsland e.page = 0) (hb : e.bit < 32) :
    (u.raise e).shows e.page e.bit = true := by
  have hphases : u.aux.phases = s.aux.phases := congrArg (fun x => x.2.2.2) hu
  have hup : u.pageUp e.page = s.pageUp e.page := by
    unfold State.pageUp State.up State.phase
    rw [hp, hphases]
    rfl
  exact shows_raise u e (hup.trans (State.pageUp_of_sbAlive ha hp)) hb

theorem State.sbTo_mine {addr : Nat} (f : State → State) (ha : s.sbAlive = true) (hc : addr ≠ 0x3F) (hm : s.sbMine addr = true) :
    s.sbTo addr f = f (s.satAdd F.SBP_RX_FRAMES 1) := by
  unfold State.sbTo
  simp [ha, hc, hm]

theorem State.sbCast_good {good : Bool} (f : State → State) (ha : s.sbAlive = true) (hg : good = true) : s.sbCast good f = f (s.satAdd F.SBP_RX_FRAMES 1) := by
  unfold State.sbCast
  simp [ha, hg]

theorem State.sbCast_bad {good : Bool} (f : State → State) (ha : s.sbAlive = true) (hg : good = false) : s.sbCast good f = s.sbError false := by
  unfold State.sbCast
  simp [ha, hg]

/-- An error that is no CRC mismatch is counted in OTHER, and the rest of `sbError` only reports. -/
theorem State.sbError_tells (s : State) : Tells ((s.satAdd F.SBP_RX_ERR_OTHER 1).freshBytes 1).2 (s.sbError false) := tell_raise (Tells.refl _) _

end

/-! ### ASSIGN and UNASSIGN (R407, R408) -/

/-- The front with its address: the frame is counted and replied to, ADDR is set and CHAIN_OUT goes into rest-follow. -/
def State.assigned (s : State) (new : Nat) : State :=
  (((s.satAdd F.SBP_RX_FRAMES 1).sbReply 0 0x10 (leBytes 1 0 ++ leBytes 1 new ++ leBytes 8 Config.serial.toNat)).put F.CHN_ADDR new).setPad 33 (.follow s.devtime none)

/-- A unit without its address: the frame is counted, ADDR is 0 and CHAIN_OUT at rest. -/
def State.unassigned (s : State) : State := ((s.satAdd F.SBP_RX_FRAMES 1).put F.CHN_ADDR 0).setPad 33 .rest

section
variable {s : State}

theorem exec_sbAssign {new : Nat} (ha : s.sbAlive = true) (hf : s.front = true) (h1 : 1 ≤ new) (h62 : new ≤ 62) :
    exec (.sbAssign 0 new) s = .next ((s.assigned new).raise { page := P_CHN, bit := 4, detail := leBytes 1 new }) := by
  have hrange : ¬ (new = 0 ∨ 62 < new) := by omega
  show Host.Outcome.next (s.sbAssignCmd 0 new) = _
  unfold State.sbAssignCmd
  rw [State.sbTo_mine (addr := 0) _ ha (by decide) hf, if_neg (fun h : (0 : Nat) ≠ 0 => h rfl), if_neg hrange]
  rfl

theorem exec_sbUnassign (ha : s.sbAlive = true) : exec (.sbUnassign 0xC3A5) s = .next (s.unassigned.raise { page := P_CHN, bit := 5 }) := by
  show Host.Outcome.next (s.sbUnassignCmd 0xC3A5) = _
  unfold State.sbUnassignCmd
  rw [State.sbCast_good (good := 0xC3A5 == 0xC3A5) _ ha rfl]
  rfl

theorem exec_sbUnassign_badKey {key : Nat} (ha : s.sbAlive = true) (hk : key ≠ 0xC3A5) : exec (.sbUnassign key) s = .next (s.sbError false) := by
  show Host.Outcome.next (s.sbUnassignCmd key) = _
  unfold State.sbUnassignCmd
  rw [State.sbCast_bad _ ha (beq_false_of_ne hk)]

variable (s)

theorem State.assigned_power (new : Nat) : (s.assigned new).aux.power = s.aux.power := by
  simp only [State.assigned, State.sbReply, State.setPad_power, State.put_aux, State.satAdd_aux, State.emit_aux]

theorem State.assigned_dram (new : Nat) : (s.assigned new).dram = s.dram := by
  simp [State.assigned, State.sbReply]

theorem State.unassigned_power : s.unassigned.aux.power = s.aux.power := by
  simp only [State.unassigned, State.setPad_power, State.put_aux, State.satAdd_aux]

theorem State.unassigned_dram : s.unassigned.dram = s.dram := by
  simp [State.unassigned]

theorem State.assigned_reg (new : Nat) {a : Nat} (h : a ∉ [R.SBP_RX_FRAMES, R.SBP_TX_FRAMES, R.CHN_ADDR]) : (s.assigned new).reg a = s.reg a := by
  obtain ⟨hrx, htx, haddr⟩ : a ≠ R.SBP_RX_FRAMES ∧ a ≠ R.SBP_TX_FRAMES ∧ a ≠ R.CHN_ADDR := by simpa using h
  unfold State.assigned
  rw [State.reg_setPad _ _ (by decide), State.reg_put_other _ F.CHN_ADDR _ _ haddr, sbReply_reg _ _ _ _ _ htx]
  exact s.reg_put_other F.SBP_RX_FRAMES _ a hrx

theorem State.assigned_addr {new : Nat} (h : new ≤ 62) : (s.assigned new).get F.CHN_ADDR = new := by
  unfold State.assigned State.get
  rw [State.reg_setPad _ _ (by decide)]
  exact State.get_put_fits _ F.CHN_ADDR _ (by decide) (by show new < 64; omega)

theorem State.assigned_pad (new : Nat) (hp : s.aux.pads.length = 35) : (s.assigned new).pad 33 = .follow s.devtime none := by
  unfold State.assigned
  refine State.pad_setPad_same _ _ ?_ (by decide)
  unfold State.sbReply
  rw [State.setPad_eq_modAux _ _ (by decide)]
  show 33 < (updNth s.aux.pads 32 _).length
  rw [length_updNth, hp]
  decide

theorem State.assigned_out (new : Nat) : (s.assigned new).out = .sbReply (sbFrame 0 0x10 (leBytes 1 0 ++ leBytes 1 new ++ leBytes 8 Config.serial.toNat)) :: s.out := rfl

theorem State.unassigned_reg {a : Nat} (h : a ∉ [R.SBP_RX_FRAMES, R.CHN_ADDR]) : s.unassigned.reg a = s.reg a := by
  obtain ⟨hrx, haddr⟩ : a ≠ R.SBP_RX_FRAMES ∧ a ≠ R.CHN_ADDR := by simpa using h
  unfold State.unassigned
  rw [State.reg_setPad _ _ (by decide), State.reg_put_other _ F.CHN_ADDR _ _ haddr]
  exact s.reg_put_other F.SBP_RX_FRAMES _ a hrx

theorem State.unassigned_addr : s.unassigned.get F.CHN_ADDR = 0 := by
  unfold State.unassigned State.get
  rw [State.reg_setPad _ _ (by decide)]
  exact State.get_put_fits _ F.CHN_ADDR 0 (by decide) (by decide)

theorem State.unassigned_pad (hp : s.aux.pads.length = 35) : s.unassigned.pad 33 = .rest :=
  State.pad_setPad_same _ _ (by show 33 < s.aux.pads.length; omega) (by decide)

end

/-! ### SET_RATE (R399, R409) -/

section
variable {s : State} {t0 rate : Nat}

theorem exec_sbSetRate (ha : s.sbAlive = true) (hr : rate < 4) : exec (.sbSetRate t0 0xC3A5 rate) s
    = .next (((s.atTime t0).satAdd F.SBP_RX_FRAMES 1).modAux fun a => { a with rateNext := some (rate, max s.devtime t0 + 800000) }) := by
  show Host.Outcome.next (if s.sbAlive then (s.atTime t0).sbSetRateCmd 0xC3A5 rate else s) = _
  unfold State.sbSetRateCmd
  rw [if_pos ha, State.sbCast_good (s := s.atTime t0) _ ha (by rw [decide_eq_true hr]; rfl)]
  rfl

theorem exec_sbRateSwitch {x : Nat} (ha : s.sbAlive = true) (hn : s.aux.rateNext = some (rate, x)) (hx : x ≤ max s.devtime t0) :
    exec (.sbRateSwitch t0) s = .next (((s.atTime t0).put F.SBP_RATE_CUR rate).modAux fun a => { a with rateNext := none }) := by
  have hn' : (s.atTime t0).aux.rateNext = some (rate, x) := hn
  show Host.Outcome.next (if s.sbAlive then (s.atTime t0).sbRateSwitch else s) = _
  unfold State.sbRateSwitch
  rw [if_pos ha, hn']
  exact congrArg _ (if_neg (Nat.not_lt.mpr hx))

end

/-! ### Arming and disarming (R412, R413) -/

/-- The arm is replaced, and SYNC_STAT.ARMED shows whether one is pending. -/
def State.setArm (s : State) (arm : Option (Nat × Option Nat)) : State := (s.put F.CHN_SYNC_STAT_ARMED (b2n arm.isSome)).modAux fun a => { a with arm := arm }

/-- An EPOCH_ARM is counted, and its EPOCH is kept. -/
def State.epochLatched (s : State) (t0 e : Nat) : State := ((s.atTime t0).satAdd F.SBP_RX_FRAMES 1).put64 R.CHN_EPOCH_LO e

section
variable (s : State) (arm : Option (Nat × Option Nat))

@[simp] theorem State.setArm_power : (s.setArm arm).aux.power = s.aux.power := rfl

@[simp] theorem State.setArm_dram : (s.setArm arm).dram = s.dram := rfl

theorem State.setArm_armed : (s.setArm arm).on F.CHN_SYNC_STAT_ARMED = arm.isSome :=
  State.on_of_get (s.get_put_fits F.CHN_SYNC_STAT_ARMED _ (by decide) (by cases arm with | none => decide | some x => exact (by decide : 1 < 2)))

theorem State.setArm_reg {a : Nat} (h : a ≠ R.CHN_SYNC_STAT) : (s.setArm arm).reg a = s.reg a := s.reg_put_other F.CHN_SYNC_STAT_ARMED _ a h

theorem State.setArm_valid : (s.setArm arm).on F.CHN_SYNC_STAT_VALID = s.on F.CHN_SYNC_STAT_VALID :=
  State.on_congr (s.get_put_other F.CHN_SYNC_STAT_ARMED F.CHN_SYNC_STAT_VALID _ (by decide) (.inr (.inl (by decide))))

/-- Counting the frame leaves SYNC_CFG as it is. -/
theorem State.counted_en (t0 : Nat) : ((s.atTime t0).satAdd F.SBP_RX_FRAMES 1).on F.CHN_SYNC_CFG_EN = s.on F.CHN_SYNC_CFG_EN :=
  State.on_congr ((s.atTime t0).get_put_other F.SBP_RX_FRAMES F.CHN_SYNC_CFG_EN _ (by decide) (.inl (by decide)))

theorem State.counted_vin (t0 : Nat) : ((s.atTime t0).satAdd F.SBP_RX_FRAMES 1).aux.vin = s.aux.vin := rfl

@[simp] theorem State.epochLatched_power (t0 e : Nat) : (s.epochLatched t0 e).aux.power = s.aux.power := by simp [State.epochLatched]

@[simp] theorem State.epochLatched_dram (t0 e : Nat) : (s.epochLatched t0 e).dram = s.dram := by simp [State.epochLatched]

theorem State.epochLatched_reg (t0 e : Nat) {a : Nat} (h : a ∉ [R.SBP_RX_FRAMES, R.CHN_EPOCH_LO, R.CHN_EPOCH_HI]) : (s.epochLatched t0 e).reg a = s.reg a := by
  obtain ⟨hrx, hlo, hhi⟩ : a ≠ R.SBP_RX_FRAMES ∧ a ≠ R.CHN_EPOCH_LO ∧ a ≠ R.CHN_EPOCH_HI := by simpa using h
  unfold State.epochLatched
  rw [State.reg_put64_other _ _ _ hlo hhi]
  exact (s.atTime t0).reg_put_other F.SBP_RX_FRAMES _ a hrx

theorem State.epochLatched_on (t0 e : Nat) {f : Fld} (h : f.addr ∉ [R.SBP_RX_FRAMES, R.CHN_EPOCH_LO, R.CHN_EPOCH_HI]) : (s.epochLatched t0 e).on f = s.on f := by
  unfold State.on State.get
  rw [s.epochLatched_reg t0 e h]

end

/-- What every accepted EPOCH_ARM leaves, whichever arm it puts in place. -/
structure ArmedAs (s t : State) (e : Nat) (x : Option (Nat × Option Nat)) : Prop where
  arm : t.aux.arm = x
  armed : t.on F.CHN_SYNC_STAT_ARMED = x.isSome
  dram : t.dram = s.dram
  epoch : t.get64 R.CHN_EPOCH_LO = e % 2 ^ 64
  regs : OnlyRegs s t [R.SBP_RX_FRAMES, R.CHN_EPOCH_LO, R.CHN_EPOCH_HI, R.CHN_SYNC_STAT]

section
variable {s t : State} {t0 e : Nat} {arm : Option (Nat × Option Nat)}

theorem armedAs_of_tells (h : Tells ((s.epochLatched t0 e).setArm arm) t) : ArmedAs s t e arm where
  arm := h.arm
  armed := (h.on _ (by decide)).trans (State.setArm_armed _ _)
  dram := h.dram.trans (by simp)
  epoch := by
    rw [h.get64 _ (by decide) (by decide)]
    unfold State.setArm State.epochLatched
    rw [State.modAux_get64, State.get64_put_other _ _ _ F.CHN_SYNC_STAT_ARMED (by decide) (by decide), State.get64_put64]
  regs := h.onlyRegs fun a ha => by
    obtain ⟨hrx, hlo, hhi, hstat⟩ : a ≠ R.SBP_RX_FRAMES ∧ a ≠ R.CHN_EPOCH_LO ∧ a ≠ R.CHN_EPOCH_HI ∧ a ≠ R.CHN_SYNC_STAT := by simpa using ha
    rw [State.setArm_reg _ _ hstat, s.epochLatched_reg t0 e (by simp [hrx, hlo, hhi])]

/-- EPOCH_ARM on an enabled unit with VIN: the source arms for EPOCH or is too late for it, another unit waits 1 s for an edge. -/
theorem exec_sbEpochArm (ha : s.sbAlive = true) (hv : s.aux.vin = true) (hen : s.on F.CHN_SYNC_CFG_EN = true) :
    exec (.sbEpochArm t0 e) s = .next (if s.on F.CHN_SYNC_CFG_SOURCE = true then
        if max s.devtime t0 + 8000 ≤ e then (s.epochLatched t0 e).setArm (some (e, none))
        else ((s.epochLatched t0 e).setArm none).raise { page := P_CHN, bit := 7 }
      else (s.epochLatched t0 e).setArm (some (e, some (max s.devtime t0 + 400000000)))) := by
  show Host.Outcome.next (if s.sbAlive then (s.atTime t0).sbEpochCmd e else s) = _
  unfold State.sbEpochCmd
  rw [if_pos ha, State.sbCast_good (s := s.atTime t0) _ ha rfl, s.counted_en t0, hen, s.counted_vin t0, hv, ← s.epochLatched_on t0 e (f := F.CHN_SYNC_CFG_SOURCE) (by decide)]
  rfl

/-- EPOCH_ARM without VIN or on a unit that is not enabled is only counted. -/
theorem exec_sbEpochArm_ignored (ha : s.sbAlive = true) (hoff : s.aux.vin = false ∨ s.on F.CHN_SYNC_CFG_EN = false) :
    exec (.sbEpochArm t0 e) s = .next ((s.atTime t0).satAdd F.SBP_RX_FRAMES 1) := by
  have hskip : (!s.aux.vin || !s.on F.CHN_SYNC_CFG_EN) = true := by rcases hoff with h | h <;> simp [h]
  show Host.Outcome.next (if s.sbAlive then (s.atTime t0).sbEpochCmd e else s) = _
  unfold State.sbEpochCmd
  rw [if_pos ha, State.sbCast_good (s := s.atTime t0) _ ha rfl, s.counted_en t0, s.counted_vin t0, if_pos hskip]

theorem exec_syncArmExpiry {due : Nat} (ha : s.sbAlive = true) (harm : s.aux.arm = some (e, some due)) (hdue : due ≤ max s.devtime t0) :
    exec (.syncArmExpiry t0) s = .next (((s.atTime t0).setArm none).raise { page := P_CHN, bit := 8 }) := by
  have harm' : (s.atTime t0).aux.arm = some (e, some due) := harm
  show Host.Outcome.next (if s.sbAlive then (s.atTime t0).armExpiry else s) = _
  unfold State.armExpiry
  rw [if_pos ha, harm']
  exact congrArg _ (if_neg (Nat.not_lt.mpr hdue))

end

/-! ### Taking the epoch (R412, R413) -/

/-- The epoch is taken, before it is reported: the offset, the edge time and SYNC_STAT are set, and no arm is pending. -/
def State.epochStored (s : State) (time : Nat) (ofs : Int) : State :=
  (((((s.putInt64 R.CHN_CHAIN_OFS_LO ofs).put64 R.CHN_SYNC_EDGE_LO time).put F.CHN_SYNC_STAT_ARMED 0).put F.CHN_SYNC_STAT_VALID 1).satAdd F.CHN_SYNC_STAT_COUNT 1).modAux
    fun a => { a with arm := none }

section
variable (s : State) (time : Nat) (ofs : Int)

@[simp] theorem State.epochStored_power : (s.epochStored time ofs).aux.power = s.aux.power := by
  simp only [State.epochStored, State.putInt64, State.modAux_aux, State.satAdd_aux, State.put_aux, State.put64_aux]
  rfl

@[simp] theorem State.epochStored_dram : (s.epochStored time ofs).dram = s.dram := by simp [State.epochStored, State.putInt64]

@[simp] theorem State.epochStored_devtime : (s.epochStored time ofs).devtime = s.devtime := by simp [State.epochStored, State.putInt64]

@[simp] theorem State.epochStored_out : (s.epochStored time ofs).out = s.out := by simp [State.epochStored, State.putInt64]

/-- SYNC_STAT is a register of its own beside the edge time. -/
theorem State.get64_epochStored {a : Nat} (h : a + 4 < R.CHN_SYNC_STAT) :
    (s.epochStored time ofs).get64 a = ((s.putInt64 R.CHN_CHAIN_OFS_LO ofs).put64 R.CHN_SYNC_EDGE_LO time).get64 a := by
  have hlo : a ≠ R.CHN_SYNC_STAT := by omega
  have hhi : a + 4 ≠ R.CHN_SYNC_STAT := by omega
  unfold State.epochStored State.satAdd
  rw [State.modAux_get64, State.get64_put_other _ _ _ F.CHN_SYNC_STAT_COUNT hlo hhi, State.get64_put_other _ _ _ F.CHN_SYNC_STAT_VALID hlo hhi,
    State.get64_put_other _ _ _ F.CHN_SYNC_STAT_ARMED hlo hhi]

theorem State.epochStored_ofs : (s.epochStored time ofs).get64 R.CHN_CHAIN_OFS_LO = unsignedOf 64 ofs := by
  rw [s.get64_epochStored time ofs (by decide), State.get64_put64_other _ _ _ (by decide), State.get64_putInt64]

theorem State.epochStored_edge : (s.epochStored time ofs).get64 R.CHN_SYNC_EDGE_LO = time % 2 ^ 64 := by
  rw [s.get64_epochStored time ofs (by decide), State.get64_put64]

theorem State.epochStored_armed : (s.epochStored time ofs).on F.CHN_SYNC_STAT_ARMED = false := by
  refine State.on_of_get (v := false) ?_
  unfold State.epochStored State.satAdd
  rw [State.modAux_get, State.get_put_other _ F.CHN_SYNC_STAT_COUNT _ _ (by decide) (.inr (.inl (by decide))),
    State.get_put_other _ F.CHN_SYNC_STAT_VALID _ _ (by decide) (.inr (.inr (by decide))), State.get_put_same _ _ _ (by decide)]
  rfl

theorem State.epochStored_valid : (s.epochStored time ofs).on F.CHN_SYNC_STAT_VALID = true := by
  refine State.on_of_get (v := true) ?_
  unfold State.epochStored State.satAdd
  rw [State.modAux_get, State.get_put_other _ F.CHN_SYNC_STAT_COUNT _ _ (by decide) (.inr (.inl (by decide))), State.get_put_same _ _ _ (by decide)]
  rfl

theorem State.epochStored_count : (s.epochStored time ofs).get F.CHN_SYNC_STAT_COUNT = min (fldMax F.CHN_SYNC_STAT_COUNT) (s.get F.CHN_SYNC_STAT_COUNT + 1) := by
  have hkept : ((((s.putInt64 R.CHN_CHAIN_OFS_LO ofs).put64 R.CHN_SYNC_EDGE_LO time).put F.CHN_SYNC_STAT_ARMED 0).put F.CHN_SYNC_STAT_VALID 1).get F.CHN_SYNC_STAT_COUNT
      = s.get F.CHN_SYNC_STAT_COUNT := by
    unfold State.putInt64
    rw [State.get_put_other _ F.CHN_SYNC_STAT_VALID _ _ (by decide) (.inr (.inr (by decide))),
      State.get_put_other _ F.CHN_SYNC_STAT_ARMED _ _ (by decide) (.inr (.inr (by decide))),
      State.get_put64_other _ _ _ _ (by decide) (by decide), State.get_put64_other _ _ _ _ (by decide) (by decide)]
  unfold State.epochStored
  rw [State.modAux_get, State.get_satAdd_same _ _ _ (by decide), hkept]

end

/-- What taking an epoch at `time` with the offset `ofs` leaves of a state `s`. -/
structure EpochTaken (s t : State) (time : Nat) (ofs : Int) : Prop where
  tells : Tells (s.epochStored time ofs) t
  arm : t.aux.arm = none
  ofs : t.get64 R.CHN_CHAIN_OFS_LO = unsignedOf 64 ofs
  edge : t.get64 R.CHN_SYNC_EDGE_LO = time % 2 ^ 64
  armed : t.on F.CHN_SYNC_STAT_ARMED = false
  valid : t.on F.CHN_SYNC_STAT_VALID = true
  count : t.get F.CHN_SYNC_STAT_COUNT = min (fldMax F.CHN_SYNC_STAT_COUNT) (s.get F.CHN_SYNC_STAT_COUNT + 1)
  shows : t.shows P_CHN 6 = true

theorem epochTaken_of_sbAlive {s : State} (ha : s.sbAlive = true) (time : Nat) (ofs : Int) : EpochTaken s (s.epochTaken time ofs) time ofs := by
  have htells : Tells (s.epochStored time ofs) (s.epochTaken time ofs) := tell_raise (Tells.refl _) _
  exact {
    tells := htells
    arm := htells.arm
    ofs := (htells.get64 _ (by decide) (by decide)).trans (s.epochStored_ofs time ofs)
    edge := (htells.get64 _ (by decide) (by decide)).trans (s.epochStored_edge time ofs)
    armed := (htells.on _ (by decide)).trans (s.epochStored_armed time ofs)
    valid := (htells.on _ (by decide)).trans (s.epochStored_valid time ofs)
    count := (htells.get _ (by decide)).trans (s.epochStored_count time ofs)
    shows := shows_raise_of_sbAlive _ ha (s.epochStored_power time ofs) rfl (by decide : 6 < 32) }

/-- SYNC_OUT carries the pulse that starts at `time`, if the unit drives it. -/
def State.pulseIf (s : State) (drives : Bool) (time : Nat) : State := if drives then s.emit (.syncPulse time) else s

section
variable (s : State) (drives : Bool) (time : Nat)

@[simp] theorem State.pulseIf_get (f : Fld) : (s.pulseIf drives time).get f = s.get f := by cases drives <;> rfl
@[simp] theorem State.pulseIf_aux : (s.pulseIf drives time).aux = s.aux := by cases drives <;> rfl
@[simp] theorem State.pulseIf_devtime : (s.pulseIf drives time).devtime = s.devtime := by cases drives <;> rfl
@[simp] theorem State.pulseIf_dram : (s.pulseIf drives time).dram = s.dram := by cases drives <;> rfl
@[simp] theorem State.pulseIf_sbAlive : (s.pulseIf drives time).sbAlive = s.sbAlive := by cases drives <;> rfl

theorem State.mem_pulseIf_out (h : drives = true) : .syncPulse time ∈ (s.pulseIf drives time).out := by
  subst h
  exact List.mem_cons_self

end

section
variable {s : State} {e : Nat}

theorem exec_epochPulse (ha : s.sbAlive = true) (harm : s.aux.arm = some (e, none)) :
    exec .epochPulse s = .next (((s.atTime e).pulseIf s.syncDrives e).epochTaken e 0) := by
  show Host.Outcome.next (if s.sbAlive then s.epochPulse else s) = _
  unfold State.epochPulse
  rw [if_pos ha, harm]
  rfl

theorem exec_syncInEdge {t0 due : Nat} (ha : s.sbAlive = true) (harm : s.aux.arm = some (e, some due)) (hdue : t0 ≤ due) :
    exec (.syncInEdge t0) s = .next (((s.atTime t0).pulseIf (s.syncDrives && s.on F.CHN_SYNC_CFG_FWD && !s.on F.CHN_SYNC_CFG_SOURCE) t0).epochTaken t0
      ((e : Int) + (s.get F.CHN_SYNC_DELAY : Int) - (t0 : Int))) := by
  show Host.Outcome.next (if s.sbAlive then s.syncEdge t0 else s) = _
  unfold State.syncEdge
  extract_lets s1 s2
  have hpulse : s2 = s1.pulseIf (s1.syncDrives && s1.on F.CHN_SYNC_CFG_FWD && !s1.on F.CHN_SYNC_CFG_SOURCE) t0 := rfl
  have haux : s2.aux = s.aux := s1.pulseIf_aux _ t0
  have hdelay : s2.get F.CHN_SYNC_DELAY = s.get F.CHN_SYNC_DELAY := s1.pulseIf_get _ t0 _
  clear_value s2
  rw [if_pos ha, haux, harm, hdelay, hpulse]
  exact congrArg _ (if_pos hdue)

end

/-! ### CHAIN_IN (R407) -/

theorem exec_chainInChange {s : State} (high : Bool) (ha : s.sbAlive = true) : exec (.chainInChange high) s = .next (s.put F.CHN_STAT_CHAIN_IN (b2n high)) := by
  show Host.Outcome.next (s.chainIn high) = _
  unfold State.chainIn
  rw [if_pos ha]

/-- Settles O51: each command stores its state and reports on it, by the equations above; the pulse and the edge take the epoch in the same way. -/
theorem chainAndEpoch : Obligations.ChainAndEpoch := by
  unfold Obligations.ChainAndEpoch
  refine ⟨?assign, ?unassign, ?badKey, ?setRate, ?rateSwitch, ?arm, ?ignored, ?pulse, ?edge, ?expiry, ?chainIn⟩
  case assign =>
    intro new s ha hf h1 h62 hp
    have htells : Tells (s.assigned new) ((s.assigned new).raise { page := P_CHN, bit := 4, detail := leBytes 1 new }) := tell_raise (Tells.refl _) _
    refine ⟨_, exec_sbAssign ha hf h1 h62, (htells.get _ (by decide)).trans (s.assigned_addr h62), (htells.pad 33).trans (s.assigned_pad new hp),
      shows_raise_of_sbAlive _ ha (s.assigned_power new) rfl (by decide : 4 < 32), htells.out.subset ?_,
      htells.dram.trans (s.assigned_dram new), htells.onlyRegs fun a => s.assigned_reg new⟩
    rw [State.assigned_out]
    exact List.mem_cons_self
  case unassign =>
    intro s ha hp
    have htells : Tells s.unassigned (s.unassigned.raise { page := P_CHN, bit := 5 }) := tell_raise (Tells.refl _) _
    exact ⟨_, exec_sbUnassign ha, (htells.get _ (by decide)).trans s.unassigned_addr, (htells.pad 33).trans (s.unassigned_pad hp),
      shows_raise_of_sbAlive _ ha s.unassigned_power rfl (by decide : 5 < 32), htells.dram.trans s.unassigned_dram, htells.onlyRegs fun a => s.unassigned_reg⟩
  case badKey =>
    intro key s ha hk
    have htells := s.sbError_tells
    have hreg : ∀ a, a ∉ [R.SBP_RX_ERR] → ((s.satAdd F.SBP_RX_ERR_OTHER 1).freshBytes 1).2.reg a = s.reg a :=
      fun a h => s.reg_put_other F.SBP_RX_ERR_OTHER _ a (List.ne_of_not_mem_cons h)
    have honly : OnlyRegs s (s.sbError false) [R.SBP_RX_ERR] := htells.onlyRegs hreg
    exact ⟨_, exec_sbUnassign_badKey ha hk, congrArg (getBits 5 0) (honly R.CHN_ADDR (by decide) (by decide)),
      shows_raise_of_sbAlive _ ha (u := ((s.satAdd F.SBP_RX_ERR_OTHER 1).freshBytes 1).2) rfl rfl (by decide : 4 < 32),
      (htells.get _ (by decide)).trans (s.get_satAdd_same F.SBP_RX_ERR_OTHER 1 (by decide)), honly, htells.dram⟩
  case setRate =>
    intro t0 rate s ha hr
    exact ⟨_, exec_sbSetRate ha hr, rfl, fun a h => (s.atTime t0).reg_put_other F.SBP_RX_FRAMES _ a h, rfl, rfl⟩
  case rateSwitch =>
    intro t0 rate x s ha hn hx
    exact ⟨_, exec_sbRateSwitch ha hn hx, (s.atTime t0).get_put_same F.SBP_RATE_CUR rate (by decide), rfl, fun a h => (s.atTime t0).reg_put_other F.SBP_RATE_CUR _ a h, rfl, rfl⟩
  case arm =>
    intro t0 e s ha hv hen
    have hexec := exec_sbEpochArm (t0 := t0) (e := e) ha hv hen
    by_cases hsrc : s.on F.CHN_SYNC_CFG_SOURCE = true
    · rw [if_pos hsrc] at hexec
      by_cases htime : max s.devtime t0 + 8000 ≤ e
      · rw [if_pos htime] at hexec
        obtain ⟨harm, harmed, hdram, hepoch, hregs⟩ := armedAs_of_tells (Tells.refl ((s.epochLatched t0 e).setArm (some (e, none))))
        exact ⟨_, hexec, hdram, hepoch, hregs, fun h => absurd hsrc (by simp [h]), fun _ _ => ⟨harm, harmed⟩, fun _ h => absurd htime (by omega)⟩
      · rw [if_neg htime] at hexec
        obtain ⟨harm, harmed, hdram, hepoch, hregs⟩ := armedAs_of_tells (tell_raise (Tells.refl ((s.epochLatched t0 e).setArm none)) { page := P_CHN, bit := 7 })
        have hshows := shows_raise_of_sbAlive (u := (s.epochLatched t0 e).setArm none) { page := P_CHN, bit := 7 } ha (by simp) rfl (by decide : 7 < 32)
        exact ⟨_, hexec, hdram, hepoch, hregs, fun h => absurd hsrc (by simp [h]), fun _ h => absurd h htime, fun _ _ => ⟨harm, harmed, hshows⟩⟩
    · rw [if_neg hsrc] at hexec
      obtain ⟨harm, harmed, hdram, hepoch, hregs⟩ := armedAs_of_tells (Tells.refl ((s.epochLatched t0 e).setArm (some (e, some (max s.devtime t0 + 400000000)))))
      exact ⟨_, hexec, hdram, hepoch, hregs, fun _ => ⟨harm, harmed⟩, fun h => absurd h hsrc, fun h => absurd h hsrc⟩
  case ignored =>
    intro t0 e s ha hoff
    exact ⟨_, exec_sbEpochArm_ignored ha hoff, rfl, fun a h => (s.atTime t0).reg_put_other F.SBP_RX_FRAMES _ a h, rfl, rfl⟩
  case pulse =>
    intro e s ha harm
    obtain ⟨htells, hnone, hofs, hedge, harmed, hvalid, hcount, hshows⟩ :=
      epochTaken_of_sbAlive (s := (s.atTime e).pulseIf s.syncDrives e) (by rw [State.pulseIf_sbAlive]; exact ha) e 0
    refine ⟨_, exec_epochPulse ha harm, htells.devtime.trans (by simp), hnone, fun hd => htells.out.subset ?_, hofs, hedge, harmed, hvalid,
      hcount.trans (by rw [State.pulseIf_get]; rfl), hshows, htells.dram.trans (by simp)⟩
    rw [State.epochStored_out]
    exact (s.atTime e).mem_pulseIf_out _ e hd
  case edge =>
    intro t0 e due s ha harm hdue
    obtain ⟨htells, hnone, hofs, hedge, harmed, hvalid, _, hshows⟩ :=
      epochTaken_of_sbAlive (s := (s.atTime t0).pulseIf (s.syncDrives && s.on F.CHN_SYNC_CFG_FWD && !s.on F.CHN_SYNC_CFG_SOURCE) t0) (by rw [State.pulseIf_sbAlive]; exact ha) t0
        ((e : Int) + (s.get F.CHN_SYNC_DELAY : Int) - (t0 : Int))
    refine ⟨_, exec_syncInEdge ha harm hdue, hnone, fun hd hfwd hsrc => htells.out.subset ?_, hofs, hedge, harmed, hvalid, hshows, htells.dram.trans (by simp)⟩
    rw [State.epochStored_out]
    exact (s.atTime t0).mem_pulseIf_out _ t0 (by rw [hd, hfwd, hsrc]; rfl)
  case expiry =>
    intro t0 e due s ha harm hdue
    have htells : Tells ((s.atTime t0).setArm none) (((s.atTime t0).setArm none).raise { page := P_CHN, bit := 8 }) := tell_raise (Tells.refl _) _
    exact ⟨_, exec_syncArmExpiry ha harm hdue, htells.arm, (htells.on _ (by decide)).trans (State.setArm_armed _ _), (htells.on _ (by decide)).trans (State.setArm_valid _ _),
      shows_raise_of_sbAlive _ ha (State.setArm_power (s.atTime t0) none) rfl (by decide : 8 < 32),
      htells.onlyRegs fun a h => State.setArm_reg _ _ (by simpa using h), htells.dram⟩
  case chainIn =>
    intro high s ha
    exact ⟨_, exec_chainInChange high ha, State.on_of_get (s.get_put_fits F.CHN_STAT_CHAIN_IN _ (by decide) (by cases high <;> decide)),
      fun a h => s.reg_put_other F.CHN_STAT_CHAIN_IN _ a h, rfl, rfl⟩

end Sys2Proof.Machine
